-- ==== Sys2Proof/Word.lean ====
section
/-! DEFINITION. The byte and the byte string. Registers and addresses are natural numbers below their stated width; strings of
bytes are little-endian (chapter 0). -/

namespace Sys2Proof

/-- One byte. -/
abbrev Byte := BitVec 8

/-- A string of bytes, the lowest address first. -/
abbrev Bytes := List Byte

end Sys2Proof
end

