-- ==== Sys2Proof/Machine/TypesCore.lean ====
section
/-! DEFINITION. Plain-data types of the state that no single chapter's engine owns: register keys, telemetry (chapter
17), fault records, the course halves and their arbiters, HBM stacks, the measured surroundings, start-up (chapter 18). -/

namespace Sys2Proof.Machine

/-- Which copy of which register field: block type, page (0 package, i + 1 unit instance i), partition (255 for none, 64
for the device), value of the select register (or the accessing agent, for a select register), offset, low bit. -/
structure RegKey where
  blk : Nat
  page : Nat
  part : Nat
  sel : Nat
  off : Nat
  lo : Nat
  deriving DecidableEq, Repr

/-- The state of a deficit round robin (R352, R453): deficits by member, named by its path from the root, and the member last served
at each level, by the path of the level. -/
structure Drr where
  deficits : List (List Nat × Nat) := []
  cursor : List (List Nat × Nat) := []
  deriving DecidableEq, Repr

/-- A telemetry record: the header fields of R687 and the extension bytes. -/
structure TRec where
  code : Nat
  cls : Nat
  coalesced : Bool := false
  merged : Bool := false
  dropsBefore : Bool := false
  source : Nat
  count : Nat
  part : Nat
  first : Nat
  last : Nat
  ext : Bytes := []
  deriving DecidableEq, Repr

/-- An entry of a path's alarm table, or a merged entry of it (R690). -/
structure AlarmEnt where
  code : Nat
  source : Nat
  part : Nat
  count : Nat
  first : Nat
  last : Nat
  merged : Bool
  deriving DecidableEq, Repr

/-- A telemetry path (R689): 0–63 the partitions' log rings, 64 the device log ring, 65 the Quinbel stream, 66 the I3C
sideband. HEAD, TAIL, ENABLE and the drop counter of a ring are registers of the FLT block. -/
structure TPath where
  id : Nat
  /-- PHASE of the ring's present pass. -/
  phase : Bool := true
  /-- One entry for each occupied ring slot, oldest first: true where a log or trace record occupies it (R690). -/
  slots : List Bool := []
  /-- The alarm table, oldest entry first. -/
  alarms : List AlarmEnt := []
  /-- Held fault and lost-handle records, in order (R690, R691). -/
  held : List TRec := []
  /-- Log and trace records that arrived and are not yet posted. -/
  logq : List TRec := []
  /-- Log records dropped since the last log record posted (R692). -/
  drops : Nat := 0
  /-- Streams: start of the 1 ms window, bytes of it taken by log and trace records, bytes taken by any (R690). -/
  winStart : Nat := 0
  winLog : Nat := 0
  winAll : Nat := 0
  /-- Trace sampling exponent k and the events seen since the last sample (R693). -/
  traceK : Nat := 0
  traceSeen : Nat := 0
  /-- DEV_TIME since which log and trace records have filled less than 40 % of their share (R693). -/
  lowSince : Nat := 0
  deriving DecidableEq, Repr

/-- A fault record (R659). -/
structure FaultRec where
  number : Nat
  kind : Nat
  action : Nat
  part : Nat
  unit : Nat
  commands : Nat
  time : Nat
  leavesLost : Nat
  interruptNs : Nat
  deriving DecidableEq, Repr

/-- A firmware image in a slot (R628–R631, R700). `valid` says that its header, key hash, signature and digest verify. -/
structure Image where
  valid : Bool
  svn : Nat
  version : Nat
  keySlot : Nat
  digest : Bytes := []
  deriving DecidableEq, Repr

/-- The states of a course half (R664), coded as HALF_STATE reports them. -/
inductive HalfSt where
  | down | resync | standby | claiming | lead | fenced
  deriving DecidableEq, Repr

/-- A record of the control journal (R669): its number, and the supervisor command it begins
or commits (0 none). -/
structure JRec where
  num : Nat
  cmd : Nat
  begun : Bool
  committed : Bool
  deriving DecidableEq, Repr

/-- A decision of repair that waits for a lead (R673). -/
inductive Repair where
  | row (stack bank row addr : Nat)
  | pseudoChannel (stack pc : Nat)
  | stack (n reason : Nat) (die : Bool)
  | bridgeRestart (b : Nat)
  deriving DecidableEq, Repr

/-- A course half (R664, R666, R669). -/
structure Half where
  st : HalfSt := .down
  /-- Epoch the half last held or saw (HALF_EPOCH). -/
  epoch : Nat := 0
  /-- Claim round in progress: epoch claimed, time the claims were sent. -/
  claimE : Nat := 0
  claimT : Nat := 0
  /-- Earliest start of the next round (back-off of R666). -/
  backoffEnd : Nat := 0
  /-- Last successful renewal of a majority. -/
  lastRenew : Nat := 0
  /-- Its journal has caught up since it last started (RESYNC, R664). -/
  synced : Bool := false
  /-- A write of it as lead was refused for a stale epoch (R664). -/
  stale : Bool := false
  /-- Images it runs: BL1 and Shuarn, with the slots they came from (R700); both kept across a warm reset. -/
  bl1 : Option (Nat × Image) := none
  shuarn : Option (Nat × Image) := none
  /-- Its boot ROM has verified BL1 and Shuarn (R700). -/
  loaded : Bool := false
  /-- Time the half reached RESYNC (R701). -/
  resyncT : Nat := 0
  /-- Mirrored records not yet applied, and the last committed record. -/
  lag : Nat := 0
  seq : Nat := 0
  deriving DecidableEq, Repr

/-- A lead-lease arbiter (R665): holder, epoch, expiry. -/
structure Arbiter where
  holder : Option Nat := none
  epoch : Nat := 0
  expiry : Nat := 0
  deriving DecidableEq, Repr

/-- A mirrored control-journal record that the standby has not acknowledged yet (R670). -/
structure MirrorWait where
  num : Nat
  sent : Nat
  deriving DecidableEq, Repr

/-- A row of an HBM stack with counted correctable errors, or spared (R679). -/
structure HbmRow where
  bank : Nat
  row : Nat
  /-- Times of the correctable errors of the last 24 h. -/
  ces : List Nat := []
  spared : Bool := false
  deriving DecidableEq, Repr

/-- States of a stack (STACK_STATE.STATE). -/
inductive StackSt where
  | absent | active | degraded | retired
  deriving DecidableEq, Repr

/-- An HBM stack (R678–R682, R781). -/
structure Stack where
  st : StackSt := .absent
  reason : Nat := 0
  vendor : Nat := 0
  height : Nat := 0
  /-- Working pseudo-channels, bit k for pseudo-channel k. -/
  pcOk : Nat := 0
  capGib : Nat := 0
  /-- Rate in 10^6 bytes/s before the temperature rule of R781. -/
  mbps : Nat := 0
  /-- Spare rows left for each bank that has used one: (bank, left). -/
  spares : List (Nat × Nat) := []
  rows : List HbmRow := []
  /-- Rows awaiting hard repair at the next start-up. -/
  pendingRepair : List (Nat × Nat) := []
  /-- Retired 1 MiB regions. -/
  regions : List Nat := []
  /-- Poisoned 4 KiB granules (R678). -/
  poisoned : List Nat := []
  /-- End of the last patrol (R678). -/
  patrolT : Nat := 0
  deriving DecidableEq, Repr

/-- A bridge die (R683): up, fenced (with the time of the fence), restarting, lost. -/
inductive BridgeSt where
  | up | fenced | restarting | lost
  deriving DecidableEq, Repr

structure Bridge where
  st : BridgeSt := .up
  fencedAt : Nat := 0
  /-- Times of the restarts made within 24 h. -/
  restarts : List Nat := []
  deriving DecidableEq, Repr

/-- A core-rail, supply or bank measurement (R705, R794): last sample and whether it lay outside its range. -/
structure Meas where
  value : Int := 0
  amps : Nat := 0
  out : Bool := false
  /-- Time of the last good PMBus answer. -/
  answered : Nat := 0
  deriving DecidableEq, Repr

/-- A rail's control (R60, R61, R794; rails 10–23 are read only): request in force, its target, its last change, since when
the read-back mismatches or the regulator does not answer. -/
structure Rail where
  mv : Nat := 800
  target : Nat := 800
  lastStep : Nat := 0
  mismatchSince : Option Nat := none
  halted : Bool := false
  /-- The reduction of R797 is in force, with the setpoint to restore. -/
  thermal : Option Nat := none
  /-- The junction has fallen to 93 °C and the setpoint is being restored; time of the last such step. -/
  restoring : Bool := false
  thermT : Nat := 0
  /-- A read-back of the present step is owed (R60). -/
  readPending : Bool := false
  deriving DecidableEq, Repr

/-- A pace sensor (R47, R50): last reading, inclusion, consecutive windows out of and within its bands. -/
structure Sensor where
  reading : Nat := 0
  included : Bool := true
  outRun : Nat := 0
  inRun : Nat := 0
  deriving DecidableEq, Repr

/-- An entry of the domain map (R713). -/
structure MapEnt where
  serial : Nat
  group : Nat
  kind : Nat
  eligible : Bool
  addr : Nat
  deriving DecidableEq, Repr

/-- The domain map in the board configuration area (R713). -/
structure DomainMap where
  domainId : Nat
  mapVer : Nat
  digest : Bytes := []
  entries : List MapEnt
  deriving DecidableEq, Repr

/-- What a HELLO said of its sender (R714). -/
structure HelloRec where
  serial : Nat
  kind : Nat
  epoch : Nat
  eligible : Bool
  leader : Bool
  ringMember : Bool
  leaderSerial : Nat
  ringSeen : Nat
  group : Nat
  failGroup : Nat
  deriving DecidableEq, Repr

/-- Start-up (chapter 18) beside its registers. -/
structure Boot where
  halted : Bool := false
  /-- The boot of the present reset has begun; the reset was cold. -/
  begun : Bool := false
  cold : Bool := true
  /-- Ended steps (R699): a step begins when those before it have ended. -/
  ended : List Nat := []
  /-- DEV_TIME of power-good, moved with DEV_TIME when it is set (R66). -/
  powerGoodT : Int := 0
  /-- Attempts of a unit of a step that failed, units that are through, and steps in which a unit was degraded (R703). -/
  failed : List ((Nat × Nat) × Nat) := []
  settled : List (Nat × Nat) := []
  worse : List Nat := []
  /-- The four slots of each stage, own A, own B, other A, other B, as half 0 counts them: 4 × stage + slot to image. -/
  slots : List (Nat × Image) := []
  /-- DICE outputs of the last power-on (R625). -/
  dice : Bytes := []
  map : Option DomainMap := none
  heard : List HelloRec := []
  backoffEnd : Nat := 0
  gatherEnd : Nat := 0
  lastChange : Nat := 0
  ringGatherEnd : Nat := 0
  joinRetryAt : Nat := 0
  batchEnd : Nat := 0
  batch : List Nat := []
  /-- Leaf records still to republish, as entry keys (R719). -/
  republish : List Nat := []
  lastPublishT : Nat := 0
  shardCkptT : Nat := 0
  /-- Of the last power-off: it passed a power-fail point, and when; counted items existed that no flush covered (R606, R809). -/
  passedPfail : Bool := false
  pfailT : Nat := 0
  counted : Bool := false
  /-- Rows spared since the last start-up, kept in the xSPI repair log (R699). -/
  repairLog : List (Nat × Nat × Nat) := []
  deriving DecidableEq, Repr

/-- Board pins the chapters name (R697, R789–R792, R797, R802). -/
structure Pins where
  pwrgd : Bool := false
  sysRstN : Bool := false
  pfailN : Bool := true
  thermtrip : Bool := false
  flushBusy : Bool := false
  huCharge : Bool := true
  alertN : Bool := true
  vfuseOk : Bool := true
  deriving DecidableEq, Repr

/-- Settings of a delivery queue (R449, R453, R454): queue group, gate class, quantum, overhead. -/
structure DqCfg where
  qg : Nat := 0
  cls : Nat := 0
  quantum : Nat := 16384
  fixed : Nat := 0
  perUnit : Nat := 0
  unitLog2 : Nat := 12
  deriving DecidableEq, Repr

end Sys2Proof.Machine
end

