-- ==== Sys2Proof/Machine/TypesIo.lean ====
section
/-! DEFINITION. Plain-data types of delivery and ports (chapter 11), the coherent link and the pool (12), the domain
network (13), flash media (14), power loss (15), security (16) and policy programs (19). -/

namespace Sys2Proof.Machine

/-- A token bucket: tokens in thousandths of a byte, last refill (R451, R459). -/
structure Bucket where
  tokens : Int
  last : Nat
  deriving DecidableEq, Repr

/-- A committed destination (R437). -/
structure Dest where
  part : Nat
  num : Nat
  port : Nat
  conn : Nat
  base : Nat
  len : Nat
  land : Nat
  landEn : Bool
  /-- 0 not committed, 1 ENABLED, 2 DRAINING, 3 DISABLED. -/
  st : Nat
  reason : Nat := 0
  committed : Bucket
  peak : Bucket
  /-- Shaper in force, CIR, PIR (10^6 bytes/s), CBS, PBS (bytes), and the one committed, which is in force from the next refill (R451). -/
  shp : Nat × Nat × Nat × Nat := (0, 0, 65536, 65536)
  shpNext : Nat × Nat × Nat × Nat := (0, 0, 65536, 65536)
  deriving DecidableEq, Repr

/-- A push (R441): one transfer of a DELIVER or FETCH, or its landing record. -/
structure Push where
  id : Nat
  cmd : Nat
  part : Nat
  dq : Nat
  qg : Nat
  dest : Nat
  port : Nat
  off : Nat
  data : Bytes
  landing : Bool
  fetch : Bool
  readyT : Nat
  /-- 0 queued, 1 sent, 2 acknowledged. -/
  st : Nat := 0
  /-- Length charged under R449; gate class and quantum of its delivery queue (R453, R454, R462). -/
  charge : Nat
  cls : Nat := 0
  quantum : Nat := 16384
  deriving DecidableEq, Repr

/-- A DELIVER or FETCH in progress (R439–R447). -/
structure Deliv where
  cmd : Nat
  part : Nat
  fetch : Bool
  /-- Pages it reads, by partition and serial. -/
  pages : List (Nat × Nat)
  dq : Nat
  dest : Nat
  port : Nat
  decoded : Bool
  written : Nat := 0
  /-- Its records have been cut into pushes; where each record ends. -/
  cut : Bool := false
  ends : List Nat := []
  /-- Status it ends with, once known; time of the last payload push (R445). -/
  status : Option Nat := none
  lastT : Nat := 0
  landSent : Bool := false
  /-- Settings of its delivery queue at its acceptance (R462). -/
  cfg : DqCfg := {}
  deriving DecidableEq, Repr

/-- States of a port (R456). -/
inductive PortSt where
  | up | holding | down
  deriving DecidableEq, Repr

/-- An entry of a gate list: mask and interval (R454). -/
structure GateEnt where
  mask : Nat
  ns : Nat
  deriving DecidableEq, Repr

/-- A port, X0–X7 then E0–E7 (R456, R454, R465–R505). -/
structure Port where
  num : Nat
  st : PortSt := .down
  holdT : Nat := 0
  /-- Operational gate list, its base and cycle; present entry and when it began. -/
  gate : List GateEnt := [⟨0xFF, 1000000⟩]
  gateBase : Nat := 0
  gateCycle : Nat := 1000000
  gateCur : Nat := 0
  gateT : Nat := 0
  pending : Option (List GateEnt) := none
  pendingT : Nat := 0
  /-- Base and cycle of the pending list. -/
  pendBase : Nat := 0
  pendCycle : Nat := 0
  /-- The port's rounds (R453). -/
  drr : Drr := {}
  /-- The link is trained; on an Ethernet port the partner may still be unknown (R505). -/
  trained : Bool := false
  /-- Rate code, log2 width, CXL negotiated, IDE streams up, partner. -/
  rate : Nat := 0
  width : Nat := 0
  cxl : Bool := false
  ideUp : Bool := false
  partner : Option Nat := none
  partnerPort : Nat := 0
  heldPartner : Option Nat := none
  /-- LLDP: partner digest, last frame. -/
  lldp : Option Nat := none
  lldpT : Nat := 0
  /-- Time the functions of the port are ready (R711). -/
  linkT : Nat := 0
  /-- The host's root port has PTM enabled; last dialogue; offset; rate (R75, R76). -/
  ptmEn : Bool := false
  ptmT : Option Nat := none
  ptmOffset : Int := 0
  ptmPpb : Int := 0
  /-- Loss of each lane in 0.1 dB (R706). -/
  loss : List Nat := []
  /-- Announce state (R70): last announce, its grandmaster, priority vector, interval. -/
  annT : Option Nat := none
  annGm : Nat := 0
  annPrio : List Nat := []
  annInt : Nat := 0
  /-- Its PTP domain and its transport, as PTP_CTRL.TRANSPORT numbers them (R70). -/
  annDomain : Nat := 0
  annTransport : Nat := 0
  deriving DecidableEq, Repr

/-- A policer of a queue group (R458–R460). -/
structure Policer where
  part : Nat
  qg : Nat
  committed : Bucket
  peak : Bucket
  deriving DecidableEq, Repr

/-- States of a pool extent: held, releasing, revoking. -/
inductive ExtSt where
  | held | releasing | revoking
  deriving DecidableEq, Repr

/-- A pool extent (R472–R474, R482): tier (1) or NM (2). -/
structure Extent where
  idx : Nat
  kind : Nat
  part : Nat
  fmId : Nat
  tray : Nat
  ports : Nat
  hdmDb : Bool
  dpa : Nat
  len : Nat
  epoch : Nat
  st : ExtSt := .held
  evacUntil : Nat := 0
  /-- First acceptance number after the release request (R482). -/
  relUid : Nat := 0
  deriving DecidableEq, Repr

/-- States of a host lease, coded as WIN_STATE: 1 ACTIVE, 2 RELEASING, 3 ENDING, 4 REVOKING. -/
inductive LeaseSt where
  | active | releasing | ending | revoking
  deriving DecidableEq, Repr

/-- A window slot: slot number, page serial and generation, source partition (R477). -/
structure WinSlot where
  slot : Nat
  handle : Nat
  deriving DecidableEq, Repr

/-- A window extent with its host lease (R475–R480). -/
structure Lease where
  num : Nat
  part : Nat
  port : Nat
  pbr : Nat
  base : Nat
  len : Nat
  fmId : Nat
  epoch : Nat
  st : LeaseSt := .active
  slots : List WinSlot := []
  pending : Option (List WinSlot) := none
  pendingT : Nat := 0
  reason : Nat := 0
  /-- Vacated slots whose back-invalidation is outstanding. -/
  binv : List WinSlot := []
  deriving DecidableEq, Repr

/-- A line of the snoop filter of a bridge die (R481): lease, line, holder. -/
structure SfLine where
  bridge : Nat
  lease : Nat
  slot : Nat
  line : Nat
  /-- A BISnp is outstanding. -/
  snooped : Bool := false
  deriving DecidableEq, Repr

/-- A window read that waits (R481, R486): its host, lease, line of the extent, tag. -/
structure WinRead where
  port : Nat
  pbr : Nat
  lease : Nat
  line : Nat
  tag : Nat
  since : Nat
  deriving DecidableEq, Repr

/-- A tray's request limit (R488). -/
structure Tray where
  id : Nat
  limit : Nat := 256
  lastHalve : Nat := 0
  outstanding : Nat := 0
  deriving DecidableEq, Repr

/-- An NM command in progress (R489–R494): the bridge die and whether an NM unit holds it; lines of DST done (for NM_COMPARE,
lines compared); the next line to read of each operand, reads outstanding and bytes read, by operand (0 SRC, 1 SRC2) and line; the first line whose read returned poison. -/
structure NmJob where
  cmd : Nat
  op : Nat
  die : Nat
  running : Bool
  lines : Nat
  next : Nat := 0
  asked : Nat × Nat := (0, 0)
  out : List (Nat × Nat) := []
  got : List ((Nat × Nat) × Bytes) := []
  poison : Option Nat := none
  /-- First differing byte found (NM_COMPARE). -/
  differ : Option Nat := none
  deriving DecidableEq, Repr

/-- States of a connection, coded as CONN_STATE. -/
inductive ConnSt where
  | free | opening | open_ | error | held
  deriving DecidableEq, Repr

/-- A Malroth or destination connection (R506, R507). -/
structure Conn where
  num : Nat
  malroth : Bool
  peer : Nat := 0
  part : Nat := 255
  port : Nat
  st : ConnSt := .free
  reason : Nat := 0
  ver : Nat := 0
  lastT : Nat := 0
  /-- Messages sent and not acknowledged by the transport (R535). -/
  unacked : List Nat := []
  deriving DecidableEq, Repr

/-- A Malroth message (R508): type, sender, receiver, message number, whether it is a reply, and its body. -/
structure MalMsg where
  typ : Nat
  src : Nat
  dst : Nat
  msgId : Nat
  reply : Bool := false
  status : Nat := 0
  ringEpoch : Nat := 0
  /-- LAST, TIME_STATE, LOAD, SENT_NS and the connection's version (R507). -/
  last : Bool := true
  timeState : Nat := 0
  load : Nat := 0
  sentNs : Nat := 0
  ver : Nat := 0x301
  body : Bytes := []
  deriving DecidableEq, Repr

/-- A query passed on to the owners of its keys, whose answers are relayed (R169, R534): the query; own request numbers with the
keys each carries; the answers there are, by key; a status other than OK that came. -/
structure Relay where
  msg : MalMsg
  parts : List (Nat × List Nat)
  got : List (Nat × Bytes) := []
  status : Nat := 0
  deriving DecidableEq, Repr

/-- A request that waits for its reply (R509, R510), and what it was sent for. -/
structure MalWait where
  msg : MalMsg
  sentT : Nat
  tries : Nat
  /-- Command, leaf serial or number the answer is for. -/
  ctx : Nat
  /-- False while it waits for its connection to open. -/
  sent : Bool := true
  /-- What a FETCH is for: 0 no FETCH, 1 and 2 the check of R515 (2 with FAILED), 3 an audit (R611), 4 an import, 5 a restore
  (R613), 6 the check in place of a probe (R534). -/
  why : Nat := 0
  /-- FETCH_DATA received (R521). -/
  data : Bytes := []
  /-- Sent again after a redirect, under the newer epoch (R170). -/
  again : Bool := false
  deriving DecidableEq, Repr

/-- A reply kept for repeated requests (R509). -/
structure KeptReply where
  src : Nat
  msgId : Nat
  reply : MalMsg
  time : Nat
  deriving DecidableEq, Repr

/-- A peer device (R511, R524, R534). -/
structure Peer where
  serial : Nat
  kind : Nat
  group : Nat
  failGroup : Nat
  ver : Nat
  epoch : Nat
  eligible : Bool
  leader : Bool := false
  ringMember : Bool := false
  leaderSerial : Nat := 0
  retiring : Bool := false
  ordering : Nat := 0
  domain : Nat := 0
  ringSeen : Nat := 0
  lastHb : Nat := 0
  misses : Nat := 0
  load : Nat := 0
  replicaFree : Nat := 0
  reachable : Bool := true
  timeBad : Nat := 0
  deriving DecidableEq, Repr

/-- States of an incident (R528–R532). -/
inductive IncSt where
  | open_ | probing | declared | cleared
  deriving DecidableEq, Repr

/-- An entry of the incident table (R528); `num` names it in the model. -/
structure Incident where
  num : Nat
  suspect : Nat
  cls : Nat
  unit : Nat
  firstT : Nat
  lastT : Nat
  reporters : List Nat
  st : IncSt := .open_
  probes : Nat := 0
  probeT : Nat := 0
  replies : Nat := 0
  good : Nat := 0
  reprobeT : Nat := 0
  /-- Number the arbiter gave it, 0 for none; the arbiter; RING_EPOCH and the suspect's boot epoch at its declaration. -/
  incNo : Nat := 0
  arbiter : Nat := 0
  epoch : Nat := 0
  bootEpoch : Nat := 0
  deriving DecidableEq, Repr

/-- A storm record (R533). -/
structure Storm where
  startT : Nat
  lastT : Nat
  counts : List (Nat × Nat)
  suspects : List (Nat × Nat)
  deriving DecidableEq, Repr

/-- States of a NAND die, coded as DIE_INFO.STATE. -/
inductive NDieSt where
  | absent | unused | active | draining | failed | retired
  deriving DecidableEq, Repr

/-- What discovery reads of a NAND die (R541–R543): matching profile, its fields, a good parameter page, the serial on its label
(none when blank), raw GiB, blocks and bad-block limit of the die, rows of a block, factory bad blocks. -/
structure NandFound where
  chan : Nat
  target : Nat
  profile : Option Nat
  fieldsOk : Bool
  pageOk : Bool
  label : Option Nat
  gib : Nat
  blocks : Nat
  badMax : Nat
  rows : Nat
  bad : List Nat
  deriving DecidableEq, Repr

/-- A NAND die (R541–R543, R573–R575). Channel and target name it. -/
structure NDie where
  chan : Nat
  target : Nat
  st : NDieSt := .absent
  reason : Nat := 0
  profile : Nat := 0
  gib : Nat := 0
  /-- Blocks of the die, bad blocks allowed, rows of a block. -/
  blocks : Nat := 0
  badMax : Nat := 0
  rows : Nat := 0
  bad : List Nat := []
  /-- Times of program and erase failures, and blocks and times of soft-decode failures (R574). -/
  peFails : List Nat := []
  soft : List (Nat × Nat) := []
  noStatus : Nat := 0
  deriving DecidableEq, Repr

/-- A block of a NAND die that has been used (R563, R570, R571); a block not listed is free with no wear. -/
structure NBlock where
  chan : Nat
  target : Nat
  num : Nat
  pslc : Bool := false
  wear : Nat := 0
  reads : Nat := 0
  refresh : Bool := false
  /-- In a superblock, or waiting to be erased. -/
  inUse : Bool := false
  /-- Patrolled in the present period. -/
  patrolT : Nat := 0
  deriving DecidableEq, Repr

/-- A stripe set of a bridge die (R545): 0 normal, 1 rebuilding, 2 draining, 3 dissolved. -/
structure StripeSet where
  bridge : Nat
  num : Nat
  st : Nat := 0
  /-- Rows to rebuild or drain when that began. -/
  rowsTotal : Nat := 0
  nextSb : Nat := 0
  /-- It collects garbage until GC_HIGH (R562); fault number of the failure it rebuilds after. -/
  gc : Bool := false
  fault : Nat := 0
  deriving DecidableEq, Repr

/-- A unit of mapped data (R551): 64 KiB or 4 KiB of a page copy, or of a replica or staging slot. -/
structure NUnit where
  lua : Nat
  part : Nat
  serial : Nat
  /-- What it holds: 0 a page copy, 1 a replica held for a peer, 2 a saved granule. -/
  what : Nat
  big : Bool
  bridge : Nat
  /-- Superblock, group of 16 slots and slot; none while it waits for pSLC room (R561). -/
  sb : Option Nat := none
  set : Nat := 0
  group : Nat := 0
  slot : Nat := 0
  /-- Its program has completed (R553). -/
  mapped : Bool := false
  readable : Bool := true
  /-- Where a relocation under way programs it: set, superblock, group, slot (R558). -/
  to_ : Option (Nat × Nat × Nat × Nat) := none
  deriving DecidableEq, Repr

/-- A superblock of a set (R546–R548): mode, members (channel, target, block) with the parity member's index, slot groups
taken and available, whether it is open, order of opening. -/
structure SuperBlk where
  bridge : Nat
  set : Nat
  num : Nat
  pslc : Bool
  members : List (Nat × Nat × Nat)
  parity : Nat
  next : Nat := 0
  groups : Nat
  open_ : Bool := true
  /-- Small units in its last shared group: group and slots taken. -/
  small : Option (Nat × Nat) := none
  seqNo : Nat := 0
  /-- Rows of groups whose folding has begun (R557); the erase of its blocks has been asked for, and when (R565). -/
  folded : Nat := 0
  erasing : Option Nat := none
  /-- Rows whose parity page has been asked for, and rows whose parity page is programmed: the others begun have their running parity in the
  write buffer (R547, R548). -/
  parAsked : Nat := 0
  parDone : Nat := 0
  /-- Rows whose running parity the flush has programmed as a partial parity page (R548, R601); rows a restart closed without one while a
  data member was FAILED, so that their parity says nothing of it (R584). -/
  partials : List Nat := []
  noPar : List Nat := []
  deriving DecidableEq, Repr

/-- What has moved on the NAND channels of a bridge die since queue groups began to wait for them (R566), in bytes: of queue groups, of the
background work BG_SHARE holds, of the work REBUILD_PM holds. -/
structure ChanShare where
  host : Nat := 0
  bg : Nat := 0
  re : Nat := 0
  deriving DecidableEq, Repr

/-- A NAND channel (R540, R544, R579): 0 up, 1 on the spare engine, 2 failed. -/
structure NChan where
  num : Nat
  st : Nat := 0
  kind : Nat := 0
  mts : Nat := 0
  deriving DecidableEq, Repr

/-- The write budget (R583): bytes left and the time of its last refill. -/
structure WBudget where
  left : Nat := 0
  last : Nat := 0
  deriving DecidableEq, Repr

/-- A replica held for a peer (R610). -/
structure Replica where
  owner : Nat
  ownerPart : Nat
  handle : Nat
  layer : Nat
  first : Nat
  epoch : Nat
  valid : Nat
  bytes : Nat
  data : Bytes := []
  auditT : Nat
  unknownSince : Option Nat := none
  /-- Number in the model, under which its flash units stand; the REPLICA that waits for them (R522). -/
  id : Nat := 0
  ask : Option MalMsg := none
  /-- The owner's base leaf it is coded against, 0 for none; it is kept only as the base of others (R347). -/
  base : Nat := 0
  remnant : Bool := false
  deriving DecidableEq, Repr

/-- The power-loss flush (R599–R603): a power-fail point has passed since the last recovery, the flush runs, since when, its bytes,
its length, whether it is complete; the input power has returned. -/
structure Flush where
  passed : Bool := false
  active : Bool := false
  startT : Nat := 0
  bytes : Nat := 0
  ns : Nat := 0
  done : Bool := false
  returned : Bool := false
  deriving DecidableEq, Repr

/-- The hold-up measurement (R592): its phase (1 droop, 2 test draw) and readings, and the last rehearsal (R593). -/
structure HoldMeas where
  phase : Nat := 0
  startT : Nat := 0
  /-- Charged voltage as the measurement found it, droop over 50 ms, µV. -/
  vc0 : Nat := 0
  droop : Nat := 0
  /-- Results, valid unless the last measurement failed: charged voltage, five times ΔV less the droop over 20 ms, droop over 50 ms, µV. -/
  vc : Nat := 0
  fall : Nat := 1
  leak : Nat := 0
  doneT : Nat := 0
  fault : Bool := true
  /-- Last use of the test sink (R802). -/
  sinkT : Option Nat := none
  /-- Rehearsal: rate (10^6 bytes/s) and energy per GiB (mJ), the active channels it ran with, and whether one has succeeded since the
  last start-up. -/
  rate : Nat := 0
  eb : Nat := 0
  chans : Nat := 0
  rehearsed : Bool := false
  deriving DecidableEq, Repr

/-- States of a key slot, coded as KEY_INFO.STATE. -/
inductive KeySt where
  | empty | set | erasing
  deriving DecidableEq, Repr

/-- A key slot (R635). -/
structure KeySlot where
  num : Nat
  st : KeySt := .empty
  typ : Nat := 0
  key : Bytes := []
  gen : Nat := 0
  retired : Bool := false
  /-- Earlier generations that a command has pinned (R640): generation and key. -/
  old : List (Nat × Bytes) := []
  deriving DecidableEq, Repr

/-- An SPDM session (R632, R637). -/
structure Session where
  id : Nat
  port : Nat
  fn : Nat
  part : Nat
  kik : Bytes := []
  deriving DecidableEq, Repr

/-- TDISP states of a function's interface, coded as TDI_STATE. -/
inductive TdiSt where
  | unlocked | locked | run | error
  deriving DecidableEq, Repr

structure Tdi where
  port : Nat
  fn : Nat
  st : TdiSt := .unlocked
  /-- Session of the requester, and the nonce of START (R646). -/
  sess : Nat := 0
  nonce : Bytes := []
  deriving DecidableEq, Repr

/-- An IDE stream of a port (R643, R644). -/
structure Ide where
  port : Nat
  stream : Nat
  keySet : Nat := 0
  refreshT : Nat := 0
  deriving DecidableEq, Repr

/-- Life-cycle and debug states (R653, R654). -/
inductive LifeSt where
  | manufacture | production | returned
  deriving DecidableEq, Repr

inductive DebugSt where
  | none | telemetry | invasive
  deriving DecidableEq, Repr

/-- Fuses and firmware (R624–R631). -/
structure Fuses where
  life : LifeSt := .production
  debug : DebugSt := .none
  debugEntries : Nat := 0
  svn : List Nat := [0, 0, 0, 0]
  revoked : Nat := 0
  runSvn : List Nat := [0, 0, 0, 0]
  runKey : List Nat := [0, 0, 0, 0]
  /-- Versions and digests of the running images, by stage. -/
  runVer : List Nat := [0, 0, 0, 0]
  digests : List Bytes := []
  /-- Digests and SVNs of the measured stages in the alias certificate of this boot (R626). -/
  tcb : List (Bytes × Nat) := []
  /-- Nonces of debug tokens already spent (R654). -/
  nonces : List Bytes := []
  fmBound : Bool := false
  fmPort : Nat := 0
  deriving DecidableEq, Repr

/-- The state the storage key is derived in (R625, R655). -/
def Fuses.state (f : Fuses) : LifeSt × DebugSt := (f.life, f.debug)

/-- A loaded policy program (R744, R747). -/
structure Program where
  part : Nat
  hook : Nat
  code : List Nat
  consts : List Nat
  dataWords : Nat
  init : List Nat
  budget : Nat
  primMask : Nat
  digest : Bytes
  /-- The POLICY_LOAD that loaded it: its number names the load's data segments (R729, R747). -/
  load : Nat := 0
  deriving DecidableEq, Repr

/-- A program instance at work on an event (R726, R729): the program the event began under, registers, pc, units charged; its own
time, as a time and the steps since then; a seal call has succeeded; it does not end within EVENT_MAX_US (R733). -/
structure PolInst where
  prog : Program
  regs : List Nat
  pc : Nat := 0
  units : Nat := 0
  base : Nat
  steps : Nat := 0
  placed : Bool := false
  late : Bool := false
  deriving DecidableEq, Repr

/-- A data segment of a program's instance on a die (R729). -/
structure DataSeg where
  part : Nat
  hook : Nat
  die : Nat
  load : Nat
  words : List Nat
  deriving DecidableEq, Repr

/-- A policy event (R726, R738): its hook, its arguments g1–g8, and what it is about. -/
structure PolEvent where
  id : Nat
  hook : Nat
  part : Nat
  die : Nat
  args : List Nat
  /-- Exclusion class: pool or sequence number (R726). -/
  excl : Nat := 0
  /-- Copy, seal job, record or admission that the result decides. -/
  ctx : Nat := 0
  deriving DecidableEq, Repr

/-- A policy sequencer (R725): idle, running an event, retired. -/
structure Sequencer where
  die : Nat
  num : Nat
  retired : Bool := false
  running : Option PolEvent := none
  inst : Option PolInst := none
  startT : Nat := 0
  events : Nat := 0
  busyNs : Nat := 0
  deriving DecidableEq, Repr

/-- A telemetry record that waits for a TELEMETRY program (R738, hook 7). -/
structure PolRec where
  ctx : Nat
  path : Nat
  code : Nat
  cls : Nat
  source : Nat
  count : Nat
  part : Nat
  first : Nat
  last : Nat
  ext : Bytes
  deriving DecidableEq, Repr

end Sys2Proof.Machine
end

