-- ==== Sys2Proof/Syntax.lean ====
section
/-! DEFINITION. The commands of the block: one constructor for each row of spec/opcode_table.json.

Operands: `c` is a command's acceptance number (ENTRY_ACCEPT gives it); `q` a queue's global number; `part` a partition,
`seq` a SEQ_ID, `leaf` a leaf number; `die` 0–7 attention dies, 8 and 9 bridge dies; `bridge` and `half` 0 or 1; `port`
0–7 X0–X7, 8–15 E0–E7; `path` a telemetry path (0–63 partition rings, 64 device ring, 65 Quinbel, 66 I3C); `msg` a 64-byte
fabric-manager message as one little-endian number; `m` a Malroth message; data that is none is a failed or poisoned read. -/

namespace Sys2Proof

open Sys2Proof.Machine (MalMsg Image NandFound)

/-- An accessing agent of the registers (chapter 20, "Agents and access"). -/
inductive Agent where
  | pf (port : Nat)
  | vf (port part : Nat)
  | half (h : Nat)
  | quinbel
  deriving DecidableEq, Repr

/-- An entry read from an SQ, and the classes of the other heads its front end has read, by queue (R412). -/
structure SqRead (α : Type) where
  entry : α
  heads : List (Nat × Nat)
  deriving DecidableEq, Repr

/-- A doorbell: the agent that writes it and the number of the queue in that agent's own numbering (R363, R771). -/
structure Doorbell where
  agent : Agent
  q : Nat
  deriving DecidableEq, Repr

/-- How far a core has come with a run when the run ends: tiles run, and the check it failed (0 none, 1 of a block of its page, 2 of one of
the base page, R338). -/
structure RunStop where
  tiles : Nat
  bad : Nat
  deriving DecidableEq, Repr

/-- A stream codec, and whether the block its lane ends passed its CRC (R338). -/
structure LaneOf where
  bridge : Nat
  ok : Bool
  deriving DecidableEq, Repr

/-- Which delivery queues of a partition are sampled: every one, at once (R461). -/
inductive Sampled where
  | everyQueue
  deriving DecidableEq, Repr

/-- Where a PTP message came from: port Ei, its domain, its transport as PTP_CTRL.TRANSPORT numbers them (R70). -/
structure PtpSource where
  port : Nat
  domain : Nat
  transport : Nat
  deriving DecidableEq, Repr

/-- A mean path delay in ns and whether the peer-to-peer mechanism measured it (R70). -/
structure PathDelay where
  ns : Nat
  p2p : Bool
  deriving DecidableEq, Repr

/-- The block's commands: one constructor for each row of spec/opcode_table.json, in its order. -/
inductive Instr where
  /-- SEQ_OPEN (R80): Command that creates a sequence with its fixed properties, namespace and variant tag. -/
  | seqOpen (c : Nat)
  /-- SEQ_OPEN_ATTACH (R84): SEQ_OPEN with ATTACH: writes the per-layer lengths of an open sequence as a length table and changes no state. -/
  | seqOpenAttach (c : Nat)
  /-- SEQ_CLOSE (R84): Command that moves a sequence to CLOSING and releases its append lease at once. -/
  | seqClose (c : Nat)
  /-- SEQ_CLOSE_DONE (R84): When the last command accepted before SEQ_CLOSE completes, the staging granules are freed, leaf references are released and SEQ_CLOSE completes. -/
  | seqCloseDone (part : Nat) (seq : Nat)
  /-- SEQ_FORK_PARENT (R128): Fork from a parent: the child references the parent's sealed leaves below f and copies the partial leaf into granules. -/
  | seqForkParent (c : Nat)
  /-- SEQ_FORK_HANDLES (R128): Fork from handles: the child references the listed leaves after the handle and LEAF_NO checks. -/
  | seqForkHandles (c : Nat)
  /-- APPEND (R112): Command that appends positions of one or all layers under the append lease, with optional token IDs, and commits at its end according to its class. -/
  | append (c : Nat)
  /-- SEAL (R121): Manual SEAL command that starts the seal of every ready leaf, or under auto seal waits for the leaves ready at acceptance. -/
  | seal (c : Nat)
  /-- TRUNCATE (R130): Command that drops leaves at or after t, copies a partial sealed leaf into granules and sets every layer length to t. -/
  | truncate (c : Nat)
  /-- LOOKUP_PREFIX (R174): Command that hashes a token list, probes the local index and shard owners, optionally imports, and writes a result list. -/
  | lookupPrefix (c : Nat)
  /-- PIN (R184): Command that creates a capo that holds leaves at a capo tier, promoting them first where needed. -/
  | pin (c : Nat)
  /-- UNPIN (R187): Command that drops every reference held by a capo and frees its number. -/
  | unpin (c : Nat)
  /-- ATTEND_DECODE (R245): Command that computes decode attention over a key range, for one sequence or a batch, and returns outputs with row statistics. -/
  | attendDecode (c : Nat)
  /-- ATTEND_CHUNK (R245): Command that attends a prefill chunk of one sequence against its cached prefix. -/
  | attendChunk (c : Nat)
  /-- ATTEND_SPARSE (R284): Command that attends sink, recent and top-N pages selected by fret bounds, with the staged positions. -/
  | attendSparse (c : Nat)
  /-- ATTEND_FWD_STATS (R293): Chunk forward that creates or reuses a training view and saves the row statistics in it. -/
  | attendFwdStats (c : Nat)
  /-- ATTEND_BWD_COMPUTE (R315): ATTEND_BWD with MODE 0: computes dQ, dK and dV over a view and commits them to host buffers or a gradient set. -/
  | attendBwdCompute (c : Nat)
  /-- ATTEND_BWD_EXPORT (R318): ATTEND_BWD with MODE 1: writes one gradient record per accumulator of a gradient set, optionally freeing the set. -/
  | attendBwdExport (c : Nat)
  /-- ATTEND_BWD_DISCARD (R318): ATTEND_BWD with MODE 2: frees a gradient set without writing. -/
  | attendBwdDiscard (c : Nat)
  /-- DELIVER (R439): Command that pushes a page list into a destination window under gates, shapers and deficit round robin. -/
  | deliver (c : Nat)
  /-- FETCH (R439): Command that pushes a page list into a destination window ignoring the gate list and ahead of DELIVER pushes. -/
  | fetch (c : Nat)
  /-- HINT_NEED (R230): HINT kind NEED: schedules prefetch of pages to T1 or T0 to be complete before a time. -/
  | hintNeed (c : Nat)
  /-- HINT_COLD (R230): HINT kind COLD: makes the pages' scores read as 0 until a time. -/
  | hintCold (c : Nat)
  /-- HINT_CADENCE (R230): HINT kind CADENCE: creates or updates a cadence group with its period and next step start. -/
  | hintCadence (c : Nat)
  /-- HINT_BATCH (R230): HINT kind BATCH: replaces a cadence group's members with the sequences of a length table. -/
  | hintBatch (c : Nat)
  /-- HINT_LEAVE (R230): HINT kind LEAVE: removes one member from a cadence group and ends its protections. -/
  | hintLeave (c : Nat)
  /-- MIGRATE (R238): Command that creates faster cached copies or moves backing copies to a slower tier. -/
  | migrate (c : Nat)
  /-- EVICT (R239): Command that discards cached copies in a tier and optionally drops retained leaves. -/
  | evict (c : Nat)
  /-- NM_FILL (R490): Near-memory command that fills a range of an NM extent with an 8-byte pattern. -/
  | nmFill (c : Nat)
  /-- NM_COPY (R490): Near-memory command that copies one NM extent range to another. -/
  | nmCopy (c : Nat)
  /-- NM_COMPARE (R490): Near-memory command that compares two ranges and returns the first differing offset. -/
  | nmCompare (c : Nat)
  /-- NM_REDUCE (R491): Near-memory command that writes the element-wise add, maximum or minimum of two ranges. -/
  | nmReduce (c : Nat)
  /-- PART_SET (R401): Supervisor command that creates a partition, or changes one, from a partition descriptor. -/
  | partSet (c : Nat)
  /-- PART_CLEAR (R404): Supervisor command that resets a partition's queues and takes it through CLEARING and SCRUBBING to FREE. -/
  | partClear (c : Nat)
  /-- GEOM_LOAD (R406): Supervisor command that checks a geometry descriptor and switches the partition to it. -/
  | geomLoad (c : Nat)
  /-- KEY_SET (R639): Supervisor command that installs a wrapped key blob in a key slot with the next generation. -/
  | keySet (c : Nat)
  /-- KEY_ERASE (R641): Supervisor command that erases key slots, terminates the commands that pin them and zeroises every copy. -/
  | keyErase (c : Nat)
  /-- POLICY_LOAD (R746): Supervisor command that checks a program image and installs it on every die on which the hook runs. -/
  | policyLoad (c : Nat)
  /-- POLICY_LOAD_DEFAULT (R745): POLICY_LOAD with DEFAULT: unbinds the loaded program and returns the hook to the shipped variants. -/
  | policyLoadDefault (c : Nat)
  /-- FENCE (R379): Command that completes when every earlier command of its queue, or of its function, has completed. -/
  | fence (c : Nat)
  /-- CANCEL (R381): Command that cancels earlier commands of a queue by tag, or all of them. -/
  | cancel (c : Nat)
  /-- UNKNOWN_OPCODE (R385): An entry with a reserved or unknown opcode completes VERSION. -/
  | unknownOpcode (q : Nat) (entry : SqRead Nat)
  /-- SQ_DOORBELL (R363): Write of SQ_TAIL to a queue's doorbell, which makes entries available or puts the queue into ERROR. -/
  | sqDoorbell (q : Doorbell) (tail : Nat)
  /-- CQ_DOORBELL (R363): Write of CQ_HEAD and ARM to a queue's doorbell, which consumes completions and may send an interrupt. -/
  | cqDoorbell (q : Doorbell) (head : Nat) (arm : Bool)
  /-- ENTRY_ACCEPT (R370): The front end receives an SQ entry read from the host and checks version, permission and operands. -/
  | entryAccept (q : Nat) (entry : SqRead (Option Nat))
  /-- ACCEPT_RESUME (R366): Acceptance resumes on a queue once completions are consumed and room exists in its CQ. -/
  | acceptResume (q : Nat)
  /-- COMMAND_START (R377): A waiting command starts once its ordering, fence or sequence dependencies have completed. -/
  | commandStart (c : Nat)
  /-- COMPLETION_POST (R372): The device writes a completion entry with its phase once the command's output writes are done. -/
  | completionPost (c : Nat) (ok : Bool)
  /-- IRQ_AGG_TIMEOUT (R394): IRQ_AGG.US passes after the first counted completion and the CQ's message is sent. -/
  | irqAggTimeout (q : Nat)
  /-- QUEUE_ENABLE (R362): QCTRL.ENABLE written 1: the ring version is chosen and the queue becomes ACTIVE, or stays DISABLED with a reason. -/
  | queueEnable (a : Agent) (q : Nat)
  /-- QUEUE_DISABLE (R362): QCTRL.ENABLE written 0: the queue enters DRAINING. -/
  | queueDisable (q : Nat)
  /-- QUEUE_DRAINED (R362): The last completion of a DRAINING queue is posted and the queue becomes DISABLED. -/
  | queueDrained (q : Nat)
  /-- QUEUE_RESET (R362): QCTRL.RESET written 1: uncommitted commands are discarded, leases released and the queue enters RESETTING. -/
  | queueReset (q : Nat)
  /-- QUEUE_RESET_DONE (R362): The last command of a RESETTING queue ends and the queue becomes DISABLED with pointers 0. -/
  | queueResetDone (q : Nat)
  /-- FUNCTION_LEVEL_RESET (R467): Function-level reset of a virtual function resets the queues, leases and objects of that port and function. -/
  | functionLevelReset (port : Nat) (fn : Nat)
  /-- APPEND_LEASE_EXPIRE (R116): An append lease reaches its expiry with no command of its holder executing and becomes free. -/
  | appendLeaseExpire (part : Nat) (seq : Nat)
  /-- AUTO_SEAL_START (R121): Under auto seal the device starts the seal of a ready leaf in position order. -/
  | autoSealStart (part : Nat) (seq : Nat)
  /-- SEAL_CODE_DONE (R123): Seal coding and fret summaries of a leaf are done and the leaf is placed under the seal hook. -/
  | sealCodeDone (part : Nat) (seq : Nat) (leaf : Nat)
  /-- SEAL_PROGRAMS_DONE (R559): Every pSLC program of a leaf completes with success status, allowing its seal record to be committed. -/
  | sealProgramsDone (part : Nat) (seq : Nat) (leaf : Nat)
  /-- SEAL_COMMIT (R123): The seal record commits to the journal, the leaf is published, its score seeded and ring drops applied. -/
  | sealCommit (part : Nat) (seq : Nat) (leaf : Nat)
  /-- SEAL_SPACE_TIMEOUT (R126): A seal waiting for space passes 1 ms and ends; the granules stay in staging and SEAL_FAIL is raised. -/
  | sealSpaceTimeout (part : Nat) (seq : Nat) (leaf : Nat)
  /-- AUTO_SEAL_RETRY (R126): A failed auto seal is retried at the next ready leaf or after 1 ms. -/
  | autoSealRetry (part : Nat) (seq : Nat)
  /-- GRANULE_RELEASE (R123): A sealed leaf's granules are released once every read reference on them has ended. -/
  | granuleRelease (part : Nat) (seq : Nat) (leaf : Nat)
  /-- GROUP_DECLARE_COMMIT (R143): GRP_STATE.COMMIT written: the member list is read and checked and the declaration is sent to remote members. -/
  | groupDeclareCommit (part : Nat) (slot : Nat) (list : Option Bytes)
  /-- GROUP_WITHDRAW (R146): GRP_ID written 0 withdraws a declaration and the group becomes inactive for every member within 1 ms. -/
  | groupWithdraw (part : Nat) (slot : Nat)
  /-- LOOKUP_HASH_DONE (R174): Hashing of a lookup ends and the local index is probed from leaf 0. -/
  | lookupHashDone (c : Nat)
  /-- LOOKUP_SHARD_TIMEOUT (R178): A lookup's shard query is unanswered at SHARD_TO_US; the run ends before it and SHARD_UNREACHABLE is set. -/
  | lookupShardTimeout (c : Nat)
  /-- LOOKUP_IMPORT_DONE (R180): A fetch for an IMPORT lookup completes; the leaf is checked and installed or the run is cut. -/
  | lookupImportDone (c : Nat)
  /-- PUBLISH_ACK_TIMEOUT (R190): A publication is not acknowledged within PUB_TO_US; seal step 6 ends and the publication is deferred. -/
  | publishAckTimeout (part : Nat) (serial : Nat)
  /-- PUBLISH_RETRY (R190): A deferred publication is repeated at most once per second until acknowledged. -/
  | publishRetry (part : Nat) (serial : Nat)
  /-- SNAPSHOT_CUT (R192): Every SNAP_MS the shard owner cuts a numbered snapshot for Malroth 2.x queries. -/
  | snapshotCut
  /-- SHARD_REPUBLISH_SEND (R171): A device republishes leaf records of a shard to its new owner at up to 10,000 entries per second. -/
  | shardRepublishSend
  /-- TIER_EVALUATE (R220): The tier manager evaluates a pool's present level and moves its demotion state machine. -/
  | tierEvaluate (part : Nat) (tier : Nat) (die : Nat)
  /-- MOVE_COMPLETE (R206): A move's destination copy is written and checked, then published or retried from another copy. -/
  | moveComplete (move : Nat) (ok : Bool)
  /-- PREFETCH_ISSUE (R233): The device starts a pending prefetch no later than the latest moment at which it can still complete by its bound. -/
  | prefetchIssue (part : Nat) (seq : Nat) (layer : Nat)
  /-- PROTECT_EXPIRE (R234): A prefetched copy's demotion protection ends PROTECT_GRACE after its predicted use. -/
  | protectExpire (part : Nat) (serial : Nat) (tier : Nat) (die : Nat)
  /-- PIN_EXPIRE (R209): A primitive pin on a copy reaches its until time and expires on its own. -/
  | pinExpire (part : Nat) (serial : Nat) (tier : Nat) (die : Nat)
  /-- PIN_RENEW (R478): The pin of each window-mapped page is renewed every PIN_MAX_MS / 2. -/
  | pinRenew (part : Nat) (lease : Nat)
  /-- DESTAGE_WRITE (R214): The device writes a T3 copy of the oldest leaf counted within the D budget. -/
  | destageWrite (part : Nat) (serial : Nat)
  /-- DESTAGE_COMMIT (R214): A destaged T3 copy commits, becomes the backing copy and the leaf leaves the D count. -/
  | destageCommit (part : Nat) (serial : Nat)
  /-- GRANULE_SAVE (R598): While the D total exceeds the budget, a counted granule is saved to flash and leaves the count. -/
  | granuleSave (part : Nat) (seq : Nat) (layer : Nat) (first : Nat)
  /-- RUN_RELEASE (R415): The scheduler front releases the next run by class mix, virtual time and priority to a die's dispatcher. -/
  | runRelease (part : Nat)
  /-- RUN_DISPATCH (R271): A free core takes the oldest queued run of its partition, or steals one under R272. -/
  | runDispatch (die : Nat) (part : Nat)
  /-- RUN_END (R267): A core finishes a run or a cut run and sends its partial to its cluster's merge unit. -/
  | runEnd (run : Nat) (stop : RunStop)
  /-- PARTIAL_ARRIVE (R274): A partial arrives at a merge unit and is merged, held for its sibling, or forwarded to the root cluster. -/
  | partialArrive (c : Nat) (item : Nat) (first : Nat)
  /-- MERGE_STALL (R276): A core waiting for merge-unit room passes MERGE_STALL_US and MERGE_STALL is raised. -/
  | mergeStall (die : Nat) (cluster : Nat)
  /-- VIEW_EXPIRE (R298): A training view reaches VIEW_MS after its last use and is released with its references. -/
  | viewExpire (part : Nat) (view : Nat)
  /-- CODEC_LANE_TAKE (R352): A free stream codec lane takes the next block by deficit round robin. -/
  | codecLaneTake (lane : LaneOf)
  /-- CODEC_LANE_FAIL (R354): A stream codec lane fails and is retired; its block restarts on another lane. -/
  | codecLaneFail (bridge : Nat) (lane : Nat)
  /-- SHARE_WINDOW_TICK (R410): A SHARE_WINDOW interval ends and allotments, class mix and reserve accounting restart. -/
  | shareWindowTick (part : Nat) (got : List Nat)
  /-- PREEMPT_WAIT_EXPIRE (R416): A released run has waited PREEMPT_WAIT without a core and pre-emption is decided. -/
  | preemptWaitExpire (run : Nat)
  /-- MONITOR_EVAL (R421): Every MON_PERIOD the deadline monitor predicts an unreleased command's completion and acts on a predicted miss. -/
  | monitorEval (c : Nat)
  /-- DEADLINE_PASS (R423): A command's DEADLINE passes before its commit point and it stops at its next tile or push boundary. -/
  | deadlinePass (c : Nat)
  /-- GEOM_SWITCH_APPLY (R406): When the last started command ends, the partition's tables are installed, views and sets destroyed and held commands released. -/
  | geomSwitchApply (part : Nat)
  /-- PARTITION_DRAINED (R400): The last command of a CLEARING partition ends and its scrub starts. -/
  | partitionDrained (part : Nat)
  /-- SCRUB_DONE (R652): Every scrub mechanism completes and the partition becomes FREE. -/
  | scrubDone (part : Nat)
  /-- ACCT_LATCH (R435): Write of ACCT_LATCH copies the selected record's counters into the counter registers at once. -/
  | acctLatch (a : Agent)
  /-- ENERGY_CALIBRATE (R431): Every CAL_S seconds the energy coefficients are fitted to measured rail energy. -/
  | energyCalibrate (coeffs : List Nat) (err : Nat)
  /-- DEST_COMMIT (R437): DEST_CTRL.COMMIT written: the destination settings are checked and made effective or refused. -/
  | destCommit (part : Nat) (dest : Nat)
  /-- DEST_DISABLE (R462): Destination ENABLE written 0: queued pushes are sent and the destination then becomes DISABLED. -/
  | destDisable (part : Nat) (dest : Nat)
  /-- SHAPER_REFILL (R451): Every REFILL_NS the committed and peak buckets of every shaper on the port are refilled. -/
  | shaperRefill (part : Nat) (dest : Nat)
  /-- PUSH_SEND (R452): A port that can take a push chooses an eligible head push and sends it. -/
  | pushSend (port : Nat)
  /-- PUSH_ACK (R446): RoCEv2 acknowledgement of a delivery write arrives, completing the command once all its writes are acknowledged. -/
  | pushAck (push : Nat) (ok : Bool)
  /-- GATE_COMMIT (R455): GATE_CTRL.COMMIT written: the admin list is checked and made pending or refused. -/
  | gateCommit (port : Nat)
  /-- GATE_SWITCH (R455): At the first cycle start at or after GATE_CHANGE_TIME the admin list becomes operational. -/
  | gateSwitch (port : Nat)
  /-- LINK_DOWN (R456): A port's link goes down and the port enters HOLDING or DOWN. -/
  | linkDown (port : Nat)
  /-- LINK_UP (R456): A port's link comes up and held items are released or discarded by partner identity. -/
  | linkUp (port : Nat) (rate : Nat) (width : Nat) (cxl : Bool) (ide : Bool) (partner : Option Nat) (partnerPort : Nat) (loss : List Nat)
  /-- HOLD_EXPIRE (R456): The hold timer reaches HOLD_US: held items are discarded and commands complete PORT_LOST. -/
  | holdExpire (port : Nat)
  /-- DLV_SAMPLE (R461): Every 2^SAMPLE_LOG2 µs the depth and delay of every delivery queue are sampled. -/
  | dlvSample (part : Nat) (which : Sampled)
  /-- EXT_GRANT (R473): Fabric manager GRANT message: a tray extent is accepted with a new epoch or refused. -/
  | extGrant (msg : Nat)
  /-- EXT_RELEASE_REQ (R482): Fabric manager RELEASE_REQ message: the extent is released gracefully after evacuation or drain. -/
  | extReleaseReq (msg : Nat)
  /-- EXT_FORCE_RELEASE (R483): Fabric manager FORCE_RELEASE message: a revocation point ends the extent lease at once. -/
  | extForceRelease (msg : Nat)
  /-- EVAC_TIMEOUT (R241): Backing copies not evacuated within EVAC_MS are treated as under revocation. -/
  | evacTimeout (ext : Nat)
  /-- EXTENT_RELEASED (R482): The last release step of an extent is done and RELEASED is sent to the fabric manager. -/
  | extentReleased (ext : Nat)
  /-- WINDOW_EXTENT_ADD (R475): A Dynamic Capacity add of a window extent is accepted as a host lease or rejected. -/
  | windowExtentAdd (msg : Nat)
  /-- WINDOW_RELEASE_REQ (R476): The fabric manager requests release of a window extent and the request is posted to the host. -/
  | windowReleaseReq (msg : Nat)
  /-- HOST_EXTENT_RELEASE (R476): The host releases a window extent and its filtered lines are back-invalidated. -/
  | hostExtentRelease (msg : Nat)
  /-- WINDOW_FORCE_RELEASE (R483): A forced release of a window extent makes a revocation point. -/
  | windowForceRelease (msg : Nat)
  /-- BIRSP (R481): A host's BIRsp to a back-invalidation snoop arrives, allowing storage reuse or lease end once all have arrived. -/
  | birsp (port : Nat) (lease : Nat) (line : Nat)
  /-- WINDOW_MAP_COMMIT (R478): WIN_CTRL.COMMIT written: the map is read, checked, fetched and pinned for a host lease. -/
  | windowMapCommit (part : Nat) (lease : Nat) (map : Option Bytes)
  /-- MAP_COMMIT_POINT (R478): After fetches and back-invalidation, the new window map takes effect for the whole extent. -/
  | mapCommitPoint (part : Nat) (lease : Nat)
  /-- WINDOW_READ (R479): A CXL.mem read of the window region returns slot bytes, zero or poison. -/
  | windowRead (port : Nat) (pbr : Nat) (addr : Nat) (tag : Nat)
  /-- WINDOW_WRITE (R479): A CXL.mem write to the window region is completed and discarded. -/
  | windowWrite (port : Nat) (pbr : Nat) (addr : Nat)
  /-- H2D_SNOOP (R471): An H2D snoop from a host is answered RspIHitI. -/
  | h2dSnoop (port : Nat) (addr : Nat)
  /-- TRAY_RESPONSE (R488): A CXL.mem response from a tray arrives and its DevLoad adjusts the outstanding limit. -/
  | trayResponse (tray : Nat) (ext : Nat) (line : Nat) (load : Nat) (data : Option Bytes)
  /-- VIRAL_RECEIVED (R496): Viral received on a port takes its link down. -/
  | viralReceived (port : Nat)
  /-- IDE_FAILURE (R645): An IDE stream ends on integrity failure, key-set mismatch or session end and the link goes down. -/
  | ideFailure (port : Nat)
  /-- IDE_KEY_REFRESH (R644): An IDE key refresh switches a stream between key sets without losing any transaction. -/
  | ideKeyRefresh (port : Nat) (stream : Nat) (keySet : Nat)
  /-- TDISP_LOCK_INTERFACE (R646): LOCK_INTERFACE_REQUEST moves a virtual function's interface to CONFIG_LOCKED if admitted. -/
  | tdispLockInterface (port : Nat) (fn : Nat) (session : Nat)
  /-- TDISP_START_INTERFACE (R646): START_INTERFACE_REQUEST moves a locked interface to RUN. -/
  | tdispStartInterface (port : Nat) (fn : Nat) (nonce : Bytes)
  /-- SPDM_REQUEST (R632): An SPDM request over DOE is answered by the function's responder, including session setup. -/
  | spdmRequest (port : Nat) (fn : Nat) (msg : Bytes)
  /-- SPDM_GET_MEASUREMENTS (R633): An SPDM measurement request returns the signed measurement blocks visible to the function. -/
  | spdmGetMeasurements (session : Nat) (block : Nat) (nonce : Bytes)
  /-- SPDM_SESSION_END (R637): An SPDM session ends and its key import key is destroyed. -/
  | spdmSessionEnd (session : Nat)
  /-- FM_SESSION (R648): A fabric manager SPDM session is established and bound when its key matches FM_PIN. -/
  | fmSession (port : Nat) (digest : Bytes) (open_ : Bool)
  /-- FM_MESSAGE_REJECT (R648): A fabric manager message arriving by an unbound path is dropped and counted. -/
  | fmMessageReject (port : Nat)
  /-- PTM_DIALOGUE (R75): Every PTM interval a port runs a PTM dialogue and updates the published offset and rate. -/
  | ptmDialogue (port : Nat) (t : Nat)
  /-- HELLO (R511): Malroth HELLO negotiates the version on a connection, or closes it on mismatch. -/
  | hello (m : MalMsg)
  /-- HEARTBEAT (R524): Malroth HEARTBEAT from a member or leader is received. -/
  | heartbeat (m : MalMsg)
  /-- HEARTBEAT_TICK (R524): Every HB_US a member sends HEARTBEAT to its leader and a leader to its neighbour leaders. -/
  | heartbeatTick
  /-- HEARTBEAT_MISS (R524): Three consecutive heartbeats from a sender are missed and an UNREACHABLE report is filed. -/
  | heartbeatMiss (peer : Nat)
  /-- SHARD_QUERY (R513): Malroth SHARD_QUERY is answered per key body with a hit, miss or redirect. -/
  | shardQuery (m : MalMsg)
  /-- PUBLISH (R514): Malroth PUBLISH is applied to a shard entry and acknowledged. -/
  | publish (m : MalMsg)
  /-- UNPUBLISH (R163): Malroth UNPUBLISH removes a holder from shard entries. -/
  | unpublish (m : MalMsg)
  /-- HOLDER_STALE (R515): Malroth HOLDER_STALE makes the owner check the named holder with a FETCH of its own. -/
  | holderStale (m : MalMsg)
  /-- SHARD_XFER (R516): Malroth SHARD_XFER carries a shard's entries to its new owner, acknowledged on the last message. -/
  | shardXfer (m : MalMsg)
  /-- REPUBLISH (R516): Malroth REPUBLISH carries a device's leaf records of a shard to its owner. -/
  | republish (m : MalMsg)
  /-- GROUP_DECL (R144): Malroth GROUP_DECL carries a remote member's declaration and key check value. -/
  | groupDecl (m : MalMsg)
  /-- MALROTH_FETCH (R519): Malroth FETCH: the holder writes a leaf into the receive area or answers MISS, BUSY or REFUSED. -/
  | malrothFetch (m : MalMsg)
  /-- FETCH_DATA (R521): Malroth 2.x FETCH_DATA carries page records of a fetched leaf. -/
  | fetchData (m : MalMsg)
  /-- REPLICA (R522): Malroth REPLICA: the peer pulls the leaf or granule by RDMA READ and replies once it is in flash. -/
  | replica (m : MalMsg)
  /-- INCIDENT_REPORT (R528): Malroth INCIDENT_REPORT is merged into the incident table and, at an arbiter, starts probing. -/
  | incidentReport (m : MalMsg)
  /-- PROBE (R529): Malroth PROBE is answered by the suspect with its time state and unit health. -/
  | probe (m : MalMsg)
  /-- PROBE_SEND (R529): PROBE_GAP_US after the previous probe, the arbiter sends the next PROBE. -/
  | probeSend (inc : Nat)
  /-- PROBE_TIMEOUT (R529): PROBE_TO_US after the third probe the arbiter decides confirmation and declares or clears. -/
  | probeTimeout (inc : Nat)
  /-- INCIDENT_DECL (R531): Malroth INCIDENT_DECL is applied and passed down the domain tree, or discarded as a duplicate. -/
  | incidentDecl (m : MalMsg)
  /-- INCIDENT_WINDOW_EXPIRE (R528): An incident table entry is freed WINDOW_MS after its last merge, and a storm record may end. -/
  | incidentWindowExpire (inc : Nat)
  /-- INCIDENT_REPROBE (R532): Once per second the arbiter probes the suspect of a declared incident and clears it after three good probes. -/
  | incidentReprobe (inc : Nat)
  /-- RING_UPDATE (R525): Malroth RING_UPDATE is applied when its epoch is one higher and shard owners are recomputed. -/
  | ringUpdate (m : MalMsg)
  /-- RING_PULL (R525): Malroth RING_PULL is answered with the full member list under the leader's epoch. -/
  | ringPull (m : MalMsg)
  /-- MALROTH_REPLY (R509): A reply to a Malroth request arrives and completes the request. -/
  | malrothReply (m : MalMsg)
  /-- MSG_TIMEOUT (R510): A Malroth request has no reply after MSG_TO_US and is resent, or fails with an UNREACHABLE report. -/
  | msgTimeout (msgId : Nat)
  /-- CONN_IDLE_CLOSE (R506): A Malroth connection is closed after 10 s without traffic. -/
  | connIdleClose (conn : Nat)
  /-- CONN_OPEN (R506): CONN_CTRL.OPEN written: a destination connection is opened through the connection manager. -/
  | connOpen (part : Nat) (conn : Nat) (ok : Bool)
  /-- CONN_CLOSE (R506): CONN_CTRL.CLOSE written: a destination connection is closed after its queued pushes. -/
  | connClose (conn : Nat)
  /-- LLDP_RECEIVE (R505): An LLDP frame is received and the port's partner identity is updated. -/
  | lldpReceive (port : Nat) (tlv : Bytes)
  /-- PTP_ANNOUNCE (R70): A PTP announce is received and the best master clock algorithm chooses the port. -/
  | ptpAnnounce (src : PtpSource) (gm : Nat) (prio : List Nat) (interval : Nat)
  /-- PTP_SYNC (R72): A PTP Sync message updates the offset estimate, rate correction and lock state. -/
  | ptpSync (src : PtpSource) (t : Nat) (delay : PathDelay) (logSync : Nat) (twoStep : Bool)
  /-- SYNC_TIMEOUT (R78): No Sync or PTM response for 2 s moves the time base to HOLDOVER. -/
  | syncTimeout
  /-- TIME_BASE_LOSS (R68): The primary time base is lost and the other becomes primary without a step. -/
  | timeBaseLoss (bridge : Nat)
  /-- PACE_WINDOW (R47): A 1,024 ns sample window ends and every die's current pace and sensor inclusion are updated. -/
  | paceWindow (die : Nat) (readings : List Nat)
  /-- VCORE_STEP (R60): A core-rail change is applied in one step of at most 10 mV, at least 20 µs after the previous one, and read back. -/
  | vcoreStep (die : Nat)
  /-- RAIL_MISMATCH (R61): A rail read back more than 15 mV from its request for 1 ms raises an alarm and stops stepping. -/
  | railMismatch (die : Nat)
  /-- RAIL_SAMPLE (R794): Every 1 ms the on-die monitors sample every rail and junction for the range checks. -/
  | railSample (samples : List Nat)
  /-- PMBUS_POLL (R794): The device reads READ_VOUT and READ_IOUT of regulators in round-robin order. -/
  | pmbusPoll (rail : Nat) (mv : Nat) (ma : Nat) (answered : Bool)
  /-- ALERT_N (R794): Assertion of ALERT_N makes the device read STATUS_WORD of every regulator. -/
  | alertN (words : List Nat)
  /-- THERMAL_STEP (R797): Every 1 ms above 95 °C a die's VSET is lowered by 10 mV, and restored in steps below 93 °C. -/
  | thermalStep (die : Nat) (temp : Int)
  /-- THERMTRIP (R797): At 105 °C on a die or 110 °C on a stack the device asserts THERMTRIP_N and stops all work. -/
  | thermtrip
  /-- HBM_TEMP (R781): A stack crossing 85 °C or 105 °C changes refresh rate, throttles and raises its event. -/
  | hbmTemp (stack : Nat) (temp : Int)
  /-- NAND_PROGRAM_DONE (R559): A NAND program completes; on success map entries are made, on failure the block is marked bad and reprogrammed. -/
  | nandProgramDone (chan : Nat) (target : Nat) (block : Nat) (ok : Bool)
  /-- NAND_READ_DONE (R567): A codeword read completes and decodes, or goes to the next recovery step. -/
  | nandReadDone (chan : Nat) (target : Nat) (block : Nat) (step : Nat) (bits : Nat) (lua : Nat)
  /-- NAND_ERASE_DONE (R565): An erase completes and the superblock becomes free, with its wear counted. -/
  | nandEraseDone (chan : Nat) (target : Nat) (block : Nat) (ok : Bool)
  /-- FOLD (R557): Three full pSLC rows are folded into one TLC row under the fold rules. -/
  | fold (bridge : Nat) (set : Nat)
  /-- GC_RUN (R562): A set below GC_LOW free superblocks relocates the valid units of its chosen victim. -/
  | gcRun (bridge : Nat) (set : Nat)
  /-- STATIC_LEVEL (R564): A die whose wear spread exceeds WEAR_SPREAD relocates the superblock of its least-worn used block. -/
  | staticLevel (bridge : Nat) (set : Nat)
  /-- REFRESH (R572): A block queued for refresh has its superblock's valid units relocated and the superblock erased. -/
  | refresh (chan : Nat) (target : Nat) (block : Nat)
  /-- PATROL_READ (R570): The drone reads and decodes written flash pages within each patrol period. -/
  | patrolRead (chan : Nat) (target : Nat) (block : Nat) (step : Nat) (bits : Nat) (lua : Nat)
  /-- PSLC_TARGET_RECOMPUTE (R555): Every second the pSLC target is recomputed from the used share of user capacity. -/
  | pslcTargetRecompute (bridge : Nat)
  /-- CHANNEL_ENGINE_FAIL (R544): A channel engine fails and the spare takes over the channel's pins within 10 ms. -/
  | channelEngineFail (chan : Nat)
  /-- CHANNEL_FAIL (R579): A channel fault that the spare cannot cure fails every die on the channel. -/
  | channelFail (chan : Nat)
  /-- DIE_FAIL (R574): A NAND die meets a failure criterion, enters FAILED and rebuild starts. -/
  | dieFail (chan : Nat) (target : Nat) (reason : Nat)
  /-- DIE_RETIRE_START (R574): A NAND die meets a retirement criterion and enters DRAINING. -/
  | dieRetireStart (chan : Nat) (target : Nat)
  /-- REBUILD_ROW (R576): Rebuild reconstructs a failed die's row page and writes its valid units to TLC rows. -/
  | rebuildRow (bridge : Nat) (set : Nat) (ok : Bool)
  /-- DRAIN_DONE (R573): The last unit of a draining or failed die is relocated and the die becomes RETIRED. -/
  | drainDone (chan : Nat) (target : Nat)
  /-- CLASS_P_RESTORE (R577): A class P page lost in flash is restored from its peer replica by Malroth FETCH. -/
  | classPRestore (part : Nat) (serial : Nat) (ok : Bool)
  /-- POWER_FAIL (R599): PFAIL_N or the input rail holds for 20 µs: service stops and the flush begins. -/
  | powerFail
  /-- FLUSH_DONE (R601): The flush commits its FLUSH_DONE record and releases FLUSH_BUSY_N. -/
  | flushDone
  /-- POWER_RETURN_FLUSH (R603): Power returns during a flush; the flush completes and the device then restarts. -/
  | powerReturnFlush
  /-- HOLDUP_MEASURE (R592): At start-up, every MEAS_PERIOD or on MEAS_NOW, a hold-up bank measurement starts. -/
  | holdupMeasure
  /-- HOLDUP_MEAS_STEP (R592): The droop or test-sink interval of a measurement ends and the capacitance and leakage are computed. -/
  | holdupMeasStep (uv : Nat)
  /-- HOLDUP_ABORT (R592): The bank falls below 0.995 × V_c during a measurement; the draw stops and HOLDUP_FAULT is raised. -/
  | holdupAbort
  /-- FLUSH_REHEARSAL (R593): A rehearsal writes 1 GiB into the flush reserve and measures the flush rate and energy. -/
  | flushRehearsal (rate : Nat) (eb : Nat) (ok : Bool)
  /-- BUDGET_RECOMPUTE (R594): Every 1 ms the D budget is recomputed from the sampled bank voltage. -/
  | budgetRecompute (uv : Nat)
  /-- REPLICA_AUDIT (R611): Every AUDIT_H hours a peer checks each replica with a FETCH and drops those that miss. -/
  | replicaAudit
  /-- REPLICA_KEEP_EXPIRE (R611): KEEP_H after an UNREACHABLE declaration against an owner, the peer drops that owner's replicas. -/
  | replicaKeepExpire (owner : Nat) (handle : Nat)
  /-- SVN_COMMIT (R630): SVN_COMMIT stage bit written: the stage's fuse counter rises to the running image's SVN. -/
  | svnCommit (stage : Nat)
  /-- KEY_REVOKE (R631): SVN_COMMIT with REVOKE blows the revocation fuse of a signing-key slot. -/
  | keyRevoke (slot : Nat)
  /-- DEBUG_TOKEN (R654): A signed debug token over Quinbel moves the debug state or lifecycle. -/
  | debugToken (token : Bytes) (state : Nat) (nonce : Bytes) (valid : Bool)
  /-- HANDSHAKE_TIMEOUT (R659): A self-timed handshake does not complete within WATCHDOG_STEPS and a fault record is made. -/
  | handshakeTimeout (kind : Nat) (unit : Nat) (die : Nat)
  /-- CORE_FAIL (R19): A physical core fails; its command completes with its failure status and a spare is mapped or the core retired. -/
  | coreFail (die : Nat) (cluster : Nat) (phys : Nat)
  /-- PART_FAULT_FORCE (R661): PART_FAULT.FORCE written faults the partition. -/
  | partFaultForce (part : Nat)
  /-- HBM_CE (R679): A correctable HBM error is counted per row and may spare the row. -/
  | hbmCe (stack : Nat) (bank : Nat) (row : Nat)
  /-- HBM_UE (R678): An uncorrectable HBM error poisons its granule, fails its copies and spares the row. -/
  | hbmUe (stack : Nat) (addr : Nat) (bank : Nat) (row : Nat)
  /-- PC_FAIL (R680): An HBM pseudo-channel fails; the stack is remapped and its content handled as lost or restored. -/
  | pcFail (stack : Nat) (pc : Nat)
  /-- STACK_FAIL (R682): A whole HBM stack or attention die fails and is retired. -/
  | stackFail (stack : Nat) (whole : Bool)
  /-- D2D_LINK_FAIL (R29): A die-to-die link goes down and its flows use the other bridge die. -/
  | d2dLinkFail (die : Nat) (bridge : Nat)
  /-- BRIDGE_FENCE (R683): A bridge die stops responding or reports a fabric fault and is fenced; a restart is attempted. -/
  | bridgeFence (bridge : Nat)
  /-- BRIDGE_RESTART_DONE (R683): A fenced bridge die's FTL recovers within BRIDGE_RESTART_S and the die returns. -/
  | bridgeRestartDone (bridge : Nat) (ok : Bool)
  /-- BRIDGE_LOST (R683): A bridge die restart fails or the restart limit is reached and the die is declared lost. -/
  | bridgeLost (bridge : Nat)
  /-- DEVICE_RETIRE (R685): FLT_CTRL.RETIRE written with every partition FREE: the device reports itself UNREACHABLE and leaves the domain. -/
  | deviceRetire
  /-- DEVICE_RETIRED (R685): Peers have re-replicated or KEEP_H has passed, and FLT_CTRL.RETIRED is set. -/
  | deviceRetired
  /-- SHUARN_START (R664): A course half's Shuarn is verified and started and the half enters RESYNC. -/
  | shuarnStart (half : Nat)
  /-- JOURNAL_CAUGHT_UP (R664): A resyncing half's journal catches up with the lead and it enters STANDBY. -/
  | journalCaughtUp (half : Nat)
  /-- STANDBY_POLL (R668): Every 25 µs the standby reads every arbiter and claims when a majority is expired. -/
  | standbyPoll (half : Nat)
  /-- CLAIM_ROUND (R666): A half sends claims with a new epoch to every arbiter. -/
  | claimRound (half : Nat)
  /-- ARBITER_CLAIM (R666): An arbiter receives a claim and grants or refuses it. -/
  | arbiterClaim (die : Nat) (half : Nat) (epoch : Nat)
  /-- CLAIM_GRANTED (R671): A half gains a majority, becomes lead, publishes its epoch, replays the journal and reissues begun commands. -/
  | claimGranted (half : Nat)
  /-- CLAIM_TIMEOUT (R666): A claim gains no majority within 2 µs and the half releases what it won. -/
  | claimTimeout (half : Nat)
  /-- CLAIM_BACKOFF (R666): The back-off after a failed claim ends and the next claim round starts. -/
  | claimBackoff (half : Nat)
  /-- LEASE_RENEW (R666): Every 25 µs the lead renews every arbiter it holds. -/
  | leaseRenew (half : Nat)
  /-- ARBITER_EXPIRE (R665): A lead lease at an arbiter reaches its expiry. -/
  | arbiterExpire (die : Nat)
  /-- LEAD_FENCE (R664): The lead finds fewer than a majority renewed for 75 µs, or a write refused for a stale epoch, and is fenced. -/
  | leadFence (half : Nat)
  /-- HALF_WATCHDOG (R664): No Shuarn heartbeat for HALF_WD_US resets the half and restarts Shuarn. -/
  | halfWatchdog (half : Nat)
  /-- MIRROR_RECORD (R669): The standby receives a mirrored journal record and acknowledges it. -/
  | mirrorRecord (num : Nat)
  /-- MIRROR_TIMEOUT (R670): The standby does not acknowledge within 20 µs; it is set to RESYNC and STANDBY_LOST is raised. -/
  | mirrorTimeout
  /-- HEADLESS_TIMEOUT (R673): The device has been headless for 1 ms and raises HEADLESS. -/
  | headlessTimeout
  /-- TELEMETRY_POST (R690): A held alarm, fault or lost-handle record, or a log or trace record, is posted when its path has room. -/
  | telemetryPost (path : Nat)
  /-- LOG_ENABLE (R807): LOG_CTRL.ENABLE set restarts the log ring and posts the held records first. -/
  | logEnable (part : Nat)
  /-- LOG_DISABLE (R807): LOG_CTRL.ENABLE cleared stops posting to the ring at once. -/
  | logDisable (part : Nat)
  /-- LOG_HEAD_WRITE (R689): The consumer writes LOG_PTRS.HEAD, consuming records or being ignored. -/
  | logHeadWrite (part : Nat) (head : Nat)
  /-- TRACE_ADJUST (R693): Trace sampling rate k is raised after 1 ms above 80 % fill or lowered after 100 ms below 40 %. -/
  | traceAdjust (path : Nat)
  /-- POWER_GOOD (R698): The rise of PWRGD is a cold reset and starts the boot. -/
  | powerGood
  /-- WARM_RESET (R698): Assertion of SYS_RST_N with power-good high is a warm reset. -/
  | warmReset
  /-- BOOT_FIRMWARE (R700): Start-up step 0: boot ROM, DICE, BL1 and Shuarn on both halves, with image comparison. -/
  | bootFirmware (half : Nat)
  /-- CLAIM_START_TIMEOUT (R701): 50 ms after the first half reaches RESYNC the halves claim the lead. -/
  | claimStartTimeout
  /-- BOOT_MEASURE (R705): Start-up step 1: self-measurement of rails, temperatures, pace and the hold-up bank. -/
  | bootMeasure (samples : List Nat) (temps : List Int)
  /-- BOOT_HBM (R699): Start-up step 2: training of each stack and hard repair of spared rows. -/
  | bootHbm (stack : Nat) (ok : Bool) (vendor : Nat) (height : Nat)
  /-- BOOT_NAND (R584): Start-up step 3: die discovery, FTL recovery, journal replay, reference rebuild, capo restoration and rehearsal. -/
  | bootNand (found : List NandFound)
  /-- BOOT_LINKS (R699): Start-up step 4: link training, partner identities, IDE and setting DEV_TIME. -/
  | bootLinks (source : Nat) (t : Nat)
  /-- BOOT_STEP_FAIL (R703): A start-up step's last attempt fails and the plan halts, degrades or skips. -/
  | bootStepFail (step : Nat) (unit : Nat) (result : Nat)
  /-- FM_BIND (R709): Start-up step 5 ends when a fabric manager session is established or FM_PIN is zero. -/
  | fmBind
  /-- FM_WAIT_TIMEOUT (R709): FM_WAIT_S passes in step 5 and the step ends skipped. -/
  | fmWaitTimeout
  /-- FM_WAIVE (R709): BOOT_CTRL.FM_WAIVE written ends step 5 as skipped. -/
  | fmWaive
  /-- LOCAL_SERVICE (R712): Start-up step 6: partitions return ACTIVE, held queue enables apply and local service begins. -/
  | localService (map : Bytes)
  /-- JOIN_BACKOFF_EXPIRE (R716): The join back-off ends and HELLO is sent to every group member in the map. -/
  | joinBackoffExpire
  /-- JOIN_GATHER_EXPIRE (R716): GATHER_MS after the back-off the device takes the best-ranked eligible device as leader. -/
  | joinGatherExpire
  /-- JOIN_SETTLED (R716): The device's leader is settled and step 7 ends. -/
  | joinSettled
  /-- JOIN_RETRY (R703): After a degraded step 7 the join is retried every 10 s, or at once on JOIN_NOW. -/
  | joinRetry
  /-- RING_GATHER_EXPIRE (R717): RING_GATHER_MS passes in step 8 and the best-ranked leader becomes coordinator and issues the first RING_UPDATE. -/
  | ringGatherExpire
  /-- JOIN_BATCH_EXPIRE (R718): The coordinator completes collected late joins with one RING_UPDATE after BATCH_MS. -/
  | joinBatchExpire
  /-- WARM_UP (R719): Start-up step 9: shards are loaded, records republished and deferred publications sent. -/
  | warmUp
  /-- SHARD_CHECKPOINT (R719): Every SHARD_CKPT_S an owner writes its shard entries to the journal. -/
  | shardCheckpoint
  /-- POLICY_EVENT_RUN (R726): An idle sequencer takes the oldest non-excluded event of its die's queue and runs its program to END. -/
  | policyEventRun (die : Nat) (sqr : Nat)
  /-- POLICY_QUEUE_FULL (R727): An event finds its die's queue full and the hook's fallback action is taken. -/
  | policyQueueFull (die : Nat) (hook : Nat) (part : Nat)
  /-- EVENT_MAX_TIMEOUT (R733): An event not ended EVENT_MAX_US after its start ends with the fallback action. -/
  | eventMaxTimeout (die : Nat) (sqr : Nat)
  /-- POLICY_TIMER (R738): Every TIMER_PERIOD the TIMER hook raises an event. -/
  | policyTimer (part : Nat)
  /-- SEQUENCER_FAIL (R728): A sequencer fails and is retired; its event ends with the fallback and hooks may move. -/
  | sequencerFail (die : Nat) (sqr : Nat)
  /-- SYS_SEAL (R770): SYS_SEAL.SEAL written makes every RWL field read only until the next reset. -/
  | sysSeal
  /-- EVT_FORCE_WRITE (R762): A bit written 1 to EVT_FORCE raises its event as if its source had raised it. -/
  | evtForceWrite (blk : Nat) (page : Nat) (bits : Nat)
  /-- EVT_LATCH_CLEAR (R762): Write of 1 bits to EVT_LATCH clears them. -/
  | evtLatchClear (blk : Nat) (page : Nat) (part : Nat) (bits : Nat)
  /-- BLK_QUIESCE (R763): BLK_CTRL.QUIESCE set stops new work of the instance; cleared resumes it. -/
  | blkQuiesce (blk : Nat) (page : Nat) (on : Bool)
  /-- BLK_SOFT_RESET (R763): BLK_CTRL.SOFT_RESET while quiesced returns RW fields, latches and watermark units to reset. -/
  | blkSoftReset (blk : Nat) (page : Nat)
  /-- BLK_PORT_ENABLE (R763): BLK_CTRL.ENABLE written on a CXL or NET port instance takes the link down or lets it train. -/
  | blkPortEnable (blk : Nat) (page : Nat) (on : Bool)
  /-- WM_SAMPLE (R766): A watermark unit samples its level, updates peak and trough and detects crossings. -/
  | wmSample (blk : Nat) (page : Nat) (part : Nat) (u : Nat) (level : Nat)
  /-- VSET_WRITE (R776): A VSET write is clamped, clears HALTED and sets a new core-rail target. -/
  | vsetWrite (die : Nat) (mv : Nat)
  /-- VCORE_RANGE_WRITE (R773): A VCORE_RANGE write is accepted within the fused bounds and clamps every VSET, or is refused. -/
  | vcoreRangeWrite (lo : Nat) (hi : Nat)
  /-- RC_READ (R758): A 4- or 8-byte read of an RC field returns the value and clears it. -/
  | rcRead (a : Agent) (addr : Nat) (size : Nat)
  /-- LOW_WORD_READ (R755): A 4-byte read of a 64-bit register's lower word latches the upper word for the agent. -/
  | lowWordRead (a : Agent) (addr : Nat)
  /-- REGISTER_WRITE (R758): A write to a register field that has no row of its own takes effect by its access type. -/
  | registerWrite (a : Agent) (addr : Nat) (size : Nat) (value : Nat) (epoch : Nat)
  /-- PWRGD_FALL (R809): PWRGD falls while no power-fail point has passed, or during a flush, which powers the device off without a flush or ends the flush at once. -/
  | pwrgdFall
  /-- SYS_RST_N_RELEASE (R698): The board releases SYS_RST_N, which lets the boot of a cold or warm reset begin. -/
  | sysRstNRelease
  /-- NAND_STATUS_TIMEOUT (R574): A NAND die returns no status within tBERS maximum + 1 ms, which counts toward the failure criterion of two in succession. -/
  | nandStatusTimeout (chan : Nat) (target : Nat)
  /-- ADMIT_WAIT_EXPIRE (R228): A demand fetch, import installation or capo promotion that waited for room passes ADMIT_WAIT or 1 ms and its command completes NO_SPACE. -/
  | admitWaitExpire (wait : Nat)
  /-- SRAM_UNCORRECTABLE_ERROR (R663): An uncorrectable error is detected in a cluster SRAM unit, a die SRAM staging buffer or partition-owned control state, retiring the unit or faulting the partition. -/
  | sramUncorrectableError (kind : Nat) (die : Nat) (unit : Nat) (part : Nat)
  /-- ANNOUNCE_TIMEOUT (R71): The PTP port stops hearing its master's announces and the device moves to the next best port within two announce intervals. -/
  | announceTimeout (port : Nat)
  /-- LLDP_TIMEOUT (R505): No LLDP frame arrives within 1 s of an Ethernet link-up, so the port has no partner identity and the link-up counts as a different partner. -/
  | lldpTimeout (port : Nat)
  /-- GATE_INTERVAL_END (R454): An entry of a port's operational gate list ends, so the next entry opens or closes gate classes and CURRENT advances. -/
  | gateIntervalEnd (port : Nat)
  /-- HBM_PATROL (R678): The HBM patrol reads and corrects every row of each stack at least once every PATROL_H hours. -/
  | hbmPatrol (stack : Nat)
  /-- HOST_BUFFER_READ_DONE (R495): A device read of a host buffer completes with data or poison: a query, dO or row-record buffer, an APPEND payload, a token or handle list, a member list, a window map or a descriptor. -/
  | hostBufferReadDone (c : Nat) (addr : Nat) (data : Option Bytes)
  /-- PCIE_CONFIG_REQUEST (R711): A PCIe configuration request arrives at a port and is answered with Configuration Request Retry Status until the functions are ready, or not at all on a halted device. -/
  | pcieConfigRequest (port : Nat)
  /-- QUINBEL_IMAGE_WRITE (R702): A firmware image is written to xSPI flash over the Quinbel service port, which a halted device still serves. -/
  | quinbelImageWrite (die : Nat) (slot : Nat) (stage : Nat) (image : Image)
  /-- MALROTH_UNKNOWN_TYPE (R508): A Malroth message of an unknown type, or of a type added after the connection's version, is answered with STATUS VERSION and has no other effect. -/
  | malrothUnknownType (m : MalMsg)
  /-- REPLY_RETENTION_EXPIRE (R509): A kept (SENDER, MSG_ID) and its reply are discarded 10 ms after the reply, so a later repeat of the request is executed again. -/
  | replyRetentionExpire (src : Nat) (msgId : Nat)
  deriving DecidableEq, Repr

end Sys2Proof
end

