-- ==== Sys2Proof/Decode.lean ====
section
/-! DEFINITION. The words of the opcode table. Its rows give no bits: no word spells a command. -/

namespace Sys2Proof

/-- The command a word spells by the bits of the table: none, for no row gives any. -/
def decodeTableWord (_nbits _w : Nat) : Option Instr := none

end Sys2Proof
end

