-- ==== Sys2Proof/Machine/Bytes.lean ====
section
/-! DEFINITION. Bit fields, little-endian bytes, and the list operations every meaning uses. -/

namespace Sys2Proof.Machine

/-- Bits hi … lo of v. -/
def bits (v hi lo : Nat) : Nat := (v >>> lo) % 2 ^ (hi + 1 - lo)

/-- Bit i of v. -/
def bit (v i : Nat) : Bool := Nat.testBit v i

/-- v with bit i set or cleared. -/
def setBit (v i : Nat) (b : Bool) : Nat :=
  if b then v ||| 2 ^ i else if Nat.testBit v i then v - 2 ^ i else v

/-- Number of bits set among the lowest n bits of v. -/
def popCount (n v : Nat) : Nat := ((List.range n).filter (Nat.testBit v)).length

/-- Field of `size` bytes at byte `off` of an entry held as one little-endian number. -/
def efld (e off size : Nat) : Nat := (e >>> (8 * off)) % 2 ^ (8 * size)

/-- v as n little-endian bytes. -/
def leBytes : Nat → Nat → Bytes
  | 0, _ => []
  | n + 1, v => BitVec.ofNat 8 v :: leBytes n (v / 256)

/-- The number n little-endian bytes hold. -/
def leNat : Bytes → Nat
  | [] => 0
  | b :: bs => b.toNat + 256 * leNat bs

/-- `len` bytes from `off`. -/
def slice (b : Bytes) (off len : Nat) : Bytes := (b.drop off).take len

/-- Number of `size` bytes at `off`. -/
def rd (b : Bytes) (off size : Nat) : Nat := leNat (slice b off size)

/-- The low n bits of v as a signed number. -/
def signed (n v : Nat) : Int :=
  let w := v % 2 ^ n
  if w ≥ 2 ^ (n - 1) then (w : Int) - 2 ^ n else w

/-- An integer as n-bit two's complement. -/
def unsigned (n : Nat) (i : Int) : Nat := (i % (2 ^ n : Int)).toNat

def ceilDiv (a b : Nat) : Nat := (a + b - 1) / b

/-- Round a to a multiple of b upward. -/
def roundUp (a b : Nat) : Nat := ceilDiv a b * b

/-- Change the elements that satisfy p. -/
def upd {α : Type} (p : α → Bool) (f : α → α) (l : List α) : List α := l.map fun x => if p x then f x else x

/-- Remove the elements that satisfy p. -/
def del {α : Type} (p : α → Bool) (l : List α) : List α := l.filter fun x => !p x

/-- The first element that satisfies p replaced by x, or x added at the end. -/
def put {α : Type} (p : α → Bool) (x : α) (l : List α) : List α :=
  if l.any p then upd p (fun _ => x) l else l ++ [x]

/-- Association lists. -/
def alGet {κ α : Type} [BEq κ] (k : κ) (l : List (κ × α)) : Option α := (l.find? fun e => e.1 == k).map (·.2)

def alGetD {κ α : Type} [BEq κ] (k : κ) (d : α) (l : List (κ × α)) : α := (alGet k l).getD d

def alSet {κ α : Type} [BEq κ] (k : κ) (v : α) : List (κ × α) → List (κ × α)
  | [] => [(k, v)]
  | e :: l => if e.1 == k then (k, v) :: l else e :: alSet k v l

def alDel {κ α : Type} [BEq κ] (k : κ) (l : List (κ × α)) : List (κ × α) := l.filter fun e => !(e.1 == k)

/-- Element n of a list changed. -/
def nthUpd {α : Type} (n : Nat) (f : α → α) : List α → List α
  | [] => []
  | x :: l => match n with
    | 0 => f x :: l
    | m + 1 => x :: nthUpd m f l

/-- The element with the least key, the first on a tie. -/
def argMin {α : Type} (key : α → Int) : List α → Option α
  | [] => none
  | x :: l => match argMin key l with
    | none => some x
    | some y => if key y < key x then some y else some x

/-- Insertion sort by a key, ascending; equal keys keep their order. -/
def insBy {α : Type} (key : α → Int) (x : α) : List α → List α
  | [] => [x]
  | y :: l => if key x ≤ key y then x :: y :: l else y :: insBy key x l

def sortBy {α : Type} (key : α → Int) : List α → List α
  | [] => []
  | x :: l => insBy key x (sortBy key l)

def sortNat (l : List Nat) : List Nat := sortBy (fun n => (n : Int)) l

/-- The sum over a list. -/
def sumBy {α : Type} (f : α → Nat) (l : List α) : Nat := (l.map f).sum

/-- The greatest value over a list, 0 for none. -/
def maxBy {α : Type} (f : α → Nat) (l : List α) : Nat := (l.map f).foldl max 0

/-- A list cut into pieces of n elements (n at least 1); `fuel` bounds the pieces. -/
def chunksOf {α : Type} (n : Nat) : Nat → List α → List (List α)
  | 0, _ => []
  | fuel + 1, l => if l.isEmpty then [] else l.take n :: chunksOf n fuel (l.drop n)

def chunks {α : Type} (n : Nat) (l : List α) : List (List α) := chunksOf (max n 1) l.length l

end Sys2Proof.Machine
end

