-- ==== Sys2Proof/Machine/Blake.lean ====
section
/-! DEFINITION. BLAKE2s (RFC 7693, named by R86, R142, R144, R150, R166), and CRC-32C and CRC-16 of the chapters' formats. -/

namespace Sys2Proof.Machine

namespace Blake

/-- Initial values of RFC 7693. -/
def iv : List Nat :=
  [0x6A09E667, 0xBB67AE85, 0x3C6EF372, 0xA54FF53A, 0x510E527F, 0x9B05688C, 0x1F83D9AB, 0x5BE0CD19]

/-- Message schedule of the ten rounds. -/
def sigma : List (List Nat) :=
  [[0, 1, 2, 3, 4, 5, 6, 7, 8, 9, 10, 11, 12, 13, 14, 15], [14, 10, 4, 8, 9, 15, 13, 6, 1, 12, 0, 2, 11, 7, 5, 3],
   [11, 8, 12, 0, 5, 2, 15, 13, 10, 14, 3, 6, 7, 1, 9, 4], [7, 9, 3, 1, 13, 12, 11, 14, 2, 6, 5, 10, 4, 0, 15, 8],
   [9, 0, 5, 7, 2, 4, 10, 15, 14, 1, 11, 12, 6, 8, 3, 13], [2, 12, 6, 10, 0, 11, 8, 3, 4, 13, 7, 5, 15, 14, 1, 9],
   [12, 5, 1, 15, 14, 13, 4, 10, 0, 7, 6, 3, 9, 2, 8, 11], [13, 11, 7, 14, 12, 1, 3, 9, 5, 0, 15, 4, 8, 6, 2, 10],
   [6, 15, 14, 9, 11, 3, 0, 8, 12, 2, 13, 7, 1, 4, 10, 5], [10, 2, 8, 4, 7, 6, 1, 5, 15, 11, 9, 14, 3, 12, 13, 0]]

def rotr (n x : Nat) : Nat := (x >>> n) ||| ((x <<< (32 - n)) % 2 ^ 32)

/-- The mixing function G on words a, b, c, d of the work vector. -/
def g (v : List Nat) (a b c d x y : Nat) : List Nat :=
  let at_ := fun i => v.getD i 0
  let a1 := (at_ a + at_ b + x) % 2 ^ 32
  let d1 := rotr 16 (at_ d ^^^ a1)
  let c1 := (at_ c + d1) % 2 ^ 32
  let b1 := rotr 12 (at_ b ^^^ c1)
  let a2 := (a1 + b1 + y) % 2 ^ 32
  let d2 := rotr 8 (d1 ^^^ a2)
  let c2 := (c1 + d2) % 2 ^ 32
  let b2 := rotr 7 (b1 ^^^ c2)
  (((v.set a a2).set b b2).set c c2).set d d2

def round (m : List Nat) (v : List Nat) (s : List Nat) : List Nat :=
  let x := fun i => m.getD (s.getD i 0) 0
  let v1 := g v 0 4 8 12 (x 0) (x 1)
  let v2 := g v1 1 5 9 13 (x 2) (x 3)
  let v3 := g v2 2 6 10 14 (x 4) (x 5)
  let v4 := g v3 3 7 11 15 (x 6) (x 7)
  let v5 := g v4 0 5 10 15 (x 8) (x 9)
  let v6 := g v5 1 6 11 12 (x 10) (x 11)
  let v7 := g v6 2 7 8 13 (x 12) (x 13)
  g v7 3 4 9 14 (x 14) (x 15)

/-- The compression function: chain value, block of 64 bytes, byte count so far, last-block flag. -/
def compress (h : List Nat) (block : Bytes) (t : Nat) (last : Bool) : List Nat :=
  let m := (List.range 16).map fun i => rd block (4 * i) 4
  let v0 := h ++ iv.take 4 ++
    [iv.getD 4 0 ^^^ (t % 2 ^ 32), iv.getD 5 0 ^^^ (t / 2 ^ 32 % 2 ^ 32),
     if last then 0xFFFFFFFF ^^^ iv.getD 6 0 else iv.getD 6 0, iv.getD 7 0]
  let v := sigma.foldl (round m) v0
  (List.range 8).map fun i => h.getD i 0 ^^^ v.getD i 0 ^^^ v.getD (i + 8) 0

def pad64 (b : Bytes) : Bytes := b ++ List.replicate (64 - b.length) 0

def blocks (h : List Nat) (t : Nat) : List Bytes → List Nat
  | [] => compress h (pad64 []) t true
  | [b] => compress h (pad64 b) (t + b.length) true
  | b :: bs => blocks (compress h b (t + 64) false) (t + 64) bs

/-- BLAKE2s of the message under a key (empty for none), n bytes long. -/
def hash (n : Nat) (key msg : Bytes) : Bytes :=
  let h0 := iv.set 0 (iv.getD 0 0 ^^^ 0x01010000 ^^^ (key.length * 256) ^^^ n)
  let data := if key.isEmpty then msg else pad64 key ++ msg
  ((blocks h0 0 (chunks 64 data)).flatMap (leBytes 4)).take n

end Blake

/-- One bit of a reflected CRC with the polynomial `poly`. -/
def crcBit (poly r : Nat) : Nat := if r % 2 = 1 then (r / 2) ^^^ poly else r / 2

def crcByte (poly r : Nat) (b : Byte) : Nat :=
  (List.range 8).foldl (fun a _ => crcBit poly a) (r ^^^ b.toNat)

/-- CRC-32C (Castagnoli, reflected, inverted). -/
def crc32c (b : Bytes) : Nat := (b.foldl (crcByte 0x82F63B78) 0xFFFFFFFF) ^^^ 0xFFFFFFFF

end Sys2Proof.Machine
end

