-- ==== Sys2Proof/Config.lean ====
section
/-! DEFINITION. What an implementation fixes, and the free values: opaque constants with no body, so that no statement can
rest on the value. Each is named in notes/assumptions. -/

namespace Sys2Proof.Config

/-- A choice among equals that the chapters leave to the device (which serial run, which peer, a back-off): free value n,
for the n-th choice taken. -/
opaque freeChoice : Nat → Nat

/-- A byte the chapters leave undefined (a destination range after a failed delivery, an unread capability). -/
opaque freeByte : Nat → BitVec 8

/-- The 128-bit random values of nonces and sessions (chapter 16). -/
opaque freeNonce : Nat → Bytes

/-- A cryptographic function whose algorithm lies outside the spec (key check value, unwrap, signature): its result on the
given bytes. -/
opaque crypt : Nat → Bytes → Bytes

/-- Typical-latency prediction terms that the chapters give no closed form for (R420's K and queueing). -/
opaque predict : Nat → Nat

/-- exp_ref of +infinity (R256), an FP32 pattern: the procedure cannot be followed there and the chapter states no result. -/
opaque expInf : BitVec 32

/-- Which of two neighbouring results a score's decay rounds to where the promised error leaves both possible (R217). -/
opaque freeRound : Nat → Nat → Nat → Bool

/-- Spare rows of each bank of a stack (R679), whose number the chapters do not give. -/
opaque spareRows : Nat → Nat

/-- The read limit of a NAND profile (R571), whose value the chapters do not give. -/
opaque readLimit : Nat → Nat

end Sys2Proof.Config
end

