-- ==== Sys2Proof/Machine/Fp.lean ====
section
/-! DEFINITION. The arithmetic of R88–R90 and R254–R257: exact values, the number formats, the one rounding, the FP32 operations,
exp_ref and tanh_ref. FP32 values are 32-bit patterns. -/

namespace Sys2Proof.Machine

/-- An exact value: NaN, an infinity, or m × 2^e with its sign. -/
inductive Fv where
  | nan
  | inf (neg : Bool)
  | fin (neg : Bool) (m : Nat) (e : Int)
  deriving DecidableEq, Repr

/-- The directions a rounding may take. -/
inductive Dir where
  | nearest | up | down
  deriving DecidableEq, Repr

namespace Fp

/-- 0x7FC0_0000. -/
def qnan : Nat := 0x7FC00000
def pinf : Nat := 0x7F800000
def ninf : Nat := 0xFF800000
def one : Nat := 0x3F800000

/-- A binary format: exponent bits, mantissa bits, bias, and whether the top exponent holds infinities and NaNs. -/
structure Fmt where
  eb : Nat
  mb : Nat
  bias : Nat
  ieee : Bool

def f32 : Fmt := ⟨8, 23, 127, true⟩
def bf16 : Fmt := ⟨8, 7, 127, true⟩
def f16 : Fmt := ⟨5, 10, 15, true⟩
def e4m3 : Fmt := ⟨4, 3, 7, false⟩
def e5m2 : Fmt := ⟨5, 2, 15, true⟩
def e3m2 : Fmt := ⟨3, 2, 3, false⟩
def e2m1 : Fmt := ⟨2, 1, 1, false⟩

/-- The value of a pattern. -/
def dec (f : Fmt) (v : Nat) : Fv :=
  let neg := bit v (f.eb + f.mb)
  let ex := bits v (f.eb + f.mb - 1) f.mb
  let m := v % 2 ^ f.mb
  if f.ieee ∧ ex = 2 ^ f.eb - 1 then (if m = 0 then .inf neg else .nan)
  else if ex = 0 then .fin neg m (1 - (f.bias : Int) - f.mb)
  else .fin neg (2 ^ f.mb + m) ((ex : Int) - f.bias - f.mb)

/-- m / 2^k rounded to an integer in a direction; `neg` is the sign of the value. -/
def rshift (d : Dir) (neg : Bool) (m k : Nat) : Nat :=
  let q := m / 2 ^ k
  let r := m % 2 ^ k
  match d with
  | .nearest => if 2 * r > 2 ^ k ∨ (2 * r = 2 ^ k ∧ q % 2 = 1) then q + 1 else q
  | .up => if r ≠ 0 ∧ !neg then q + 1 else q
  | .down => if r ≠ 0 ∧ neg then q + 1 else q

/-- Rounds m × 2^e once to a format with infinities (R255); an exact zero keeps its sign. -/
def enc (f : Fmt) (d : Dir) : Fv → Nat
  | .nan => (2 ^ f.eb - 1) * 2 ^ f.mb + 2 ^ (f.mb - 1)
  | .inf neg => (if neg then 2 ^ (f.eb + f.mb) else 0) + (2 ^ f.eb - 1) * 2 ^ f.mb
  | .fin neg m e =>
    let s := if neg then 2 ^ (f.eb + f.mb) else 0
    if m = 0 then s
    else
      let lo : Int := 1 - (f.bias : Int) - f.mb
      let q : Int := max ((Nat.log2 m : Int) + e - f.mb) lo
      let n := if q ≤ e then m * 2 ^ (e - q).toNat else rshift d neg m (q - e).toNat
      let b := (q - lo).toNat * 2 ^ f.mb + n
      let top := (2 ^ f.eb - 1) * 2 ^ f.mb
      let away := match d with | .nearest => true | .up => !neg | .down => neg
      s + if b < top then b else if away then top else top - 1

/-- round_fp32 (R255). -/
def round (v : Fv) : Nat := enc f32 .nearest v

def toFv (b : Nat) : Fv := dec f32 b

def isNan (b : Nat) : Bool := decide (b % 2 ^ 31 > pinf)
def sign (b : Nat) : Bool := bit b 31
def neg (b : Nat) : Nat := if sign b then b - 2 ^ 31 else b + 2 ^ 31
def abs (b : Nat) : Nat := b % 2 ^ 31
def isZero (b : Nat) : Bool := b % 2 ^ 31 == 0

/-! ### Exact operations -/

def vneg : Fv → Fv
  | .nan => .nan
  | .inf n => .inf (!n)
  | .fin n m e => .fin (!n) m e

/-- Signed mantissa at exponent e ≤ the value's. -/
def at_ (neg : Bool) (m : Nat) (e goal : Int) : Int :=
  let x : Int := (m * 2 ^ (e - goal).toNat : Nat)
  if neg then -x else x

/-- Exact sum of two; an exact zero is negative only when both are (R255). -/
def vadd : Fv → Fv → Fv
  | .nan, _ => .nan
  | _, .nan => .nan
  | .inf a, .inf b => if a = b then .inf a else .nan
  | .inf a, _ => .inf a
  | _, .inf b => .inf b
  | .fin a m e, .fin b n f =>
    let g := min e f
    let s := at_ a m e g + at_ b n f g
    if s = 0 then .fin (a && b) 0 g else .fin (decide (s < 0)) s.natAbs g

def vmul : Fv → Fv → Fv
  | .nan, _ => .nan
  | _, .nan => .nan
  | .inf a, .inf b => .inf (a != b)
  | .inf a, .fin b m _ => if m = 0 then .nan else .inf (a != b)
  | .fin a m _, .inf b => if m = 0 then .nan else .inf (a != b)
  | .fin a m e, .fin b n f => .fin (a != b) (m * n) (e + f)

/-- The exact sum of a list; an empty or exactly zero sum is +0. -/
def vsum (l : List Fv) : Fv :=
  match l.foldl vadd (.fin false 0 0) with
  | .fin _ 0 e => .fin false 0 e
  | v => v

/-- a < b, false when either is NaN. -/
def vlt : Fv → Fv → Bool
  | .nan, _ => false
  | _, .nan => false
  | .inf a, .inf b => a && !b
  | .inf a, _ => a
  | _, .inf b => !b
  | .fin a m e, .fin b n f =>
    let g := min e f
    decide (at_ a m e g < at_ b n f g)

/-! ### FP32 operations (R255) -/

def add (a b : Nat) : Nat := round (vadd (toFv a) (toFv b))
def sub (a b : Nat) : Nat := add a (neg b)
def mul (a b : Nat) : Nat := round (vmul (toFv a) (toFv b))

/-- The quotient as an exact value to more than 24 bits with a sticky bit, which rounds as the quotient does. -/
def vdiv : Fv → Fv → Fv
  | .nan, _ => .nan
  | _, .nan => .nan
  | .inf _, .inf _ => .nan
  | .inf a, .fin b _ _ => .inf (a != b)
  | .fin a _ _, .inf b => .fin (a != b) 0 0
  | .fin a m e, .fin b n f =>
    if n = 0 then (if m = 0 then .nan else .inf (a != b))
    else
      let k : Nat := 320
      let q := m * 2 ^ k / n
      let r := m * 2 ^ k % n
      .fin (a != b) (2 * q + if r = 0 then 0 else 1) (e - f - (k : Int) - 1)

def div (a b : Nat) : Nat := round (vdiv (toFv a) (toFv b))

def lt (a b : Nat) : Bool := vlt (toFv a) (toFv b)

/-- The greater of two that are not NaN; the first on a tie. -/
def max (a b : Nat) : Nat := if lt a b then b else a

/-- FP32 of an integer. -/
def ofInt (i : Int) : Nat := round (.fin (decide (i < 0)) i.natAbs 0)

/-- Conversion of an FP32 value to BF16, nearest even (R261). -/
def toBf16 (b : Nat) : Nat := if isNan b then 0x7FC0 else enc bf16 .nearest (toFv b)

/-! ### Number formats (R88–R90) -/

def fvInt (bitsN v : Nat) : Fv :=
  let i := signed bitsN v
  .fin (decide (i < 0)) i.natAbs 0

/-- The value of an element code of a format. -/
def elem (fmt v : Nat) : Fv :=
  match fmt with
  | 0 => dec f32 v
  | 1 => dec bf16 v
  | 2 => dec f16 v
  | 3 => if v % 128 = 0x7F then .nan else dec e4m3 v
  | 4 => dec e5m2 v
  | 5 => if v % 128 = 0x7F then .nan else dec e4m3 v
  | 6 => dec e3m2 v
  | 7 => dec e2m1 v
  | 8 => fvInt 8 v
  | _ => fvInt 4 v

/-- The value of a scale code of a format: E8M0, FP16, or 1. -/
def scaleOf (fmt v : Nat) : Fv :=
  if fmt ≥ 8 then dec f16 v
  else if fmt ≥ 5 then (if v = 0xFF then .nan else .fin false 1 ((v : Int) - 127))
  else .fin false 1 0

/-- Bits of an element. -/
def elemBits (fmt : Nat) : Nat :=
  match fmt with
  | 0 => 32 | 1 => 16 | 2 => 16 | 6 => 6 | 7 => 4 | 9 => 4 | _ => 8

/-- The n element codes of a row, from bit 0 upward (R89). -/
def codes (fmt n : Nat) (b : Bytes) : List Nat :=
  let v := leNat b
  let w := elemBits fmt
  (List.range n).map fun i => (v >>> (w * i)) % 2 ^ w

/-- The n decoded values of a token row of one head: elements times the scales of their groups of 32 (R90, R254). -/
def rowVals (fmt n : Nat) (elems scales : Bytes) : List Fv :=
  let sb := if fmt ≥ 8 then 2 else 1
  ((codes fmt n elems).zipIdx).map fun c =>
    if fmt < 5 then elem fmt c.1 else vmul (elem fmt c.1) (scaleOf fmt (rd scales (c.2 / 32 * sb) sb))

/-! ### exp_ref and tanh_ref (R256, R257) -/

/-- round(log2(e) × 2^48). -/
def log2eQ : Int := 406082553034800
/-- round(ln(2) × 2^40). -/
def ln2Q : Int := 762123384786

/-- EXP_TABLE: the integers nearest 2^(j/256) × 2^30. -/
def expTable : List Nat :=
  [1073741824, 1076653033, 1079572136, 1082499153, 1085434106, 1088377016, 1091327906, 1094286796, 1097253708,
   1100228665, 1103211687, 1106202798, 1109202018, 1112209370, 1115224875, 1118248556, 1121280436, 1124320536,
   1127368878, 1130425485, 1133490379, 1136563583, 1139645120, 1142735011, 1145833280, 1148939949, 1152055042,
   1155178580, 1158310587, 1161451085, 1164600099, 1167757650] ++
  [1170923762, 1174098458, 1177281762, 1180473697, 1183674286, 1186883552, 1190101520, 1193328213, 1196563654,
   1199807867, 1203060876, 1206322705, 1209593378, 1212872918, 1216161350, 1219458698, 1222764986, 1226080238,
   1229404479, 1232737732, 1236080024, 1239431376, 1242791816, 1246161366, 1249540052, 1252927899, 1256324931,
   1259731174, 1263146652, 1266571390, 1270005413, 1273448747] ++
  [1276901417, 1280363448, 1283834865, 1287315695, 1290805962, 1294305692, 1297814910, 1301333643, 1304861917,
   1308399756, 1311947188, 1315504238, 1319070932, 1322647296, 1326233356, 1329829140, 1333434672, 1337049980,
   1340675091, 1344310030, 1347954824, 1351609500, 1355274085, 1358948606, 1362633090, 1366327563, 1370032052,
   1373746586, 1377471191, 1381205894, 1384950723, 1388705706] ++
  [1392470869, 1396246240, 1400031848, 1403827719, 1407633882, 1411450365, 1415277195, 1419114401, 1422962010,
   1426820052, 1430688553, 1434567544, 1438457051, 1442357104, 1446267730, 1450188960, 1454120821, 1458063343,
   1462016553, 1465980482, 1469955159, 1473940611, 1477936870, 1481943963, 1485961921, 1489990772, 1494030547,
   1498081275, 1502142985, 1506215708, 1510299473, 1514394310] ++
  [1518500250, 1522617322, 1526745556, 1530884983, 1535035634, 1539197537, 1543370725, 1547555228, 1551751076,
   1555958300, 1560176931, 1564406999, 1568648537, 1572901575, 1577166143, 1581442275, 1585730000, 1590029350,
   1594340357, 1598663052, 1602997467, 1607343634, 1611701585, 1616071351, 1620452965, 1624846459, 1629251865,
   1633669214, 1638098541, 1642539877, 1646993254, 1651458706] ++
  [1655936265, 1660425963, 1664927835, 1669441912, 1673968228, 1678506817, 1683057710, 1687620943, 1692196547,
   1696784557, 1701385007, 1705997930, 1710623359, 1715261330, 1719911875, 1724575029, 1729250827, 1733939301,
   1738640488, 1743354420, 1748081133, 1752820662, 1757573041, 1762338305, 1767116489, 1771907628, 1776711757,
   1781528911, 1786359126, 1791202437, 1796058879, 1800928489] ++
  [1805811301, 1810707353, 1815616678, 1820539314, 1825475297, 1830424663, 1835387448, 1840363688, 1845353420,
   1850356681, 1855373507, 1860403934, 1865448001, 1870505744, 1875577199, 1880662405, 1885761398, 1890874216,
   1896000896, 1901141476, 1906295993, 1911464486, 1916646992, 1921843549, 1927054196, 1932278970, 1937517909,
   1942771053, 1948038440, 1953320108, 1958616096, 1963926443] ++
  [1969251188, 1974590370, 1979944027, 1985312200, 1990694927, 1996092249, 2001504204, 2006930832, 2012372174,
   2017828268, 2023299156, 2028784876, 2034285470, 2039800978, 2045331439, 2050876895, 2056437387, 2062012954,
   2067603638, 2073209480, 2078830522, 2084466803, 2090118366, 2095785251, 2101467502, 2107165158, 2112878262,
   2118606857, 2124350982, 2130110682, 2135885998, 2141676973]

/-- exp_ref on FP32 patterns. For +infinity, which a host's m_f can give, the procedure of R256 cannot be followed: a free value (assumption
33). -/
def exp (x : Nat) : Nat :=
  match toFv x with
  | .nan => qnan
  | .inf s => if s then 0 else Config.expInf.toNat
  | .fin s m e =>
    if vlt (toFv x) (.fin true 104 0) then 0
    else
      let mag : Nat := if 0 ≤ e + 40 then m * 2 ^ (e + 40).toNat
        else if s then m / 2 ^ (-(e + 40)).toNat else ceilDiv m (2 ^ (-(e + 40)).toNat)
      let xf : Int := if s then -(mag : Int) else mag
      let y : Int := (xf * log2eQ).fdiv (2 ^ 48)
      let n : Int := y.fdiv (2 ^ 40)
      let f : Int := y - n * 2 ^ 40
      let j := (f.fdiv (2 ^ 32)).toNat
      let r : Int := f.fmod (2 ^ 32)
      let a : Int := (r * ln2Q).fdiv (2 ^ 40)
      let b : Int := (a * a).fdiv (2 ^ 41)
      let z : Int := ((expTable.getD j 0 : Int) * (2 ^ 40 + a + b)).fdiv (2 ^ 40)
      let mant := rshift .nearest false z.toNat 7
      if n < -126 then 0 else round (.fin false mant (n - 23))

/-- tanh_ref on FP32 patterns. -/
def tanh (u : Nat) : Nat :=
  if isNan u then qnan
  else
    let a := abs u
    if lt a 0x3E000000 then
      let u2 := mul u u
      mul u (sub one (mul u2 (sub 0x3EAAAAAB (mul u2 0x3E088889))))
    else
      let e := exp (mul (neg 0x40000000) a)
      let t := div (sub one e) (add one e)
      if sign u then neg t else t

/-! ### The decay of a score (R217) -/

/-- e^(−x) × 2^96 for x in units of 2^-96 below ln 2: 40 terms of the series, whose error lies far below 2^-30. -/
def expNeg (x : Nat) : Nat :=
  ((List.range 40).foldl (fun (a : Nat × Int × Int) _ =>
    let t := (a.2.1 * (x : Int)).fdiv (2 ^ 96 * ((a.1 : Int) + 1))
    (a.1 + 1, -t, a.2.2 - t)) (0, (2 ^ 96 : Int), (2 ^ 96 : Int))).2.2.toNat

/-- round(ln(2) × 2^96). -/
def ln2_96 : Nat := 54916777467707473351141471128

/-- A score decayed over d ns with half-life 2^k ms (R217). Where a relative error below 2^-30 may decide the rounding, which of the
two results comes out is a free value. -/
def decay (s d k : Nat) : Nat :=
  let h := 2 ^ k * 1000000
  if d / h ≥ 400 then 0
  else match toFv s with
    | .fin n m e =>
      let v := m * expNeg (d % h * ln2_96 / h)
      let x : Int := e - 126 - (d / h : Nat)
      let lo := round (.fin n (v * (2 ^ 30 - 1)) x)
      let hi := round (.fin n (v * (2 ^ 30 + 1)) x)
      if lo = hi then lo else if Config.freeRound s d k then hi else lo
    | _ => s

end Fp
end Sys2Proof.Machine
end

