-- ==== Sys2Proof/Machine/Events.lean ====
section
/-! DEFINITION. The events of every block (the event tables R137, R196, R243, R291, R356, R397, R433, R436, R463, R500,
R537, R586, R588, R615, R657, R695, R722, R749, R774, R777, R779, R782), with the bit in EVT_LATCH and whether the chapter names an alarm. -/

namespace Sys2Proof.Machine

/-- An event: its block type, whether it stands in a unit instance, its EVT_LATCH bit, whether it is an alarm. -/
structure EvDef where
  blk : Nat
  unit : Bool
  bit : Nat
  alarm : Bool
  deriving DecidableEq, Repr

namespace Ev

def SEALED : EvDef := ⟨0x01, false, 0, false⟩
def EXPERT_DENIED : EvDef := ⟨0x01, false, 1, false⟩
def LOCKED_WRITE : EvDef := ⟨0x01, false, 2, false⟩
def VRANGE_REFUSED : EvDef := ⟨0x01, false, 3, false⟩
def DIE_RETIRED : EvDef := ⟨0x01, false, 4, true⟩
def SENSOR_EXCLUDED : EvDef := ⟨0x02, true, 0, true⟩
def SENSOR_INCLUDED : EvDef := ⟨0x02, true, 1, false⟩
def PACE_DEGRADED : EvDef := ⟨0x02, true, 2, false⟩
def RAIL_MISMATCH : EvDef := ⟨0x02, true, 3, true⟩
def VSET_REACHED : EvDef := ⟨0x02, true, 4, false⟩
def DIE_DEGRADED : EvDef := ⟨0x02, false, 0, false⟩
def PKG_RAIL_MISMATCH : EvDef := ⟨0x02, false, 3, true⟩
def TIME_STATE_CHANGE : EvDef := ⟨0x03, false, 0, false⟩
def HOLDOVER : EvDef := ⟨0x03, false, 1, true⟩
def PRIMARY_CHANGE : EvDef := ⟨0x03, false, 2, true⟩
def GM_CHANGE : EvDef := ⟨0x03, false, 3, false⟩
def PTP_PORT_CHANGE : EvDef := ⟨0x03, false, 4, false⟩
def PTM_LOST : EvDef := ⟨0x03, false, 5, false⟩
def STEP_FAIL : EvDef := ⟨0x04, false, 0, true⟩
def STEP_ALTERNATE : EvDef := ⟨0x04, false, 1, false⟩
def STEP_SKIPPED : EvDef := ⟨0x04, false, 2, false⟩
def SERVICE_LOCAL : EvDef := ⟨0x04, false, 3, false⟩
def SERVICE_JOINED : EvDef := ⟨0x04, false, 4, false⟩
def SERVICE_FULL : EvDef := ⟨0x04, false, 5, false⟩
def JOIN_REFUSED : EvDef := ⟨0x04, false, 6, true⟩
def IMAGE_MISMATCH : EvDef := ⟨0x04, false, 7, true⟩
def MAP_MISMATCH : EvDef := ⟨0x04, false, 8, false⟩
def KEY_SET : EvDef := ⟨0x05, false, 0, false⟩
def KEY_ERASED : EvDef := ⟨0x05, false, 1, false⟩
def SCRUB_DONE : EvDef := ⟨0x05, false, 2, false⟩
def TAG_FAULT : EvDef := ⟨0x05, false, 3, true⟩
def TDI_ERROR : EvDef := ⟨0x05, false, 4, false⟩
def ROLLBACK_REFUSED : EvDef := ⟨0x05, false, 5, true⟩
def DEBUG_CHANGE : EvDef := ⟨0x05, false, 6, true⟩
def FM_UNBOUND : EvDef := ⟨0x05, false, 7, true⟩
def FAULT : EvDef := ⟨0x06, false, 0, true⟩
def FAILOVER : EvDef := ⟨0x06, false, 1, true⟩
def STANDBY_LOST : EvDef := ⟨0x06, false, 2, true⟩
def HEADLESS : EvDef := ⟨0x06, false, 3, true⟩
def BRIDGE_FENCED : EvDef := ⟨0x06, false, 4, false⟩
def BRIDGE_LOST : EvDef := ⟨0x06, false, 5, true⟩
def QUOTA_CUT : EvDef := ⟨0x06, false, 6, true⟩
def LOG_DROP : EvDef := ⟨0x06, false, 7, false⟩
def TRACE_SLOW : EvDef := ⟨0x06, false, 8, false⟩
def MEAS_DONE : EvDef := ⟨0x07, false, 0, false⟩
def BUDGET_SHRINK : EvDef := ⟨0x07, false, 1, false⟩
def HOLDUP_FAULT : EvDef := ⟨0x07, false, 2, true⟩
def D_REFUSE : EvDef := ⟨0x07, false, 3, false⟩
def FLUSH_INCOMPLETE : EvDef := ⟨0x07, false, 4, true⟩
def REPLICA_MOVE : EvDef := ⟨0x07, false, 5, false⟩
def CE : EvDef := ⟨0x08, true, 0, false⟩
def UE : EvDef := ⟨0x08, true, 1, true⟩
def ROW_SPARED : EvDef := ⟨0x08, true, 2, false⟩
def REGION_RETIRED : EvDef := ⟨0x08, true, 3, true⟩
def PC_FAIL : EvDef := ⟨0x08, true, 4, true⟩
def STACK_RETIRED : EvDef := ⟨0x08, true, 5, true⟩
def TEMP_HIGH : EvDef := ⟨0x08, true, 6, false⟩
def TEMP_LIMIT : EvDef := ⟨0x08, true, 7, true⟩
def ANY_UE : EvDef := ⟨0x08, false, 0, false⟩
def SEAL_FAIL : EvDef := ⟨0x09, false, 0, false⟩
def LEASE_EXPIRED : EvDef := ⟨0x09, false, 1, false⟩
def ROLLBACK : EvDef := ⟨0x09, false, 2, false⟩
def GEN_RETIRE : EvDef := ⟨0x09, false, 3, false⟩
def LOST_HANDLE : EvDef := ⟨0x09, false, 4, false⟩
def GRP_ACTIVE : EvDef := ⟨0x0A, false, 0, false⟩
def GRP_INACTIVE : EvDef := ⟨0x0A, false, 1, false⟩
def GRP_REFUSED : EvDef := ⟨0x0A, false, 2, false⟩
def CAPO_BROKEN : EvDef := ⟨0x0A, false, 3, false⟩
def PUB_DEFER : EvDef := ⟨0x0A, false, 4, false⟩
def RING_CHANGE : EvDef := ⟨0x0A, false, 5, false⟩
def INDEX_FULL : EvDef := ⟨0x0A, false, 6, false⟩
def STALE_HOLDER : EvDef := ⟨0x0A, false, 7, false⟩
def DEMOTE_START : EvDef := ⟨0x0B, false, 0, false⟩
def TIER_BLOCKED : EvDef := ⟨0x0B, false, 1, false⟩
def ADMIT_REFUSED : EvDef := ⟨0x0B, false, 2, false⟩
def LATE_PREFETCH : EvDef := ⟨0x0B, false, 3, false⟩
def CADENCE_LOST : EvDef := ⟨0x0B, false, 4, false⟩
def MOVE_FAIL : EvDef := ⟨0x0B, false, 5, false⟩
def T2_LOST : EvDef := ⟨0x0B, false, 6, false⟩
def DESTAGE_BEHIND : EvDef := ⟨0x0B, false, 7, false⟩
def SPARE_USED : EvDef := ⟨0x0C, true, 0, false⟩
def CORE_FAIL : EvDef := ⟨0x0C, true, 1, false⟩
def CORE_RETIRED : EvDef := ⟨0x0C, true, 2, true⟩
def MERGE_STALL : EvDef := ⟨0x0C, true, 3, false⟩
def FALLBACK : EvDef := ⟨0x0C, false, 0, false⟩
def NAN_ROWS : EvDef := ⟨0x0C, false, 1, false⟩
def MERGE_STALL_ANY : EvDef := ⟨0x0C, false, 2, false⟩
def CORE_RETIRED_ANY : EvDef := ⟨0x0C, false, 3, false⟩
def VIEW_EXPIRED : EvDef := ⟨0x0C, false, 4, false⟩
def GSET_NAN : EvDef := ⟨0x0C, false, 5, false⟩
def CRC_ERROR : EvDef := ⟨0x0D, false, 0, false⟩
def BASE_LOST : EvDef := ⟨0x0D, false, 1, false⟩
def REMNANT : EvDef := ⟨0x0D, false, 2, false⟩
def NOCODE : EvDef := ⟨0x0D, false, 3, false⟩
def LANE_FAIL : EvDef := ⟨0x0D, true, 0, false⟩
def SC_CRC_ERROR : EvDef := ⟨0x0D, true, 1, false⟩
def QUEUE_ERROR : EvDef := ⟨0x0E, false, 0, false⟩
def ACCEPT_PAUSE : EvDef := ⟨0x0E, false, 1, false⟩
def VERSION_REFUSED : EvDef := ⟨0x0E, false, 2, false⟩
def STALE_EPOCH : EvDef := ⟨0x0E, false, 3, false⟩
def TAKEOVER : EvDef := ⟨0x0E, true, 0, false⟩
def DEADLINE_MISS : EvDef := ⟨0x0F, false, 0, false⟩
def LANE_MOVE : EvDef := ⟨0x0F, false, 1, false⟩
def PREEMPT : EvDef := ⟨0x0F, false, 2, false⟩
def SWITCH_DONE : EvDef := ⟨0x0F, false, 3, false⟩
def PART_FAULT : EvDef := ⟨0x0F, false, 4, false⟩
def RESERVE_SHORT : EvDef := ⟨0x0F, false, 5, false⟩
def RATE_RED : EvDef := ⟨0x10, false, 0, false⟩
def DLV_DEADLINE : EvDef := ⟨0x10, false, 1, false⟩
def DEST_REFUSED : EvDef := ⟨0x10, false, 2, false⟩
def HOLD_DROP : EvDef := ⟨0x10, false, 3, false⟩
def LINK_HOLD : EvDef := ⟨0x10, true, 0, false⟩
def HOLD_RELEASE : EvDef := ⟨0x10, true, 1, false⟩
def HOLD_DISCARD : EvDef := ⟨0x10, true, 2, false⟩
def GATE_SWITCH : EvDef := ⟨0x10, true, 3, false⟩
def GATE_REFUSED : EvDef := ⟨0x10, true, 4, false⟩
def EXT_GRANTED : EvDef := ⟨0x11, false, 0, false⟩
def EXT_REFUSED : EvDef := ⟨0x11, false, 1, false⟩
def REVOKED : EvDef := ⟨0x11, false, 2, false⟩
def LEASE_ADDED : EvDef := ⟨0x11, false, 3, false⟩
def MAP_REFUSED : EvDef := ⟨0x11, false, 4, false⟩
def SLOT_VACATED : EvDef := ⟨0x11, false, 5, false⟩
def WIN_WRITE : EvDef := ⟨0x11, false, 6, false⟩
def IDE_DOWN : EvDef := ⟨0x11, true, 0, false⟩
def CXL_PARTNER_CHANGED : EvDef := ⟨0x11, true, 1, false⟩
def POISON : EvDef := ⟨0x11, true, 2, false⟩
def VIRAL : EvDef := ⟨0x11, true, 3, false⟩
def SEVERE_LOAD : EvDef := ⟨0x11, true, 4, false⟩
def INCIDENT_DECLARED : EvDef := ⟨0x12, false, 0, true⟩
def STORM : EvDef := ⟨0x12, false, 1, true⟩
def PEER_REFUSED : EvDef := ⟨0x12, false, 2, false⟩
def CONN_ERROR : EvDef := ⟨0x12, false, 3, false⟩
def REPORT_FILED : EvDef := ⟨0x12, false, 4, false⟩
def NET_PARTNER_CHANGED : EvDef := ⟨0x12, true, 0, false⟩
def NET_LINK_DOWN : EvDef := ⟨0x12, true, 1, false⟩
def REBUILD_START : EvDef := ⟨0x13, false, 0, false⟩
def REBUILD_DONE : EvDef := ⟨0x13, false, 1, false⟩
def POSITION_LOST : EvDef := ⟨0x13, false, 2, false⟩
def CAPACITY_SHORT : EvDef := ⟨0x13, false, 3, true⟩
def LIFE_LOW : EvDef := ⟨0x13, false, 4, true⟩
def PSLC_FULL : EvDef := ⟨0x13, false, 5, false⟩
def BUDGET_EMPTY : EvDef := ⟨0x13, false, 6, false⟩
def RESTORE_FAIL : EvDef := ⟨0x13, false, 7, false⟩
def DIE_FAILED : EvDef := ⟨0x14, false, 0, true⟩
def NDIE_RETIRED : EvDef := ⟨0x14, false, 1, false⟩
def PROFILE_MISSING : EvDef := ⟨0x14, false, 2, false⟩
def FOREIGN_DIE : EvDef := ⟨0x14, false, 3, false⟩
def SPARE_ENGINE : EvDef := ⟨0x14, true, 0, false⟩
def CH_FAILED : EvDef := ⟨0x14, true, 1, true⟩
def UNREADABLE : EvDef := ⟨0x14, true, 2, false⟩
def PROG_FAULT : EvDef := ⟨0x15, false, 0, false⟩
def OVERFLOW : EvDef := ⟨0x15, false, 1, false⟩
def LOAD_DONE : EvDef := ⟨0x15, false, 2, false⟩
def LOAD_REFUSED : EvDef := ⟨0x15, false, 3, false⟩
def FAULT_LIMIT : EvDef := ⟨0x15, false, 4, true⟩
def SQ_RETIRED_ANY : EvDef := ⟨0x15, false, 5, true⟩
def SQ_RETIRED : EvDef := ⟨0x15, true, 0, true⟩
def QUEUE_FULL : EvDef := ⟨0x15, true, 1, false⟩
def NM_POISON : EvDef := ⟨0x16, false, 0, false⟩
def NM_REVOKED : EvDef := ⟨0x16, false, 1, false⟩
def CAL_DONE : EvDef := ⟨0x17, false, 0, false⟩
def CAL_DRIFT : EvDef := ⟨0x17, false, 1, false⟩

/-- Every event of every block. -/
def all : List EvDef :=
  [SEALED, EXPERT_DENIED, LOCKED_WRITE, VRANGE_REFUSED, DIE_RETIRED, SENSOR_EXCLUDED, SENSOR_INCLUDED, PACE_DEGRADED, RAIL_MISMATCH, VSET_REACHED, DIE_DEGRADED, PKG_RAIL_MISMATCH, TIME_STATE_CHANGE, HOLDOVER, PRIMARY_CHANGE, GM_CHANGE, PTP_PORT_CHANGE, PTM_LOST, STEP_FAIL, STEP_ALTERNATE, STEP_SKIPPED, SERVICE_LOCAL, SERVICE_JOINED, SERVICE_FULL, JOIN_REFUSED, IMAGE_MISMATCH, MAP_MISMATCH, KEY_SET, KEY_ERASED, SCRUB_DONE] ++
  [TAG_FAULT, TDI_ERROR, ROLLBACK_REFUSED, DEBUG_CHANGE, FM_UNBOUND, FAULT, FAILOVER, STANDBY_LOST, HEADLESS, BRIDGE_FENCED, BRIDGE_LOST, QUOTA_CUT, LOG_DROP, TRACE_SLOW, MEAS_DONE, BUDGET_SHRINK, HOLDUP_FAULT, D_REFUSE, FLUSH_INCOMPLETE, REPLICA_MOVE, CE, UE, ROW_SPARED, REGION_RETIRED, PC_FAIL, STACK_RETIRED, TEMP_HIGH, TEMP_LIMIT, ANY_UE, SEAL_FAIL] ++
  [LEASE_EXPIRED, ROLLBACK, GEN_RETIRE, LOST_HANDLE, GRP_ACTIVE, GRP_INACTIVE, GRP_REFUSED, CAPO_BROKEN, PUB_DEFER, RING_CHANGE, INDEX_FULL, STALE_HOLDER, DEMOTE_START, TIER_BLOCKED, ADMIT_REFUSED, LATE_PREFETCH, CADENCE_LOST, MOVE_FAIL, T2_LOST, DESTAGE_BEHIND, SPARE_USED, CORE_FAIL, CORE_RETIRED, MERGE_STALL, FALLBACK, NAN_ROWS, MERGE_STALL_ANY, CORE_RETIRED_ANY, VIEW_EXPIRED, GSET_NAN] ++
  [CRC_ERROR, BASE_LOST, REMNANT, NOCODE, LANE_FAIL, SC_CRC_ERROR, QUEUE_ERROR, ACCEPT_PAUSE, VERSION_REFUSED, STALE_EPOCH, TAKEOVER, DEADLINE_MISS, LANE_MOVE, PREEMPT, SWITCH_DONE, PART_FAULT, RESERVE_SHORT, RATE_RED, DLV_DEADLINE, DEST_REFUSED, HOLD_DROP, LINK_HOLD, HOLD_RELEASE, HOLD_DISCARD, GATE_SWITCH, GATE_REFUSED, EXT_GRANTED, EXT_REFUSED, REVOKED, LEASE_ADDED] ++
  [MAP_REFUSED, SLOT_VACATED, WIN_WRITE, IDE_DOWN, CXL_PARTNER_CHANGED, POISON, VIRAL, SEVERE_LOAD, INCIDENT_DECLARED, STORM, PEER_REFUSED, CONN_ERROR, REPORT_FILED, NET_PARTNER_CHANGED, NET_LINK_DOWN, REBUILD_START, REBUILD_DONE, POSITION_LOST, CAPACITY_SHORT, LIFE_LOW, PSLC_FULL, BUDGET_EMPTY, RESTORE_FAIL, DIE_FAILED, NDIE_RETIRED, PROFILE_MISSING, FOREIGN_DIE, SPARE_ENGINE, CH_FAILED, UNREADABLE] ++
  [PROG_FAULT, OVERFLOW, LOAD_DONE, LOAD_REFUSED, FAULT_LIMIT, SQ_RETIRED_ANY, SQ_RETIRED, QUEUE_FULL, NM_POISON, NM_REVOKED, CAL_DONE, CAL_DRIFT]

/-- Package events raised whenever an event of a unit instance is (R291, R749, R777, R782). -/
def mirrors : List (EvDef × EvDef) :=
  [(PACE_DEGRADED, DIE_DEGRADED), (UE, ANY_UE), (MERGE_STALL, MERGE_STALL_ANY), (CORE_RETIRED, CORE_RETIRED_ANY), (SQ_RETIRED, SQ_RETIRED_ANY)]

end Ev

end Sys2Proof.Machine
end

