-- ==== Sys2Proof/Machine/RegField.lean ====
section
/-! DEFINITION. What a register field is (R758): its place, its access type, its reset value, its scope. -/

namespace Sys2Proof.Machine

/-- The access types of R758. -/
inductive Acc where
  | rw | ro | w1c | w1s | wo | rc | rws | rwl | rwpf | rwc
  deriving DecidableEq, Repr

/-- One register field of one block, as a row of a chapter's bit table gives it. -/
structure Fld where
  /-- Block type code (R784). -/
  blk : Nat
  /-- The field stands on the unit instances' pages, not on the package page. -/
  unit : Bool
  /-- Offset of the register in the page. -/
  off : Nat
  hi : Nat
  lo : Nat
  acc : Acc
  reset : Nat
  /-- One copy for each partition (R757, R760). -/
  part : Bool := false
  /-- Offset of the select register whose value names the copy; 0 for none (R754). -/
  selOff : Nat := 0
  /-- A select register: one copy for each accessing agent (R754). -/
  isSel : Bool := false
  /-- Number of registers of an array. -/
  count : Nat := 1
  /-- Bytes of the register: 4 or 8. -/
  width : Nat := 4
  /-- A write takes the nearest value of this range ("values outside are clamped", R758). -/
  clamp : Option (Nat × Nat) := none
  /-- Value `a` acts as value `b` ("is treated as", R758). -/
  treat : Option (Nat × Nat) := none
  /-- Values below this act as this. -/
  least : Nat := 0
  /-- A count that wraps (R758); every other count saturates. -/
  wraps : Bool := false
  deriving DecidableEq, Repr

/-- A field with no scope and no write rule: block, unit page (1) or package page (0), offset, bits, access, reset. -/
def fld (b u o h l : Nat) (a : Acc) (r : Nat) : Fld :=
  { blk := b, unit := u == 1, off := o, hi := h, lo := l, acc := a, reset := r }

def Fld.pt (f : Fld) : Fld := { f with part := true }
def Fld.sl (f : Fld) (o : Nat) : Fld := { f with selOff := o }
def Fld.sel (f : Fld) : Fld := { f with isSel := true }
def Fld.ar (f : Fld) (n : Nat) : Fld := { f with count := n }
def Fld.w8 (f : Fld) : Fld := { f with width := 8 }
def Fld.cl (f : Fld) (a b : Nat) : Fld := { f with clamp := some (a, b) }
def Fld.tr (f : Fld) (a b : Nat) : Fld := { f with treat := some (a, b) }
def Fld.mn (f : Fld) (a : Nat) : Fld := { f with least := a }
def Fld.wr (f : Fld) : Fld := { f with wraps := true }

/-- Number of bits of the field. -/
def Fld.bits (f : Fld) : Nat := f.hi + 1 - f.lo

/-- The value as the device acts on it (R758 "treated as"). -/
def Fld.acts (f : Fld) (v : Nat) : Nat :=
  match f.treat with
  | some (a, b) => if v == a then b else max v f.least
  | none => max v f.least

/-- The value a write leaves (R758 "clamped"), cut to the field's bits. -/
def Fld.clamped (f : Fld) (v : Nat) : Nat :=
  match f.clamp with
  | some (a, b) => min b (max a v)
  | none => v % 2 ^ f.bits

end Sys2Proof.Machine
end

