-- ==== Sys2Proof/Machine/RegTable.lean ====
section
/-! DEFINITION. Every register field of the blocks, as the chapters' "block" sections list them (bits, access, reset),
with its scope: `pt` one copy per partition, `sl o` one per value of the select register at offset o,
`ar n` an array of n registers, `w8` a 64-bit register, `cl` a write clamps, `tr a b` value a acts as b, `wr` wraps. -/

namespace Sys2Proof.Machine.F

/-! ### SEQ block -/
def SEQ_PSEL : Fld := fld 0x09 0 0x100 5 0 .rwpf 0 |>.sel
def SEQ_LIMIT : Fld := fld 0x09 0 0x104 22 0 .rwpf 65536 |>.pt
def SEQ_OPEN_CNT : Fld := fld 0x09 0 0x108 22 0 .ro 0 |>.pt
def STAGE_QUOTA : Fld := fld 0x09 0 0x10C 15 0 .rwpf 0 |>.pt
def STAGE_USED : Fld := fld 0x09 0 0x110 15 0 .ro 0 |>.pt
def SEQ_CTRL_LEASE_MS : Fld := fld 0x09 0 0x114 7 0 .rw 20 |>.pt |>.tr 0 1
def SEQ_CTRL_DEF_CLASS : Fld := fld 0x09 0 0x114 9 8 .rw 0 |>.pt |>.tr 3 0
def SEQ_CTRL_AUTO_SEAL : Fld := fld 0x09 0 0x114 10 10 .rw 1 |>.pt
def SEQ_CTRL_DEF_ORDER : Fld := fld 0x09 0 0x114 14 12 .rw 5 |>.pt |>.tr 7 6
def SEAL_BACKLOG : Fld := fld 0x09 0 0x118 23 0 .ro 0 |>.pt
def SEAL_LAT_MAX : Fld := fld 0x09 0 0x11C 31 0 .rc 0 |>.pt
def GEN_RETIRED : Fld := fld 0x09 0 0x120 31 0 .ro 0 |>.pt
def LOST_HANDLES : Fld := fld 0x09 0 0x124 31 0 .rc 0 |>.pt
/-! ### PDIR block -/
def PDIR_PSEL : Fld := fld 0x0A 0 0x100 5 0 .rwpf 0 |>.sel
def PDIR_CTRL_SHARD_TO_US : Fld := fld 0x0A 0 0x104 9 0 .rwpf 200 |>.cl 20 1000
def PDIR_CTRL_PUB_TO_US : Fld := fld 0x0A 0 0x104 22 12 .rwpf 1000 |>.cl 100 2000
def PDIR_CTRL_SNAP_MS : Fld := fld 0x0A 0 0x104 30 24 .rwpf 5 |>.tr 0 1
def GRP_SEL : Fld := fld 0x0A 0 0x108 2 0 .rw 0 |>.sel
def GRP_ID : Fld := fld 0x0A 0 0x10C 31 0 .rw 0 |>.pt |>.sl 0x108
def GRP_KEY : Fld := fld 0x0A 0 0x110 11 0 .rw 0 |>.pt |>.sl 0x108
def GRP_MEMBERS : Fld := fld 0x0A 0 0x114 12 0 .rw 0 |>.pt |>.sl 0x108
def GRP_DIGEST : Fld := fld 0x0A 0 0x118 31 0 .rw 0 |>.pt |>.sl 0x108 |>.ar 4
def GRP_STATE_COMMIT : Fld := fld 0x0A 0 0x128 0 0 .w1s 0 |>.pt |>.sl 0x108
def GRP_STATE_STATE : Fld := fld 0x0A 0 0x128 3 1 .ro 0 |>.pt |>.sl 0x108
def GRP_STATE_MISSING : Fld := fld 0x0A 0 0x128 15 4 .ro 0 |>.pt |>.sl 0x108
def GRP_STATE_REASON : Fld := fld 0x0A 0 0x128 19 16 .ro 0 |>.pt |>.sl 0x108
def GRP_LIST : Fld := fld 0x0A 0 0x168 63 0 .rw 0 |>.pt |>.sl 0x108 |>.w8
def CAPO_LIMIT : Fld := fld 0x0A 0 0x130 15 0 .rwpf 256 |>.pt
def CAPO_COUNT : Fld := fld 0x0A 0 0x134 15 0 .ro 0 |>.pt
def LOOKUPS : Fld := fld 0x0A 0 0x138 63 0 .ro 0 |>.pt |>.w8 |>.wr
def HIT_POS : Fld := fld 0x0A 0 0x140 63 0 .ro 0 |>.pt |>.w8
def IMPORT_KIB : Fld := fld 0x0A 0 0x148 63 0 .ro 0 |>.pt |>.w8
def LEAVES_PUB : Fld := fld 0x0A 0 0x150 31 0 .ro 0 |>.pt
def UNPUB_SEALS : Fld := fld 0x0A 0 0x154 31 0 .rc 0 |>.pt
def DUP_SEALS : Fld := fld 0x0A 0 0x158 31 0 .rc 0 |>.pt
def PUB_DEFERRED : Fld := fld 0x0A 0 0x15C 31 0 .ro 0 |>.pt
def SHARD_UNREACH : Fld := fld 0x0A 0 0x160 31 0 .rc 0 |>.pt
def RING_EPOCH : Fld := fld 0x0A 0 0x180 31 0 .ro 0
def SHARDS_OWNED : Fld := fld 0x0A 0 0x184 17 0 .ro 0
def SHARDS_MOVING : Fld := fld 0x0A 0 0x188 17 0 .ro 0
def SNAP_VER : Fld := fld 0x0A 0 0x18C 31 0 .ro 0
def INDEX_ENTRIES : Fld := fld 0x0A 0 0x190 31 0 .ro 0
def INDEX_RSV : Fld := fld 0x0A 0 0x194 3 0 .rwl 2
def PDIR_HOLDER_MAX : Fld := fld 0x0A 0 0x800 4 0 .rwl 8
def PDIR_QFAN : Fld := fld 0x0A 0 0x804 6 0 .rwl 64
/-! ### TIER block -/
def TIER_PSEL : Fld := fld 0x0B 0 0x100 5 0 .rwpf 0 |>.sel
def TIER_CTRL_PREFETCH_EN : Fld := fld 0x0B 0 0x104 0 0 .rw 1 |>.pt
def TIER_CTRL_SEQ_PREFETCH_EN : Fld := fld 0x0B 0 0x104 1 1 .rw 1 |>.pt
def TIER_CTRL_AUTO_DESTAGE : Fld := fld 0x0B 0 0x104 2 2 .rwpf 1 |>.pt
def TIER_CTRL_HALF_LIFE : Fld := fld 0x0B 0 0x104 7 4 .rw 11 |>.pt
def TIER_CTRL_SEQ_PREFETCH_DEPTH : Fld := fld 0x0B 0 0x104 10 8 .rw 2 |>.pt |>.tr 0 1
def PREFETCH_LEAD : Fld := fld 0x0B 0 0x108 13 0 .rw 200 |>.pt |>.cl 10 10000
def ADMIT_WAIT : Fld := fld 0x0B 0 0x10C 13 0 .rwpf 1000 |>.pt |>.cl 0 10000
def SCORE_SEED : Fld := fld 0x0B 0 0x110 15 0 .rw 256 |>.pt
def T0_QUOTA : Fld := fld 0x0B 0 0x114 9 0 .ro 0 |>.pt
def T0_USED : Fld := fld 0x0B 0 0x118 17 0 .ro 0 |>.pt
def T1_QUOTA : Fld := fld 0x0B 0 0x11C 9 0 .ro 0 |>.pt
def T1_USED : Fld := fld 0x0B 0 0x120 19 0 .ro 0 |>.pt
def T2_QUOTA : Fld := fld 0x0B 0 0x124 18 0 .ro 0 |>.pt
def T2_USED : Fld := fld 0x0B 0 0x128 27 0 .ro 0 |>.pt
def T3_QUOTA : Fld := fld 0x0B 0 0x12C 17 0 .ro 0 |>.pt
def T3_USED : Fld := fld 0x0B 0 0x130 27 0 .ro 0 |>.pt
def D_COUNTED : Fld := fld 0x0B 0 0x134 19 0 .ro 0 |>.pt
def CADENCE_GROUPS : Fld := fld 0x0B 0 0x138 8 0 .ro 0 |>.pt
def DEMAND_FETCHES : Fld := fld 0x0B 0 0x13C 31 0 .rc 0 |>.pt
def LATE_PREFETCH : Fld := fld 0x0B 0 0x140 31 0 .rc 0 |>.pt
def PREFETCH_SKIPPED : Fld := fld 0x0B 0 0x144 31 0 .rc 0 |>.pt
def EVICTIONS : Fld := fld 0x0B 0 0x148 31 0 .rc 0 |>.pt
def RETAINED_DROPS : Fld := fld 0x0B 0 0x14C 31 0 .rc 0 |>.pt
def MOVE_KIB : Fld := fld 0x0B 0 0x150 63 0 .ro 0 |>.pt |>.w8 |>.wr
def LOST_T2 : Fld := fld 0x0B 0 0x158 31 0 .rc 0 |>.pt
def TIER_STATE : Fld := fld 0x0B 0 0x15C 7 0 .ro 0 |>.pt
def CADENCE_CFG_ALPHA : Fld := fld 0x0B 0 0x800 2 0 .rw 3 |>.pt |>.tr 0 1
def CADENCE_CFG_LOSS_PCT : Fld := fld 0x0B 0 0x800 15 8 .rw 50 |>.pt
def PROTECT_GRACE : Fld := fld 0x0B 0 0x804 13 0 .rw 1000 |>.pt
def PIN_MAX_MS : Fld := fld 0x0B 0 0x808 10 0 .rwpf 1000 |>.pt
def EVAC_MS : Fld := fld 0x0B 0 0x80C 15 0 .rwpf 500 |>.pt
/-! ### ATT block -/
def ATT_PSEL : Fld := fld 0x0C 0 0x100 5 0 .rwpf 0 |>.sel
def ATT_CTRL_DET_FORCE : Fld := fld 0x0C 0 0x104 0 0 .rw 0 |>.pt
def ATT_CTRL_MASS_EN : Fld := fld 0x0C 0 0x104 1 1 .rw 1 |>.pt
def ATT_CTRL_STEAL_EN : Fld := fld 0x0C 0 0x104 2 2 .rwpf 1 |>.pt
def ATT_CTRL_RUN_MAX : Fld := fld 0x0C 0 0x104 15 8 .rw 64 |>.pt |>.tr 0 1
def FB_SPARSE_TOPN : Fld := fld 0x0C 0 0x108 7 0 .rw 16 |>.pt |>.tr 0 1
def FB_SPARSE_SINK : Fld := fld 0x0C 0 0x108 11 8 .rw 1 |>.pt
def FB_SPARSE_RECENT : Fld := fld 0x0C 0 0x108 15 12 .rw 2 |>.pt
def ROWS_EMPTY : Fld := fld 0x0C 0 0x10C 31 0 .rc 0 |>.pt
def ROWS_NAN : Fld := fld 0x0C 0 0x110 31 0 .rc 0 |>.pt
def FALLBACKS : Fld := fld 0x0C 0 0x114 31 0 .rc 0 |>.pt
def REMOTE_RUNS : Fld := fld 0x0C 0 0x118 31 0 .rc 0 |>.pt
def LAT_MAX : Fld := fld 0x0C 0 0x11C 31 0 .rc 0 |>.pt
def COMMANDS : Fld := fld 0x0C 0 0x120 63 0 .ro 0 |>.pt |>.w8 |>.wr
def TILES : Fld := fld 0x0C 0 0x128 63 0 .ro 0 |>.pt |>.w8 |>.wr
def FMA_MI : Fld := fld 0x0C 0 0x130 63 0 .ro 0 |>.pt |>.w8
def SPARSE_PAGES : Fld := fld 0x0C 0 0x138 63 0 .ro 0 |>.pt |>.w8
def STEAL_RATIO : Fld := fld 0x0C 0 0x800 3 0 .rwl 2 |>.tr 0 1
def MERGE_STALL_US : Fld := fld 0x0C 0 0x804 9 0 .rw 10 |>.pt |>.tr 0 1
def ATT_CSEL : Fld := fld 0x0C 1 0x100 3 0 .rw 15 |>.sel
def LOGICAL_OK : Fld := fld 0x0C 1 0x104 31 0 .ro 0 |>.sl 0x100
def PHYS_OK : Fld := fld 0x0C 1 0x108 33 0 .ro 0 |>.sl 0x100 |>.w8
def RETIRED : Fld := fld 0x0C 1 0x110 31 0 .ro 0 |>.sl 0x100
def BUSY : Fld := fld 0x0C 1 0x114 31 0 .ro 0 |>.sl 0x100
def MERGE_USED : Fld := fld 0x0C 1 0x118 9 0 .ro 0 |>.sl 0x100
def TILES_RUN : Fld := fld 0x0C 1 0x11C 31 0 .rc 0 |>.sl 0x100
def RUNS_STOLEN : Fld := fld 0x0C 1 0x120 31 0 .rc 0
def VIEW_LIMIT : Fld := fld 0x0C 0 0x140 15 0 .rwpf 4096 |>.pt
def VIEW_COUNT : Fld := fld 0x0C 0 0x144 15 0 .ro 0 |>.pt
def VIEW_MS : Fld := fld 0x0C 0 0x148 19 0 .rw 60000 |>.pt |>.cl 100 1000000
def GSET_MIB : Fld := fld 0x0C 0 0x14C 19 0 .ro 0 |>.pt
def BWD_COMMANDS : Fld := fld 0x0C 0 0x150 63 0 .ro 0 |>.pt |>.w8 |>.wr
def GSET_NAN : Fld := fld 0x0C 0 0x158 63 0 .ro 0 |>.pt |>.w8
/-! ### CDC block -/
def CDC_PSEL : Fld := fld 0x0D 0 0x100 5 0 .rwpf 0 |>.sel
def CDC_CTRL_DELTA_EN : Fld := fld 0x0D 0 0x104 0 0 .rw 1 |>.pt
def CDC_CTRL_STREAM_SEAL_EN : Fld := fld 0x0D 0 0x104 1 1 .rwpf 1 |>.pt
def CDC_CTRL_RATIO_ALPHA : Fld := fld 0x0D 0 0x104 6 4 .rw 4 |>.pt |>.tr 0 1
def CDC_LSEL : Fld := fld 0x0D 0 0x108 7 0 .rw 0 |>.sel
def LAYER_RATIO : Fld := fld 0x0D 0 0x10C 15 0 .ro 0 |>.pt |>.sl 0x108
def LAYER_STEPS : Fld := fld 0x0D 0 0x110 15 0 .ro 0 |>.pt |>.sl 0x108
def TABLE_INFO_FMT_VER : Fld := fld 0x0D 0 0x114 15 0 .ro 0 |>.pt
def TABLE_INFO_TABLES : Fld := fld 0x0D 0 0x114 31 16 .ro 0 |>.pt
def BLOCKS_CODED : Fld := fld 0x0D 0 0x118 63 0 .ro 0 |>.pt |>.w8 |>.wr
def BLOCKS_RAW : Fld := fld 0x0D 0 0x120 63 0 .ro 0 |>.pt |>.w8
def BLOCKS_ZERO : Fld := fld 0x0D 0 0x128 63 0 .ro 0 |>.pt |>.w8
def DELTA_PAGES : Fld := fld 0x0D 0 0x130 31 0 .ro 0 |>.pt |>.wr
def REMNANT_MIB : Fld := fld 0x0D 0 0x134 19 0 .ro 0 |>.pt
def CRC_ERRORS : Fld := fld 0x0D 0 0x138 31 0 .rc 0 |>.pt
def RAW_NOCODE : Fld := fld 0x0D 0 0x13C 31 0 .rc 0 |>.pt
def RAW_PERMILLE : Fld := fld 0x0D 0 0x140 9 0 .ro 0 |>.pt
def SC_CTRL : Fld := fld 0x0D 1 0x100 7 0 .rw 4 |>.tr 0 1
def SC_LANES_BUSY : Fld := fld 0x0D 1 0x104 3 0 .ro 0
def SC_LANES_WORKING : Fld := fld 0x0D 1 0x104 11 8 .ro 8
def SC_QUEUES : Fld := fld 0x0D 1 0x108 15 0 .ro 0
def SC_WAIT_MAX : Fld := fld 0x0D 1 0x10C 31 0 .rc 0
def SC_IN_KIB : Fld := fld 0x0D 1 0x110 63 0 .ro 0 |>.w8 |>.wr
def SC_OUT_KIB : Fld := fld 0x0D 1 0x118 63 0 .ro 0 |>.w8 |>.wr
def SC_CRC_ERR : Fld := fld 0x0D 1 0x120 31 0 .rc 0
/-! ### QMGR block -/
def QSEL : Fld := fld 0x0E 0 0x100 15 0 .rw 0 |>.sel
def QCTRL_ENABLE : Fld := fld 0x0E 0 0x104 0 0 .rw 0 |>.sl 0x100
def QCTRL_RESET : Fld := fld 0x0E 0 0x104 1 1 .w1s 0 |>.sl 0x100
def QCTRL_SQ_INLINE : Fld := fld 0x0E 0 0x104 2 2 .rw 0 |>.sl 0x100
def QCTRL_CQ_INLINE : Fld := fld 0x0E 0 0x104 3 3 .rw 0 |>.sl 0x100
def QCTRL_IRQ_EN : Fld := fld 0x0E 0 0x104 4 4 .rw 0 |>.sl 0x100
def QCTRL_FE : Fld := fld 0x0E 0 0x104 5 5 .rw 0 |>.sl 0x100
def QCTRL_SQ_LOG2 : Fld := fld 0x0E 0 0x104 12 8 .rw 6 |>.sl 0x100 |>.cl 6 16
def QCTRL_CQ_LOG2 : Fld := fld 0x0E 0 0x104 20 16 .rw 6 |>.sl 0x100 |>.cl 6 16
def QSTATE_STATE : Fld := fld 0x0E 0 0x108 2 0 .ro 0 |>.sl 0x100
def QSTATE_REASON : Fld := fld 0x0E 0 0x108 7 4 .ro 0 |>.sl 0x100
def QSTATE_ACCEPT_PAUSED : Fld := fld 0x0E 0 0x108 8 8 .ro 0 |>.sl 0x100
def QBIND_QGROUP : Fld := fld 0x0E 0 0x10C 7 0 .rw 0 |>.sl 0x100
def QBIND_PARTITION : Fld := fld 0x0E 0 0x10C 13 8 .rwpf 0 |>.sl 0x100
def QBIND_VECTOR : Fld := fld 0x0E 0 0x10C 26 16 .rw 0 |>.sl 0x100
def SQ_BASE : Fld := fld 0x0E 0 0x110 63 0 .rw 0 |>.sl 0x100 |>.w8
def CQ_BASE : Fld := fld 0x0E 0 0x118 63 0 .rw 0 |>.sl 0x100 |>.w8
def QVER_OFFER_MIN : Fld := fld 0x0E 0 0x120 15 0 .rw 512 |>.sl 0x100
def QVER_OFFER_MAX : Fld := fld 0x0E 0 0x120 31 16 .rw 770 |>.sl 0x100
def QVER_CHOSEN : Fld := fld 0x0E 0 0x124 15 0 .ro 0 |>.sl 0x100
def IRQ_AGG_COUNT : Fld := fld 0x0E 0 0x128 7 0 .rw 1 |>.sl 0x100
def IRQ_AGG_US : Fld := fld 0x0E 0 0x128 25 16 .rw 0 |>.sl 0x100
def SQ_PTRS_HEAD : Fld := fld 0x0E 0 0x12C 15 0 .ro 0 |>.sl 0x100
def SQ_PTRS_TAIL : Fld := fld 0x0E 0 0x12C 31 16 .ro 0 |>.sl 0x100
def CQ_PTRS_HEAD : Fld := fld 0x0E 0 0x130 15 0 .ro 0 |>.sl 0x100
def CQ_PTRS_TAIL : Fld := fld 0x0E 0 0x130 31 16 .ro 0 |>.sl 0x100
def INFLIGHT : Fld := fld 0x0E 0 0x134 16 0 .ro 0 |>.sl 0x100
def QMGR_PSEL : Fld := fld 0x0E 0 0x138 5 0 .rwpf 0 |>.sel
def QP_LIMIT : Fld := fld 0x0E 0 0x13C 16 0 .rwpf 0 |>.pt
def QP_USED : Fld := fld 0x0E 0 0x140 16 0 .ro 0 |>.pt
def INLINE_QUOTA : Fld := fld 0x0E 0 0x144 14 0 .rwpf 0 |>.pt |>.cl 0 16384
def INLINE_USED : Fld := fld 0x0E 0 0x148 14 0 .ro 0 |>.pt
def CMDS : Fld := fld 0x0E 0 0x150 63 0 .ro 0 |>.pt |>.w8 |>.wr
def ACCEPT_STALLS : Fld := fld 0x0E 0 0x158 31 0 .rc 0 |>.pt
def ENTRY_ERRORS : Fld := fld 0x0E 0 0x15C 31 0 .rc 0 |>.pt
def FETCH_BURST : Fld := fld 0x0E 0 0x800 6 0 .rwl 8 |>.tr 0 1
/-! ### SCHED block -/
def SCHED_PSEL : Fld := fld 0x0F 0 0x100 5 0 .rwpf 0 |>.sel
def SCHED_CTRL_PREEMPT_EN : Fld := fld 0x0F 0 0x104 0 0 .rwpf 1 |>.pt
def SCHED_CTRL_MON_EN : Fld := fld 0x0F 0 0x104 1 1 .rw 1 |>.pt
def SCHED_CTRL_LANE_LEND : Fld := fld 0x0F 0 0x104 2 2 .rw 1 |>.pt
def SCHED_CTRL_MIX_PM : Fld := fld 0x0F 0 0x104 25 16 .rw 250 |>.pt |>.cl 0 1000
def QG_SEL : Fld := fld 0x0F 0 0x108 7 0 .rw 0 |>.sel
def QG_SHARE : Fld := fld 0x0F 0 0x10C 15 0 .rw 1 |>.pt |>.sl 0x108
def QG_STATUS_RUNS : Fld := fld 0x0F 0 0x110 15 0 .ro 0 |>.pt |>.sl 0x108
def QG_STATUS_CORES : Fld := fld 0x0F 0 0x110 27 16 .ro 0 |>.pt |>.sl 0x108
def MON_GUARD : Fld := fld 0x0F 0 0x114 13 0 .rw 5 |>.pt
def PREEMPT_WAIT : Fld := fld 0x0F 0 0x118 13 0 .rwpf 20 |>.pt |>.tr 0 1
def PART_STATE_STATE : Fld := fld 0x0F 0 0x11C 2 0 .ro 0 |>.pt
def PART_STATE_ISOLATED : Fld := fld 0x0F 0 0x11C 3 3 .ro 0 |>.pt
def PART_CORES_CORES : Fld := fld 0x0F 0 0x120 11 0 .ro 0 |>.pt
def PART_CORES_LANE : Fld := fld 0x0F 0 0x120 27 16 .ro 0 |>.pt
def GEOM_CUR : Fld := fld 0x0F 0 0x124 15 0 .ro 0 |>.pt
def SWITCH_NS : Fld := fld 0x0F 0 0x128 31 0 .ro 0 |>.pt
def DEADLINE_MISSES : Fld := fld 0x0F 0 0x12C 31 0 .rc 0 |>.pt
def LANE_MOVES : Fld := fld 0x0F 0 0x130 31 0 .rc 0 |>.pt
def PREEMPT_KILLS : Fld := fld 0x0F 0 0x134 31 0 .rc 0 |>.pt
def PREEMPT_CUTS : Fld := fld 0x0F 0 0x138 31 0 .rc 0 |>.pt
def MIX_ACTUAL : Fld := fld 0x0F 0 0x13C 9 0 .ro 0 |>.pt
def PRED_ERR_MAX : Fld := fld 0x0F 0 0x140 31 0 .rc 0 |>.pt
def SHARE_WINDOW : Fld := fld 0x0F 0 0x800 9 0 .rwl 10
def KILL_MAX : Fld := fld 0x0F 0 0x804 3 0 .rwl 3 |>.tr 0 1
def MON_PERIOD : Fld := fld 0x0F 0 0x808 9 0 .rwl 5
def RELEASE_AHEAD : Fld := fld 0x0F 0 0x80C 5 0 .rwl 8
/-! ### ACCT block -/
def ACCT_PSEL : Fld := fld 0x17 0 0x100 5 0 .rwpf 0 |>.sel
def ACCT_SEL_QGROUP : Fld := fld 0x17 0 0x104 7 0 .rw 0 |>.sel
def ACCT_SEL_KIND : Fld := fld 0x17 0 0x104 9 8 .rw 0 |>.sel
def ACCT_LATCH : Fld := fld 0x17 0 0x108 0 0 .w1s 0 |>.pt
def ACCT_CTRL : Fld := fld 0x17 0 0x10C 7 0 .rwpf 10 |>.tr 0 1
def LATCH_TIME : Fld := fld 0x17 0 0x110 63 0 .ro 0 |>.pt |>.w8
def Counters : Fld := fld 0x17 0 0x118 63 0 .ro 0 |>.pt |>.ar 21 |>.w8
def POWER_MW : Fld := fld 0x17 0 0x1C0 31 0 .ro 0 |>.pt
def CAL_ERR : Fld := fld 0x17 0 0x1C4 9 0 .ro 0
/-! ### DLV block -/
def DLV_PSEL : Fld := fld 0x10 0 0x100 5 0 .rwpf 0 |>.sel
def DLV_CTRL : Fld := fld 0x10 0 0x104 3 0 .rw 4 |>.pt
def DQ_SEL : Fld := fld 0x10 0 0x108 15 0 .rw 0 |>.sel
def DQ_CFG_QGROUP : Fld := fld 0x10 0 0x10C 7 0 .rw 0 |>.pt |>.sl 0x108
def DQ_CFG_GATE_CLASS : Fld := fld 0x10 0 0x10C 10 8 .rw 0 |>.pt |>.sl 0x108
def DQ_QUANTUM : Fld := fld 0x10 0 0x110 20 0 .rw 16384 |>.pt |>.sl 0x108 |>.cl 64 1048576
def DQ_OVH_FIXED : Fld := fld 0x10 0 0x114 7 0 .rw 0 |>.pt |>.sl 0x108
def DQ_OVH_PER_UNIT : Fld := fld 0x10 0 0x114 15 8 .rw 0 |>.pt |>.sl 0x108
def DQ_OVH_UNIT_LOG2 : Fld := fld 0x10 0 0x114 19 16 .rw 12 |>.pt |>.sl 0x108 |>.cl 6 12
def DQ_DEPTH : Fld := fld 0x10 0 0x118 31 0 .ro 0 |>.pt |>.sl 0x108
def DQ_DEPTH_MAX : Fld := fld 0x10 0 0x11C 31 0 .rc 0 |>.pt |>.sl 0x108
def DQ_DELAY : Fld := fld 0x10 0 0x120 31 0 .ro 0 |>.pt |>.sl 0x108
def DQ_DELAY_MAX : Fld := fld 0x10 0 0x124 31 0 .rc 0 |>.pt |>.sl 0x108
def DEST_SEL : Fld := fld 0x10 0 0x128 11 0 .rw 0 |>.sel
def DEST_CTRL_ENABLE : Fld := fld 0x10 0 0x12C 0 0 .rw 0 |>.pt |>.sl 0x128
def DEST_CTRL_COMMIT : Fld := fld 0x10 0 0x12C 1 1 .w1s 0 |>.pt |>.sl 0x128
def DEST_CTRL_LAND_EN : Fld := fld 0x10 0 0x12C 2 2 .rw 0 |>.pt |>.sl 0x128
def DEST_CTRL_PORT : Fld := fld 0x10 0 0x12C 7 4 .rw 0 |>.pt |>.sl 0x128
def DEST_STATE_STATE : Fld := fld 0x10 0 0x130 1 0 .ro 0 |>.pt |>.sl 0x128
def DEST_STATE_REASON : Fld := fld 0x10 0 0x130 7 4 .ro 0 |>.pt |>.sl 0x128
def DEST_REMOTE : Fld := fld 0x10 0 0x134 23 0 .rw 0 |>.pt |>.sl 0x128
def DEST_BASE : Fld := fld 0x10 0 0x138 63 0 .rw 0 |>.pt |>.sl 0x128 |>.w8
def DEST_LEN : Fld := fld 0x10 0 0x140 63 0 .rw 0 |>.pt |>.sl 0x128 |>.w8
def DEST_LAND : Fld := fld 0x10 0 0x148 63 0 .rw 0 |>.pt |>.sl 0x128 |>.w8
def SHP_CIR : Fld := fld 0x10 0 0x150 31 0 .rw 0 |>.pt |>.sl 0x128
def SHP_PIR : Fld := fld 0x10 0 0x154 31 0 .rw 0 |>.pt |>.sl 0x128
def SHP_BURST_CBS_KIB : Fld := fld 0x10 0 0x158 15 0 .rw 64 |>.pt |>.sl 0x128
def SHP_BURST_PBS_KIB : Fld := fld 0x10 0 0x158 31 16 .rw 64 |>.pt |>.sl 0x128
def PLC_SEL : Fld := fld 0x10 0 0x160 7 0 .rw 0 |>.sel
def PLC_CTRL_ENABLE : Fld := fld 0x10 0 0x164 0 0 .rw 0 |>.pt |>.sl 0x160
def PLC_CTRL_AWARE : Fld := fld 0x10 0 0x164 1 1 .rw 0 |>.pt |>.sl 0x160
def PLC_CTRL_YELLOW_BELOW : Fld := fld 0x10 0 0x164 7 4 .rw 0 |>.pt |>.sl 0x160
def PLC_CIR : Fld := fld 0x10 0 0x168 31 0 .rw 0 |>.pt |>.sl 0x160
def PLC_PIR : Fld := fld 0x10 0 0x16C 31 0 .rw 0 |>.pt |>.sl 0x160
def PLC_BURST_CBS_KIB : Fld := fld 0x10 0 0x170 15 0 .rw 1024 |>.pt |>.sl 0x160
def PLC_BURST_PBS_KIB : Fld := fld 0x10 0 0x170 31 16 .rw 4096 |>.pt |>.sl 0x160
def PLC_GREEN : Fld := fld 0x10 0 0x174 31 0 .rc 0 |>.pt |>.sl 0x160
def PLC_YELLOW : Fld := fld 0x10 0 0x178 31 0 .rc 0 |>.pt |>.sl 0x160
def PLC_RED : Fld := fld 0x10 0 0x17C 31 0 .rc 0 |>.pt |>.sl 0x160
def DQ_LIMIT : Fld := fld 0x10 0 0x180 16 0 .rwpf 0 |>.pt
def DEST_LIMIT : Fld := fld 0x10 0 0x184 12 0 .rwpf 0 |>.pt
def PORT_MASK : Fld := fld 0x10 0 0x188 15 0 .rwpf 0 |>.pt
def DELIVERED_KIB : Fld := fld 0x10 0 0x190 63 0 .ro 0 |>.pt |>.w8 |>.wr
def HOLD_DROPS : Fld := fld 0x10 0 0x198 31 0 .rc 0 |>.pt
def PORT_STATE : Fld := fld 0x10 1 0x100 1 0 .ro 0
def HOLD_US : Fld := fld 0x10 1 0x104 13 0 .rw 500 |>.cl 0 10000
def PORT_RATE : Fld := fld 0x10 1 0x108 31 0 .rw 121000
def REFILL_NS : Fld := fld 0x10 1 0x10C 16 0 .rw 1000 |>.cl 100 100000
def GATE_CTRL_COMMIT : Fld := fld 0x10 1 0x110 0 0 .w1s 0
def GATE_CTRL_STATE : Fld := fld 0x10 1 0x110 2 1 .ro 0
def GATE_CTRL_ENTRIES : Fld := fld 0x10 1 0x110 16 8 .rw 1 |>.cl 0 256 |>.tr 0 1
def GATE_CTRL_CURRENT : Fld := fld 0x10 1 0x110 31 24 .ro 0
def GATE_CYCLE_NS : Fld := fld 0x10 1 0x114 29 0 .rw 1000000 |>.cl 1000 1000000000
def GATE_BASE : Fld := fld 0x10 1 0x118 63 0 .rw 0 |>.w8
def GATE_CHANGE_TIME : Fld := fld 0x10 1 0x120 63 0 .rw 0 |>.w8
def HELD_ITEMS : Fld := fld 0x10 1 0x128 31 0 .ro 0
def QUEUED_KIB : Fld := fld 0x10 1 0x12C 31 0 .ro 0
def GATE_ADMIN_INTERVAL_NS : Fld := fld 0x10 1 0x400 23 0 .rw 0 |>.ar 256 |>.mn 100
def GATE_ADMIN_MASK : Fld := fld 0x10 1 0x400 31 24 .rw 0 |>.ar 256
def GATE_OPER : Fld := fld 0x10 1 0x800 31 0 .ro 0 |>.ar 256
/-! ### CXL block -/
def CXL_PSEL : Fld := fld 0x11 0 0x100 5 0 .rwpf 0 |>.sel
def HOST_PORTS : Fld := fld 0x11 0 0x104 7 0 .rwpf 0 |>.pt
def HOST_ALLOW_SEL : Fld := fld 0x11 0 0x108 3 0 .rw 0 |>.sel
def HOST_ALLOW_PBR_ID : Fld := fld 0x11 0 0x10C 11 0 .rwpf 0 |>.pt |>.sl 0x108
def HOST_ALLOW_VALID : Fld := fld 0x11 0 0x10C 15 15 .rwpf 0 |>.pt |>.sl 0x108
def WIN_QUOTA : Fld := fld 0x11 0 0x110 12 0 .rwpf 0 |>.pt
def WIN_SEL : Fld := fld 0x11 0 0x114 11 0 .rw 0 |>.sel
def WIN_MAP_ADDR : Fld := fld 0x11 0 0x118 63 0 .rw 0 |>.pt |>.sl 0x114 |>.w8
def WIN_MAP_ENTRIES : Fld := fld 0x11 0 0x120 16 0 .rw 0 |>.pt |>.sl 0x114 |>.cl 0 65536
def WIN_CTRL_COMMIT : Fld := fld 0x11 0 0x124 0 0 .w1s 0 |>.pt |>.sl 0x114
def WIN_CTRL_WIN_QGROUP : Fld := fld 0x11 0 0x124 15 8 .rw 0 |>.pt
def WIN_STATE_STATE : Fld := fld 0x11 0 0x128 2 0 .ro 0 |>.pt |>.sl 0x114
def WIN_STATE_REASON : Fld := fld 0x11 0 0x128 11 8 .ro 0 |>.pt |>.sl 0x114
def LEASE_HOLDER_PBR_ID : Fld := fld 0x11 0 0x12C 11 0 .ro 0 |>.pt |>.sl 0x114
def LEASE_HOLDER_PORT : Fld := fld 0x11 0 0x12C 14 12 .ro 0 |>.pt |>.sl 0x114
def LEASE_EPOCH : Fld := fld 0x11 0 0x130 31 0 .ro 0 |>.pt |>.sl 0x114
def LEASES : Fld := fld 0x11 0 0x134 12 0 .ro 0 |>.pt
def WIN_SLOTS : Fld := fld 0x11 0 0x138 31 0 .ro 0 |>.pt
def WIN_VACATED : Fld := fld 0x11 0 0x13C 31 0 .rc 0 |>.pt
def POOL_MAX : Fld := fld 0x11 0 0x140 18 0 .rwpf 0 |>.pt
def EXT_SEL : Fld := fld 0x11 0 0x144 11 0 .rw 0 |>.sel
def EXT_INFO_KIND : Fld := fld 0x11 0 0x148 1 0 .ro 0 |>.pt |>.sl 0x144
def EXT_INFO_STATE : Fld := fld 0x11 0 0x148 3 2 .ro 0 |>.pt |>.sl 0x144
def EXT_INFO_TRAY : Fld := fld 0x11 0 0x148 15 4 .ro 0 |>.pt |>.sl 0x144
def EXT_INFO_PORTS : Fld := fld 0x11 0 0x148 23 16 .ro 0 |>.pt |>.sl 0x144
def EXT_INFO_TRAY_MODE : Fld := fld 0x11 0 0x148 24 24 .ro 0 |>.pt |>.sl 0x144
def EXT_EPOCH : Fld := fld 0x11 0 0x14C 31 0 .ro 0 |>.pt |>.sl 0x144
def EXT_LEN : Fld := fld 0x11 0 0x150 8 0 .ro 0 |>.pt |>.sl 0x144
def REVOKES : Fld := fld 0x11 0 0x154 31 0 .rc 0 |>.pt
def WIN_RD_KIB : Fld := fld 0x11 0 0x158 63 0 .ro 0 |>.pt |>.w8 |>.wr
def WIN_WRITES : Fld := fld 0x11 0 0x160 31 0 .rc 0 |>.pt
def EXTENTS : Fld := fld 0x11 0 0x164 12 0 .ro 0 |>.pt
def LOAD_CFG_LOAD_LO : Fld := fld 0x11 0 0x800 9 0 .rwl 250
def LOAD_CFG_LOAD_HI : Fld := fld 0x11 0 0x800 19 10 .rwl 600
def LOAD_CFG_LOAD_SEV : Fld := fld 0x11 0 0x800 29 20 .rwl 900
def HOST_OUTST : Fld := fld 0x11 0 0x804 9 0 .rwpf 256 |>.pt |>.tr 0 1
def HOST_RATE : Fld := fld 0x11 0 0x808 15 0 .rwpf 0 |>.pt
def SF_USED : Fld := fld 0x11 0 0x80C 24 0 .ro 0
def PORT_CTRL_HOST_EN : Fld := fld 0x11 1 0x100 0 0 .rwl 1
def PORT_CTRL_POOL_EN : Fld := fld 0x11 1 0x100 1 1 .rwl 0
def PORT_CTRL_IDE_REQ : Fld := fld 0x11 1 0x100 2 2 .rwl 1
def PORT_CTRL_CACHE_EN : Fld := fld 0x11 1 0x100 3 3 .rw 0
def LINK_STATUS_RATE : Fld := fld 0x11 1 0x104 2 0 .ro 0
def LINK_STATUS_WIDTH : Fld := fld 0x11 1 0x104 6 4 .ro 0
def LINK_STATUS_CXL : Fld := fld 0x11 1 0x104 8 8 .ro 0
def LINK_STATUS_IDE_UP : Fld := fld 0x11 1 0x104 9 9 .ro 0
def PARTNER_ID : Fld := fld 0x11 1 0x108 63 0 .ro 0 |>.w8
def PARTNER_PORT_PORT : Fld := fld 0x11 1 0x110 7 0 .ro 0
def PARTNER_PORT_VALID : Fld := fld 0x11 1 0x110 8 8 .ro 0
def RETRAINS : Fld := fld 0x11 1 0x114 31 0 .rc 0
def REPLAYS : Fld := fld 0x11 1 0x118 31 0 .rc 0
def POISON_RX : Fld := fld 0x11 1 0x11C 31 0 .rc 0
def POISON_TX : Fld := fld 0x11 1 0x120 31 0 .rc 0
def DEVLOAD_LAST : Fld := fld 0x11 1 0x124 1 0 .ro 0
def DEVLOAD_MAX : Fld := fld 0x11 1 0x124 3 2 .rc 0
def TRAY_LIMIT : Fld := fld 0x11 1 0x128 9 0 .ro 256
def BISNP : Fld := fld 0x11 1 0x12C 31 0 .rc 0
def RD_QUEUE : Fld := fld 0x11 1 0x130 10 0 .ro 0
/-! ### NM block -/
def NM_PSEL : Fld := fld 0x16 0 0x100 5 0 .rwpf 0 |>.sel
def NM_CMDS : Fld := fld 0x16 0 0x108 63 0 .ro 0 |>.pt |>.w8 |>.wr
def NM_KIB : Fld := fld 0x16 0 0x110 63 0 .ro 0 |>.pt |>.w8
def NM_POISON : Fld := fld 0x16 0 0x118 31 0 .rc 0 |>.pt
def NM_REVOKED : Fld := fld 0x16 0 0x11C 31 0 .rc 0 |>.pt
def NM_DIFFER : Fld := fld 0x16 0 0x120 31 0 .rc 0 |>.pt
/-! ### NET block -/
def NET_PSEL : Fld := fld 0x12 0 0x100 5 0 .rwpf 0 |>.sel
def NET_CTRL_MALROTH_EN : Fld := fld 0x12 0 0x104 0 0 .rwl 1
def NET_CTRL_LN520_EN : Fld := fld 0x12 0 0x104 1 1 .rwl 1
def NET_CTRL_LEADER_ELIGIBLE : Fld := fld 0x12 0 0x104 2 2 .rwl 1
def DOMAIN_ID : Fld := fld 0x12 0 0x108 31 0 .rwl 0
def FAIL_GROUP : Fld := fld 0x12 0 0x10C 15 0 .rwl 0
def MAL_VER_MIN : Fld := fld 0x12 0 0x110 15 0 .rwl 512
def MAL_VER_MAX : Fld := fld 0x12 0 0x110 31 16 .rwl 769
def TREE_STATE_GROUP : Fld := fld 0x12 0 0x114 15 0 .ro 0
def TREE_STATE_LEADER : Fld := fld 0x12 0 0x114 16 16 .ro 0
def TREE_STATE_COORDINATOR : Fld := fld 0x12 0 0x114 17 17 .ro 0
def LEADER_SERIAL : Fld := fld 0x12 0 0x118 63 0 .ro 0 |>.w8
def MEMBERS : Fld := fld 0x12 0 0x120 14 0 .ro 0
def CONN_SEL : Fld := fld 0x12 0 0x124 15 0 .rw 0 |>.sel
def CONN_CTRL_OPEN : Fld := fld 0x12 0 0x128 0 0 .w1s 0 |>.sl 0x124
def CONN_CTRL_CLOSE : Fld := fld 0x12 0 0x128 1 1 .w1s 0 |>.sl 0x124
def CONN_CTRL_PORT : Fld := fld 0x12 0 0x128 11 8 .rw 0 |>.sl 0x124
def CONN_CTRL_MTU : Fld := fld 0x12 0 0x128 13 12 .rw 2 |>.sl 0x124 |>.tr 3 2
def CONN_CTRL_DSCP : Fld := fld 0x12 0 0x128 21 16 .rw 26 |>.sl 0x124
def CONN_STATE_STATE : Fld := fld 0x12 0 0x12C 2 0 .ro 0 |>.sl 0x124
def CONN_STATE_REASON : Fld := fld 0x12 0 0x12C 15 8 .ro 0 |>.sl 0x124
def CONN_RIP : Fld := fld 0x12 0 0x130 31 0 .rw 0 |>.sl 0x124 |>.ar 4
def CONN_QPN : Fld := fld 0x12 0 0x140 23 0 .rw 0 |>.sl 0x124
def CONN_RKEY : Fld := fld 0x12 0 0x144 31 0 .rw 0 |>.sl 0x124
def CONN_QUOTA : Fld := fld 0x12 0 0x148 16 0 .rwpf 0 |>.pt
def CONN_USED : Fld := fld 0x12 0 0x14C 16 0 .ro 0 |>.pt
def MSG_TO_US : Fld := fld 0x12 0 0x150 13 0 .rw 500 |>.cl 50 10000
def INC_USED : Fld := fld 0x12 0 0x154 10 0 .ro 0
def INC_DECLARED : Fld := fld 0x12 0 0x158 31 0 .rc 0
def INC_KNOWN : Fld := fld 0x12 0 0x15C 31 0 .rc 0
def STORMS : Fld := fld 0x12 0 0x160 31 0 .rc 0
def MSG_RETRIES : Fld := fld 0x12 0 0x164 31 0 .rc 0
def DUP_DROPS : Fld := fld 0x12 0 0x168 31 0 .rc 0
def FETCH_BUSY : Fld := fld 0x12 0 0x16C 31 0 .rc 0
def FETCH_SERVED : Fld := fld 0x12 0 0x170 63 0 .ro 0 |>.w8 |>.wr
def PEER_REFUSED : Fld := fld 0x12 0 0x178 31 0 .rc 0
def INC_CFG_WINDOW_MS : Fld := fld 0x12 0 0x800 7 0 .rwl 5 |>.tr 0 1
def INC_CFG_PROBE_GAP_US : Fld := fld 0x12 0 0x800 15 8 .rwl 50 |>.cl 10 255
def INC_CFG_PROBE_TO_US : Fld := fld 0x12 0 0x800 25 16 .rwl 100 |>.cl 20 1000
def HB_US : Fld := fld 0x12 0 0x804 13 0 .rwl 1000 |>.cl 100 10000
def FETCH_MAX : Fld := fld 0x12 0 0x808 7 0 .rwl 32 |>.tr 0 1
def NETP_CTRL_ENABLE : Fld := fld 0x12 1 0x100 0 0 .rwl 1
def NETP_CTRL_PFC_MASK : Fld := fld 0x12 1 0x100 15 8 .rw 0
def NETP_CTRL_LLDP_TX : Fld := fld 0x12 1 0x100 16 16 .rw 1
def NETP_LINK_UP : Fld := fld 0x12 1 0x104 0 0 .ro 0
def NETP_LINK_SPEED : Fld := fld 0x12 1 0x104 3 1 .ro 0
def PARTNER_DIGEST : Fld := fld 0x12 1 0x108 63 0 .ro 0 |>.w8
def PARTNER_VALID : Fld := fld 0x12 1 0x110 0 0 .ro 0
def IPV4 : Fld := fld 0x12 1 0x114 31 0 .rw 0
def IPV6 : Fld := fld 0x12 1 0x118 31 0 .rw 0 |>.ar 4
def ECN_MARKED : Fld := fld 0x12 1 0x128 31 0 .rc 0
def CNP_RX : Fld := fld 0x12 1 0x12C 31 0 .rc 0
def RETRANS : Fld := fld 0x12 1 0x130 31 0 .rc 0
def PAUSE_RX : Fld := fld 0x12 1 0x134 31 0 .rc 0
def RX_KIB : Fld := fld 0x12 1 0x138 63 0 .ro 0 |>.w8 |>.wr
def TX_KIB : Fld := fld 0x12 1 0x140 63 0 .ro 0 |>.w8 |>.wr
/-! ### FTL block -/
def FTL_CTRL_DRONE_EN : Fld := fld 0x13 0 0x100 0 0 .rw 1
def FTL_CTRL_WB_EN : Fld := fld 0x13 0 0x100 1 1 .rw 0
def FTL_CTRL_STATIC_WL_EN : Fld := fld 0x13 0 0x100 2 2 .rw 1
def PATROL_DAYS : Fld := fld 0x13 0 0x104 4 0 .rw 7 |>.cl 1 30
def RAW_GIB : Fld := fld 0x13 0 0x108 17 0 .ro 0
def USER_GIB : Fld := fld 0x13 0 0x10C 17 0 .ro 0
def ASSIGNED_GIB : Fld := fld 0x13 0 0x110 17 0 .ro 0
def USED_GIB : Fld := fld 0x13 0 0x114 17 0 .ro 0
def PSLC_TARGET : Fld := fld 0x13 0 0x118 15 0 .ro 0
def PSLC_USED : Fld := fld 0x13 0 0x11C 15 0 .ro 0
def WA_PM : Fld := fld 0x13 0 0x120 15 0 .ro 1000
def LIFE_USED_PM : Fld := fld 0x13 0 0x124 9 0 .ro 0
def LIFE_DAYS : Fld := fld 0x13 0 0x128 15 0 .ro 65535
def HOST_WR_KIB : Fld := fld 0x13 0 0x130 63 0 .ro 0 |>.w8 |>.wr
def NAND_WR_KIB : Fld := fld 0x13 0 0x138 63 0 .ro 0 |>.w8 |>.wr
def LOST_ROWS : Fld := fld 0x13 0 0x140 31 0 .rc 0
def REBUILD_STATE : Fld := fld 0x13 0 0x144 1 0 .ro 0
def REBUILD_PERMILLE : Fld := fld 0x13 0 0x144 25 16 .ro 0
def REFRESHES : Fld := fld 0x13 0 0x148 31 0 .rc 0
def PATROL_PM : Fld := fld 0x13 0 0x14C 9 0 .ro 0
def RECOVERY_MS : Fld := fld 0x13 0 0x150 15 0 .ro 0
def RESTORES : Fld := fld 0x13 0 0x154 31 0 .rc 0
def WB_REFUSED : Fld := fld 0x13 0 0x158 31 0 .rc 0
def OP_PCT : Fld := fld 0x13 0 0x800 4 0 .rwl 12 |>.cl 7 30
def GC_CFG_GC_LOW : Fld := fld 0x13 0 0x804 7 0 .rwl 8
def GC_CFG_GC_HIGH : Fld := fld 0x13 0 0x804 15 8 .rwl 16
def REFRESH_PCT : Fld := fld 0x13 0 0x808 6 0 .rwl 75
def WEAR_SPREAD : Fld := fld 0x13 0 0x80C 15 0 .rwl 2000
def BG_CFG_BG_SHARE : Fld := fld 0x13 0 0x810 9 0 .rwl 100
def BG_CFG_REBUILD_PM : Fld := fld 0x13 0 0x810 25 16 .rwl 500
def MAPCACHE_MIB : Fld := fld 0x13 0 0x814 11 0 .rwl 1024
def SET_COUNT : Fld := fld 0x13 1 0x100 3 0 .ro 0
def SET_SEL : Fld := fld 0x13 1 0x104 2 0 .rw 0 |>.sel
def SET_INFO_WIDTH : Fld := fld 0x13 1 0x108 5 0 .ro 0 |>.sl 0x104
def SET_INFO_STATE : Fld := fld 0x13 1 0x108 9 8 .ro 0 |>.sl 0x104
def SET_FREE_SB : Fld := fld 0x13 1 0x10C 15 0 .ro 0 |>.sl 0x104
def SET_WEAR_MIN : Fld := fld 0x13 1 0x110 31 0 .ro 0 |>.sl 0x104
def SET_WEAR_MAX : Fld := fld 0x13 1 0x114 31 0 .ro 0 |>.sl 0x104
def SET_ROWS_LEFT : Fld := fld 0x13 1 0x118 31 0 .ro 0 |>.sl 0x104
def FOLD_BACKLOG : Fld := fld 0x13 1 0x11C 23 0 .ro 0
def FREE_GIB : Fld := fld 0x13 1 0x120 17 0 .ro 0
/-! ### NAND block -/
def DIES_PRESENT : Fld := fld 0x14 0 0x100 9 0 .ro 0
def DIES_ACTIVE : Fld := fld 0x14 0 0x104 9 0 .ro 0
def DIES_RETIRED : Fld := fld 0x14 0 0x108 9 0 .ro 0
def DIES_UNUSED : Fld := fld 0x14 0 0x10C 9 0 .ro 0
def PROFILE_VER : Fld := fld 0x14 0 0x110 15 0 .ro 0
def NAND_CTRL : Fld := fld 0x14 0 0x114 0 0 .rwl 0
def CH_STATE_STATE : Fld := fld 0x14 1 0x100 1 0 .ro 0
def CH_STATE_DIES : Fld := fld 0x14 1 0x100 12 8 .ro 0
def CH_IFACE_KIND : Fld := fld 0x14 1 0x104 1 0 .ro 0
def CH_IFACE_MTS : Fld := fld 0x14 1 0x104 15 4 .ro 0
def DIE_SEL : Fld := fld 0x14 1 0x108 3 0 .rw 0 |>.sel
def DIE_INFO_STATE : Fld := fld 0x14 1 0x10C 2 0 .ro 0 |>.sl 0x108
def DIE_INFO_REASON : Fld := fld 0x14 1 0x10C 7 4 .ro 0 |>.sl 0x108
def DIE_INFO_GROUP : Fld := fld 0x14 1 0x10C 8 8 .ro 0 |>.sl 0x108
def DIE_INFO_SET : Fld := fld 0x14 1 0x10C 14 12 .ro 0 |>.sl 0x108
def DIE_INFO_PROFILE : Fld := fld 0x14 1 0x10C 23 16 .ro 0 |>.sl 0x108
def DIE_GIB : Fld := fld 0x14 1 0x110 9 0 .ro 0 |>.sl 0x108
def DIE_BAD_BLOCKS : Fld := fld 0x14 1 0x114 15 0 .ro 0 |>.sl 0x108
def DIE_WEAR_AVG : Fld := fld 0x14 1 0x118 31 0 .ro 0 |>.sl 0x108
def DIE_RETRIES : Fld := fld 0x14 1 0x11C 31 0 .rc 0 |>.sl 0x108
def DIE_SOFT : Fld := fld 0x14 1 0x120 31 0 .rc 0 |>.sl 0x108
def DIE_PARITY_RD : Fld := fld 0x14 1 0x124 31 0 .rc 0 |>.sl 0x108
def DIE_PE_FAIL : Fld := fld 0x14 1 0x128 31 0 .rc 0 |>.sl 0x108
def CH_RD_KIB : Fld := fld 0x14 1 0x130 63 0 .ro 0 |>.w8 |>.wr
def CH_WR_KIB : Fld := fld 0x14 1 0x138 63 0 .ro 0 |>.w8 |>.wr
/-! ### PLP block -/
def PLP_PSEL : Fld := fld 0x07 0 0x100 5 0 .rwpf 0 |>.sel
def PLP_CTRL_MEAS_NOW : Fld := fld 0x07 0 0x104 0 0 .w1s 0
def PLP_CTRL_REHEARSE_NOW : Fld := fld 0x07 0 0x104 1 1 .w1s 0
def PLP_CTRL_HU_PRESENT : Fld := fld 0x07 0 0x104 2 2 .rwl 1
def MEAS_PERIOD : Fld := fld 0x07 0 0x108 11 0 .rwl 600 |>.cl 60 3600
def HU_VC : Fld := fld 0x07 0 0x10C 15 0 .ro 0
def HU_CAP : Fld := fld 0x07 0 0x110 19 0 .ro 0
def HU_LEAK : Fld := fld 0x07 0 0x114 15 0 .ro 0
def HU_ENERGY : Fld := fld 0x07 0 0x118 19 0 .ro 0
def D_BUDGET : Fld := fld 0x07 0 0x11C 19 0 .ro 0
def D_TOTAL : Fld := fld 0x07 0 0x120 19 0 .ro 0
def D_LIMIT : Fld := fld 0x07 0 0x124 19 0 .rwpf 1048575 |>.pt
def D_USED : Fld := fld 0x07 0 0x128 19 0 .ro 0 |>.pt
def D_REFUSED : Fld := fld 0x07 0 0x12C 31 0 .rc 0 |>.pt
def FLUSH_RATE : Fld := fld 0x07 0 0x130 19 0 .ro 0
def FLUSH_EB : Fld := fld 0x07 0 0x134 15 0 .ro 0
def MEAS_TIME : Fld := fld 0x07 0 0x138 63 0 .ro 0 |>.w8
def FLUSH_LAST : Fld := fld 0x07 0 0x140 1 0 .rws 0
def FLUSH_MS : Fld := fld 0x07 0 0x144 15 0 .rws 0
def FLUSH_MIB : Fld := fld 0x07 0 0x148 19 0 .rws 0
def P_UNREPLICATED : Fld := fld 0x07 0 0x14C 31 0 .ro 0
def REPLICA_USED : Fld := fld 0x07 0 0x150 17 0 .ro 0
def HU_VMIN : Fld := fld 0x07 0 0x800 15 0 .rwl 0
def HU_EFF : Fld := fld 0x07 0 0x804 9 0 .rwl 850 |>.cl 500 990
def REPLICA_GIB : Fld := fld 0x07 0 0x808 17 0 .rwl 0
def REPLICA_CFG_AUDIT_H : Fld := fld 0x07 0 0x80C 7 0 .rwl 1 |>.tr 0 1
def REPLICA_CFG_KEEP_H : Fld := fld 0x07 0 0x80C 23 8 .rwl 72 |>.tr 0 1
/-! ### SEC block -/
def SEC_PSEL : Fld := fld 0x05 0 0x100 5 0 .rwpf 0 |>.sel
def SEC_STATE_LIFECYCLE : Fld := fld 0x05 0 0x104 1 0 .ro 0
def SEC_STATE_DEBUG : Fld := fld 0x05 0 0x104 3 2 .ro 0
def SEC_STATE_FM_BOUND : Fld := fld 0x05 0 0x104 4 4 .ro 0
def SEC_STATE_IDE_ALL : Fld := fld 0x05 0 0x104 5 5 .ro 0
def SEC_STATE_EPOCH_OK : Fld := fld 0x05 0 0x104 6 6 .ro 0
def SEC_STATE_GROUPS_OK : Fld := fld 0x05 0 0x104 7 7 .ro 0
def SEC_STATE_DEBUG_OK : Fld := fld 0x05 0 0x104 8 8 .ro 0
def SEC_STATE_NET_ISOLATED : Fld := fld 0x05 0 0x104 9 9 .ro 0
def KEY_SEL : Fld := fld 0x05 0 0x108 11 0 .rw 0 |>.sel
def KEY_INFO_STATE : Fld := fld 0x05 0 0x10C 1 0 .ro 0 |>.pt |>.sl 0x108
def KEY_INFO_TYPE : Fld := fld 0x05 0 0x10C 5 2 .ro 0 |>.pt |>.sl 0x108
def KEY_INFO_RETIRED : Fld := fld 0x05 0 0x10C 6 6 .ro 0 |>.pt |>.sl 0x108
def KEY_INFO_GEN : Fld := fld 0x05 0 0x10C 31 16 .ro 0 |>.pt |>.sl 0x108
def KEYS_SET : Fld := fld 0x05 0 0x110 12 0 .ro 0 |>.pt
def SEC_CTRL : Fld := fld 0x05 0 0x114 0 0 .rwpf 0 |>.pt
def SESSIONS : Fld := fld 0x05 0 0x118 9 0 .ro 0 |>.pt
def TDI_STATE : Fld := fld 0x05 0 0x11C 23 0 .ro 0 |>.pt
def SCRUB_NS : Fld := fld 0x05 0 0x120 31 0 .ro 0 |>.pt
def KEY_WITHDRAWN : Fld := fld 0x05 0 0x124 31 0 .rc 0 |>.pt
def ATTESTS : Fld := fld 0x05 0 0x128 31 0 .rc 0 |>.pt
def FW_SVN : Fld := fld 0x05 0 0x130 31 0 .ro 0
def FUSE_SVN : Fld := fld 0x05 0 0x134 31 0 .ro 0
def SVN_COMMIT_STAGE : Fld := fld 0x05 0 0x138 3 0 .w1s 0
def SVN_COMMIT_REVOKE : Fld := fld 0x05 0 0x138 7 4 .w1s 0
def DEBUG_ENTRIES : Fld := fld 0x05 0 0x13C 7 0 .ro 0
def TAG_FAULTS : Fld := fld 0x05 0 0x140 31 0 .rc 0
def FM_REJECTS : Fld := fld 0x05 0 0x144 31 0 .rc 0
def SEC_NET : Fld := fld 0x05 0 0x148 0 0 .rwl 0
def FM_PIN : Fld := fld 0x05 0 0x800 31 0 .rwl 0 |>.ar 12
/-! ### FLT block -/
def FLT_PSEL : Fld := fld 0x06 0 0x100 5 0 .rwpf 0 |>.sel
def FLT_CTRL_RETIRE : Fld := fld 0x06 0 0x104 0 0 .rwl 0
def FLT_CTRL_RETIRED : Fld := fld 0x06 0 0x104 1 1 .ro 0
def LEAD_STATE_LEAD : Fld := fld 0x06 0 0x108 1 0 .ro 3
def LEAD_STATE_HELD : Fld := fld 0x06 0 0x108 15 8 .ro 0
def LEAD_STATE_STANDBY_OK : Fld := fld 0x06 0 0x108 16 16 .ro 0
def LEAD_EPOCH : Fld := fld 0x06 0 0x10C 31 0 .ro 0
def FAILOVERS : Fld := fld 0x06 0 0x110 31 0 .ro 0
def LAST_TAKEOVER_NS : Fld := fld 0x06 0 0x114 31 0 .ro 0
def INTERRUPT_MAX : Fld := fld 0x06 0 0x118 31 0 .rc 0
def FAULT_COUNT : Fld := fld 0x06 0 0x11C 31 0 .ro 0
def FAULT_SEL : Fld := fld 0x06 0 0x120 31 0 .rw 0 |>.sel
def FAULT_NEXT : Fld := fld 0x06 0 0x124 31 0 .ro 1
def FAULT_REC : Fld := fld 0x06 0 0x128 31 0 .ro 0 |>.sl 0x120 |>.ar 8
def ALARMS_HELD : Fld := fld 0x06 0 0x148 12 0 .ro 0
def LOSTREC_HELD : Fld := fld 0x06 0 0x14C 15 0 .ro 0
def LOG_BASE : Fld := fld 0x06 0 0x150 63 0 .rw 0 |>.pt |>.w8
def LOG_CTRL_ENABLE : Fld := fld 0x06 0 0x158 0 0 .rw 0 |>.pt
def LOG_CTRL_LOG_LOG2 : Fld := fld 0x06 0 0x158 8 4 .rw 10 |>.pt |>.cl 6 16
def LOG_CTRL_VECTOR : Fld := fld 0x06 0 0x158 26 16 .rw 0 |>.pt
def LOG_PTRS_HEAD : Fld := fld 0x06 0 0x15C 15 0 .rw 0 |>.pt
def LOG_PTRS_TAIL : Fld := fld 0x06 0 0x15C 31 16 .ro 0 |>.pt
def LOG_DROPS : Fld := fld 0x06 0 0x160 31 0 .rc 0 |>.pt
def TRACE_CTRL_SOURCES : Fld := fld 0x06 0 0x164 3 0 .rw 0 |>.pt
def TRACE_CTRL_LOG2_MIN : Fld := fld 0x06 0 0x164 11 8 .rw 0 |>.pt
def TRACE_CTRL_LOG2_NOW : Fld := fld 0x06 0 0x164 19 16 .ro 0 |>.pt
def PART_FAULT_REASON : Fld := fld 0x06 0 0x168 3 0 .ro 0 |>.pt
def PART_FAULT_FORCE : Fld := fld 0x06 0 0x168 8 8 .w1s 0 |>.pt
def WATCHDOG_STEPS : Fld := fld 0x06 0 0x800 15 0 .rwl 4096
def HALF_WD_US : Fld := fld 0x06 0 0x804 15 0 .rwl 500 |>.cl 100 10000
def BRIDGE_CFG_RESTART_MAX : Fld := fld 0x06 0 0x808 3 0 .rwl 3
def BRIDGE_CFG_RESTART_S : Fld := fld 0x06 0 0x808 15 8 .rwl 2 |>.tr 0 1
def QB_TELEM : Fld := fld 0x06 0 0x80C 15 0 .rwl 100
def QB_DEST : Fld := fld 0x06 0 0x810 63 0 .rwl 0 |>.w8
def HALF_STATE : Fld := fld 0x06 1 0x100 2 0 .ro 0
def HALF_EPOCH : Fld := fld 0x06 1 0x104 31 0 .ro 0
def CLAIMS : Fld := fld 0x06 1 0x108 31 0 .rc 0
def MIRROR_LAG : Fld := fld 0x06 1 0x10C 15 0 .ro 0
def JOURNAL_SEQ : Fld := fld 0x06 1 0x110 63 0 .ro 0 |>.w8
def STALE_REJECTS : Fld := fld 0x06 1 0x118 31 0 .rc 0
def WD_RESETS : Fld := fld 0x06 1 0x11C 15 0 .rc 0
/-! ### BOOT block -/
def BOOT_PHASE_STEP : Fld := fld 0x04 0 0x100 3 0 .ro 0
def BOOT_PHASE_SERVICE : Fld := fld 0x04 0 0x100 5 4 .ro 0
def BOOT_CTRL_FM_WAIVE : Fld := fld 0x04 0 0x104 0 0 .w1s 0
def BOOT_CTRL_JOIN_NOW : Fld := fld 0x04 0 0x104 1 1 .w1s 0
def STEP_SEL : Fld := fld 0x04 0 0x108 3 0 .rw 0 |>.sel
def STEP_STATE_STATE : Fld := fld 0x04 0 0x10C 2 0 .rws 0 |>.sl 0x108
def STEP_STATE_ATTEMPTS : Fld := fld 0x04 0 0x10C 7 4 .rws 0 |>.sl 0x108
def STEP_STATE_RESULT : Fld := fld 0x04 0 0x10C 15 8 .rws 0 |>.sl 0x108
def STEP_STATE_UNIT : Fld := fld 0x04 0 0x10C 31 16 .rws 0 |>.sl 0x108
def STEP_START : Fld := fld 0x04 0 0x110 63 0 .rws 0 |>.sl 0x108 |>.w8
def STEP_END : Fld := fld 0x04 0 0x118 63 0 .rws 0 |>.sl 0x108 |>.w8
def BOOT_EPOCH : Fld := fld 0x04 0 0x120 31 0 .ro 0
def IMAGE_SRC_BL1_H0 : Fld := fld 0x04 0 0x124 1 0 .ro 0
def IMAGE_SRC_SHUARN_H0 : Fld := fld 0x04 0 0x124 3 2 .ro 0
def IMAGE_SRC_BL1_H1 : Fld := fld 0x04 0 0x124 5 4 .ro 0
def IMAGE_SRC_SHUARN_H1 : Fld := fld 0x04 0 0x124 7 6 .ro 0
def RESET_CAUSE_KIND : Fld := fld 0x04 0 0x128 1 0 .rws 0
def RESET_CAUSE_AFTER_PFAIL : Fld := fld 0x04 0 0x128 2 2 .rws 0
def JOIN_STATE_ROLE : Fld := fld 0x04 0 0x12C 1 0 .ro 0
def JOIN_STATE_MEMBERS_HEARD : Fld := fld 0x04 0 0x12C 15 8 .ro 0
def JOIN_STATE_MAP_VER : Fld := fld 0x04 0 0x12C 31 16 .ro 0
def LOCAL_NS : Fld := fld 0x04 0 0x130 31 0 .ro 0
def FULL_NS : Fld := fld 0x04 0 0x134 31 0 .ro 0
def MEAS_SEL : Fld := fld 0x04 0 0x138 7 0 .rw 0 |>.sel
def MEAS_VALUE_VALUE : Fld := fld 0x04 0 0x13C 15 0 .ro 0 |>.sl 0x138
def MEAS_VALUE_OUT_OF_RANGE : Fld := fld 0x04 0 0x13C 16 16 .ro 0 |>.sl 0x138
def LANE_SEL : Fld := fld 0x04 0 0x140 7 0 .rw 0 |>.sel
def LANE_LOSS_DB10 : Fld := fld 0x04 0 0x144 11 0 .ro 0 |>.sl 0x140
def LANE_LOSS_LEN_DM : Fld := fld 0x04 0 0x144 27 16 .ro 0 |>.sl 0x140
def REPUB_LEFT : Fld := fld 0x04 0 0x148 31 0 .ro 0
def BOOT_PLAN_ATTEMPTS : Fld := fld 0x04 0 0x800 3 0 .rwl 0 |>.ar 10 |>.tr 0 1
def BOOT_PLAN_ON_FAIL : Fld := fld 0x04 0 0x800 5 4 .rwl 0 |>.ar 10
def BOOT_PLAN_LIMIT_MS : Fld := fld 0x04 0 0x800 31 16 .rwl 0 |>.ar 10
def JOIN_CFG_BACKOFF_MS : Fld := fld 0x04 0 0x828 7 0 .rwl 200
def JOIN_CFG_GATHER_MS : Fld := fld 0x04 0 0x828 17 8 .rwl 500 |>.cl 50 1000
def JOIN_CFG_BATCH_MS : Fld := fld 0x04 0 0x828 25 18 .rwl 100 |>.cl 10 255
def JOIN_CFG_RING_GATHER_100MS : Fld := fld 0x04 0 0x828 31 26 .rwl 20
def LOSS_CFG_HOST_DB_CXL : Fld := fld 0x04 0 0x82C 7 0 .rwl 60
def LOSS_CFG_DB_PER_M_CXL : Fld := fld 0x04 0 0x82C 15 8 .rwl 20 |>.tr 0 1
def LOSS_CFG_HOST_DB_ETH : Fld := fld 0x04 0 0x82C 23 16 .rwl 60
def LOSS_CFG_DB_PER_M_ETH : Fld := fld 0x04 0 0x82C 31 24 .rwl 30 |>.tr 0 1
def FM_WAIT : Fld := fld 0x04 0 0x830 7 0 .rwl 30
def SHARD_CKPT : Fld := fld 0x04 0 0x834 6 0 .rwl 10 |>.cl 1 120
/-! ### POL block -/
def POL_PSEL : Fld := fld 0x15 0 0x100 6 0 .rwpf 0 |>.sel
def HOOK_SEL : Fld := fld 0x15 0 0x104 3 0 .rw 0 |>.sel
def HOOK_CTRL_ENABLE : Fld := fld 0x15 0 0x108 0 0 .rw 1 |>.pt |>.sl 0x104
def HOOK_CTRL_VARIANT : Fld := fld 0x15 0 0x108 3 1 .rw 0 |>.pt |>.sl 0x104
def HOOK_CTRL_CUSTOM : Fld := fld 0x15 0 0x108 8 8 .ro 0 |>.pt |>.sl 0x104
def HOOK_PARAM : Fld := fld 0x15 0 0x10C 31 0 .rw 0 |>.pt |>.sl 0x104 |>.ar 4
def HOOK_EVENTS : Fld := fld 0x15 0 0x11C 31 0 .rc 0 |>.pt |>.sl 0x104
def HOOK_FAULTS : Fld := fld 0x15 0 0x120 31 0 .rc 0 |>.pt |>.sl 0x104
def HOOK_FALLBACKS : Fld := fld 0x15 0 0x124 31 0 .rc 0 |>.pt |>.sl 0x104
def HOOK_UNITS_MAX : Fld := fld 0x15 0 0x128 12 0 .rc 0 |>.pt |>.sl 0x104
def HOOK_FILTERED : Fld := fld 0x15 0 0x12C 31 0 .rc 0 |>.pt |>.sl 0x104
def PROG_DIGEST : Fld := fld 0x15 0 0x130 63 0 .ro 0 |>.pt |>.sl 0x104 |>.w8
def FAULTS_1S : Fld := fld 0x15 0 0x138 7 0 .ro 0 |>.pt
def DEFAULTS_VER : Fld := fld 0x15 0 0x13C 31 0 .ro 0
def HOOK_BUDGET : Fld := fld 0x15 0 0x800 12 0 .rw 512 |>.pt |>.sl 0x104 |>.cl 64 4096
def FAULT_LIMIT : Fld := fld 0x15 0 0x804 7 0 .rwpf 64 |>.pt |>.sl 0x104 |>.tr 0 1
def EVENT_MAX_US : Fld := fld 0x15 0 0x808 9 0 .rwpf 100 |>.pt |>.sl 0x104 |>.cl 10 1000
def TIMER_PERIOD : Fld := fld 0x15 0 0x80C 19 0 .rw 0 |>.pt |>.sl 0x104
def DATA_DIE : Fld := fld 0x15 0 0x810 3 0 .rw 0 |>.pt |>.sl 0x104
def DATA_ADDR : Fld := fld 0x15 0 0x814 10 0 .rw 0 |>.pt |>.sl 0x104
def DATA_VALUE : Fld := fld 0x15 0 0x818 63 0 .ro 0 |>.pt |>.sl 0x104 |>.w8
def SQ_SEL : Fld := fld 0x15 1 0x100 2 0 .rw 0 |>.sel
def SQ_STATE_STATE : Fld := fld 0x15 1 0x104 1 0 .ro 0 |>.sl 0x100
def SQ_STATE_PART : Fld := fld 0x15 1 0x104 14 8 .ro 0 |>.sl 0x100
def SQ_STATE_HOOK : Fld := fld 0x15 1 0x104 19 16 .ro 0 |>.sl 0x100
def SQ_QUEUED : Fld := fld 0x15 1 0x108 10 0 .ro 0
def SQ_STORE_USED : Fld := fld 0x15 1 0x10C 11 0 .ro 0
def SQ_EVENTS : Fld := fld 0x15 1 0x110 63 0 .ro 0 |>.sl 0x100 |>.w8 |>.wr
def SQ_BUSY_NS : Fld := fld 0x15 1 0x118 63 0 .ro 0 |>.sl 0x100 |>.w8 |>.wr
def SQ_OVERFLOW : Fld := fld 0x15 1 0x120 31 0 .rc 0
/-! ### SYS block -/
def SYS_INFO_ORDERING : Fld := fld 0x01 0 0x100 3 0 .ro 0
def SYS_INFO_STEP_LETTER : Fld := fld 0x01 0 0x100 11 8 .ro 0
def SYS_INFO_STEP_NUMBER : Fld := fld 0x01 0 0x100 15 12 .ro 2
def DIE_MAP_ENABLED : Fld := fld 0x01 0 0x104 7 0 .ro 0
def DIE_MAP_RETIRED : Fld := fld 0x01 0 0x104 15 8 .ro 0
def DIE_MAP_BRIDGE_UP : Fld := fld 0x01 0 0x104 17 16 .ro 0
def DIE_MAP_BRIDGE_LOST : Fld := fld 0x01 0 0x104 19 18 .ro 0
def DEVICE_SERIAL : Fld := fld 0x01 0 0x108 63 0 .ro 0 |>.w8
def SYS_SEAL : Fld := fld 0x01 0 0x110 0 0 .w1s 0
def VCORE_FUSE_MIN_MV : Fld := fld 0x01 0 0x114 15 0 .ro 680
def VCORE_FUSE_MAX_MV : Fld := fld 0x01 0 0x114 31 16 .ro 920
def VCORE_RANGE_MIN_MV : Fld := fld 0x01 0 0x118 15 0 .rwl 680
def VCORE_RANGE_MAX_MV : Fld := fld 0x01 0 0x118 31 16 .rwl 920
def FUNC_ID_KIND : Fld := fld 0x01 0 0x11C 2 0 .ro 0
def FUNC_ID_PARTITION : Fld := fld 0x01 0 0x11C 13 8 .ro 0
def FUNC_ID_PORT : Fld := fld 0x01 0 0x11C 18 16 .ro 0
def EXPERT_GATE_PF : Fld := fld 0x01 0 0x120 0 0 .rwl 0
def EXPERT_GATE_VF : Fld := fld 0x01 0 0x128 63 0 .rwc 0 |>.w8
def EXPERT_DENIALS : Fld := fld 0x01 0 0x130 31 0 .rc 0
def LOCKED_WRITES : Fld := fld 0x01 0 0x134 31 0 .rc 0
/-! ### PACE block -/
def PKG_PACE : Fld := fld 0x02 0 0x100 15 0 .ro 0
def PKG_PACE_MIN : Fld := fld 0x02 0 0x104 15 0 .rc 0
def SLOWEST_DIE : Fld := fld 0x02 0 0x108 3 0 .ro 0
def CUR_PACE : Fld := fld 0x02 1 0x100 15 0 .ro 0
def MIN_PACE : Fld := fld 0x02 1 0x104 15 0 .rc 0
def MEDIAN_PACE : Fld := fld 0x02 1 0x108 15 0 .ro 0
def SENSOR_INCL : Fld := fld 0x02 1 0x10C 15 0 .ro 0
def SENSOR_SEL : Fld := fld 0x02 1 0x110 3 0 .rw 0 |>.sel
def SENSOR_READ_PACE : Fld := fld 0x02 1 0x114 15 0 .ro 0 |>.sl 0x110
def SENSOR_READ_INCLUDED : Fld := fld 0x02 1 0x114 16 16 .ro 0 |>.sl 0x110
def VSET : Fld := fld 0x02 1 0x118 15 0 .rwpf 800
def VREAD_MV : Fld := fld 0x02 1 0x11C 15 0 .ro 0
def VREAD_STEPPING : Fld := fld 0x02 1 0x11C 16 16 .ro 0
def VREAD_HALTED : Fld := fld 0x02 1 0x11C 17 17 .ro 0
def JUNCTION : Fld := fld 0x02 1 0x120 15 0 .ro 0
def EXCLUSIONS : Fld := fld 0x02 1 0x124 31 0 .rc 0
/-! ### TIME block -/
def DEV_TIME : Fld := fld 0x03 0 0x100 63 0 .ro 0 |>.w8
def TIME_CTRL_PTP_EN : Fld := fld 0x03 0 0x108 0 0 .rwpf 1
def TIME_CTRL_PTM_EN : Fld := fld 0x03 0 0x108 1 1 .rwpf 1
def TIME_CTRL_DISCIPLINE : Fld := fld 0x03 0 0x108 2 2 .rwpf 0
def TIME_CTRL_PTM_PORT : Fld := fld 0x03 0 0x108 6 4 .rwpf 0
def TIME_CTRL_PTM_MS : Fld := fld 0x03 0 0x108 14 8 .rwpf 10 |>.cl 1 100
def TIME_CTRL_PTP_DOMAIN : Fld := fld 0x03 0 0x108 23 16 .rwpf 0
def TIME_STATE_STATE : Fld := fld 0x03 0 0x10C 2 0 .ro 0
def TIME_STATE_PRIMARY : Fld := fld 0x03 0 0x10C 3 3 .ro 0
def TIME_STATE_SET_SOURCE : Fld := fld 0x03 0 0x10C 6 4 .ro 0
def TIME_STATE_PTP_PORT : Fld := fld 0x03 0 0x10C 11 8 .ro 15
def OFFSET_NS : Fld := fld 0x03 0 0x110 31 0 .ro 0
def RATE_PPB : Fld := fld 0x03 0 0x114 31 0 .ro 0
def OFFSET_MAX : Fld := fld 0x03 0 0x118 31 0 .rc 0
def PTP_CTRL_P2P : Fld := fld 0x03 0 0x11C 0 0 .rwpf 0
def PTP_CTRL_TRANSPORT : Fld := fld 0x03 0 0x11C 9 8 .rwpf 0
def PTP_CTRL_PORTS : Fld := fld 0x03 0 0x11C 23 16 .rwpf 255
def GM_ID : Fld := fld 0x03 0 0x120 63 0 .ro 0 |>.w8
def PTP_STATUS_STEPS_REMOVED : Fld := fld 0x03 0 0x128 7 0 .ro 0
def PTP_STATUS_LOG_SYNC : Fld := fld 0x03 0 0x128 15 8 .ro 0
def PTP_STATUS_TWO_STEP : Fld := fld 0x03 0 0x128 16 16 .ro 0
def PATH_DELAY_NS : Fld := fld 0x03 0 0x12C 31 0 .ro 0
def PTM_SEL : Fld := fld 0x03 0 0x130 2 0 .rw 0 |>.sel
def PTM_STATUS_ENABLED : Fld := fld 0x03 0 0x134 0 0 .ro 0 |>.sl 0x130
def PTM_STATUS_VALID : Fld := fld 0x03 0 0x134 1 1 .ro 0 |>.sl 0x130
def PTM_OFFSET : Fld := fld 0x03 0 0x138 63 0 .ro 0 |>.sl 0x130 |>.w8
def PTM_RATE_PPB : Fld := fld 0x03 0 0x140 31 0 .ro 0 |>.sl 0x130
def PTM_AGE_US : Fld := fld 0x03 0 0x144 31 0 .ro 0 |>.sl 0x130
def LOCK_LOSSES : Fld := fld 0x03 0 0x148 31 0 .rc 0
/-! ### HBM block -/
def STACKS_ACTIVE : Fld := fld 0x08 0 0x100 7 0 .ro 0
def STACKS_RETIRED : Fld := fld 0x08 0 0x100 15 8 .ro 0
def HBM_GIB : Fld := fld 0x08 0 0x104 9 0 .ro 0
def CE_TOTAL : Fld := fld 0x08 0 0x108 63 0 .ro 0 |>.w8 |>.wr
def UE_TOTAL : Fld := fld 0x08 0 0x110 31 0 .ro 0
def ROWS_SPARED : Fld := fld 0x08 0 0x114 31 0 .rws 0
def REGIONS_RETIRED : Fld := fld 0x08 0 0x118 31 0 .ro 0
def CE_ROW_LIMIT : Fld := fld 0x08 0 0x800 7 0 .rwl 16 |>.cl 4 255
def PATROL_H : Fld := fld 0x08 0 0x804 7 0 .rwl 24
def STACK_STATE_STATE : Fld := fld 0x08 1 0x100 1 0 .ro 0
def STACK_STATE_REASON : Fld := fld 0x08 1 0x100 7 4 .ro 0
def STACK_ID_VENDOR : Fld := fld 0x08 1 0x104 15 0 .ro 0
def STACK_ID_DENSITY_GIB : Fld := fld 0x08 1 0x104 23 16 .ro 0
def STACK_ID_HEIGHT : Fld := fld 0x08 1 0x104 31 24 .ro 0
def PC_OK : Fld := fld 0x08 1 0x108 31 0 .ro 0
def CAP_GIB : Fld := fld 0x08 1 0x10C 5 0 .ro 0
def RATE : Fld := fld 0x08 1 0x110 31 0 .ro 0
def CE_COUNT : Fld := fld 0x08 1 0x114 31 0 .rc 0
def UE_COUNT : Fld := fld 0x08 1 0x118 31 0 .rc 0
def SPARE_ROWS_MIN : Fld := fld 0x08 1 0x11C 7 0 .ro 0
def REPAIR_PENDING : Fld := fld 0x08 1 0x120 15 0 .ro 0
def RETIRED_MIB : Fld := fld 0x08 1 0x124 15 0 .ro 0
def LAST_UE_ADDR : Fld := fld 0x08 1 0x128 63 0 .ro 0 |>.w8
def LAST_UE_TIME : Fld := fld 0x08 1 0x130 63 0 .ro 0 |>.w8
def TEMP : Fld := fld 0x08 1 0x138 15 0 .ro 0
def BW_PM : Fld := fld 0x08 1 0x13C 9 0 .ro 0
/-! ### TIER block -/
def DIE_T0_QUOTA : Fld := fld 0x0B 1 0x100 31 0 .ro 0 |>.pt
def DIE_T0_USED : Fld := fld 0x0B 1 0x104 31 0 .ro 0 |>.pt
def STACK_T1_QUOTA : Fld := fld 0x0B 1 0x108 31 0 .ro 0 |>.pt
def STACK_T1_USED : Fld := fld 0x0B 1 0x10C 31 0 .ro 0 |>.pt
def STACK_RESERVE : Fld := fld 0x0B 1 0x110 31 0 .ro 0
def STACK_FREE : Fld := fld 0x0B 1 0x114 31 0 .ro 0
/-! ### QMGR block -/
def FE_QUEUES : Fld := fld 0x0E 1 0x100 16 0 .ro 0
def FE_RING_FREE : Fld := fld 0x0E 1 0x104 13 0 .ro 0
def FE_ACCEPTED : Fld := fld 0x0E 1 0x108 63 0 .ro 0 |>.w8 |>.wr
/-! ### NM block -/
def NM_BUSY : Fld := fld 0x16 1 0x100 2 0 .ro 0
def NM_QUEUED : Fld := fld 0x16 1 0x104 31 0 .ro 0
def NM_RD_KIB : Fld := fld 0x16 1 0x108 63 0 .ro 0 |>.w8 |>.wr
def NM_WR_KIB : Fld := fld 0x16 1 0x110 63 0 .ro 0 |>.w8 |>.wr
/-! ### TIME block -/
def TB_ROLE_PRIMARY : Fld := fld 0x03 1 0x100 0 0 .ro 0
def TB_ROLE_TRACKING : Fld := fld 0x03 1 0x100 1 1 .ro 0
def TB_SKEW_NS : Fld := fld 0x03 1 0x104 31 0 .ro 0
/-! ### ACCT block -/
def ENERGY_COEF : Fld := fld 0x17 0 0x800 63 0 .ro 0 |>.ar 16 |>.w8

/-- The fields of the SEQ block. -/
def tableSEQ : List Fld :=
  [SEQ_PSEL, SEQ_LIMIT, SEQ_OPEN_CNT, STAGE_QUOTA, STAGE_USED, SEQ_CTRL_LEASE_MS, SEQ_CTRL_DEF_CLASS, SEQ_CTRL_AUTO_SEAL, SEQ_CTRL_DEF_ORDER, SEAL_BACKLOG, SEAL_LAT_MAX, GEN_RETIRED, LOST_HANDLES]

/-- The fields of the PDIR block. -/
def tablePDIR : List Fld :=
  [PDIR_PSEL, PDIR_CTRL_SHARD_TO_US, PDIR_CTRL_PUB_TO_US, PDIR_CTRL_SNAP_MS, GRP_SEL, GRP_ID, GRP_KEY, GRP_MEMBERS, GRP_DIGEST, GRP_STATE_COMMIT, GRP_STATE_STATE, GRP_STATE_MISSING, GRP_STATE_REASON, GRP_LIST, CAPO_LIMIT, CAPO_COUNT, LOOKUPS, HIT_POS, IMPORT_KIB, LEAVES_PUB, UNPUB_SEALS, DUP_SEALS, PUB_DEFERRED, SHARD_UNREACH, RING_EPOCH, SHARDS_OWNED, SHARDS_MOVING, SNAP_VER, INDEX_ENTRIES, INDEX_RSV, PDIR_HOLDER_MAX, PDIR_QFAN]

/-- The fields of the TIER block. -/
def tableTIER : List Fld :=
  [TIER_PSEL, TIER_CTRL_PREFETCH_EN, TIER_CTRL_SEQ_PREFETCH_EN, TIER_CTRL_AUTO_DESTAGE, TIER_CTRL_HALF_LIFE, TIER_CTRL_SEQ_PREFETCH_DEPTH, PREFETCH_LEAD, ADMIT_WAIT, SCORE_SEED, T0_QUOTA, T0_USED, T1_QUOTA, T1_USED, T2_QUOTA, T2_USED, T3_QUOTA, T3_USED, D_COUNTED, CADENCE_GROUPS, DEMAND_FETCHES, LATE_PREFETCH, PREFETCH_SKIPPED, EVICTIONS, RETAINED_DROPS, MOVE_KIB, LOST_T2, TIER_STATE, CADENCE_CFG_ALPHA, CADENCE_CFG_LOSS_PCT, PROTECT_GRACE, PIN_MAX_MS, EVAC_MS, DIE_T0_QUOTA, DIE_T0_USED, STACK_T1_QUOTA, STACK_T1_USED, STACK_RESERVE, STACK_FREE]

/-- The fields of the ATT block. -/
def tableATT : List Fld :=
  [ATT_PSEL, ATT_CTRL_DET_FORCE, ATT_CTRL_MASS_EN, ATT_CTRL_STEAL_EN, ATT_CTRL_RUN_MAX, FB_SPARSE_TOPN, FB_SPARSE_SINK, FB_SPARSE_RECENT, ROWS_EMPTY, ROWS_NAN, FALLBACKS, REMOTE_RUNS, LAT_MAX, COMMANDS, TILES, FMA_MI, SPARSE_PAGES, STEAL_RATIO, MERGE_STALL_US, ATT_CSEL, LOGICAL_OK, PHYS_OK, RETIRED, BUSY, MERGE_USED, TILES_RUN, RUNS_STOLEN, VIEW_LIMIT, VIEW_COUNT, VIEW_MS, GSET_MIB, BWD_COMMANDS, GSET_NAN]

/-- The fields of the CDC block. -/
def tableCDC : List Fld :=
  [CDC_PSEL, CDC_CTRL_DELTA_EN, CDC_CTRL_STREAM_SEAL_EN, CDC_CTRL_RATIO_ALPHA, CDC_LSEL, LAYER_RATIO, LAYER_STEPS, TABLE_INFO_FMT_VER, TABLE_INFO_TABLES, BLOCKS_CODED, BLOCKS_RAW, BLOCKS_ZERO, DELTA_PAGES, REMNANT_MIB, CRC_ERRORS, RAW_NOCODE, RAW_PERMILLE, SC_CTRL, SC_LANES_BUSY, SC_LANES_WORKING, SC_QUEUES, SC_WAIT_MAX, SC_IN_KIB, SC_OUT_KIB, SC_CRC_ERR]

/-- The fields of the QMGR block. -/
def tableQMGR : List Fld :=
  [QSEL, QCTRL_ENABLE, QCTRL_RESET, QCTRL_SQ_INLINE, QCTRL_CQ_INLINE, QCTRL_IRQ_EN, QCTRL_FE, QCTRL_SQ_LOG2, QCTRL_CQ_LOG2, QSTATE_STATE, QSTATE_REASON, QSTATE_ACCEPT_PAUSED, QBIND_QGROUP, QBIND_PARTITION, QBIND_VECTOR, SQ_BASE, CQ_BASE, QVER_OFFER_MIN, QVER_OFFER_MAX, QVER_CHOSEN, IRQ_AGG_COUNT, IRQ_AGG_US, SQ_PTRS_HEAD, SQ_PTRS_TAIL, CQ_PTRS_HEAD, CQ_PTRS_TAIL, INFLIGHT, QMGR_PSEL, QP_LIMIT, QP_USED, INLINE_QUOTA, INLINE_USED, CMDS, ACCEPT_STALLS, ENTRY_ERRORS, FETCH_BURST, FE_QUEUES, FE_RING_FREE, FE_ACCEPTED]

/-- The fields of the SCHED block. -/
def tableSCHED : List Fld :=
  [SCHED_PSEL, SCHED_CTRL_PREEMPT_EN, SCHED_CTRL_MON_EN, SCHED_CTRL_LANE_LEND, SCHED_CTRL_MIX_PM, QG_SEL, QG_SHARE, QG_STATUS_RUNS, QG_STATUS_CORES, MON_GUARD, PREEMPT_WAIT, PART_STATE_STATE, PART_STATE_ISOLATED, PART_CORES_CORES, PART_CORES_LANE, GEOM_CUR, SWITCH_NS, DEADLINE_MISSES, LANE_MOVES, PREEMPT_KILLS, PREEMPT_CUTS, MIX_ACTUAL, PRED_ERR_MAX, SHARE_WINDOW, KILL_MAX, MON_PERIOD, RELEASE_AHEAD]

/-- The fields of the ACCT block. -/
def tableACCT : List Fld :=
  [ACCT_PSEL, ACCT_SEL_QGROUP, ACCT_SEL_KIND, ACCT_LATCH, ACCT_CTRL, LATCH_TIME, Counters, POWER_MW, CAL_ERR, ENERGY_COEF]

/-- The fields of the DLV block. -/
def tableDLV : List Fld :=
  [DLV_PSEL, DLV_CTRL, DQ_SEL, DQ_CFG_QGROUP, DQ_CFG_GATE_CLASS, DQ_QUANTUM, DQ_OVH_FIXED, DQ_OVH_PER_UNIT, DQ_OVH_UNIT_LOG2, DQ_DEPTH, DQ_DEPTH_MAX, DQ_DELAY, DQ_DELAY_MAX, DEST_SEL, DEST_CTRL_ENABLE, DEST_CTRL_COMMIT, DEST_CTRL_LAND_EN, DEST_CTRL_PORT, DEST_STATE_STATE, DEST_STATE_REASON, DEST_REMOTE, DEST_BASE, DEST_LEN, DEST_LAND, SHP_CIR, SHP_PIR, SHP_BURST_CBS_KIB, SHP_BURST_PBS_KIB, PLC_SEL, PLC_CTRL_ENABLE, PLC_CTRL_AWARE, PLC_CTRL_YELLOW_BELOW, PLC_CIR, PLC_PIR, PLC_BURST_CBS_KIB, PLC_BURST_PBS_KIB, PLC_GREEN, PLC_YELLOW, PLC_RED, DQ_LIMIT] ++
  [DEST_LIMIT, PORT_MASK, DELIVERED_KIB, HOLD_DROPS, PORT_STATE, HOLD_US, PORT_RATE, REFILL_NS, GATE_CTRL_COMMIT, GATE_CTRL_STATE, GATE_CTRL_ENTRIES, GATE_CTRL_CURRENT, GATE_CYCLE_NS, GATE_BASE, GATE_CHANGE_TIME, HELD_ITEMS, QUEUED_KIB, GATE_ADMIN_INTERVAL_NS, GATE_ADMIN_MASK, GATE_OPER]

/-- The fields of the CXL block. -/
def tableCXL : List Fld :=
  [CXL_PSEL, HOST_PORTS, HOST_ALLOW_SEL, HOST_ALLOW_PBR_ID, HOST_ALLOW_VALID, WIN_QUOTA, WIN_SEL, WIN_MAP_ADDR, WIN_MAP_ENTRIES, WIN_CTRL_COMMIT, WIN_CTRL_WIN_QGROUP, WIN_STATE_STATE, WIN_STATE_REASON, LEASE_HOLDER_PBR_ID, LEASE_HOLDER_PORT, LEASE_EPOCH, LEASES, WIN_SLOTS, WIN_VACATED, POOL_MAX, EXT_SEL, EXT_INFO_KIND, EXT_INFO_STATE, EXT_INFO_TRAY, EXT_INFO_PORTS, EXT_INFO_TRAY_MODE, EXT_EPOCH, EXT_LEN, REVOKES, WIN_RD_KIB, WIN_WRITES, EXTENTS, LOAD_CFG_LOAD_LO, LOAD_CFG_LOAD_HI, LOAD_CFG_LOAD_SEV, HOST_OUTST, HOST_RATE, SF_USED, PORT_CTRL_HOST_EN, PORT_CTRL_POOL_EN] ++
  [PORT_CTRL_IDE_REQ, PORT_CTRL_CACHE_EN, LINK_STATUS_RATE, LINK_STATUS_WIDTH, LINK_STATUS_CXL, LINK_STATUS_IDE_UP, PARTNER_ID, PARTNER_PORT_PORT, PARTNER_PORT_VALID, RETRAINS, REPLAYS, POISON_RX, POISON_TX, DEVLOAD_LAST, DEVLOAD_MAX, TRAY_LIMIT, BISNP, RD_QUEUE]

/-- The fields of the NM block. -/
def tableNM : List Fld :=
  [NM_PSEL, NM_CMDS, NM_KIB, NM_POISON, NM_REVOKED, NM_DIFFER, NM_BUSY, NM_QUEUED, NM_RD_KIB, NM_WR_KIB]

/-- The fields of the NET block. -/
def tableNET : List Fld :=
  [NET_PSEL, NET_CTRL_MALROTH_EN, NET_CTRL_LN520_EN, NET_CTRL_LEADER_ELIGIBLE, DOMAIN_ID, FAIL_GROUP, MAL_VER_MIN, MAL_VER_MAX, TREE_STATE_GROUP, TREE_STATE_LEADER, TREE_STATE_COORDINATOR, LEADER_SERIAL, MEMBERS, CONN_SEL, CONN_CTRL_OPEN, CONN_CTRL_CLOSE, CONN_CTRL_PORT, CONN_CTRL_MTU, CONN_CTRL_DSCP, CONN_STATE_STATE, CONN_STATE_REASON, CONN_RIP, CONN_QPN, CONN_RKEY, CONN_QUOTA, CONN_USED, MSG_TO_US, INC_USED, INC_DECLARED, INC_KNOWN, STORMS, MSG_RETRIES, DUP_DROPS, FETCH_BUSY, FETCH_SERVED, PEER_REFUSED, INC_CFG_WINDOW_MS, INC_CFG_PROBE_GAP_US, INC_CFG_PROBE_TO_US, HB_US] ++
  [FETCH_MAX, NETP_CTRL_ENABLE, NETP_CTRL_PFC_MASK, NETP_CTRL_LLDP_TX, NETP_LINK_UP, NETP_LINK_SPEED, PARTNER_DIGEST, PARTNER_VALID, IPV4, IPV6, ECN_MARKED, CNP_RX, RETRANS, PAUSE_RX, RX_KIB, TX_KIB]

/-- The fields of the FTL block. -/
def tableFTL : List Fld :=
  [FTL_CTRL_DRONE_EN, FTL_CTRL_WB_EN, FTL_CTRL_STATIC_WL_EN, PATROL_DAYS, RAW_GIB, USER_GIB, ASSIGNED_GIB, USED_GIB, PSLC_TARGET, PSLC_USED, WA_PM, LIFE_USED_PM, LIFE_DAYS, HOST_WR_KIB, NAND_WR_KIB, LOST_ROWS, REBUILD_STATE, REBUILD_PERMILLE, REFRESHES, PATROL_PM, RECOVERY_MS, RESTORES, WB_REFUSED, OP_PCT, GC_CFG_GC_LOW, GC_CFG_GC_HIGH, REFRESH_PCT, WEAR_SPREAD, BG_CFG_BG_SHARE, BG_CFG_REBUILD_PM, MAPCACHE_MIB, SET_COUNT, SET_SEL, SET_INFO_WIDTH, SET_INFO_STATE, SET_FREE_SB, SET_WEAR_MIN, SET_WEAR_MAX, SET_ROWS_LEFT, FOLD_BACKLOG] ++
  [FREE_GIB]

/-- The fields of the NAND block. -/
def tableNAND : List Fld :=
  [DIES_PRESENT, DIES_ACTIVE, DIES_RETIRED, DIES_UNUSED, PROFILE_VER, NAND_CTRL, CH_STATE_STATE, CH_STATE_DIES, CH_IFACE_KIND, CH_IFACE_MTS, DIE_SEL, DIE_INFO_STATE, DIE_INFO_REASON, DIE_INFO_GROUP, DIE_INFO_SET, DIE_INFO_PROFILE, DIE_GIB, DIE_BAD_BLOCKS, DIE_WEAR_AVG, DIE_RETRIES, DIE_SOFT, DIE_PARITY_RD, DIE_PE_FAIL, CH_RD_KIB, CH_WR_KIB]

/-- The fields of the PLP block. -/
def tablePLP : List Fld :=
  [PLP_PSEL, PLP_CTRL_MEAS_NOW, PLP_CTRL_REHEARSE_NOW, PLP_CTRL_HU_PRESENT, MEAS_PERIOD, HU_VC, HU_CAP, HU_LEAK, HU_ENERGY, D_BUDGET, D_TOTAL, D_LIMIT, D_USED, D_REFUSED, FLUSH_RATE, FLUSH_EB, MEAS_TIME, FLUSH_LAST, FLUSH_MS, FLUSH_MIB, P_UNREPLICATED, REPLICA_USED, HU_VMIN, HU_EFF, REPLICA_GIB, REPLICA_CFG_AUDIT_H, REPLICA_CFG_KEEP_H]

/-- The fields of the SEC block. -/
def tableSEC : List Fld :=
  [SEC_PSEL, SEC_STATE_LIFECYCLE, SEC_STATE_DEBUG, SEC_STATE_FM_BOUND, SEC_STATE_IDE_ALL, SEC_STATE_EPOCH_OK, SEC_STATE_GROUPS_OK, SEC_STATE_DEBUG_OK, SEC_STATE_NET_ISOLATED, KEY_SEL, KEY_INFO_STATE, KEY_INFO_TYPE, KEY_INFO_RETIRED, KEY_INFO_GEN, KEYS_SET, SEC_CTRL, SESSIONS, TDI_STATE, SCRUB_NS, KEY_WITHDRAWN, ATTESTS, FW_SVN, FUSE_SVN, SVN_COMMIT_STAGE, SVN_COMMIT_REVOKE, DEBUG_ENTRIES, TAG_FAULTS, FM_REJECTS, SEC_NET, FM_PIN]

/-- The fields of the FLT block. -/
def tableFLT : List Fld :=
  [FLT_PSEL, FLT_CTRL_RETIRE, FLT_CTRL_RETIRED, LEAD_STATE_LEAD, LEAD_STATE_HELD, LEAD_STATE_STANDBY_OK, LEAD_EPOCH, FAILOVERS, LAST_TAKEOVER_NS, INTERRUPT_MAX, FAULT_COUNT, FAULT_SEL, FAULT_NEXT, FAULT_REC, ALARMS_HELD, LOSTREC_HELD, LOG_BASE, LOG_CTRL_ENABLE, LOG_CTRL_LOG_LOG2, LOG_CTRL_VECTOR, LOG_PTRS_HEAD, LOG_PTRS_TAIL, LOG_DROPS, TRACE_CTRL_SOURCES, TRACE_CTRL_LOG2_MIN, TRACE_CTRL_LOG2_NOW, PART_FAULT_REASON, PART_FAULT_FORCE, WATCHDOG_STEPS, HALF_WD_US, BRIDGE_CFG_RESTART_MAX, BRIDGE_CFG_RESTART_S, QB_TELEM, QB_DEST, HALF_STATE, HALF_EPOCH, CLAIMS, MIRROR_LAG, JOURNAL_SEQ, STALE_REJECTS] ++
  [WD_RESETS]

/-- The fields of the BOOT block. -/
def tableBOOT : List Fld :=
  [BOOT_PHASE_STEP, BOOT_PHASE_SERVICE, BOOT_CTRL_FM_WAIVE, BOOT_CTRL_JOIN_NOW, STEP_SEL, STEP_STATE_STATE, STEP_STATE_ATTEMPTS, STEP_STATE_RESULT, STEP_STATE_UNIT, STEP_START, STEP_END, BOOT_EPOCH, IMAGE_SRC_BL1_H0, IMAGE_SRC_SHUARN_H0, IMAGE_SRC_BL1_H1, IMAGE_SRC_SHUARN_H1, RESET_CAUSE_KIND, RESET_CAUSE_AFTER_PFAIL, JOIN_STATE_ROLE, JOIN_STATE_MEMBERS_HEARD, JOIN_STATE_MAP_VER, LOCAL_NS, FULL_NS, MEAS_SEL, MEAS_VALUE_VALUE, MEAS_VALUE_OUT_OF_RANGE, LANE_SEL, LANE_LOSS_DB10, LANE_LOSS_LEN_DM, REPUB_LEFT, BOOT_PLAN_ATTEMPTS, BOOT_PLAN_ON_FAIL, BOOT_PLAN_LIMIT_MS, JOIN_CFG_BACKOFF_MS, JOIN_CFG_GATHER_MS, JOIN_CFG_BATCH_MS, JOIN_CFG_RING_GATHER_100MS, LOSS_CFG_HOST_DB_CXL, LOSS_CFG_DB_PER_M_CXL, LOSS_CFG_HOST_DB_ETH] ++
  [LOSS_CFG_DB_PER_M_ETH, FM_WAIT, SHARD_CKPT]

/-- The fields of the POL block. -/
def tablePOL : List Fld :=
  [POL_PSEL, HOOK_SEL, HOOK_CTRL_ENABLE, HOOK_CTRL_VARIANT, HOOK_CTRL_CUSTOM, HOOK_PARAM, HOOK_EVENTS, HOOK_FAULTS, HOOK_FALLBACKS, HOOK_UNITS_MAX, HOOK_FILTERED, PROG_DIGEST, FAULTS_1S, DEFAULTS_VER, HOOK_BUDGET, FAULT_LIMIT, EVENT_MAX_US, TIMER_PERIOD, DATA_DIE, DATA_ADDR, DATA_VALUE, SQ_SEL, SQ_STATE_STATE, SQ_STATE_PART, SQ_STATE_HOOK, SQ_QUEUED, SQ_STORE_USED, SQ_EVENTS, SQ_BUSY_NS, SQ_OVERFLOW]

/-- The fields of the SYS block. -/
def tableSYS : List Fld :=
  [SYS_INFO_ORDERING, SYS_INFO_STEP_LETTER, SYS_INFO_STEP_NUMBER, DIE_MAP_ENABLED, DIE_MAP_RETIRED, DIE_MAP_BRIDGE_UP, DIE_MAP_BRIDGE_LOST, DEVICE_SERIAL, SYS_SEAL, VCORE_FUSE_MIN_MV, VCORE_FUSE_MAX_MV, VCORE_RANGE_MIN_MV, VCORE_RANGE_MAX_MV, FUNC_ID_KIND, FUNC_ID_PARTITION, FUNC_ID_PORT, EXPERT_GATE_PF, EXPERT_GATE_VF, EXPERT_DENIALS, LOCKED_WRITES]

/-- The fields of the PACE block. -/
def tablePACE : List Fld :=
  [PKG_PACE, PKG_PACE_MIN, SLOWEST_DIE, CUR_PACE, MIN_PACE, MEDIAN_PACE, SENSOR_INCL, SENSOR_SEL, SENSOR_READ_PACE, SENSOR_READ_INCLUDED, VSET, VREAD_MV, VREAD_STEPPING, VREAD_HALTED, JUNCTION, EXCLUSIONS]

/-- The fields of the TIME block. -/
def tableTIME : List Fld :=
  [DEV_TIME, TIME_CTRL_PTP_EN, TIME_CTRL_PTM_EN, TIME_CTRL_DISCIPLINE, TIME_CTRL_PTM_PORT, TIME_CTRL_PTM_MS, TIME_CTRL_PTP_DOMAIN, TIME_STATE_STATE, TIME_STATE_PRIMARY, TIME_STATE_SET_SOURCE, TIME_STATE_PTP_PORT, OFFSET_NS, RATE_PPB, OFFSET_MAX, PTP_CTRL_P2P, PTP_CTRL_TRANSPORT, PTP_CTRL_PORTS, GM_ID, PTP_STATUS_STEPS_REMOVED, PTP_STATUS_LOG_SYNC, PTP_STATUS_TWO_STEP, PATH_DELAY_NS, PTM_SEL, PTM_STATUS_ENABLED, PTM_STATUS_VALID, PTM_OFFSET, PTM_RATE_PPB, PTM_AGE_US, LOCK_LOSSES, TB_ROLE_PRIMARY, TB_ROLE_TRACKING, TB_SKEW_NS]

/-- The fields of the HBM block. -/
def tableHBM : List Fld :=
  [STACKS_ACTIVE, STACKS_RETIRED, HBM_GIB, CE_TOTAL, UE_TOTAL, ROWS_SPARED, REGIONS_RETIRED, CE_ROW_LIMIT, PATROL_H, STACK_STATE_STATE, STACK_STATE_REASON, STACK_ID_VENDOR, STACK_ID_DENSITY_GIB, STACK_ID_HEIGHT, PC_OK, CAP_GIB, RATE, CE_COUNT, UE_COUNT, SPARE_ROWS_MIN, REPAIR_PENDING, RETIRED_MIB, LAST_UE_ADDR, LAST_UE_TIME, TEMP, BW_PM]

/-- The fields of block type `b` (none for an unused type code, R753). -/
def table (b : Nat) : List Fld :=
  match b with
  | 0x09 => tableSEQ
  | 0x0A => tablePDIR
  | 0x0B => tableTIER
  | 0x0C => tableATT
  | 0x0D => tableCDC
  | 0x0E => tableQMGR
  | 0x0F => tableSCHED
  | 0x17 => tableACCT
  | 0x10 => tableDLV
  | 0x11 => tableCXL
  | 0x16 => tableNM
  | 0x12 => tableNET
  | 0x13 => tableFTL
  | 0x14 => tableNAND
  | 0x07 => tablePLP
  | 0x05 => tableSEC
  | 0x06 => tableFLT
  | 0x04 => tableBOOT
  | 0x15 => tablePOL
  | 0x01 => tableSYS
  | 0x02 => tablePACE
  | 0x03 => tableTIME
  | 0x08 => tableHBM
  | _ => []

end Sys2Proof.Machine.F
end

