-- ==== Sys2Proof/Machine/TypesQueue.lean ====
section
/-! DEFINITION. Plain-data types of the command rings (chapter 9) and of partitions, shares, runs and accounts (chapter 10). -/

namespace Sys2Proof.Machine

/-- The states of a queue pair (R362), coded as QSTATE reports them. -/
inductive QSt where
  | disabled | active | draining | error | resetting
  deriving DecidableEq, Repr

/-- An entry of a function's MSI-X table (R393, R771): the message's address and data, its Mask bit, which PCIe sets at reset, and its pending
bit. -/
structure MsixVec where
  port : Nat
  fn : Nat
  vec : Nat
  addr : Nat := 0
  data : Nat := 0
  masked : Bool := true
  pending : Bool := false
  deriving DecidableEq, Repr

/-- A queue pair (R358). Its QCTRL, QBIND, bases, version offer and coalescing stand in the QMGR registers selected by its
number. Numbers 65,536 and 65,537 are the supervisor queues of H0 and H1 (R361). -/
structure Queue where
  num : Nat
  /-- The function that created it: its port and 0 for the physical function, p + 1 for partition p. -/
  port : Nat
  fn : Nat
  /-- Number of the queue within its function (R358). -/
  loc : Nat
  st : QSt := .disabled
  reason : Nat := 0
  /-- ACCEPT_PAUSED (R366). -/
  paused : Bool := false
  /-- Chosen ring version, major × 256 + minor (R389). -/
  ver : Nat := 0
  sqHead : Nat := 0
  sqTail : Nat := 0
  cqHead : Nat := 0
  cqTail : Nat := 0
  phase : Bool := true
  /-- Completions written since the last message, and when the first of them was (R394). -/
  irqCount : Nat := 0
  irqFirst : Nat := 0
  /-- ENABLE was written before start-up step 6 and is held (R711). -/
  heldEnable : Bool := false
  /-- The CQ write failed (R362). -/
  cqFailed : Bool := false
  /-- Inline rings allocated: byte offset in BAR4 and size (R772). -/
  sqInline : Option (Nat × Nat) := none
  cqInline : Option (Nat × Nat) := none
  deriving DecidableEq, Repr

/-- Where a front end stands in its rounds of acceptance (R412): the partition and group it visits, the entries left of the group's quantum,
the group each partition's last visit took and the queue each group's last entry came from. 65536 stands for none yet. -/
structure FrontEnd where
  part : Nat := 65536
  group : Nat := 0
  left : Nat := 0
  groups : List (Nat × Nat) := []
  queues : List ((Nat × Nat) × Nat) := []
  deriving DecidableEq, Repr

/-- Life of an accepted command (R376): waiting to start, started, at its commit point with its status decided. -/
inductive CmdSt where
  | waiting | started | done
  deriving DecidableEq, Repr

/-- A host buffer the command has read: address, and its bytes or poison (R495). -/
structure Buf where
  addr : Nat
  data : Option Bytes
  deriving DecidableEq, Repr

/-- An accepted command (R370). `entry` is the 64-byte entry as one little-endian number. -/
structure Cmd where
  /-- Acceptance number: unique, rising. -/
  uid : Nat
  q : Nat
  part : Nat
  qg : Nat
  ver : Nat
  entry : Nat
  acceptT : Nat
  st : CmdSt := .waiting
  status : Nat := 0
  r0 : Nat := 0
  r1 : Nat := 0
  ns : Nat := 0
  bytes : Nat := 0
  bufs : List Buf := []
  /-- Host output buffers, written before the completion (R380). -/
  outs : List (Nat × Bytes) := []
  /-- A step of a command that takes more than one. -/
  phase : Nat := 0
  /-- Commands this FENCE, CANCEL or SEQ_CLOSE waits for, and the number its result reports (R379, R384, R84). -/
  waitFor : List Nat := []
  count : Nat := 0
  /-- A CANCEL has reached it after its start (R382). -/
  cancelled : Bool := false
  /-- The issuing half's epoch was stale (R361). -/
  epochOk : Bool := true
  /-- Coloured by the policer (R459): 0 none, 1 green, 2 yellow, 3 red. -/
  colour : Nat := 0
  /-- Times killed (R417). -/
  kills : Nat := 0
  /-- On the reserved-core lane (R425); converted to sparse attention (R286). -/
  lane : Bool := false
  approx : Bool := false
  /-- First run released; last prediction (R421, R424). -/
  released : Bool := false
  pred : Nat := 0
  /-- When the monitor last evaluated it (R421). -/
  evalT : Option Nat := none
  /-- Key slots the command uses, with their generations (R640). -/
  keys : List (Nat × Nat) := []
  /-- Key slot of each group declared at its acceptance, by GROUP_ID (R146, R640), and the groups active then. -/
  groups : List (Nat × Nat) := []
  active : List Nat := []
  /-- Positions an APPEND has committed, which become visible when its completion is posted (R113): sequence, layers,
  positions, token IDs. -/
  appends : List (Nat × List Nat × Nat × List Nat) := []
  /-- Leaves a SEAL waits for (R121, R388). -/
  leaves : List Nat := []
  /-- Held by a geometry switch (R406). -/
  held : Bool := false
  /-- Pages a MIGRATE has handled, as serials (R238). -/
  acc : List Nat := []
  /-- Sequences whose append lease it acquired (R116), and those whose lease was released while its length table had still to be
  read (R119). -/
  took : List Nat := []
  /-- Sequences whose lease its queue held when it started, or took while it executed: their lease does not expire (R118). -/
  keeps : List Nat := []
  lost : List Nat := []
  /-- Settings of its delivery queue at its acceptance (R462). -/
  dqCfg : DqCfg := {}
  deriving DecidableEq, Repr

/-- The states of a partition (R400), coded as PART_STATE reports them. -/
inductive PSt where
  | free | active | switching | clearing | scrubbing | faulted
  deriving DecidableEq, Repr

/-- A partition descriptor (R401). Bitmaps are numbers: bit c for logical core c. -/
structure PartDesc where
  flags : Nat := 0
  weight : Nat := 1
  keyFirst : Nat := 0
  keyCount : Nat := 0
  flashGib : Nat := 0
  t1 : List Nat := []
  rsv : List Nat := []
  t0 : List Nat := []
  cores : Nat := 0
  lane : Nat := 0
  deriving DecidableEq, Repr

/-- A queue group's scheduling account (R415): its core-steps received under the virtual time rule. -/
structure Group where
  part : Nat
  num : Nat
  /-- Virtual time: core-steps received over share, in units of 2^-32, as raised (R415). -/
  vt : Nat := 0
  /-- Bytes received on each stack in the last share window (R410). -/
  got : List Nat := []
  deriving DecidableEq, Repr

/-- A run: a piece of a command's tile list that one core takes (R267). -/
structure Run where
  id : Nat
  cmd : Nat
  part : Nat
  qg : Nat
  /-- 0 decode, 1 chunk, 2 seal (R413). -/
  cls : Nat
  /-- Item of the command and its tiles [first, first + count) (chapter 6). -/
  item : Nat
  first : Nat
  count : Nat
  lane : Bool := false
  /-- Home die (R269); the die it was sent to; release and start times. -/
  home : Nat
  die : Nat
  releasedT : Nat := 0
  /-- Place in the order of releases (R271). -/
  relNo : Nat := 0
  startT : Nat := 0
  /-- 0 waiting for release, 1 released, 2 on a core. -/
  stage : Nat := 0
  /-- Logical core while it runs. -/
  core : Nat := 0
  /-- Page copy its tiles stream while it runs: partition, serial, tier, die (R34). -/
  src : Option (Nat × Nat × Nat × Nat) := none
  /-- End after the current tile (R418, R423, R382). -/
  cut : Bool := false
  /-- Of a run of seal tiles (R327, R413): the leaf it codes, by partition, sequence and leaf number, and the steps of its blocks. -/
  leaf : Option (Nat × Nat × Nat) := none
  steps : List Nat := []
  deriving DecidableEq, Repr

/-- Die of the copy, or of the staging granules, that the run streams: where it is not the run's own, its reads are remote (R24). -/
def Run.srcDie (r : Run) : Nat := match r.src with | some c => c.2.2.2 | none => r.home

/-- The state of a physical core and the map of logical cores (R17–R20). -/
structure Cluster where
  num : Nat
  /-- Physical cores that work, bit i of 34. -/
  physOk : Nat := 2 ^ 34 - 1
  /-- Logical core j is held by physical core map[j]; none when retired. -/
  map : List (Option Nat) := (List.range 32).map some
  mergeOk : Bool := true
  /-- T0 units that work (R199, R663 code 3). -/
  t0Units : Nat := 6
  deriving DecidableEq, Repr

/-- Which accounting record (R428). -/
inductive AcctKey where
  | group (part qg : Nat)
  | part (part : Nat)
  | idle (part : Nat)
  | device
  deriving DecidableEq, Repr

end Sys2Proof.Machine
end

