-- ==== Sys2Proof/Machine/TypesSeq.lean ====
section
/-! DEFINITION. Plain-data types of sequences, granules, pages and leaves (chapter 3), of the prefix directory
(chapter 4), of tiers, copies, moves and cadence groups (chapter 5), of attention and training records (chapters 6, 7). -/

namespace Sys2Proof.Machine

/-- A layer entry of a geometry descriptor (R86). -/
structure LayerEnt where
  kf : Nat
  vf : Nat
  modSet : Nat
  codecK : Nat
  codecV : Nat
  deriving DecidableEq, Repr

/-- A loaded geometry (R86): the header's fields, the layer table, and the whole descriptor, from which the score-modifier
sets (R250) and the codec tables (R330) are read. -/
structure Geom where
  id : Nat
  qHeads : Nat
  kvHeads : Nat
  headDim : Nat
  vDim : Nat
  qFmt : Nat
  outFmt : Nat
  layers : List LayerEnt
  modOff : Nat
  codecOff : Nat
  digest : Bytes
  raw : Bytes
  deriving DecidableEq, Repr

/-- A staging granule: 16 positions of one layer of one sequence (R110). -/
structure Granule where
  part : Nat
  seq : Nat
  layer : Nat
  first : Nat
  geom : Nat
  cls : Nat
  copied : Bool
  epoch : Nat
  tag : Nat
  time : Nat
  /-- Its committed positions: for each, one string of bytes for each plane of its layer (R92), in head and plane order. -/
  rows : List (List Bytes)
  /-- The die SRAM buffer holds bytes that the HBM slot does not, and the rows that the slot holds (R111). -/
  dirty : Bool := true
  inSlot : Nat := 0
  /-- Die whose HBM holds it, and the bytes of its slot (R110). -/
  home : Nat
  slot : Nat
  /-- Its flash image is current: class P (R591), or a class D granule saved under R598. -/
  flash : Bool := false
  /-- Rows of its flash image that still hold: all of them while it is current. -/
  savedRows : Nat := 0
  deriving DecidableEq, Repr

/-- A coded block of a page (R334–R337): 0 RAW, 1 coded with a table, 2 ZERO; DELTA; bytes of its symbol stream; its stored bytes. -/
structure CBlock where
  kind : Nat
  delta : Bool
  sym : Nat
  data : Bytes
  deriving DecidableEq, Repr

/-- A sealed layer page (R92–R99) and its score (R217). -/
structure Page where
  part : Nat
  serial : Nat
  gen : Nat
  order : Nat
  layer : Nat
  first : Nat
  geom : Nat
  kf : Nat
  vf : Nat
  shared : Bool
  /-- The class under which its leaf is kept, the highest of its pages'; the page's own class, that of the granules that formed it
  (R122). -/
  cls : Nat
  own : Nat := 0
  image : Bytes
  blocks : List CBlock
  base : Nat
  sealT : Nat
  /-- Stack that holds the fret summary, and the summary; unknown while it is rebuilt (R680). -/
  sumStack : Nat
  sumBytes : Nat
  /-- Device address of the summary in T1 (R99), 0 while it has none. -/
  sumAddr : Nat := 0
  summary : Option Bytes
  /-- Score S as FP32 bits and the time t_s of its last update (R217). -/
  score : Nat
  ts : Nat
  coldUntil : Nat := 0
  coldSeq : Nat := 0
  /-- Dies that asked for a T0 copy, with the time of the request (R738 PROMOTE). -/
  promoted : List (Nat × Nat) := []
  deriving DecidableEq, Repr

/-- A leaf record (R99–R105, R156–R163): the pages `serial … serial + layers − 1`. -/
structure Leaf where
  part : Nat
  serial : Nat
  gen : Nat
  order : Nat
  layers : Nat
  geom : Nat
  leafNo : Nat
  ns : Nat
  variant : Nat
  cls : Nat
  /-- Chain value of the leaf's last token (R150), unknown without token IDs. -/
  chain : Option Bytes
  published : Bool
  imported : Bool := false
  /-- Freed: its handles resolve to MISS, its storage waits for the last read reference (R105). -/
  freed : Bool := false
  base : Nat := 0
  /-- The rest of the base binding of a base-delta leaf (R342): BASE_CHAIN, BASE_NAMESPACE, KIND. -/
  bindChain : Bytes := []
  bindNs : Nat := 0
  bindKind : Nat := 0
  sealT : Nat
  pubT : Nat := 0
  /-- Device that acknowledged the last publication, and when (R719), 0 none. -/
  ackBy : Nat := 0
  ackT : Nat := 0
  /-- Peer replicated to, for class P (R608), 0 none. -/
  replica : Nat := 0
  deriving DecidableEq, Repr

/-- A page-map slot that was freed: its last generation (R102). -/
structure FreedSlot where
  part : Nat
  serial : Nat
  gen : Nat
  deriving DecidableEq, Repr

/-- A copy of a page in a tier (R198–R203). -/
structure Copy where
  part : Nat
  serial : Nat
  tier : Nat
  die : Nat
  bytes : Nat
  backing : Bool
  /-- T0: the cluster whose unit holds it. T2: the extent. -/
  unit : Nat := 0
  pinUntil : Nat := 0
  protUntil : Nat := 0
  /-- Its bytes can be read. -/
  good : Bool := true
  /-- Removed from its tier, storage kept until its readers end (R105). -/
  leaving : Bool := false
  deriving DecidableEq, Repr

/-- A sequence record (R80–R84). -/
structure Seq where
  part : Nat
  id : Nat
  geom : Nat
  order : Nat
  ring : Bool
  window : Nat
  sinks : Nat
  cls : Nat
  auto : Bool
  home : Nat
  closing : Bool := false
  closeCmd : Nat := 0
  /-- Length of each layer (R115). -/
  lens : List Nat
  /-- Length each layer reached by the last completed APPEND of class D or P (R600). -/
  durable : List Nat := []
  /-- Leaves in view: leaf number and leaf handle, ascending. -/
  leaves : List (Nat × Nat)
  ns : Nat
  variant : Nat
  holder : Option Nat := none
  epoch : Nat := 0
  expiry : Nat := 0
  /-- Covered length K, the chain value at the last leaf boundary below it, the tokens after that boundary (R153). -/
  k : Nat := 0
  chain : Bytes := []
  toks : List Nat := []
  /-- Key generation under which the chain began (R640). -/
  keyGen : Nat := 0
  /-- Mode 1: the same chain value under the base variant tag (R340), while it is known. -/
  bchain : Option Bytes := none
  /-- Mode 1: the base chain values at the leaf ends K has passed, which a K set back needs (R340, R153): position and value. -/
  bends : List (Nat × Bytes) := []
  /-- Chain values at the ends of leaves not sealed yet, which publication needs (R156): position, value, base value. -/
  ends : List (Nat × Bytes × Option Bytes) := []
  baseMode : Nat := 0
  baseVariant : Nat := 0
  /-- Mode 2: the leaf last dropped by TRUNCATE for each leaf number (R341). -/
  preds : List (Nat × Nat) := []
  /-- Replica peer of the sequence (R608), 0 none. -/
  peer : Nat := 0
  /-- Positions not yet replicated (R612). -/
  unreplicated : Bool := false
  /-- A failed auto seal is retried at this time, 0 for none, or when a leaf at or after retryN is ready (R126). -/
  retryT : Nat := 0
  retryN : Nat := 0
  /-- Of each leaf an APPEND made ready, the group of the queue that then held the append lease (R430). -/
  readyBy : List (Nat × Nat) := []
  /-- Spans of positions [first, end) absent from the view: the ring dropped them, or the parent's had (R107, R128). -/
  gone : List (Nat × Nat) := []
  deriving DecidableEq, Repr

/-- A class P fork that waits for its replicas (R129): its command, the child as the fork's start fixed it, and the granules the child
is given (R122). -/
structure ForkHeld where
  cmd : Nat
  child : Seq
  grans : List Granule
  deriving DecidableEq, Repr

/-- A seal in progress (R123), or the installation of an imported leaf, whose `seq` is 2^48 plus its lookup's command (R180). -/
structure SealJob where
  part : Nat
  seq : Nat
  leafNo : Nat
  /-- First position and positions of the leaf. -/
  first : Nat
  count : Nat
  /-- 1 coding, 2 awaiting its SEAL_PLACE program, 3 placing, 4 programming, 5 before the commit point, 6 publishing,
  7 replicating, 8 releasing its granules. -/
  step : Nat
  /-- SEAL command it counts for, 0 for none; manual. -/
  cmd : Nat := 0
  readyT : Nat
  qg : Nat := 0
  /-- Leaf handle of the base leaf, 0 for none (R340, R342). -/
  base : Nat := 0
  serial : Nat := 0
  gen : Nat := 0
  /-- Tiers in order of preference, die named (15 for the rule of R213), cached T1 copy asked for. -/
  want : List Nat := []
  die : Nat := 15
  cached : Bool := false
  /-- End of the wait for room (R126), 0 before it begins. -/
  waitUntil : Nat := 0
  pages : List Page := []
  copies : List Copy := []
  /-- Class of the leaf and its leaf handle once committed. -/
  cls : Nat := 0
  /-- Its blocks have been given to the engine that codes them (R327); kind of its base, 1 variant, 2 predecessor (R342). -/
  coded : Bool := false
  kind : Nat := 0
  /-- Its granules are no longer the leaf's: a truncation, a rollback or the end of the sequence took them first (R130), and its `leafNo`
  is a number of its own from 2^20, so that the leaf number is free for the leaf filled anew (R121). -/
  released : Bool := false
  deriving DecidableEq, Repr

/-- States of a group slot, coded as GRP_STATE.STATE. -/
inductive GrpSt where
  | empty | declared | waiting | active | refused | keyWithdrawn
  deriving DecidableEq, Repr

/-- A member record of a sharing group's list (R142): device serial and partition. -/
structure Member where
  serial : Nat
  part : Nat
  deriving DecidableEq, Repr

/-- A sharing-group slot of a partition (R139–R147). -/
structure GrpSlot where
  part : Nat
  slot : Nat
  id : Nat := 0
  key : Nat := 0
  digest : Bytes := []
  members : List Member := []
  st : GrpSt := .empty
  reason : Nat := 0
  kcv : Nat := 0
  /-- Devices that have acknowledged the declaration (R143, R712). -/
  acked : List Nat := []
  deriving DecidableEq, Repr

/-- A declaration heard from another member (R144). -/
structure GrpDecl where
  member : Member
  id : Nat
  count : Nat
  digest : Bytes
  kcv : Nat
  deriving DecidableEq, Repr

/-- A holder of a shard entry (R168, R513): device, leaf handle, its Malroth version, last publication, geometry digest. -/
structure Holder where
  serial : Nat
  handle : Nat
  ver : Nat
  pubT : Nat
  geom : Bytes := []
  deriving DecidableEq, Repr

/-- A shard entry (R168), under its entry key. -/
structure ShardEnt where
  key : Bytes
  shard : Nat
  holders : List Holder
  deriving DecidableEq, Repr

/-- A directory snapshot (R192). -/
structure Snap where
  ver : Nat
  shards : List ShardEnt
  deriving DecidableEq, Repr

/-- A holder entry of an answer (R513), for leaf number `leaf` of a lookup. -/
structure Ans where
  leaf : Nat
  serial : Nat
  handle : Nat
  load : Nat
  ver : Nat
  deriving DecidableEq, Repr

/-- A lookup in progress (R174–R179). -/
structure Lookup where
  cmd : Nat
  part : Nat
  ns : Nat
  variant : Nat
  order : Nat
  imp : Bool
  cls : Nat
  /-- Leaf chain values of the prompt's leaves, in order. -/
  chains : List Bytes := []
  /-- Handles found locally, in order; holders named by the answers; leaves asked for and leaves answered. -/
  found : List Nat := []
  remote : List Ans := []
  asked : List Nat := []
  answered : List Nat := []
  /-- 1 hashing, 2 querying, 3 importing, 4 done. -/
  step : Nat := 1
  queryT : Nat := 0
  unreach : Bool := false
  /-- Leaves up to this one make the run. -/
  run : Nat := 0
  /-- Holders tried: leaf and serial; transfers that have ended: leaf, holder, reply body with the page records. -/
  tried : List (Nat × Nat) := []
  got : List (Nat × Nat × Bytes) := []
  imported : List Nat := []
  deriving DecidableEq, Repr

/-- A capo (R184). -/
structure Capo where
  num : Nat
  part : Nat
  tier : Nat
  leaves : List Nat
  /-- Command that waits for it to be made, 0 when made. -/
  cmd : Nat := 0
  deriving DecidableEq, Repr

/-- A publication not yet acknowledged (R189, R190). -/
structure PubWait where
  part : Nat
  serial : Nat
  key : Bytes
  owner : Nat
  sentT : Nat
  deferred : Bool := false
  nextT : Nat := 0
  deriving DecidableEq, Repr

/-- A shard not yet settled after a ring change (R169). -/
structure ShardMove where
  shard : Nat
  peer : Nat
  /-- This device gives it (true) or receives it (false). -/
  giving : Bool
  part : Nat := 0
  deriving DecidableEq, Repr

/-- A move of a page copy (R206). -/
structure Move where
  id : Nat
  part : Nat
  serial : Nat
  srcTier : Nat
  srcDie : Nat
  /-- Copy it is repeated from after its first failure (R206). -/
  again : Option (Nat × Nat) := none
  dstTier : Nat
  dstDie : Nat
  /-- Extent, or T0 cluster, of the destination. -/
  unit : Nat := 0
  bytes : Nat
  replace : Bool
  backing : Bool
  attempt : Nat := 0
  /-- Why: 0 demand, 1 prefetch, 2 demotion, 3 program or promotion, 4 MIGRATE, 5 capo, 6 destage, 7 import, 8 evacuation,
  9 window map. -/
  why : Nat
  cmd : Nat := 0
  useT : Nat := 0
  qg : Nat := 0
  startT : Nat := 0
  deriving DecidableEq, Repr

/-- States of a pool (R220), coded as TIER_STATE. -/
inductive PoolSt where
  | idle | demoting | blocked
  deriving DecidableEq, Repr

/-- A pool: a partition's tier, on one die for T0 and T1 (die 15 for T2 and T3) (R220). -/
structure Pool where
  part : Nat
  tier : Nat
  die : Nat
  st : PoolSt := .idle
  retryT : Nat := 0
  deriving DecidableEq, Repr

/-- A cadence group (R230–R236). -/
structure Cadence where
  part : Nat
  num : Nat
  members : List Nat := []
  period : Nat := 0
  offsets : List (Nat × Nat) := []
  layers : Nat := 0
  stepT : Nat := 0
  qg : Nat := 0
  misses : Nat := 0
  hits : Nat := 0
  suspended : Bool := false
  /-- Members and layers seen in the present step (R232). -/
  seen : List Nat := []
  layersSeen : List Nat := []
  deriving DecidableEq, Repr

/-- A prefetch that is due (R233): its pages, when it is issued, when the pages are used. -/
structure Prefetch where
  part : Nat
  seq : Nat
  layer : Nat
  first : Nat
  count : Nat
  issueT : Nat
  useT : Nat
  t0 : Bool
  qg : Nat
  group : Nat
  deriving DecidableEq, Repr

/-- An admission that waits for room (R228). -/
structure AdmitWait where
  id : Nat
  part : Nat
  serial : Nat
  tier : Nat
  die : Nat
  bytes : Nat
  until_ : Nat
  /-- What waits: 0 seal, 1 prefetch, 2 destage, 3 MIGRATE, 4 program, 5 import, 6 demand fetch,
  7 evacuation (R241), 8 restore or PIN. -/
  why : Nat
  cmd : Nat := 0
  /-- Low byte of the SEQ_ID of the sequence whose work needs the copy, for a stack still to be named (R810). -/
  f : Nat := 0
  deriving DecidableEq, Repr

/-- A row-block partial (R258–R260): FP32 bits of m, l and the rows of o. -/
structure Partial where
  m : List Nat
  l : List Nat
  o : List (List Nat)
  deriving DecidableEq, Repr

/-- One item of an attention command: its sequence (index in the command), KV head and query row block, with its tiles (R262–R267).
Of a backward command: a column, its rows a row range (R307). -/
structure Item where
  seq : Nat
  head : Nat
  rowLo : Nat
  rows : Nat
  /-- First position, count and source of each tile: leaf handle, or 0 for staging. -/
  tiles : List (Nat × Nat × Nat)
  deriving DecidableEq, Repr

/-- A partial on its way or held (R274–R276): its command, item, lowest tile and number of tiles it covers. -/
structure Held where
  cmd : Nat
  item : Nat
  first : Nat
  count : Nat
  /-- Cluster of the core that made it, or that combined it; and that core. -/
  cluster : Nat
  core : Nat
  /-- 0 on its way to the cluster's merge unit, 1 held there, 2 kept by its core for want of room, 3 on its way to the root
  cluster, 4 held there. -/
  place : Nat := 0
  /-- When it was made, or found no room. -/
  since : Nat
  /-- Bytes it takes in the merge SRAM. -/
  bytes : Nat
  part : Partial
  stalled : Bool := false
  deriving DecidableEq, Repr

/-- One sequence of an attention command as it stood when the command started (R132): key range, first query position, ring window,
and the range's present positions in order: first, count and leaf handle, or 0 for staging. -/
structure AttSeq where
  seq : Nat
  lo : Nat
  count : Nat
  qpos : Nat
  window : Option Nat
  segs : List (Nat × Nat × Nat)
  deriving DecidableEq, Repr

/-- A column of a backward command in its work area (R307–R311): the accumulators of its positions, dQ of the rows done, its
backward tiles done. -/
structure Col where
  item : Nat
  accK : List (List Nat)
  accV : List (List Nat)
  dq : List (List Nat) := []
  done : Nat := 0
  complete : Bool := false
  deriving DecidableEq, Repr

/-- What an attention command fixed when it started (R132, R245). `kind`: 0 decode, 1 chunk, 2 sparse, 3 forward with statistics,
4 backward. -/
structure Attn where
  cmd : Nat
  part : Nat
  kind : Nat
  layer : Nat
  seqs : List AttSeq
  qtok : Nat
  det : Bool
  topn : Nat := 0
  sink : Nat := 0
  recent : Nat := 0
  items : List Item := []
  /-- Its runs exist. -/
  built : Bool := false
  /-- Read references held: partition and serial of pages, and the granules as they were (R265). -/
  pages : List (Nat × Nat)
  grans : List Granule
  root : Nat := 0
  /-- Final partials received: item number and partial. -/
  finals : List (Nat × Partial) := []
  /-- Row statistics of an item over a page: page partition and serial, item (R268). -/
  stats : List (Nat × Nat × Nat × Partial) := []
  /-- Pages a sparse command selected, and their number summed over heads and sequences (R284, R285). -/
  picked : List (Nat × Nat) := []
  selected : Nat := 0
  tiles : Nat := 0
  /-- Pages fetched on demand. -/
  demand : List (Nat × Nat) := []
  view : Nat := 0
  cols : List Col := []
  /-- Work area of a backward command: bytes on each stack (R311). -/
  work : List (Nat × Nat) := []
  deriving DecidableEq, Repr

/-- A view held for a backward pass (R293–R299): its leaves by number, row statistics (m, l) by layer in token and head order. -/
structure View where
  num : Nat
  part : Nat
  seq : Nat
  keyLo : Nat
  keyCount : Nat
  qtok : Nat
  qpos : Nat
  geom : Nat
  window : Option Nat
  leaves : List (Nat × Nat)
  stats : List (Nat × List (Nat × Nat)) := []
  /-- Stack whose T1 holds the statistics (R297). -/
  stack : Nat
  lastUse : Nat
  /-- The command that is creating it, 0 once it has completed OK. -/
  made : Nat := 0
  deriving DecidableEq, Repr

/-- The accumulator of a page in a gradient set (R316): page handle, layer, first position, commits that added to it; for each KV head
FP32 dK and dV rows of the page's T positions. -/
structure GAcc where
  ph : Nat
  layer : Nat
  first : Nat
  contrib : Nat
  stack : Nat
  bytes : Nat
  dk : List (List (List Nat))
  dv : List (List (List Nat))
  deriving DecidableEq, Repr

/-- A gradient set (R316–R320). -/
structure GSet where
  part : Nat
  num : Nat
  geom : Nat
  acc : List GAcc := []
  /-- Queues whose commits it has taken since its creation or last export. -/
  queues : List Nat := []
  nan : Bool := false
  deriving DecidableEq, Repr

/-- A block waiting for a stream codec lane (R352). -/
structure CodecJob where
  part : Nat
  qg : Nat
  bytes : Nat
  since : Nat
  decode : Bool
  owner : Nat
  /-- Stored bytes of the block, lane steps it takes (R348, R349), its layer, the first of its queue (R353), end of its service. -/
  stored : Nat := 0
  steps : Nat := 0
  layer : Nat := 0
  first : Bool := false
  endT : Nat := 0
  /-- The seal whose block it codes: partition, sequence, leaf number (R327). -/
  forSeal : Option (Nat × Nat × Nat) := none
  /-- The page whose block it decodes. -/
  page : Option (Nat × Nat) := none
  deriving DecidableEq, Repr

/-- A stream codec of a bridge die (R352–R354). -/
structure Codec where
  die : Nat
  lanes : List (Option CodecJob)
  okLanes : List Bool
  queue : List CodecJob := []
  drr : Drr := {}
  /-- Bytes taken in and given out (SC_IN_KIB, SC_OUT_KIB). -/
  inBytes : Nat := 0
  outBytes : Nat := 0
  deriving DecidableEq, Repr

/-- A flow (R29): one command's transfers between one pair of attention dies, over one bridge die; of a move that no command asked for,
that move's. -/
structure Flow where
  cmd : Nat
  move : Nat := 0
  src : Nat
  dst : Nat
  bridge : Nat
  deriving DecidableEq, Repr

/-- The measured ratio and mean decode steps of a layer (R351), each an exact fraction: numerator and denominator. -/
structure Ratio where
  part : Nat
  layer : Nat
  ratio : Nat × Nat
  steps : Nat × Nat
  deriving DecidableEq, Repr

end Sys2Proof.Machine
end

