-- ==== Sys2Proof/Machine/State.lean ====
section
/-! DEFINITION. The state of the LN740 as plain data, grouped by the chapter that owns each piece, and the state at reset.
A register's value stands in `regs` under its key; an unlisted register holds its reset value (chapter 20). -/

namespace Sys2Proof.Machine

/-- What the device sends out of itself. The newest stands first in `State.out`. -/
inductive OutMsg where
  /-- A write into host memory through a function (port, function): completions, results, telemetry, landing records. -/
  | hostWrite (port fn addr : Nat) (data : Bytes)
  /-- An MSI-X message (R394): its vector, and the address and data of the vector's table entry. -/
  | msix (port fn vector addr data : Nat)
  /-- The value a register read returns (R755). -/
  | readReply (a : Agent) (value : Nat)
  /-- A Malroth message (R508). -/
  | malroth (m : MalMsg)
  /-- A telemetry record sent on a path (R689). -/
  | telemetry (path : Nat) (r : TRec)
  /-- A push sent: port, the function whose requester ID the PCIe memory write carries (0 on Ethernet), connection (0 on CXL), address,
  payload (R438). -/
  | push (port fn conn addr : Nat) (data : Bytes)
  /-- The reply to a window read: 64 bytes, or poison (R479, R495). -/
  | cxlData (port tag load : Nat) (data : Option Bytes)
  /-- The completion of a window write, with its DevLoad (R465, R479, R485). -/
  | cxlDone (port load : Nat)
  /-- A back-invalidation of cached lines of one aligned block of four lines of a lease (R481). -/
  | biSnp (port lease block : Nat) (lines : List Nat)
  /-- A reply to a host snoop of the device cache (R471). -/
  | snoopReply (port addr : Nat)
  /-- A read or write of a 64-byte line of an extent's memory in a tray (R490). -/
  | trayRead (tray ext line : Nat)
  | trayWrite (tray ext line : Nat) (data : Bytes)
  /-- Zero written over a whole extent (R482). -/
  | trayZero (tray ext : Nat)
  /-- An extent message to the fabric manager (R473). -/
  | fm (data : Bytes)
  /-- A Dynamic Capacity response or log entry (R475, R476): 1 add accepted, 2 add rejected, 3 release request posted to the host's
  log, 4 release done, 5 unknown extent; the fabric manager's identifier. -/
  | dcd (port pbr kind fmId : Nat)
  /-- A reply of the SPDM responder (R632). -/
  | spdm (port : Nat) (data : Bytes)
  /-- The answer to a PCIe configuration request: retry status or success (R711). -/
  | config (port : Nat) (retry : Bool)
  /-- VOUT_COMMAND to a core rail's regulator, mV (R58, R793). -/
  | pmbus (rail mv : Nat)
  /-- An operation on a NAND die: 0 read, 1 program, 2 erase, 3 reset; block. -/
  | nand (chan target op block : Nat)
  /-- A PTM request on a port (R75). -/
  | ptm (port : Nat)
  deriving DecidableEq, Repr

/-- Which device this is: the ordering code, the enabled attention dies and the identity in its fuses. -/
structure Dev where
  /-- 1 LN740-A, 2 LN740-S. -/
  ordering : Nat := 1
  /-- Bit d for each enabled attention die (R44). -/
  dies : Nat := 0xFF
  serial : Nat := 1
  /-- Fused core-rail bounds, mV (R59). -/
  fuseMin : Nat := 680
  fuseMax : Nat := 920
  /-- Attention dies retired in service; bridge dies lost stand in `Hw.bridges`. -/
  retired : Nat := 0
  deriving DecidableEq, Repr

/-- Device time and its discipline (R65–R78) beside the TIME registers. -/
structure TimeSt where
  /-- Consecutive Sync messages within 50 ns; last Sync (R72); when the selected source was last heard (R78). -/
  good : Nat := 0
  lastSync : Nat := 0
  lastHeard : Nat := 0
  /-- Primary time base (R68): 0 B0, 1 B1. -/
  primary : Nat := 0
  /-- DEV_TIME holds at this value for so many ns more (R68). -/
  holdAt : Nat := 0
  holdNs : Nat := 0
  tbLost : List Nat := []
  deriving DecidableEq, Repr

/-- Telemetry paths and fault records (R659, R689). -/
structure Tel where
  paths : List TPath := (List.range 67).map fun i => { id := i }
  faults : List FaultRec := []
  nextFault : Nat := 1
  /-- Records that wait for a TELEMETRY program, and the next context number. -/
  waiting : List PolRec := []
  nextCtx : Nat := 1
  deriving DecidableEq, Repr

/-- The course (R664–R673). -/
structure Course where
  halves : List Half := [{}, {}]
  arbs : List Arbiter := List.replicate 8 {}
  /-- The published lead epoch of the bridge-die and package blocks (R667). -/
  pubEpoch : Nat := 0
  journal : List JRec := []
  nextRec : Nat := 1
  mirror : List MirrorWait := []
  headlessSince : Option Nat := some 0
  headlessRaised : Bool := false
  everLed : Bool := false
  deriving DecidableEq, Repr

/-- The units of the package (chapters 1, 2, 17, 21). -/
structure Hw where
  hbm : List Stack := List.replicate 8 {}
  bridges : List Bridge := [{}, {}]
  rails : List Rail := List.replicate 24 {}
  meas : List Meas := List.replicate 24 {}
  temps : List Int := List.replicate 10 0
  /-- End of each die's last sample window (R47), and time of the last rail sample (R794). -/
  winT : List Nat := List.replicate 10 0
  sampleT : Nat := 0
  hbmTemps : List Int := List.replicate 8 0
  bankUv : Nat := 0
  sensors : List (List Sensor) := (List.range 10).map fun d => List.replicate (if d < 8 then 16 else 8) {}
  clusters : List Cluster := (List.range 80).map fun c => { num := c }
  /-- Die-to-die links down: attention die and bridge (R29). -/
  d2dDown : List (Nat × Nat) := []
  pins : Pins := {}
  /-- All work stopped: thermal trip or power-fail (R600, R797). -/
  stopped : Bool := false
  retireReq : Bool := false
  /-- RETIRE is set and waits for the outcome of a bridge-die restart (R694). -/
  retireWait : Bool := false
  /-- Repairs that wait for a lead (R673). -/
  deferred : List Repair := []
  /-- Dies whose SRAM staging buffer is retired (R663). -/
  bufRetired : List Nat := []
  deriving DecidableEq, Repr

/-- The command rings (chapter 9). `ring` is the ring SRAM of BAR4 in canonical form. -/
structure Rings where
  queues : List Queue := [65536, 65537].map fun n =>
    { num := n, port := 255, fn := 255, loc := n, st := .active, ver := 0x302 }
  cmds : List Cmd := []
  nextUid : Nat := 1
  ring : List Host.Cell := []
  /-- Entries of the functions' MSI-X tables that have been written or have a message pending (R393). -/
  msix : List MsixVec := []
  /-- The two front ends' rounds of acceptance (R412). -/
  fronts : List FrontEnd := [{}, {}]
  deriving DecidableEq, Repr

/-- A partition (R399–R407). -/
structure Partition where
  num : Nat
  st : PSt := .free
  /-- Key of its private namespace, drawn when it is created (R140). -/
  nsKey : Bytes := []
  desc : PartDesc := {}
  /-- Its media key (R643). -/
  mediaKey : Bytes := []
  /-- State under whose storage key the journal wraps both keys; the device is in another, so it cannot unwrap them (R625, R627). -/
  wrap : LifeSt × DebugSt := (.production, .none)
  shut : Bool := false
  /-- T0 units in each cluster (R199). -/
  t0 : List Nat := []
  /-- T1 quota of each stack, GiB. -/
  t1 : List Nat := []
  geom : Option Geom := none
  /-- The geometry a switch installs, and the GEOM_LOAD that asked for it. -/
  next : Option Geom := none
  switchCmd : Nat := 0
  switchT : Nat := 0
  /-- PART_CLEAR under way: its command and start. -/
  clearCmd : Nat := 0
  clearT : Nat := 0
  epochOk : Bool := true
  /-- Times of policy faults of the last second (R732). -/
  polFaults : List Nat := []
  /-- Cores being removed: they take no new run (R403). -/
  leaving : Nat := 0
  leaveCmd : Nat := 0
  /-- T1 units given up on each stack and not yet scrubbed, GiB (R403, R650). -/
  scrubGib : List Nat := []
  /-- Core-steps received within the last SHARE_WINDOW: time, class, steps (R414). -/
  steps : List (Nat × Nat × Nat) := []
  winStart : Nat := 0
  /-- HBM_RSV and WEIGHT in force in the present share window (R403), and the share still in force of each group whose QG_SHARE has been
  written in it (R432). -/
  rsvNow : List Nat := []
  weightNow : Nat := 1
  sharesNow : List (Nat × Nat) := []
  /-- Bytes asked for and received on each stack in the last share window, and its allotment there (R410). -/
  asked : List Nat := []
  got : List Nat := []
  allot : List Nat := []
  /-- Bytes read from T2 and T3 up to the last share window, and those read in the last window that read any, in bytes/µs (R420). -/
  rdSeen : Nat × Nat := (0, 0)
  rdRate : Nat × Nat := (0, 0)
  /-- Of the last 64 µs: start and end of the runs ended, and stack bytes consumed with their time (R373). -/
  heldT : List (Nat × Nat) := []
  hbmT : List (Nat × Nat) := []
  rrBest : Nat := 0
  /-- The last 4,096 blocks coded, oldest first: true for RAW (CDC.RAW_PERMILLE). -/
  lastBlocks : List Bool := []
  /-- Start of the scrub (R652). -/
  scrubT : Nat := 0
  /-- BLAKE2s-256 digest of the descriptor last accepted (R634). -/
  descDigest : Bytes := []
  deriving DecidableEq, Repr

/-- Partitions and the scheduler's accounts (chapter 10). -/
structure Parts where
  parts : List Partition := (List.range 64).map fun p => { num := p }
  groups : List Group := []
  /-- 21 counters for each accounting record that has been charged (R428). -/
  acct : List (AcctKey × List Nat) := []
  /-- Activity counted in a record since its energy was last summed, in the order of `Act.idx`, and last what the sum left below 1 µJ (R431). -/
  activity : List (AcctKey × List Nat) := []
  /-- Time of the last energy fit, and the dynamic energy charged since, µJ (R431). -/
  calT : Nat := 0
  dynUj : Nat := 0
  /-- Lead epoch and boot epoch of the last PART_SET accepted (R633). -/
  setLead : Nat := 0
  setBoot : Nat := 0
  runs : List Run := []
  nextRun : Nat := 1
  deriving DecidableEq, Repr

/-- Sequences, granules, pages and leaves (chapter 3). -/
structure Seqs where
  seqs : List Seq := []
  granules : List Granule := []
  pages : List Page := []
  leaves : List Leaf := []
  freed : List FreedSlot := []
  /-- First serial never used, by partition (R102). -/
  nextSerial : List (Nat × Nat) := []
  seals : List SealJob := []
  /-- Class P forks that wait for their replicas (R129). -/
  forks : List ForkHeld := []
  deriving DecidableEq, Repr

/-- The prefix directory (chapter 4). -/
structure Pdir where
  slots : List GrpSlot := []
  decls : List GrpDecl := []
  shards : List ShardEnt := []
  /-- Entries of the index journalled at the last checkpoint (R719). -/
  journalled : List ShardEnt := []
  /-- The ring and the time of that checkpoint. -/
  journalRing : List Nat := []
  ring : List Nat := []
  ringEpoch : Nat := 0
  moving : List ShardMove := []
  snaps : List Snap := []
  lookups : List Lookup := []
  capos : List Capo := []
  pubs : List PubWait := []
  /-- Key bodies of leaves that left the local index while no ring was known, whose owners have still to hear of it (R163). -/
  unpubs : List Bytes := []
  lastSnap : Nat := 0
  deriving DecidableEq, Repr

/-- Tiers (chapter 5). -/
structure Tiers where
  copies : List Copy := []
  moves : List Move := []
  nextMove : Nat := 1
  pools : List Pool := []
  cadences : List Cadence := []
  prefetches : List Prefetch := []
  waits : List AdmitWait := []
  /-- Moves that an ADMIT program has still to decide (R229). -/
  asks : List Move := []
  /-- Requests for another tier that wait until the page's move in flight ends (R207). -/
  behind : List Move := []
  nextWait : Nat := 1
  deriving DecidableEq, Repr

/-- Attention and training in progress (chapters 6, 7). -/
structure Att where
  attns : List Attn := []
  helds : List Held := []
  views : List View := []
  nextView : Nat := 1
  gsets : List GSet := []
  /-- FMA performed, by partition (ATT.FMA_MI). -/
  fma : List (Nat × Nat) := []
  codecs : List Codec := [8, 9].map fun d => { die := d, lanes := List.replicate 8 none, okLanes := List.replicate 8 true }
  ratios : List Ratio := []
  /-- Flows between attention dies (R29). -/
  flows : List Flow := []
  deriving DecidableEq, Repr

/-- Delivery (chapter 11) and the ports. -/
structure Dlv where
  dests : List Dest := []
  pushes : List Push := []
  nextPush : Nat := 1
  delivs : List Deliv := []
  policers : List Policer := []
  /-- When each partition's delivery queues were last sampled (R461). -/
  sampleT : List (Nat × Nat) := []
  ports : List Port := (List.range 16).map fun i => { num := i }
  deriving DecidableEq, Repr

/-- Pool extents, window extents, NM commands (chapter 12). -/
structure Cxl where
  extents : List Extent := []
  extEpoch : Nat := 0
  leases : List Lease := []
  leaseEpoch : Nat := 0
  sf : List SfLine := []
  reads : List WinRead := []
  trays : List Tray := []
  jobs : List NmJob := []
  /-- Window bytes read, by partition (WIN_RD_KIB). -/
  winBytes : List (Nat × Nat) := []
  /-- Outstanding reads and rate buckets of each host: partition, port, PBR ID. -/
  hosts : List (Nat × Nat × Nat × Bucket) := []
  deriving DecidableEq, Repr

/-- The domain network (chapter 13). -/
structure Net where
  conns : List Conn := []
  peers : List Peer := []
  waits : List MalWait := []
  kept : List KeptReply := []
  nextMsg : Nat := 1
  group : Nat := 0
  leader : Nat := 0
  coordinator : Nat := 0
  members : List Nat := []
  incidents : List Incident := []
  nextInc : Nat := 1
  /-- The device's incident counter as an arbiter (R529). -/
  incCounter : Nat := 0
  /-- Messages that wait for a newer ring (R517). -/
  later : List MalMsg := []
  /-- Requests forwarded to their owners (R169, R534). -/
  relays : List Relay := []
  storm : Option Storm := none
  lastTick : Nat := 0
  deriving DecidableEq, Repr

/-- Flash media (chapter 14). -/
structure Ftl where
  dies : List NDie := []
  blocks : List NBlock := []
  chans : List NChan := (List.range 32).map fun i => { num := i }
  /-- Bridge dies whose spare channel engine is in use (R544). -/
  spareUsed : List Nat := []
  sets : List StripeSet := []
  sbs : List SuperBlk := []
  units : List NUnit := []
  budget : WBudget := {}
  nextLua : Nat := 1
  nextSb : Nat := 1
  /-- First power-on (R582); bytes the host wrote and background tasks programmed: (time, host, background). -/
  firstOn : Nat := 0
  writes : List (Nat × Nat × Nat) := []
  /-- pSLC target of each bridge die in bytes, and when it was last computed (R555). -/
  targets : List Nat := [0, 0]
  targetT : List Nat := [0, 0]
  /-- Shares of the NAND channels of the two bridge dies (R566). -/
  shares : List ChanShare := [{}, {}]
  /-- LIFE_LOW and CAPACITY_SHORT hold. -/
  lifeLow : Bool := false
  capShort : Bool := false
  deriving DecidableEq, Repr

/-- Power loss (chapter 15). -/
structure Plp where
  meas : HoldMeas := {}
  flush : Flush := {}
  budget : Nat := 0
  replicas : List Replica := []
  nextReplica : Nat := 1
  lastAudit : Nat := 0
  deriving DecidableEq, Repr

/-- Security (chapter 16). -/
structure Sec where
  keys : List KeySlot := []
  sessions : List Session := []
  tdis : List Tdi := []
  ides : List Ide := []
  fuses : Fuses := {}
  deriving DecidableEq, Repr

/-- Policy programs (chapter 19). -/
structure Pol where
  programs : List Program := []
  segs : List DataSeg := []
  events : List PolEvent := []
  nextEv : Nat := 1
  seqrs : List Sequencer :=
    (List.range 8).flatMap (fun d => (List.range 4).map fun n => { die := d, num := n }) ++
    [8, 9].flatMap (fun d => (List.range 8).map fun n => { die := d, num := n })
  timers : List (Nat × Nat × Nat) := []
  deriving DecidableEq, Repr

/-- Reasons a step ends in a fault: none. No command stops the block; what the chapters call a fault of the device is a
fault record, an alarm and a state of the unit, all of them effects on the state. -/
inductive Fault where
  deriving DecidableEq, Repr

/-- Reasons a command is refused. -/
inductive Refusal where
  /-- Raised by `exec`'s own arms for a command that has no meaning in the model. Safe: nothing is claimed of it. -/
  | notModelled (mnemonic : String)
  deriving DecidableEq, Repr

/-- The machine. -/
structure State where
  /-- Commands that wait, first in, first out. -/
  pending : List Instr := []
  /-- DEV_TIME, ns (R65). -/
  now : Nat := 0
  /-- The model's own: how many free values have been taken (Config). -/
  free : Nat := 0
  dev : Dev := {}
  /-- Registers that differ from their reset values. -/
  regs : List (RegKey × Nat) := []
  /-- Upper words latched by an agent's 4-byte reads: agent number, address, word (R755). -/
  latches : List (Nat × Nat × Nat) := []
  out : List OutMsg := []
  time : TimeSt := {}
  tel : Tel := {}
  course : Course := {}
  hw : Hw := {}
  boot : Boot := {}
  q : Rings := {}
  part : Parts := {}
  sq : Seqs := {}
  pdir : Pdir := {}
  tier : Tiers := {}
  att : Att := {}
  dlv : Dlv := {}
  cxl : Cxl := {}
  net : Net := {}
  ftl : Ftl := {}
  plp : Plp := {}
  sec : Sec := {}
  pol : Pol := {}
  deriving DecidableEq, Repr

/-- The machine at reset: every register at its reset value, no power-good yet (chapter 18), no command waiting. -/
def State.reset : State := {}

end Sys2Proof.Machine
end

