-- ==== Sys2Proof/Machine/Regs.lean ====
section
/-! DEFINITION. The register store: one home for every register field (R754, R758, R760), read and written by the meanings
through the accessors of this file. -/

namespace Sys2Proof.Machine

/-- The reset value where a chapter gives it by unit or index (R456, R703, R729, gate lists), else the table's. -/
def Fld.resetAt (f : Fld) (page idx sel : Nat) : Nat :=
  if f == F.HOLD_US then (if page ≤ 8 then 500 else 2000)
  else if f == F.PORT_RATE then (if page ≤ 8 then 121000 else 100000)
  else if f == F.GATE_ADMIN_INTERVAL_NS then (if idx = 0 then 1000000 else 0)
  else if f == F.GATE_ADMIN_MASK then (if idx = 0 then 0xFF else 0)
  else if f == F.GATE_OPER then (if idx = 0 then 0xFF000000 + 1000000 else 0)
  else if f == F.HOOK_PARAM then (if sel = 3 ∧ idx = 0 then 8 else 0)
  else if f == F.BOOT_PLAN_ATTEMPTS then
    (match idx with | 1 => 2 | 2 => 2 | 3 => 2 | 4 => 3 | 5 => 1 | 7 => 15 | _ => 0)
  else if f == F.BOOT_PLAN_ON_FAIL then
    (match idx with | 2 => 1 | 3 => 1 | 4 => 1 | 5 => 2 | 7 => 1 | _ => 0)
  else f.reset

/-- Key of the copy of field f on `page`, for partition `part`, select value `sel`, array index `idx`. -/
def Fld.key (f : Fld) (page part sel idx : Nat) : RegKey :=
  { blk := f.blk, page := if f.unit then page else 0, part := if f.part then part else 255,
    sel := if f.isSel || f.selOff != 0 then sel else 0, off := f.off + idx * f.width, lo := f.lo }

/-- The stored value of a field. -/
def State.reg (s : State) (f : Fld) (page part sel idx : Nat) : Nat :=
  (alGet (f.key page part sel idx) s.regs).getD (f.resetAt page idx sel)

/-- The field with a new value, cut to its bits. -/
def State.setReg (s : State) (f : Fld) (page part sel idx v : Nat) : State :=
  { s with regs := alSet (f.key page part sel idx) (v % 2 ^ f.bits) s.regs }

/-- A count field raised by n: it wraps where the chapter says so, else it stays at its largest value (R758). -/
def State.bumpReg (s : State) (f : Fld) (page part sel idx n : Nat) : State :=
  let v := s.reg f page part sel idx + n
  s.setReg f page part sel idx (if f.wraps then v else min v (2 ^ f.bits - 1))

/-! The accessors: `g` a device-wide package field, `gp` a partition's, `gs` a selected one, `gps` a partition's selected
one, `gu` a unit's (page u + 1), `gus` a unit's selected one. They give the value the device acts on. -/

def State.g (s : State) (f : Fld) : Nat := f.acts (s.reg f 0 255 0 0)
def State.gi (s : State) (f : Fld) (i : Nat) : Nat := f.acts (s.reg f 0 255 0 i)
def State.gp (s : State) (f : Fld) (p : Nat) : Nat := f.acts (s.reg f 0 p 0 0)
def State.gs (s : State) (f : Fld) (x : Nat) : Nat := f.acts (s.reg f 0 255 x 0)
def State.gps (s : State) (f : Fld) (p x : Nat) : Nat := f.acts (s.reg f 0 p x 0)
def State.gu (s : State) (f : Fld) (u : Nat) : Nat := f.acts (s.reg f (u + 1) 255 0 0)
def State.gus (s : State) (f : Fld) (u x : Nat) : Nat := f.acts (s.reg f (u + 1) 255 x 0)

def State.w (s : State) (f : Fld) (v : Nat) : State := s.setReg f 0 255 0 0 v
def State.wi (s : State) (f : Fld) (i v : Nat) : State := s.setReg f 0 255 0 i v
def State.wp (s : State) (f : Fld) (p v : Nat) : State := s.setReg f 0 p 0 0 v
def State.ws (s : State) (f : Fld) (x v : Nat) : State := s.setReg f 0 255 x 0 v
def State.wps (s : State) (f : Fld) (p x v : Nat) : State := s.setReg f 0 p x 0 v
def State.wu (s : State) (f : Fld) (u v : Nat) : State := s.setReg f (u + 1) 255 0 0 v
def State.wus (s : State) (f : Fld) (u x v : Nat) : State := s.setReg f (u + 1) 255 x 0 v

def State.bump (s : State) (f : Fld) (n : Nat := 1) : State := s.bumpReg f 0 255 0 0 n
def State.bumpP (s : State) (f : Fld) (p : Nat) (n : Nat := 1) : State := s.bumpReg f 0 p 0 0 n
def State.bumpPS (s : State) (f : Fld) (p x : Nat) (n : Nat := 1) : State := s.bumpReg f 0 p x 0 n
def State.bumpU (s : State) (f : Fld) (u : Nat) (n : Nat := 1) : State := s.bumpReg f (u + 1) 255 0 0 n
def State.bumpUS (s : State) (f : Fld) (u x : Nat) (n : Nat := 1) : State := s.bumpReg f (u + 1) 255 x 0 n

/-- A field keeps the largest of its value and v. -/
def State.maxP (s : State) (f : Fld) (p v : Nat) : State :=
  if v > s.reg f 0 p 0 0 then s.setReg f 0 p 0 0 (min v (2 ^ f.bits - 1)) else s

/-! ### The common page (R761) -/

/-- A field of the common page of block b, on unit pages (u = 1) or the package page. A partition's virtual-function event
unit and watermark units are the copies for that partition (R757, R808). -/
def common (b u o h l : Nat) (a : Acc) (r : Nat) : Fld :=
  { blk := b, unit := u == 1, off := o, hi := h, lo := l, acc := a, reset := r, part := true,
    width := if h > 31 then 8 else 4 }

def Fld.blkQuiesce (b u : Nat) : Fld := common b u 0x010 1 1 .rwc 0
def Fld.blkEnable (b u : Nat) : Fld := common b u 0x010 0 0 .rwc 1
def Fld.blkSoft (b u : Nat) : Fld := common b u 0x010 2 2 .rwc 0
def Fld.blkDegraded (b u : Nat) : Fld := common b u 0x014 2 2 .ro 0
def Fld.blkFault (b u : Nat) : Fld := common b u 0x014 3 3 .ro 0
def Fld.evtLatch (b u : Nat) : Fld := common b u 0x018 63 0 .w1c 0
def Fld.evtMask (b u : Nat) : Fld := common b u 0x020 63 0 .rw 0
def Fld.evtForce (b u : Nat) : Fld := common b u 0x028 63 0 .wo 0
def Fld.evtCount (b u : Nat) : Fld := common b u 0x030 31 0 .rc 0
def Fld.evtFirstCode (b u : Nat) : Fld := common b u 0x038 7 0 .ro 0xFF
def Fld.evtFirstTime (b u : Nat) : Fld := common b u 0x040 63 0 .ro 0

/-- What the watermark units in use of an instance watch, unit by unit, as WM_SOURCE reads it (R765): the offset of the register
of the page it watches, or 0x8000 + u. The SYS units name theirs (R775). -/
def wmSources (b u : Nat) : List Nat :=
  if u = 0 then
    match b with
    | 0x01 => [0xFFFF, 0xFFFF, 0xFFFF, 0xFFFF]
    | 0x02 => [F.PKG_PACE.off]
    | 0x03 => [F.OFFSET_NS.off, F.RATE_PPB.off, 0x8002]
    | 0x04 => [F.REPUB_LEFT.off, 0x8001, 0x8002]
    | 0x05 => [F.KEYS_SET.off, F.SESSIONS.off, F.TAG_FAULTS.off]
    | 0x06 => [F.ALARMS_HELD.off, 0x8001, F.FAULT_COUNT.off]
    | 0x07 => [F.D_TOTAL.off, F.D_USED.off, F.HU_ENERGY.off, F.P_UNREPLICATED.off]
    | 0x08 => [F.CE_TOTAL.off]
    | 0x09 => [F.STAGE_USED.off, F.SEQ_OPEN_CNT.off, F.SEAL_BACKLOG.off]
    | 0x0A => [F.INDEX_ENTRIES.off, F.CAPO_COUNT.off, F.PUB_DEFERRED.off, F.SHARDS_MOVING.off]
    | 0x0B => [F.T0_USED.off, F.T1_USED.off, F.T2_USED.off, F.T3_USED.off]
    | 0x0C => [0x8000, 0x8001]
    | 0x0D => [F.RAW_PERMILLE.off, F.REMNANT_MIB.off]
    | 0x0E => [F.QP_USED.off, 0x8001, 0x8002]
    | 0x0F => [F.QG_STATUS_RUNS.off, F.MIX_ACTUAL.off, 0x8002]
    | 0x10 => [F.DQ_DEPTH.off, F.DQ_DELAY.off, 0x8002]
    | 0x11 => [F.WIN_SLOTS.off, F.SF_USED.off]
    | 0x12 => [F.INC_USED.off, F.CONN_USED.off, 0x8002]
    | 0x13 => [F.USED_GIB.off, F.PSLC_USED.off, F.LIFE_USED_PM.off, F.WA_PM.off]
    | 0x15 => [F.FAULTS_1S.off, F.HOOK_UNITS_MAX.off]
    | 0x17 => [F.POWER_MW.off]
    | _ => []
  else
    match b with
    | 0x02 => [F.CUR_PACE.off, F.JUNCTION.off, F.VREAD_MV.off]
    | 0x06 => [F.MIRROR_LAG.off]
    | 0x08 => [F.TEMP.off, F.BW_PM.off, F.CE_COUNT.off]
    | 0x0B => [F.DIE_T0_USED.off, F.STACK_T1_USED.off]
    | 0x0C => [F.MERGE_USED.off, 0x8001]
    | 0x0D => [F.SC_QUEUES.off, F.SC_LANES_BUSY.off]
    | 0x0E => [F.FE_QUEUES.off]
    | 0x10 => [F.HELD_ITEMS.off, F.QUEUED_KIB.off]
    | 0x11 => [F.RD_QUEUE.off, F.TRAY_LIMIT.off]
    | 0x12 => [F.RETRANS.off, F.PAUSE_RX.off]
    | 0x13 => [F.SET_FREE_SB.off, F.FOLD_BACKLOG.off]
    | 0x14 => [F.DIE_BAD_BLOCKS.off, F.DIE_WEAR_AVG.off]
    | 0x15 => [F.SQ_QUEUED.off, F.SQ_BUSY_NS.off]
    | 0x16 => [F.NM_QUEUED.off, F.NM_BUSY.off]
    | _ => []

/-- A unit that is held once for each partition (R808): its level is one of the selected partition. -/
def wmOfPart (b page k : Nat) : Bool :=
  if page = 0 then
    match b with
    | 0x05 => k = 0
    | 0x06 => k = 1
    | 0x07 => k = 1
    | 0x0A => k = 1
    | 0x0E => k ≤ 1
    | 0x10 => k = 2
    | 0x11 => k = 0
    | 0x12 => k = 1
    | 0x09 | 0x0B | 0x0C | 0x0D | 0x0F | 0x15 | 0x17 => true
    | _ => false
  else b = 0x0B

/-- A field of watermark unit k (R765). -/
def wm (b u k o h l : Nat) (a : Acc) (r : Nat) : Fld := common b u (0x080 + 0x20 * k + o) h l a r

def Fld.wmLevel (b u k : Nat) : Fld := wm b u k 0x00 31 0 .ro 0
def Fld.wmHigh (b u k : Nat) : Fld :=
  wm b u k 0x04 31 0 .rw
    (if b = 0x03 && u = 0 && k = 0 then 50
     else if b = 0x0B then (if k = 0 then 950 else if u = 1 && k ≥ 2 then 0xFFFFFFFF else if k = 3 then 950 else 900)
     else 0xFFFFFFFF)
def Fld.wmLow (b u k : Nat) : Fld :=
  wm b u k 0x08 31 0 .rw
    (if b = 0x03 && u = 0 && k = 0 then 25
     else if b = 0x0B then (if k = 0 then 850 else if u = 1 && k ≥ 2 then 0 else if k = 3 then 900 else 800)
     else 0)
def Fld.wmUp (b u k : Nat) : Fld := wm b u k 0x0C 0 0 .w1c 0
def Fld.wmDown (b u k : Nat) : Fld := wm b u k 0x0C 1 1 .w1c 0
def Fld.wmEnable (b u k : Nat) : Fld :=
  wm b u k 0x0C 2 2 .rw (if (b = 0x03 && u = 0 && k = 0) || (b = 0x0B && (u = 0 || k < 2)) then 1 else 0)
def Fld.wmAbove (b u k : Nat) : Fld := wm b u k 0x0C 3 3 .ro 0
def Fld.wmCross (b u k : Nat) : Fld := wm b u k 0x0C 15 8 .rc 0
def Fld.wmPeak (b u k : Nat) : Fld := wm b u k 0x10 31 0 .rc 0
def Fld.wmTrough (b u k : Nat) : Fld := wm b u k 0x14 31 0 .rc 0
def Fld.wmSource (b u k : Nat) : Fld := wm b u k 0x18 15 0 (if b = 0x01 then .rw else .ro) ((wmSources b u).getD k 0xFFFF)

/-- Every field of a common page that is stored: the page's own, then the four watermark units. BLK_STATUS is made up of views. -/
def Fld.commonAll (b u : Nat) : List Fld :=
  [Fld.blkEnable b u, Fld.blkQuiesce b u, Fld.blkSoft b u,
   Fld.evtLatch b u, Fld.evtMask b u, Fld.evtForce b u, Fld.evtCount b u, Fld.evtFirstCode b u, Fld.evtFirstTime b u] ++
  (List.range 4).flatMap fun k =>
    [Fld.wmLevel b u k, Fld.wmHigh b u k, Fld.wmLow b u k, Fld.wmUp b u k, Fld.wmDown b u k, Fld.wmEnable b u k,
     Fld.wmAbove b u k, Fld.wmCross b u k, Fld.wmPeak b u k, Fld.wmTrough b u k, Fld.wmSource b u k]

/-- Unit flag of a page. -/
def pageUnit (page : Nat) : Nat := if page = 0 then 0 else 1

def State.cm (s : State) (f : Fld) (page part : Nat) : Nat := s.reg f page part 0 0
/-- QUIESCE is set in the instance, or in its block's package instance: it starts no new work, which waits and does not fail (R763). -/
def State.paused (s : State) (b page : Nat) : Bool :=
  s.cm (Fld.blkQuiesce b 0) 0 255 == 1 || (page != 0 && s.cm (Fld.blkQuiesce b 1) page 255 == 1)

def State.wcm (s : State) (f : Fld) (page part v : Nat) : State := s.setReg f page part 0 0 v

/-- Unit instances of a block (R784). -/
def unitCount (b : Nat) : Nat :=
  match b with
  | 0x02 => 10 | 0x03 => 2 | 0x06 => 2 | 0x08 => 8 | 0x0A => 2 | 0x0B => 8 | 0x0C => 8 | 0x0D => 2 | 0x0E => 2
  | 0x10 => 16 | 0x11 => 8 | 0x12 => 8 | 0x13 => 2 | 0x14 => 32 | 0x15 => 10 | 0x16 => 2 | _ => 0

/-- Watermark units in use in an instance, as the chapters list them. -/
def wmUnits (b page : Nat) : Nat := (wmSources b (pageUnit page)).length

/-- BLK_ID's die value of an instance (R761, the blocks' sections). -/
def dieOf (b page : Nat) : Nat :=
  if page = 0 then 0xF
  else
    let u := page - 1
    match b with
    | 0x02 => u | 0x08 => u | 0x0B => u | 0x0C => u | 0x15 => u
    | 0x14 => if u < 16 then 8 else 9
    | 0x10 => if u % 8 < 4 then 8 else 9
    | 0x11 => if u < 4 then 8 else 9
    | 0x12 => if u < 4 then 8 else 9
    | _ => 8 + u

/-- BLK_ID of an instance: type, instance, die. -/
def blkId (b page : Nat) : Nat := b + (page - 1) * 2 ^ 16 + dieOf b page * 2 ^ 24

end Sys2Proof.Machine
end

