-- ==== Sys2Proof/Machine/Tel.lean ====
section
/-! DEFINITION. Raising events (R762) and carrying telemetry (R686–R693, R807). -/

namespace Sys2Proof.Machine

/-- A message the device sends; the newest stands first. -/
def State.emit (s : State) (m : OutMsg) : State := { s with out := m :: s.out }

/-- DEV_TIME never decreases (R65): an event that is due at t happens no earlier than t. -/
def State.reach (s : State) (t : Nat) : State := { s with now := max s.now t }

/-! ### Paths -/

def State.path (s : State) (i : Nat) : TPath := ((s.tel.paths.find? fun p => p.id == i)).getD { id := i }

def State.setPath (s : State) (p : TPath) : State :=
  { s with tel := { s.tel with paths := put (fun x => x.id == p.id) p s.tel.paths } }

def State.partition (s : State) (p : Nat) : Partition := ((s.part.parts.find? fun x => x.num == p)).getD { num := p }

def State.setPart (s : State) (p : Nat) (f : Partition → Partition) : State :=
  { s with part := { s.part with parts := upd (fun x => x.num == p) f s.part.parts } }

/-- The path receives log and trace records: a ring while its ENABLE is set (R807), Quinbel while QB_DEST is not 0. -/
def State.pathOpen (s : State) (i : Nat) : Bool :=
  if i ≤ 64 then s.gp F.LOG_CTRL_ENABLE i == 1 else if i = 65 then s.g F.QB_DEST != 0 else true

/-- Slots of a ring (R689). -/
def State.ringSlots (s : State) (i : Nat) : Nat := 2 ^ s.gp F.LOG_CTRL_LOG_LOG2 i

/-- Slots log and trace records may occupy: floor(0.8 N) − 1 (R690). -/
def logShare (n : Nat) : Nat := n * 8 / 10 - 1

/-- Handles of a lost-handle record on a ring of n slots: min(4092, 4 (s − 2)), s = n − floor(0.8 n) (R691). -/
def handlesPer (n : Nat) : Nat := min 4092 (4 * (n - n * 8 / 10 - 2))

/-- A record held for its path, in order (R690, R691). -/
def State.hold (s : State) (i : Nat) (r : TRec) : State :=
  let p := s.path i
  s.setPath { p with held := p.held ++ [r] }

/-- An alarm enters the path's alarm table, or the merged entry of its CODE and PARTITION when the table is full (R690). -/
def State.alarmIn (s : State) (i : Nat) (r : TRec) : State :=
  let p := s.path i
  let same := fun (a : AlarmEnt) => a.code == r.code && a.source == r.source && a.part == r.part && !a.merged
  let mrg := fun (a : AlarmEnt) => a.code == r.code && a.part == r.part && a.merged
  let grow := fun (a : AlarmEnt) => { a with count := a.count + r.count, last := r.last }
  if p.alarms.any same then s.setPath { p with alarms := upd same grow p.alarms }
  else if (p.alarms.filter fun a => !a.merged).length < 4096 then
    s.setPath { p with alarms := p.alarms ++ [⟨r.code, r.source, r.part, r.count, r.first, r.last, false⟩] }
  else if p.alarms.any mrg then s.setPath { p with alarms := upd mrg grow p.alarms }
  else s.setPath { p with alarms := p.alarms ++ [⟨r.code, 0, r.part, r.count, r.first, r.last, true⟩] }

/-- An event's latch, count and first-event registers, in one instance page and event unit (R762). -/
def State.latch (s : State) (b page part bitNo : Nat) : State :=
  let u := pageUnit page
  let l := s.cm (Fld.evtLatch b u) page part
  let s1 := if l = 0 then
      (s.wcm (Fld.evtFirstCode b u) page part bitNo).wcm (Fld.evtFirstTime b u) page part s.now
    else s
  (s1.wcm (Fld.evtLatch b u) page part (l ||| 2 ^ bitNo)).bumpReg (Fld.evtCount b u) page part 0 0 1

/-- A log record arrives: dropped and counted while alarms, fault or lost-handle records are held (R692), ignored while the
ring is disabled (R807), else it waits to be posted. Answers whether it was dropped. -/
def State.logIn (s : State) (i : Nat) (r : TRec) : State × Bool :=
  let p := s.path i
  if !s.pathOpen i then (s, false)
  else if !p.held.isEmpty || !p.alarms.isEmpty then
    if r.cls = 1 then ((s.setPath { p with drops := p.drops + 1 }).bumpP F.LOG_DROPS i, true) else (s, false)
  else
    -- a TELEMETRY program decides first (R738 hook 7, R741, R742); a full event queue posts (R727)
    let owner := if i ≤ 63 then i else 64
    let b := if owner < 64 then owner % 2 else 0
    let idle := !s.pol.seqrs.any fun q => q.die == 8 + b && !q.retired
    let die := if (s.hw.bridges.getD b {}).st == .lost || idle then 9 - b else 8 + b
    let posted := s.setPath { p with logq := p.logq ++ [r] }
    let par := fun (k : Nat) => s.reg F.HOOK_PARAM 0 owner 7 k % 65536
    if s.gps F.HOOK_CTRL_ENABLE owner 7 = 0 then (posted.bumpPS F.HOOK_FALLBACKS owner 7, false)
    else if s.pol.programs.any fun g => g.part == owner && g.hook == 7 then
      if (s.pol.events.filter fun e => e.die == die).length ≥ 1024 then
        (((posted.bumpU F.SQ_OVERFLOW die).bumpPS F.HOOK_FALLBACKS owner 7).latch 0x15 0 255 1, false)
      else
        let c := s.tel.nextCtx
        let e : PolEvent :=
          { id := s.pol.nextEv, hook := 7, part := owner, die := die,
            args := [r.code + r.cls * 2 ^ 16, r.source, r.count, r.part, r.first], excl := 0, ctx := c }
        ({ s with
            tel := { s.tel with
              waiting := s.tel.waiting ++ [⟨c, i, r.code, r.cls, r.source, r.count, r.part, r.first, r.last, r.ext⟩]
              nextCtx := c + 1 }
            pol := { s.pol with events := s.pol.events ++ [e], nextEv := s.pol.nextEv + 1 } }, false)
    else if s.gps F.HOOK_CTRL_VARIANT owner 7 = 1 ∧ (r.code = par 0 ∨ r.code = par 1) then
      -- the shipped variant 1 drops the records it names (R743)
      ((s.bumpPS F.HOOK_EVENTS owner 7).bumpPS F.HOOK_FILTERED owner 7, false)
    else (posted.bumpPS F.HOOK_EVENTS owner 7, false)

/-- One path takes a record by its class (R689, R690). -/
def State.arrive (s : State) (i : Nat) (r : TRec) : State × Bool :=
  if r.cls = 0 then if r.code = 0x06FF then (s.hold i r, false) else (s.alarmIn i r, false)
  else if r.cls = 3 then (s.hold i r, false)
  else s.logIn i r

/-- The paths that carry a record (R689). A partition that is FREE has no ring. -/
def State.pathsFor (s : State) (r : TRec) : List Nat :=
  ((List.range 64).filter fun p =>
      (s.partition p).st != .free && (r.part == p || (r.cls == 0 && r.part == 255))) ++
  [64] ++ (if s.g F.QB_DEST != 0 then [65] else []) ++ (if r.cls == 0 then [66] else [])

/-- The record an event produces: an alarm record, or a log record unless masked (R762). -/
def eventRec (b page bitNo part now : Nat) (alarm : Bool) : TRec :=
  { code := b * 256 + bitNo, cls := if alarm then 0 else 1, source := blkId b page, count := 1, part := part,
    first := now, last := now }

/-- Every path that carries a record takes it; a drop raises LOG_DROP once, whose own record is carried without raising it
again (R692, R695). -/
def State.carry (s : State) (r : TRec) : State :=
  let res := (s.pathsFor r).foldl (fun acc i => let a := acc.1.arrive i r; (a.1, acc.2 || a.2)) (s, false)
  if res.2 then
    let s1 := res.1.latch 0x06 0 255 7
    let d := eventRec 0x06 0 7 255 s.now false
    (s1.pathsFor d).foldl (fun acc i => (acc.arrive i d).1) s1
  else res.1

/-- An event with its place given: latched in its instance, in its partition's event unit, and recorded (R757, R762). -/
def State.raiseAt (s : State) (b page bitNo part : Nat) (alarm : Bool) : State :=
  let s1 := s.latch b page 255 bitNo
  let s2 := if part < 64 && page = 0 then s1.latch b page part bitNo else s1
  let masked := bit (s.cm (Fld.evtMask b (pageUnit page)) page 255) bitNo
  if alarm || !masked then s2.carry (eventRec b page bitNo part s.now alarm) else s2

/-- Raise a package event. -/
def State.raise (s : State) (e : EvDef) (part : Nat := 255) : State := s.raiseAt e.blk 0 e.bit part e.alarm

/-- Raise an event of unit instance u. -/
def State.raiseU (s : State) (e : EvDef) (u : Nat) (part : Nat := 255) : State :=
  s.raiseAt e.blk (u + 1) e.bit part e.alarm

/-- Raise an event of unit instance u and the package event that mirrors it. -/
def State.raiseBoth (s : State) (e : EvDef) (u : Nat) (part : Nat := 255) : State :=
  (Ev.mirrors.filter fun m => m.1 == e).foldl (fun (a : State) m => a.raise m.2 part) (s.raiseU e u part)

/-! ### Fault and lost-handle records -/

/-- The bytes of a fault record (R659). -/
def FaultRec.bytes (f : FaultRec) : Bytes :=
  leBytes 4 f.number ++ leBytes 1 f.kind ++ leBytes 1 f.action ++ leBytes 1 f.part ++ leBytes 1 0 ++ leBytes 4 f.unit ++
  leBytes 4 f.commands ++ leBytes 8 f.time ++ leBytes 4 f.leavesLost ++ leBytes 4 f.interruptNs

/-- A fault is recorded, numbered, kept among the last 1,024, and reported (R659, R686, R695). -/
def State.fault (s : State) (kind action part unit commands lost : Nat) : State :=
  let f : FaultRec :=
    { number := s.tel.nextFault, kind := kind, action := action, part := part, unit := unit, commands := commands,
      time := s.now, leavesLost := lost, interruptNs := 0 }
  let s1 := { s with tel := { s.tel with
    faults := (s.tel.faults ++ [f]).drop (s.tel.faults.length + 1 - 1024), nextFault := f.number + 1 } }
  let s2 := (s1.bump F.FAULT_COUNT).w F.FAULT_NEXT (f.number + 1)
  let r : TRec :=
    { code := 0x06FF, cls := 0, source := blkId 0x06 0, count := 1, part := part, first := s.now, last := s.now,
      ext := f.bytes }
  (s2.carry r).raise Ev.FAULT part

/-- One lost-handle record's extension (R688). -/
def lostExt (cause fault idx parts : Nat) (hs : List Nat) : Bytes :=
  let body := leBytes 1 cause ++ leBytes 3 0 ++ leBytes 4 hs.length ++ leBytes 4 fault ++ leBytes 4 idx ++ leBytes 4 parts ++
    leBytes 12 0 ++ hs.flatMap (leBytes 8)
  body ++ List.replicate (roundUp body.length 32 - body.length) 0

/-- A lost-handle event of a partition: cut for each path and held in order, with the SEQ event (R137, R688, R691). -/
def State.lostHandles (s : State) (part cause fault : Nat) (handles : List Nat) : State :=
  if handles.isEmpty then s else
  let hs := sortNat handles
  let s1 := (([part, 64] ++ if s.g F.QB_DEST != 0 then [65] else []).foldl (fun (a : State) i =>
    let n := if i = 65 then 4092 else handlesPer (a.ringSlots i)
    let cs := chunks n hs
    (cs.zipIdx).foldl (fun (a : State) (c : List Nat × Nat) =>
      a.hold i { code := 0x0904, cls := 3, source := blkId 0x09 0, count := c.1.length, part := part, first := s.now,
                 last := s.now, ext := lostExt cause fault c.2 cs.length c.1 }) a) s)
  (s1.bumpP F.LOST_HANDLES part hs.length).raise Ev.LOST_HANDLE part

/-! ### Posting -/

/-- A record's bytes (R687). -/
def TRec.bytes (r : TRec) (phase : Bool) : Bytes :=
  let flags := (if r.coalesced then 1 else 0) + (if r.merged then 2 else 0) + (if r.dropsBefore then 4 else 0) +
    (if phase then 128 else 0)
  leBytes 2 r.code ++ leBytes 1 r.cls ++ leBytes 1 flags ++ leBytes 4 r.source ++ leBytes 4 r.count ++ leBytes 1 r.part ++
  leBytes 1 0 ++ leBytes 2 r.ext.length ++ leBytes 8 r.first ++ leBytes 8 r.last ++ r.ext

/-- Ring slots a record takes. -/
def TRec.slots (r : TRec) : Nat := 1 + r.ext.length / 32

/-- Room on a path for a record: free ring slots with one always empty, or the stream's rate over the 1 ms (R690). -/
def State.room (s : State) (i : Nat) (r : TRec) (log : Bool) : Bool :=
  let p := s.path i
  let size := 32 + r.ext.length
  if i ≤ 64 then
    let n := s.ringSlots i
    let logs := (p.slots.filter id).length
    p.slots.length + r.slots ≤ n - 1 && (!log || logs + r.slots ≤ logShare n)
  else
    let cap := if i = 65 then s.g F.QB_TELEM * 1000 else 1000
    let fresh := p.winStart != s.now / 1000000
    let all := if fresh then 0 else p.winAll
    let logs := if fresh then 0 else p.winLog
    all + size ≤ cap && (!log || logs + size ≤ cap * 8 / 10)

/-- Post a record on a path: the ring's slots at TAIL and its message, or the stream (R689). -/
def State.post (s : State) (i : Nat) (r : TRec) (log : Bool) : State :=
  let p := s.path i
  if i ≤ 64 then
    let n := s.ringSlots i
    let tail := s.gp F.LOG_PTRS_TAIL i
    let wrap := tail + r.slots ≥ n
    let fn := if i = 64 then 0 else i + 1
    let s1 := s.setPath { p with
      slots := p.slots ++ List.replicate r.slots log, phase := if wrap then !p.phase else p.phase }
    let bs := r.bytes p.phase
    let first := 32 * (n - tail)
    let s2 := s1.emit (.hostWrite 255 fn (s.gp F.LOG_BASE i + 32 * tail) (bs.take first))
    let s3 := if bs.length > first then s2.emit (.hostWrite 255 fn (s.gp F.LOG_BASE i) (bs.drop first)) else s2
    (s3.wp F.LOG_PTRS_TAIL i ((tail + r.slots) % n)).emit (.msix 255 fn (s.gp F.LOG_CTRL_VECTOR i) 0 0)
  else
    let ms := s.now / 1000000
    let size := 32 + r.ext.length
    let fresh := p.winStart != ms
    let s1 := s.setPath { p with
      winStart := ms, winAll := (if fresh then 0 else p.winAll) + size,
      winLog := (if fresh then 0 else p.winLog) + (if log then size else 0) }
    s1.emit (.telemetry i r)

/-- The oldest alarm entry as a record (R690). -/
def AlarmEnt.toRec (a : AlarmEnt) : TRec :=
  { code := a.code, cls := 0, coalesced := a.count > 1, merged := a.merged, source := a.source, count := a.count,
    part := a.part, first := a.first, last := a.last }

/-- A log or trace record at the head of the path's queue: dropped when its share has no room (R692), else posted, carrying the
drops before it. -/
def State.postLog (s : State) (i : Nat) (r : TRec) : State :=
  let p := s.path i
  let s0 := s.setPath { p with logq := p.logq.drop 1 }
  if s.room i r true then
    let r' := if r.cls = 1 && p.drops > 0 then { r with dropsBefore := true, count := p.drops } else r
    let s1 := s0.post i r' true
    if r.cls = 1 then s1.setPath { s1.path i with drops := 0 } else s1
  else if r.cls = 1 then
    let s1 := (s0.setPath { s0.path i with drops := p.drops + 1 }).bumpP F.LOG_DROPS i
    let d := eventRec 0x06 0 7 255 s.now false
    ((s1.latch 0x06 0 255 7).pathsFor d).foldl (fun acc j => (acc.arrive j d).1) (s1.latch 0x06 0 255 7)
  else s0

/-- TELEMETRY_POST (R690): alarms first, then the held fault and lost-handle records, then one log or trace record. -/
def State.postNext (s : State) (i : Nat) : State :=
  let p := s.path i
  if i ≤ 64 && !s.pathOpen i then s
  else
    match p.alarms with
    | a :: rest =>
      if s.room i a.toRec false then (s.setPath { p with alarms := rest }).post i a.toRec false else s
    | [] =>
      match p.held with
      | r :: rest => if s.room i r false then (s.setPath { p with held := rest }).post i r false else s
      | [] =>
        match p.logq with
        | r :: _ => s.postLog i r
        | [] => s

/-- A trace event of source `src` (bit of TRACE_CTRL.SOURCES): one of 2^k eligible events of the path becomes a trace record
(R686, R693). -/
def State.trace (s : State) (src blk part : Nat) : State :=
  [part, 64].foldl (fun (a : State) i =>
    if i ≤ 64 && bit (a.gp F.TRACE_CTRL_SOURCES i) src then
      let p := a.path i
      if p.traceSeen + 1 ≥ 2 ^ p.traceK then
        let r : TRec :=
          { code := blk * 256 + 0xF0 + src, cls := 2, source := blkId blk 0, count := 1, part := part, first := a.now,
            last := a.now }
        ((a.setPath { p with traceSeen := 0 }).arrive i r).1
      else a.setPath { p with traceSeen := p.traceSeen + 1 }
    else a) s

end Sys2Proof.Machine
end

