-- ==== Sys2Proof/Machine/Ops.lean ====
section
/-! DEFINITION. Named operations over the state that several chapters share: who holds the lead (R665), the units in service,
a partition's resources, commands and their completion (R371, R380), accounting (R428), free values. -/

namespace Sys2Proof.Machine

/-! ### Free values -/

/-- The next free choice, and the state with the counter advanced. -/
def State.choose (s : State) : Nat × State := (Config.freeChoice s.free, { s with free := s.free + 1 })

/-! ### Dies, stacks, bridges -/

/-- Attention die d is enabled (R44) and not retired in service. -/
def State.dieOk (s : State) (d : Nat) : Bool := d < 8 && bit s.dev.dies d && !bit s.dev.retired d

def State.enabledDies (s : State) : List Nat := (List.range 8).filter (bit s.dev.dies)

def State.bridge (s : State) (b : Nat) : Bridge := s.hw.bridges.getD b {}

def State.bridgeUp (s : State) (b : Nat) : Bool := (s.bridge b).st == .up

def State.bridgeLost (s : State) (b : Nat) : Bool := (s.bridge b).st == .lost

def State.stack (s : State) (n : Nat) : Stack := s.hw.hbm.getD n {}

def State.setStack (s : State) (n : Nat) (f : Stack → Stack) : State :=
  { s with hw := { s.hw with hbm := nthUpd n f s.hw.hbm } }

def State.stackOk (s : State) (n : Nat) : Bool := (s.stack n).st == .active || (s.stack n).st == .degraded

def State.setBridge (s : State) (b : Nat) (f : Bridge → Bridge) : State :=
  { s with hw := { s.hw with bridges := nthUpd b f s.hw.bridges } }

/-- A stack's rate in 10^6 bytes/s, lowered by 3 % above 85 °C (R781). -/
def State.stackRate (s : State) (n : Nat) : Nat :=
  let st := s.stack n
  if s.hw.hbmTemps.getD n 0 > 850 then st.mbps * 97 / 100 else st.mbps

/-- Current pace of a die in 1/16 step per microsecond (R49). -/
def State.pace (s : State) (d : Nat) : Nat := s.gu F.CUR_PACE d

/-- A duration stated at the reference corner, 0.80 G steps/s, at a pace in 1/16 step per microsecond (R8, R49, R54). -/
def atPace (ns pace : Nat) : Nat := ns * 12800 / max 1 pace

/-- Logical core c (320 d + 32 k + j) is mapped to a working physical core (R17). -/
def State.coreOk (s : State) (c : Nat) : Bool :=
  s.dieOk (c / 320) && (((s.hw.clusters.getD (c / 32) { num := 0 }).map.getD (c % 32) none).isSome)

def State.setPins (s : State) (f : Pins → Pins) : State := { s with hw := { s.hw with pins := f s.hw.pins } }

/-! ### Flows between attention dies (R29) -/

/-- Bridge die b joins the two attention dies: it is up, and so are both its links (R29, R38, R683). -/
def State.joins (s : State) (d e b : Nat) : Bool :=
  s.bridgeUp b && !s.hw.d2dDown.contains (d, b) && !s.hw.d2dDown.contains (e, b)

/-- Some path joins the two dies. Where none does, transfers between them wait: the spec names no case of it (DESIGN CHOICE, assumption 78). -/
def State.diesJoined (s : State) (d e : Nat) : Bool := d == e || s.joins d e 0 || s.joins d e 1

/-- The flow still has transfers to make: its command is at work, or its move under way. -/
def State.flowLive (s : State) (f : Flow) : Bool := f.move == 0 || s.tier.moves.any fun m => m.id == f.move

/-- Flows that use a link of dies d or e to bridge die b: what the model takes for the link's occupancy (DESIGN CHOICE, assumption 78). -/
def State.linkLoad (s : State) (d e b : Nat) : Nat :=
  (s.att.flows.filter fun f => s.flowLive f && f.bridge == b && (f.src == d || f.dst == d || f.src == e || f.dst == e)).length

/-- The bridge die of a flow that starts (R29): the one with the lower link occupancy of those that join the dies; B0 where both have the same,
of which the spec says nothing (DESIGN CHOICE, assumption 78). -/
def State.flowBridge (s : State) (d e : Nat) : Nat :=
  if !s.joins d e 0 then 1 else if !s.joins d e 1 then 0 else if s.linkLoad d e 1 < s.linkLoad d e 0 then 1 else 0

/-- The flow of a command, or of a move that no command asked for, between two dies begins, over the bridge die chosen at its start (R29). -/
def State.openFlow (s : State) (c move d e : Nat) : State :=
  if d = e ∨ s.att.flows.any (fun f => f.cmd == c && f.move == move && f.src == d && f.dst == e) then s
  else
    { s with att := { s.att with
      flows := s.att.flows.filter s.flowLive ++ [{ cmd := c, move := move, src := d, dst := e, bridge := s.flowBridge d e }] } }

/-- Every flow whose bridge die joins its dies no more uses the other one, where that joins them (R29, R41). -/
def State.reroute (s : State) : State :=
  let move := fun (f : Flow) => if !s.joins f.src f.dst f.bridge && s.joins f.src f.dst (1 - f.bridge) then { f with bridge := 1 - f.bridge } else f
  { s with att := { s.att with flows := s.att.flows.map move } }

/-! ### Ports X0–X7 (0–7) and E0–E7 (8–15) -/

def State.port (s : State) (n : Nat) : Port := s.dlv.ports.getD n { num := n }

def State.setPort (s : State) (n : Nat) (f : Port → Port) : State :=
  { s with dlv := { s.dlv with ports := nthUpd n f s.dlv.ports } }

/-! ### The lead (R665) -/

/-- Arbiters that hold the half's unexpired lease under its epoch, among the enabled attention dies. -/
def State.heldBy (s : State) (h e : Nat) : List Nat :=
  s.enabledDies.filter fun d =>
    let a := s.course.arbs.getD d {}
    !bit s.dev.retired d && a.holder == some h && a.epoch == e && s.now < a.expiry

/-- A majority of the enabled attention dies: 5 of 8, 4 of 6 (R665). A retired die counts as enabled and unheld. -/
def State.majority (s : State) (n : Nat) : Bool := 2 * n > s.enabledDies.length

def State.half (s : State) (h : Nat) : Half := s.course.halves.getD h {}

def State.setHalf (s : State) (h : Nat) (f : Half → Half) : State :=
  { s with course := { s.course with halves := nthUpd h f s.course.halves } }

/-- Half h holds the lead (R665). -/
def State.holdsLead (s : State) (h : Nat) : Bool :=
  (s.half h).st == .lead && s.majority (s.heldBy h (s.half h).epoch).length

def State.leadHalf (s : State) : Option Nat := if s.holdsLead 0 then some 0 else if s.holdsLead 1 then some 1 else none

/-- A control write of half h under epoch e is accepted (R667). -/
def State.epochOk (s : State) (h e : Nat) : Bool := s.holdsLead h && e == s.course.pubEpoch && e == (s.half h).epoch

/-! ### Partitions -/

def State.pst (s : State) (p : Nat) : PSt := (s.partition p).st

/-- A partition in FREE: a write to a partition-scoped register that addresses it is ignored (R760). -/
def State.partFree (s : State) (p : Nat) : Bool := decide (p < 64) && s.pst p == .free

def State.hasCore (s : State) (p c : Nat) : Bool := bit (s.partition p).desc.cores c

/-- Logical cores of partition p that are mapped (R17, R20). -/
def State.coresOf (s : State) (p : Nat) : List Nat :=
  (List.range 2560).filter fun c => bit (s.partition p).desc.cores c && s.coreOk c

/-- Partition p holds a core on die d. -/
def State.dieOf (s : State) (p d : Nat) : Bool := bits (s.partition p).desc.cores (320 * d + 319) (320 * d) != 0

def State.geom (s : State) (p : Nat) : Option Geom := (s.partition p).geom

/-- The share of a queue group in force: a write of QG_SHARE applies from the next share window (R432). -/
def State.shareOf (s : State) (p g : Nat) : Nat := (alGet g (s.partition p).sharesNow).getD (s.gps F.QG_SHARE p g)

/-- Core-steps a class of a partition has received over the last SHARE_WINDOW (R414). -/
def State.winSteps (s : State) (p cls : Nat) : Nat :=
  sumBy (fun (e : Nat × Nat × Nat) => if e.2.1 = cls ∧ s.now < e.1 + s.g F.SHARE_WINDOW * 1000 then e.2.2 else 0) (s.partition p).steps

/-! ### Commands -/

def State.cmd (s : State) (c : Nat) : Option Cmd := s.q.cmds.find? fun x => x.uid == c

def State.setCmd (s : State) (c : Nat) (f : Cmd → Cmd) : State :=
  { s with q := { s.q with cmds := upd (fun x => x.uid == c) f s.q.cmds } }

def State.queue (s : State) (n : Nat) : Option Queue := s.q.queues.find? fun x => x.num == n

def State.setQueue (s : State) (n : Nat) (f : Queue → Queue) : State :=
  { s with q := { s.q with queues := upd (fun x => x.num == n) f s.q.queues } }

namespace St
/-! Status codes (R375). -/
def ok := 0x00
def approx := 0x01
def miss := 0x02
def partialHit := 0x03
def cancelled := 0x10
def deadlineMiss := 0x11
def rateDrop := 0x12
def portLost := 0x13
def poison := 0x20
def keyWithdrawn := 0x21
def leaseLost := 0x22
def extentRevoked := 0x23
def noSpace := 0x30
def lostData := 0x31
def badCmd := 0x40
def version := 0x41
def perm := 0x42
end St

/-- Field of a command's entry. -/
def Cmd.f (c : Cmd) (off size : Nat) : Nat := efld c.entry off size
def Cmd.op (c : Cmd) : Nat := c.f 0 1
def Cmd.flags (c : Cmd) : Nat := c.f 1 1
def Cmd.tag (c : Cmd) : Nat := c.f 4 4
def Cmd.seq (c : Cmd) : Nat := c.f 8 6
def Cmd.layer (c : Cmd) : Nat := c.f 0xE 2
/-- A deadline exists from ring version 3.0 (R392). -/
def Cmd.deadline (c : Cmd) : Nat := if c.ver < 0x300 then 0 else c.f 0x10 8
/-- PRIO_CLASS; a yellow command runs with 0 (R460). -/
def Cmd.prio (c : Cmd) : Nat := if c.colour = 2 then 0 else c.f 3 1 % 16

/-- The command has not reached its commit point. -/
def Cmd.live (c : Cmd) : Bool := c.st != .done

/-- A command reaches its commit point with a status and results (R380, R387): it waits for its completion to be posted. -/
def State.finish (s : State) (c status r0 r1 : Nat) : State :=
  let s0 := s.setCmd c fun x =>
    if x.st == .done then x else { x with st := .done, status := status, r0 := r0, r1 := r1 }
  -- R407 counts a switch from the end of the last started command
  let s1 := match s.cmd c with
    | some x =>
      if s.pst x.part == .switching && x.st == .started && x.op != 0x70 && x.op != 0x71 then s0.setPart x.part fun y => { y with switchT := s.now }
      else s0
    | none => s0
  match s.cmd c with
  | some x =>
    if x.st == .done then s
    else if status == St.deadlineMiss then
      let s2 := (s1.bumpP F.DEADLINE_MISSES x.part).raise Ev.DEADLINE_MISS x.part
      if x.op = 0x30 ∨ x.op = 0x31 then s2.raise Ev.DLV_DEADLINE x.part else s2
    else if status == St.keyWithdrawn then s1.bumpP F.KEY_WITHDRAWN x.part
    else s1
  | none => s1

/-- A failure: both result fields zero (R387). -/
def State.fail (s : State) (c status : Nat) : State := s.finish c status 0 0

/-- The bytes a command has read from a host address, `len` of them; none when the read has not come or was poisoned. -/
def Cmd.buf (c : Cmd) (addr len : Nat) : Option Bytes :=
  match c.bufs.find? fun b => b.addr == addr with
  | some b => b.data.bind fun d => if d.length < len then none else some (d.take len)
  | none => none

/-- A host read of the command returned poison (R495). -/
def Cmd.poisoned (c : Cmd) : Bool := c.bufs.any fun b => b.data.isNone

/-- A host output buffer of the command, written before its completion (R380). -/
def State.output (s : State) (c addr : Nat) (d : Bytes) : State := s.setCmd c fun x => { x with outs := x.outs ++ [(addr, d)] }

/-! ### Accounting (R428–R430) -/

/-- Counters of an accounting record, in the order of R435's table by offset. -/
inductive Ctr where
  | nsDot | nsExp | nsExpander | nsMove | nsCodec | nsNm | nsMatch | commands | t0Rd | t0Wr | t1Rd | t1Wr | t2Rd | t2Wr
  | t3Rd | t3Wr | hostIn | hostOut | peerIn | peerOut | energy
  deriving DecidableEq, Repr

def Ctr.idx : Ctr → Nat
  | .nsDot => 0 | .nsExp => 1 | .nsExpander => 2 | .nsMove => 3 | .nsCodec => 4 | .nsNm => 5 | .nsMatch => 6
  | .commands => 7 | .t0Rd => 8 | .t0Wr => 9 | .t1Rd => 10 | .t1Wr => 11 | .t2Rd => 12 | .t2Wr => 13 | .t3Rd => 14
  | .t3Wr => 15 | .hostIn => 16 | .hostOut => 17 | .peerIn => 18 | .peerOut => 19 | .energy => 20

/-- Add n to one counter of one record; the counters wrap at 2^64. -/
def State.charge1 (s : State) (k : AcctKey) (c : Ctr) (n : Nat) : State :=
  let old := alGetD k (List.replicate 21 0) s.part.acct
  { s with part := { s.part with acct := alSet k (nthUpd c.idx (fun x => (x + n) % 2 ^ 64) old) s.part.acct } }

/-- Activities the energy estimate counts (R431): FMA, exponentials, blocks decoded and encoded, scratchpad bytes, stack bytes, link bytes,
NAND page operations, port bytes. That activity k has the coefficient c_k is a DESIGN CHOICE (assumption 80). -/
inductive Act where
  | fma | exps | decoded | encoded | scratch | stack | link | nand | port
  deriving DecidableEq, Repr

def Act.idx : Act → Nat
  | .fma => 0 | .exps => 1 | .decoded => 2 | .encoded => 3 | .scratch => 4 | .stack => 5 | .link => 6 | .nand => 7 | .port => 8

/-- n of an activity for a queue group, or for the device where no partition issued it. -/
def State.act (s : State) (part qg : Nat) (a : Act) (n : Nat) : State :=
  let k := if part < 64 then AcctKey.group part qg else .device
  let old := alGetD k (List.replicate 10 0) s.part.activity
  { s with part := { s.part with activity := alSet k (nthUpd a.idx (· + n) old) s.part.activity } }

/-- Times within the last 64 µs (R373). -/
def State.recent (s : State) (l : List (Nat × Nat)) : List (Nat × Nat) := l.filter fun e => decide (s.now < e.2 + 64000)

/-- What bytes of a counter are for the energy estimate and the load (R373, R431): those of T1 stack bytes, those of T3 NAND pages of 16 KiB, those
of host and peer ports port bytes. -/
def State.moved (s : State) (part qg : Nat) (c : Ctr) (n : Nat) : State :=
  match c with
  | .t1Rd | .t1Wr => (s.act part qg .stack n).setPart part fun y => { y with hbmT := s.recent y.hbmT ++ [(n, s.now)] }
  | .t3Rd | .t3Wr => s.act part qg .nand ((n + 16383) / 16384)
  | .hostIn | .hostOut | .peerIn | .peerOut => s.act part qg .port n
  | _ => s

/-- A charge to a queue group counts in its partition's record too (R428); what no partition issued counts in the device
record (R430). -/
def State.charge (s : State) (part qg : Nat) (c : Ctr) (n : Nat) : State :=
  (if part < 64 then (s.charge1 (.group part qg) c n).charge1 (.part part) c n else s.charge1 .device c n).moved part qg c n

/-- Engine time and bytes charged to a command and to its group (R373, R429). -/
def State.chargeCmd (s : State) (c : Nat) (k : Ctr) (n : Nat) (isNs : Bool) : State :=
  match s.cmd c with
  | some x =>
    (s.setCmd c fun y => if isNs then { y with ns := y.ns + n } else { y with bytes := y.bytes + n }).charge x.part x.qg k n
  | none => s

end Sys2Proof.Machine
end

