-- ==== Sys2Proof/Machine/Geom.lean ====
section
/-! DEFINITION. Formats and layouts: the number formats' sizes (R88), the planes of a page image (R92, R93), granules and their
slots (R110), fret-summary and page sizes, and page handles (R100, R101). -/

namespace Sys2Proof.Machine

/-- Element bytes and scale bytes of 32 elements (R88). -/
def fmtBytes (f : Nat) : Nat × Nat :=
  match f with
  | 0 => (128, 0) | 1 => (64, 0) | 2 => (64, 0) | 3 => (32, 0) | 4 => (32, 0) | 5 => (32, 1) | 6 => (24, 1) | 7 => (16, 1)
  | 8 => (32, 2) | _ => (16, 2)

/-- Tokens of a page of an order (R92). -/
def orderT (o : Nat) : Nat := 2 ^ (4 + o)

/-- Row bytes of the planes of one head section of a layer (R92, R95): key elements, key scales, value elements, value scales;
only the first pair under shared-KV. -/
def headPlanes (g : Geom) (l : LayerEnt) : List Nat :=
  let n := g.headDim / 32
  let pl := fun (f : Nat) => let b := fmtBytes f; [b.1 * n] ++ if b.2 = 0 then [] else [b.2 * n]
  pl l.kf ++ if g.vDim = 0 then pl l.vf else []

/-- Row bytes of every plane of a layer, head by head. -/
def planes (g : Geom) (l : LayerEnt) : List Nat := (List.replicate g.kvHeads (headPlanes g l)).flatten

/-- Bytes of one position of a layer. -/
def posBytes (g : Geom) (l : LayerEnt) : Nat := (planes g l).sum

def Geom.layer (g : Geom) (l : Nat) : LayerEnt := g.layers.getD l ⟨0, 0, 0, 0, 0⟩

/-- Layers an APPEND names (R112). -/
def appendLayers (ge : Geom) (layer : Nat) : Option (List Nat) :=
  if layer = 0xFFFF then some (List.range ge.layers.length) else if layer < ge.layers.length then some [layer] else none

/-- Padded image bytes of a page of T positions (R92, R93). -/
def imageBytes (g : Geom) (l T : Nat) : Nat := roundUp (T * posBytes g (g.layer l)) 4096

/-- A granule slot (R110). -/
def slotBytes (g : Geom) (l : Nat) : Nat := roundUp (64 + 16 * posBytes g (g.layer l)) 256

/-- Fret-summary bytes (R96). -/
def summaryBytes (g : Geom) : Nat := 16 + g.kvHeads * 2 * g.headDim

/-- The planes of an image of n positions cut out of bytes. -/
def cutPlanes (n : Nat) : List Nat → Bytes → List (List Bytes)
  | [], _ => []
  | w :: ws, b => ((List.range n).map fun i => slice b (i * w) w) :: cutPlanes n ws (b.drop (n * w))

/-- The positions of an image of n positions: for each, its row of every plane. -/
def imageRows (g : Geom) (l n : Nat) (b : Bytes) : List (List Bytes) :=
  let ps := cutPlanes n (planes g (g.layer l)) b
  (List.range n).map fun i => ps.map fun p => p.getD i []

/-- The image of a list of positions (R92), without padding. -/
def rowsImage (g : Geom) (l : Nat) (rows : List (List Bytes)) : Bytes :=
  (List.range (planes g (g.layer l)).length).flatMap fun j => rows.flatMap fun r => r.getD j []

/-- Zero bytes to a multiple of 4,096 (R92). -/
def padImage (b : Bytes) : Bytes := b ++ List.replicate (roundUp b.length 4096 - b.length) 0

/-! ### Page handles (R100–R102) -/

def mkHandle (part order gen serial : Nat) : Nat := part * 2 ^ 58 + order * 2 ^ 55 + gen * 2 ^ 48 + serial % 2 ^ 48

def hPart (h : Nat) : Nat := bits h 63 58
def hOrder (h : Nat) : Nat := bits h 57 55
def hGen (h : Nat) : Nat := bits h 54 48
def hSerial (h : Nat) : Nat := bits h 47 0

/-- The leaf handle (R101). -/
def Leaf.handle (l : Leaf) : Nat := mkHandle l.part l.order l.gen l.serial

def Page.handle (p : Page) : Nat := mkHandle p.part p.order p.gen p.serial

/-- CODED_BYTES: the sizes of the coded blocks, each its stored bytes rounded up to 64 (R334). -/
def Page.coded (p : Page) : Nat := sumBy (fun b => roundUp b.data.length 64) p.blocks

/-- Stored bytes of a page: its index and its coded blocks (R334). -/
def Page.stored (p : Page) : Nat := roundUp (16 * p.blocks.length) 64 + p.coded

end Sys2Proof.Machine
end

