-- ==== Sys2Proof/Machine/Codec.lean ====
section
/-! DEFINITION. The lossless codec (R325–R337): field maps, canonical codes, coding and decoding of blocks, the stored form of a
page, decode and encode times (R348, R349), and the fret summary (R96, R97). -/

namespace Sys2Proof.Machine

/-! ### Fields and symbols (R329) -/

/-- A field: word bytes, elements of a word, bits of an element, symbol bits and where the symbol begins. -/
structure FieldFmt where
  word : Nat
  per : Nat
  width : Nat
  symLo : Nat
  symBits : Nat
  deriving DecidableEq, Repr

/-- The field of a format's element or scale. -/
def fieldFmt (fmt : Nat) (scale : Bool) : FieldFmt :=
  if scale then (if fmt ≥ 8 then ⟨2, 1, 16, 10, 6⟩ else ⟨1, 1, 8, 0, 8⟩)
  else match fmt with
    | 0 => ⟨4, 1, 32, 23, 8⟩ | 1 => ⟨2, 1, 16, 7, 8⟩ | 2 => ⟨2, 1, 16, 10, 6⟩ | 3 => ⟨1, 1, 8, 3, 5⟩ | 4 => ⟨1, 1, 8, 2, 6⟩
    | 5 => ⟨1, 1, 8, 3, 5⟩ | 6 => ⟨3, 4, 6, 2, 4⟩ | 7 => ⟨1, 2, 4, 1, 3⟩ | 8 => ⟨1, 1, 8, 3, 5⟩ | _ => ⟨1, 2, 4, 0, 4⟩

def FieldFmt.alphabet (f : FieldFmt) : Nat := 2 ^ f.symBits

/-- Literal bits of an element. -/
def FieldFmt.litBits (f : FieldFmt) : Nat := f.width - f.symBits

/-- Symbol and literal of an element: the bits outside the symbol in ascending order, so the sign above an 8-bit exponent is the
last literal bit. -/
def FieldFmt.split (f : FieldFmt) (e : Nat) : Nat × Nat :=
  ((e >>> f.symLo) % 2 ^ f.symBits, e % 2 ^ f.symLo + (e >>> (f.symLo + f.symBits)) % 2 ^ (f.width - f.symLo - f.symBits) * 2 ^ f.symLo)

/-- The element of a symbol and a literal. -/
def FieldFmt.join (f : FieldFmt) (s l : Nat) : Nat :=
  l % 2 ^ f.symLo + s * 2 ^ f.symLo + (l >>> f.symLo) * 2 ^ (f.symLo + f.symBits)

/-- The elements of a word, from bit 0 upward (R89). -/
def FieldFmt.elems (f : FieldFmt) (w : Bytes) : List Nat :=
  (List.range f.per).map fun i => (leNat w >>> (f.width * i)) % 2 ^ f.width

/-- The word of its elements. -/
def FieldFmt.toWord (f : FieldFmt) (es : List Nat) : Bytes :=
  leBytes f.word ((es.zipIdx).foldl (fun (a : Nat) e => a + e.1 * 2 ^ (f.width * e.2)) 0)

/-! ### Codec tables (R330, R331) -/

/-- A table: its identifier, element format and code lengths of the sets it carries. -/
structure CodecTable where
  id : Nat
  fmt : Nat
  expect : Nat
  sets : List (Option (List Nat))

/-- Code sets in bit order from an offset: element plain, scale plain, element delta, scale delta. -/
def readSets (raw : Bytes) (fmt setsBits off : Nat) : List (Option (List Nat)) :=
  ((List.range 4).foldl (fun (a : List (Option (List Nat)) × Nat) i =>
    if bit setsBits i then
      let n := (fieldFmt fmt (i % 2 == 1)).alphabet
      (a.1 ++ [some ((slice raw a.2 n).map (·.toNat))], a.2 + roundUp n 4)
    else (a.1 ++ [none], a.2)) ([], off)).1

/-- Number of tables of a descriptor's directory. -/
def tableCount (raw : Bytes) (dir : Nat) : Nat := rd raw (dir + 2) 2

/-- Directory entry i: identifier and offset. -/
def dirEntry (raw : Bytes) (dir i : Nat) : Nat × Nat := (rd raw (dir + 8 + 8 * i) 2, rd raw (dir + 8 + 8 * i + 4) 4)

/-- The table a directory names by its identifier. -/
def codecTable (raw : Bytes) (dir id : Nat) : Option CodecTable :=
  match ((List.range (tableCount raw dir)).map (dirEntry raw dir)).find? fun e => e.1 == id with
  | some (_, off) =>
    let fmt := rd raw (off + 2) 1
    let er := rd raw (off + 4) 2
    some ⟨id, fmt, if er = 0 ∨ rd raw dir 2 < 0x102 then 256 else er, readSets raw fmt (rd raw (off + 3) 1) (off + 16)⟩
  | none => none

/-- Canonical codes (R331): symbol, value, length. -/
def canonicalCodes (lengths : List Nat) : List (Nat × Nat × Nat) :=
  let count := fun n => if n = 0 then 0 else (lengths.filter (· == n)).length
  let first := ((List.range 15).foldl (fun (a : List Nat × Nat) i =>
    let code := (a.2 + count i) * 2
    (a.1 ++ [code], code)) ([], 0)).1
  let syms := (lengths.zipIdx).filter fun s => s.1 ≠ 0
  (syms.foldl (fun (a : List (Nat × Nat × Nat) × List Nat) s =>
    (a.1 ++ [(s.2, a.2.getD (s.1 - 1) 0, s.1)], nthUpd (s.1 - 1) (· + 1) a.2)) ([], first)).1

/-- A code's bits, most significant first. -/
def msbBits (v n : Nat) : List Bool := (List.range n).map fun i => bit v (n - 1 - i)

def lsbBits (v n : Nat) : List Bool := (List.range n).map fun i => bit v i

/-- Bits packed from bit 0 of the first byte upward, zero-padded to whole bytes (R335). -/
def packBits (l : List Bool) : Bytes :=
  (chunks 8 l).map fun c => BitVec.ofNat 8 ((c.zipIdx).foldl (fun (a : Nat) b => a + (if b.1 then 2 ^ b.2 else 0)) 0)

def unpackBits (b : Bytes) : List Bool := b.flatMap fun x => lsbBits x.toNat 8

/-! ### Field maps (R328) -/

/-- A plane of the page image: where it lies, keys or values, its field. -/
structure PlaneSeg where
  start : Nat
  len : Nat
  value : Bool
  scale : Bool
  fmt : Nat

/-- Planes of a page of n positions of a layer, in image order. -/
def planeSegs (g : Geom) (layer n : Nat) : List PlaneSeg :=
  let l := g.layer layer
  let one := fun (f : Nat) (v : Bool) =>
    let b := fmtBytes f
    [(b.1 * (g.headDim / 32), v, false, f)] ++ if b.2 = 0 then [] else [(b.2 * (g.headDim / 32), v, true, f)]
  let head := one l.kf false ++ if g.vDim = 0 then one l.vf true else []
  (((List.replicate g.kvHeads head).flatten).foldl (fun (a : List PlaneSeg × Nat) p =>
    (a.1 ++ [⟨a.2, p.1 * n, p.2.1, p.2.2.1, p.2.2.2⟩], a.2 + p.1 * n)) ([], 0)).1

/-- An item of a block's field map: an edge byte, a whole word, or padding bytes. -/
inductive FItem where
  | edge (off : Nat)
  | word (off : Nat) (f : FieldFmt) (value scale : Bool)
  | pad (off len : Nat)

/-- The field map of block i: its items in block order, offsets from the block's start. -/
def fieldMap (segs : List PlaneSeg) (i : Nat) : List FItem :=
  let b0 := 4096 * i
  let b1 := b0 + 4096
  let fin := segs.foldl (fun (a : Nat) s => max a (s.start + s.len)) 0
  (segs.flatMap fun s =>
    let lo := max s.start b0
    let hi := min (s.start + s.len) b1
    if lo ≥ hi then []
    else
      let f := fieldFmt s.fmt s.scale
      let w0 := min hi (s.start + roundUp (lo - s.start) f.word)
      let n := (hi - w0) / f.word
      let w1 := w0 + n * f.word
      ((List.range (w0 - lo)).map fun k => FItem.edge (lo + k - b0)) ++
      ((List.range n).map fun k => FItem.word (w0 + k * f.word - b0) f s.value s.scale) ++
      ((List.range (hi - w1)).map fun k => FItem.edge (w1 + k - b0))) ++
  if fin < b1 then [FItem.pad (max fin b0 - b0) (b1 - max fin b0)] else []

/-- Symbols of a field map (n_sym of R348). -/
def mapSyms (m : List FItem) : Nat :=
  sumBy (fun i => match i with | .word _ f _ _ => f.per | _ => 0) m

/-! ### Coding (R336) -/

/-- The code sets a layer's pages are coded with: keys then values, each four sets. -/
structure LayerSets where
  key : List (Option (List Nat))
  val : List (Option (List Nat))
  deriving DecidableEq

/-- The set of a field. -/
def LayerSets.get (t : LayerSets) (value scale delta : Bool) : List Nat :=
  let l := if value then t.val else t.key
  ((l.getD ((if scale then 1 else 0) + (if delta then 2 else 0)) none).getD [])

/-- Tables of a layer: CODEC_K and CODEC_V of its entry; none when one is absent. -/
def Geom.sets (g : Geom) (layer : Nat) : Option LayerSets :=
  let l := g.layer layer
  match codecTable g.raw g.codecOff l.codecK, codecTable g.raw g.codecOff l.codecV with
  | some k, some v => some ⟨k.sets, v.sets⟩
  | some k, none => if g.vDim ≠ 0 then some ⟨k.sets, []⟩ else none
  | none, _ => none

/-- The layer's tables carry the delta sets of every field of the layer (R341). -/
def Geom.deltaSets (g : Geom) (layer : Nat) : Bool :=
  let l := g.layer layer
  let full := fun (id fmt : Nat) => match codecTable g.raw g.codecOff id with
    | some t => (t.sets.getD 2 none).isSome && (fmt < 5 || (t.sets.getD 3 none).isSome)
    | none => false
  full l.codecK l.kf && (g.vDim != 0 || full l.codecV l.vf)

def xorBytes (a b : Bytes) : Bytes := List.zipWith (fun x y => x ^^^ y) a b

/-- Symbol bits and literal bits of a block; none at a symbol without a code. -/
def codeItems (t : LayerSets) (delta : Bool) (src : Bytes) (m : List FItem) : Option (List Bool × List Bool) :=
  m.foldl (fun (a : Option (List Bool × List Bool)) i =>
    match a with
    | none => none
    | some (sy, li) =>
      match i with
      | .pad _ _ => some (sy, li)
      | .edge o => some (sy, li ++ lsbBits (rd src o 1) 8)
      | .word o f v sc =>
        let cs := canonicalCodes (t.get v sc delta)
        (f.elems (slice src o f.word)).foldl (fun (b : Option (List Bool × List Bool)) e =>
          match b with
          | none => none
          | some (s1, l1) =>
            let p := f.split e
            match cs.find? fun c => c.1 == p.1 with
            | some c => some (s1 ++ msbBits c.2.1 c.2.2, l1 ++ lsbBits p.2 f.litBits)
            | none => none) (some (sy, li))) (some ([], []))

/-- A coded block, with whether a symbol without a code made it RAW. -/
def codeBlock (img : Bytes) (base : Option Bytes) (m : List FItem) (t : LayerSets) : CBlock × Bool :=
  let delta := base.isSome
  let src := match base with | some b => xorBytes img b | none => img
  if src.all (· == 0) then (⟨2, delta, 0, []⟩, false)
  else match codeItems t delta src m with
    | none => (⟨0, false, 0, img⟩, true)
    | some (sy, li) =>
      let a := packBits sy
      let b := packBits li
      if a.length + b.length > 4032 then (⟨0, false, 0, img⟩, false) else (⟨1, delta, a.length, a ++ b⟩, false)

/-- The coded blocks of a padded image, and how many are RAW for want of a code. -/
def codeImage (g : Geom) (layer n : Nat) (img : Bytes) (base : Option Bytes) (t : LayerSets) : List CBlock × Nat :=
  let segs := planeSegs g layer n
  let bs := ((chunks 4096 img).zipIdx).map fun b =>
    codeBlock b.1 (base.map fun x => slice x (4096 * b.2) 4096) (fieldMap segs b.2) t
  (bs.map (·.1), (bs.filter (·.2)).length)

/-! ### Decoding -/

/-- The first symbol of a bit string. -/
def readSym (cs : List (Nat × Nat × Nat)) (l : List Bool) : Option (Nat × List Bool) :=
  match cs.find? fun c => l.take c.2.2 == msbBits c.2.1 c.2.2 with
  | some c => some (c.1, l.drop c.2.2)
  | none => none

def bitsNat (l : List Bool) : Nat := (l.zipIdx).foldl (fun (a : Nat) b => a + (if b.1 then 2 ^ b.2 else 0)) 0

/-- The source bytes of a coded block; none when its streams do not fit its field map. -/
def decodeItems (t : LayerSets) (delta : Bool) (m : List FItem) (sy li : List Bool) : Option Bytes :=
  (m.foldl (fun (a : Option (Bytes × List Bool × List Bool)) i =>
    match a with
    | none => none
    | some (out, s, l) =>
      match i with
      | .pad _ n => some (out ++ List.replicate n 0, s, l)
      | .edge _ => some (out ++ leBytes 1 (bitsNat (l.take 8)), s, l.drop 8)
      | .word _ f v sc =>
        let cs := canonicalCodes (t.get v sc delta)
        let r := (List.range f.per).foldl (fun (b : Option (List Nat × List Bool × List Bool)) _ =>
          match b with
          | none => none
          | some (es, s1, l1) =>
            match readSym cs s1 with
            | some (x, s2) => some (es ++ [f.join x (bitsNat (l1.take f.litBits))], s2, l1.drop f.litBits)
            | none => none) (some ([], s, l))
        match r with
        | some (es, s2, l2) => some (out ++ f.toWord es, s2, l2)
        | none => none) (some ([], sy, li))).map (·.1)

/-- The image of a block (R337). -/
def decodeBlock (b : CBlock) (base : Option Bytes) (m : List FItem) (t : LayerSets) : Option Bytes :=
  let back := fun (x : Bytes) => match b.delta, base with | true, some y => some (xorBytes x y) | true, none => none | false, _ => some x
  match b.kind with
  | 0 => some b.data
  | 2 => back (List.replicate 4096 0)
  | _ => (decodeItems t b.delta m (unpackBits (b.data.take b.sym)) (unpackBits (b.data.drop b.sym))).bind back

/-- The image of a coded page. -/
def decodeImage (g : Geom) (layer n : Nat) (bs : List CBlock) (base : Option Bytes) (t : LayerSets) : Option Bytes :=
  let segs := planeSegs g layer n
  ((bs.zipIdx).foldl (fun (a : Option Bytes) b =>
    a.bind fun out => (decodeBlock b.1 (base.map fun x => slice x (4096 * b.2) 4096) (fieldMap segs b.2) t).map fun d => out ++ d)
    (some []))

/-! ### The stored form (R334) -/

def CBlock.size (b : CBlock) : Nat := roundUp b.data.length 64

def CBlock.flags (b : CBlock) : Nat := (if b.kind = 0 then 1 else 0) + (if b.kind = 2 then 2 else 0) + (if b.delta then 4 else 0)

def CBlock.crc (b : CBlock) : Nat := if b.kind = 2 then 0 else crc32c b.data

/-- The index and the blocks of a page as they are stored and carried. -/
def storedBytes (bs : List CBlock) : Bytes :=
  let ix := roundUp (16 * bs.length) 64
  let ents := (bs.foldl (fun (a : Bytes × Nat) b =>
    (a.1 ++ leBytes 4 a.2 ++ leBytes 2 b.data.length ++ leBytes 2 b.sym ++ leBytes 4 b.crc ++ leBytes 1 b.flags ++ leBytes 3 0,
     a.2 + b.size)) ([], ix)).1
  ents ++ List.replicate (ix - ents.length) 0 ++ bs.flatMap fun b => b.data ++ List.replicate (b.size - b.data.length) 0

/-- The n blocks a stored page holds; none when a block's CRC or form is wrong (R338). -/
def readStored (n : Nat) (b : Bytes) : Option (List CBlock) :=
  let one := fun (i : Nat) =>
    let o := 16 * i
    let len := rd b (o + 4) 2
    let fl := rd b (o + 12) 1
    let d := slice b (rd b o 4) len
    let x : CBlock := ⟨if bit fl 0 then 0 else if bit fl 1 then 2 else 1, bit fl 2, rd b (o + 6) 2, d⟩
    if d.length = len ∧ x.crc = rd b (o + 8) 4 then some x else none
  (List.range n).mapM one

/-! ### Times (R348, R349) -/

/-- Bits of the symbol stream before padding lie within its bytes; the count uses the code lengths of the block. -/
def symBitsOf (t : LayerSets) (delta : Bool) (src : Bytes) (m : List FItem) : Nat :=
  ((codeItems t delta src m).map fun x => x.1.length).getD 0

/-- Decode steps of a block without its base (R348). -/
def ownSteps (b : CBlock) (m : List FItem) (symBits : Nat) : Nat :=
  if b.kind = 1 then 12 + max (max 128 (ceilDiv (mapSyms m) 16)) (max (ceilDiv symBits 64) (ceilDiv (b.data.length - b.sym) 16))
  else if b.kind = 2 ∧ b.delta then 0 else 140

/-- Decode steps of a page's blocks; `base` gives its base page's image and blocks. -/
def pageSteps (g : Geom) (layer n : Nat) (img : Bytes) (bs : List CBlock) (base : Option (Bytes × List CBlock)) (t : LayerSets) :
    List Nat :=
  let segs := planeSegs g layer n
  (bs.zipIdx).map fun b =>
    let m := fieldMap segs b.2
    let own := slice img (4096 * b.2) 4096
    match base with
    | some (bi, bb) =>
      let bimg := slice bi (4096 * b.2) 4096
      let y := bb.getD b.2 ⟨0, false, 0, []⟩
      let steps := ownSteps y m (symBitsOf t false bimg m)
      if b.1.delta then ownSteps b.1 m (symBitsOf t true (xorBytes own bimg) m) + steps
      else ownSteps b.1 m (symBitsOf t false own m)
    | none => ownSteps b.1 m (symBitsOf t false own m)

/-- Encode steps of a block (R349). -/
def encSteps (m : List FItem) : Nat := 16 + max 128 (ceilDiv (mapSyms m) 16)

/-! ### Decoded rows and the fret summary -/

/-- Decoded values of one head of a position's rows (R254): the key's channels, and the value's, the first V_DIM channels of the
stored row under shared-KV (R95). -/
def headVals (g : Geom) (l : LayerEnt) (head : Nat) (row : List Bytes) : List Fv × List Fv :=
  let kp := if (fmtBytes l.kf).2 = 0 then 1 else 2
  let vp := if g.vDim ≠ 0 then 0 else if (fmtBytes l.vf).2 = 0 then 1 else 2
  let o := head * (kp + vp)
  let key := Fp.rowVals l.kf g.headDim (row.getD o []) (if kp = 2 then row.getD (o + 1) [] else [])
  let val := if g.vDim ≠ 0 then key.take g.vDim
    else Fp.rowVals l.vf g.headDim (row.getD (o + kp) []) (if vp = 2 then row.getD (o + kp + 1) [] else [])
  (key, val)

/-- Smallest and largest value of a channel, with −∞ and +∞ where a key is NaN (R97). -/
def extremes (vs : List Fv) : Fv × Fv :=
  if vs.any (· == .nan) then (.inf true, .inf false)
  else match vs with
    | [] => (.fin false 0 0, .fin false 0 0)
    | v :: rest => rest.foldl (fun a x => (if Fp.vlt x a.1 then x else a.1, if Fp.vlt a.2 x then x else a.2)) (v, v)

/-- The fret summary of a page (R96, R97). -/
def fretSummary (g : Geom) (layer : Nat) (rows : List (List Bytes)) (handle : Nat) : Bytes :=
  let l := g.layer layer
  let body := (List.range g.kvHeads).flatMap fun h =>
    let ks := rows.map fun r => (headVals g l h r).1
    let ex := (List.range g.headDim).map fun c => extremes (ks.map fun k => k.getD c .nan)
    (ex.map fun e => BitVec.ofNat 8 (Fp.enc Fp.e5m2 .down e.1)) ++ ex.map fun e => BitVec.ofNat 8 (Fp.enc Fp.e5m2 .up e.2)
  let unb := body.any fun (b : Byte) => b.toNat % 128 == 0x7C
  leBytes 2 g.kvHeads ++ leBytes 2 g.headDim ++ leBytes 1 (if unb then 1 else 0) ++ leBytes 3 0 ++ leBytes 8 handle ++ body

end Sys2Proof.Machine
end

