-- ==== Sys2Proof/Machine/Mem.lean ====
section
/-! DEFINITION. Byte memory in canonical form: addresses strictly rising, no entry equal to 0, which an unlisted address reads
as. The device's one addressed memory is the ring SRAM behind BAR4 (R772). -/

namespace Sys2Proof.Machine

/-- What an address reads as. -/
def Memory.read : List Host.Cell → Nat → Byte
  | [], _ => 0
  | c :: m, a => if c.1 = a then c.2 else Memory.read m a

/-- Write one byte; a zero removes the entry. -/
def Memory.write (a : Nat) (b : Byte) : List Host.Cell → List Host.Cell
  | [] => if b = 0 then [] else [(a, b)]
  | c :: m =>
    if a < c.1 then (if b = 0 then c :: m else (a, b) :: c :: m)
    else if a = c.1 then (if b = 0 then m else (a, b) :: m)
    else c :: Memory.write a b m

/-- Write a string of bytes from address a upward. -/
def Memory.writeAll (a : Nat) : Bytes → List Host.Cell → List Host.Cell
  | [], m => m
  | b :: bs, m => Memory.writeAll (a + 1) bs (Memory.write a b m)

/-- Entries above address a are canonical. -/
def Memory.wfFrom : Option Nat → List Host.Cell → Bool
  | _, [] => true
  | lo, c :: m => (match lo with | none => true | some l => decide (l < c.1)) && c.2 != 0 && Memory.wfFrom (some c.1) m

/-- The canonical form: addresses strictly rising, no zero entry. -/
def Memory.wf (m : List Host.Cell) : Bool := Memory.wfFrom none m

end Sys2Proof.Machine
end

