-- ==== Sys2Proof/Machine/Operands.lean ====
section
/-! DEFINITION. Command entries: opcodes, versions, the operand fields of R386, and the checks of acceptance that need the entry
alone (R368–R370, R385, R390, R391). -/

namespace Sys2Proof.Machine

/-- Opcodes (R385). -/
inductive Op where
  | seqOpen | seqClose | seqFork | append | seal | truncate | lookup | pin | unpin | decode | chunk | sparse | fwd | bwd
  | deliver | fetch | hint | migrate | evict | nmFill | nmCopy | nmCompare | nmReduce | partSet | partClear | geomLoad
  | keySet | keyErase | policyLoad | fence | cancel
  deriving DecidableEq, Repr

/-- Code, first ring version, and first version of the batch form (0 for none). -/
def Op.row : Op → Nat × Nat × Nat
  | .seqOpen => (0x01, 0x200, 0) | .seqClose => (0x02, 0x200, 0) | .seqFork => (0x03, 0x200, 0)
  | .append => (0x04, 0x200, 0x201) | .seal => (0x05, 0x200, 0) | .truncate => (0x06, 0x200, 0)
  | .lookup => (0x10, 0x200, 0) | .pin => (0x11, 0x200, 0) | .unpin => (0x12, 0x200, 0)
  | .decode => (0x20, 0x200, 0x201) | .chunk => (0x21, 0x300, 0) | .sparse => (0x22, 0x300, 0x300)
  | .fwd => (0x23, 0x301, 0) | .bwd => (0x24, 0x301, 0) | .deliver => (0x30, 0x200, 0) | .fetch => (0x31, 0x200, 0)
  | .hint => (0x40, 0x201, 0) | .migrate => (0x41, 0x300, 0) | .evict => (0x42, 0x300, 0)
  | .nmFill => (0x50, 0x300, 0) | .nmCopy => (0x51, 0x300, 0) | .nmCompare => (0x52, 0x300, 0)
  | .nmReduce => (0x53, 0x300, 0) | .partSet => (0x60, 0x200, 0) | .partClear => (0x61, 0x200, 0)
  | .geomLoad => (0x62, 0x200, 0) | .keySet => (0x63, 0x200, 0) | .keyErase => (0x64, 0x200, 0)
  | .policyLoad => (0x65, 0x300, 0) | .fence => (0x70, 0x200, 0) | .cancel => (0x71, 0x200, 0)

def Op.code (o : Op) : Nat := o.row.1

def Op.all : List Op :=
  [.seqOpen, .seqClose, .seqFork, .append, .seal, .truncate, .lookup, .pin, .unpin, .decode, .chunk, .sparse, .fwd, .bwd,
   .deliver, .fetch, .hint, .migrate, .evict, .nmFill, .nmCopy, .nmCompare, .nmReduce, .partSet, .partClear, .geomLoad,
   .keySet, .keyErase, .policyLoad, .fence, .cancel]

def Op.ofCode (n : Nat) : Option Op := Op.all.find? fun o => o.code == n

def Cmd.opc (c : Cmd) : Option Op := Op.ofCode c.op

def Cmd.is (c : Cmd) (o : Op) : Bool := c.op == o.code

/-- The view a command names (R293, R300); 0 for none. -/
def Cmd.viewNamed (c : Cmd) : Nat :=
  if c.is .fwd then c.f 0x24 4 else if c.is .bwd && c.f 0x1C 1 == 0 then c.f 0x18 4 else 0

/-- The block whose instance does a command's work (chapter 20). -/
def Cmd.block (c : Cmd) : Nat :=
  match c.opc with
  | some .seqOpen | some .seqClose | some .seqFork | some .append | some .seal | some .truncate => 0x09
  | some .lookup | some .pin | some .unpin => 0x0A
  | some .hint | some .migrate | some .evict => 0x0B
  | some .decode | some .chunk | some .sparse | some .fwd | some .bwd => 0x0C
  | some .deliver | some .fetch => 0x10
  | some .nmFill | some .nmCopy | some .nmCompare | some .nmReduce => 0x16
  | some .partSet | some .partClear | some .geomLoad => 0x0F
  | some .keySet | some .keyErase => 0x05
  | some .policyLoad => 0x15
  | _ => 0x0E

/-- An attention or training command. -/
def Cmd.attn (c : Cmd) : Bool := c.is .decode || c.is .chunk || c.is .sparse || c.is .fwd || c.is .bwd

/-- FLAGS (R368). -/
def Cmd.fFence (c : Cmd) : Bool := bit c.flags 0
def Cmd.fApprox (c : Cmd) : Bool := bit c.flags 1
def Cmd.fDet (c : Cmd) : Bool := bit c.flags 2
def Cmd.fNotify (c : Cmd) : Bool := bit c.flags 3

/-- Class of an APPEND or an importing lookup: 0 default, 1 V, 2 D, 3 P as the options code it; here from FLAGS (R368). -/
def Cmd.fClass (c : Cmd) : Option Nat := if bit c.flags 5 then some 2 else if bit c.flags 4 then some 1 else none

/-- The batch form: SEQ_ID 0 where the command has one (R385). -/
def Cmd.batch (c : Cmd) : Bool := c.seq == 0 && (c.is .append || c.is .decode || c.is .sparse)

/-- Address of the length table of a batch form, or of HINT BATCH (R386). -/
def Cmd.tableAddr (c : Cmd) : Nat :=
  if c.is .append then c.f 0x38 8 else if c.is .hint then c.f 0x30 8 else c.f 0x18 8

/-- A field of an entry cleared. -/
def clearField (e off size : Nat) : Nat := e - efld e off size * 2 ^ (8 * off)

/-- The entry with the fields added after its version read as zero (R390–R392). -/
def entryFor (ver e : Nat) : Nat :=
  let op := efld e 0 1
  let z := fun (e : Nat) (since : Nat) (fs : List (Nat × Nat)) =>
    if ver < since then fs.foldl (fun a f => clearField a f.1 f.2) e else e
  let e1 := z e 0x300 [(0x10, 8)]
  let e2 := if op = 0x01 then z (z e1 0x300 [(0x20, 4), (0x28, 8)]) 0x302 [(0x30, 8)] else e1
  let e3 := if op = 0x03 then z e2 0x302 [(0x28, 8)] else e2
  let e4 := if op = 0x06 then z e3 0x302 [(0x20, 8), (0x28, 4)] else e3
  if op = 0x10 then z e4 0x300 [(0x20, 4), (0x28, 8)] else e4

/-- Opcode, options and FMT_MINOR lie inside the queue's version (R385, R390, R391). -/
def versionOk (chosen e : Nat) : Bool :=
  let minor := efld e 2 1
  let ver := chosen / 256 * 256 + minor
  let flags := efld e 1 1 % 64
  match Op.ofCode (efld e 0 1) with
  | none => false
  | some o =>
    let r := o.row
    let batch := efld e 8 6 == 0 && r.2.2 != 0
    minor ≤ chosen % 256 && r.2.1 ≤ ver && (!batch || r.2.2 ≤ ver) &&
    (0x300 ≤ ver || flags &&& 0x36 == 0) &&
    (match o with
     | .lookup => 0x300 ≤ ver || efld e 0x19 1 % 2 == 0
     | .seqOpen => 0x302 ≤ ver || efld e 0x19 1 &&& 0xC1 == 0
     | .seqFork => 0x302 ≤ ver || efld e 0x19 1 &&& 0x30 == 0
     | .hint => 0x301 ≤ ver || efld e 0x18 1 < 2 || efld e 0x18 1 > 4
     | _ => true)

/-- Reserved SEQ_IDs (R80). -/
def seqReserved (id : Nat) : Bool := id == 0 || id == 0xFFFFFFFFFFFF

/-- Host addresses of an entry that must be 16-byte aligned (R369): those the form uses. That of POLICY_LOAD is tested where its other
operands are, since each BAD_CMD of it raises LOAD_REFUSED (R749). -/
def entryAddrs (o : Op) (e : Nat) : List Nat :=
  let a := fun off => efld e off 8
  let batch := efld e 8 6 == 0
  match o with
  | .seqOpen => if bit (efld e 0x19 1) 0 then [a 0x38] else []
  | .seqFork => if efld e 0x18 1 = 1 then [a 0x20] else []
  | .append => [a 0x20, a 0x28] ++ if batch then [a 0x38] else []
  | .truncate => [a 0x20]
  | .lookup => [a 0x30, a 0x38]
  | .pin => if efld e 0x19 1 = 0 then [a 0x28] else []
  | .decode => [a 0x28, a 0x30, a 0x38] ++ if batch then [a 0x18] else []
  | .sparse => [a 0x28, a 0x30, a 0x38] ++ if batch then [a 0x18] else []
  | .chunk => [a 0x28, a 0x30, a 0x38]
  | .fwd => [a 0x28, a 0x30, a 0x38]
  | .bwd => [a 0x20]
  | .deliver => if bit (efld e 0x24 1) 0 then [a 0x38] else []
  | .fetch => if bit (efld e 0x24 1) 0 then [a 0x38] else []
  | .hint => if efld e 0x18 1 = 3 then [a 0x30] else []
  | .migrate => if bit (efld e 0x1A 1) 0 then [a 0x28] else []
  | .evict => if bit (efld e 0x1A 1) 0 then [a 0x28] else []
  | .partSet => [a 0x20]
  | .geomLoad => [a 0x20]
  | .keySet => [a 0x20]
  | _ => []

/-- An operand of the entry alone is outside its range (R370, R386, R80, R83, R112, R173, R184, R238, R245, R295, R300). -/
def entryBad (o : Op) (e : Nat) : Bool :=
  let b := fun off => efld e off 1
  let dieBad := fun off => 7 < b off && b off < 0xFF
  (entryAddrs o e).any (fun x => x % 16 != 0) ||
  (match o with
   | .seqOpen =>
     seqReserved (efld e 8 6) ||
     (!bit (b 0x19) 0 &&
      ((6 < b 0x18 && b 0x18 < 0xFF) || bits (b 0x19) 3 2 == 3 || bits (b 0x19) 7 6 == 3 || dieBad 0x1B ||
       (bit (b 0x19) 1 && (15 < b 0x1A || efld e 0x1C 4 == 0 || 2 ^ 24 < efld e 0x1C 4))))
   | .seqFork =>
     (b 0x18 == 1 && (efld e 0x1C 4 == 0 || 2 ^ 20 < efld e 0x1C 4)) || seqReserved (efld e 8 6) || 1 < b 0x18 || bits (b 0x19) 1 0 == 3 || bits (b 0x19) 5 4 == 3 || dieBad 0x1A
   | .append =>
     efld e 1 1 &&& 0x30 == 0x30 || (efld e 8 6 != 0 && (efld e 0x18 4 == 0 || 4096 < efld e 0x18 4))
   | .lookup => efld e 1 1 &&& 0x30 == 0x30 || 6 < b 0x18 || efld e 0x1C 4 == 0 || 2 ^ 24 < efld e 0x1C 4
   | .pin => 3 < b 0x18 || 1 < b 0x19
   | .decode => efld e 0x0E 2 == 0xFFFF || efld e 0x24 2 == 0 || 16 < efld e 0x24 2
   | .chunk => efld e 0x0E 2 == 0xFFFF || efld e 0x24 2 == 0 || 2048 < efld e 0x24 2
   | .sparse => efld e 0x0E 2 == 0xFFFF || efld e 0x24 2 == 0 || 16 < efld e 0x24 2 || b 0x26 == 0
   | .fwd => efld e 0x0E 2 == 0xFFFF || bits (efld e 0x18 8) 60 49 == 0 || 2048 < bits (efld e 0x18 8) 60 49
   | .deliver => efld e 0x30 8 % 64 != 0
   | .fetch => efld e 0x30 8 % 64 != 0
   | .bwd =>
     let set := b 0x1F == 0 || 64 < b 0x1F
     if b 0x1C = 0 then efld e 0x18 4 == 0 || bits (b 0x1D) 2 1 == 3 || 2 < b 0x1E || (bits (b 0x1D) 2 1 == 2 && set)
     else 2 < b 0x1C || set
   | .hint => 4 < b 0x18 || (2 ≤ b 0x18 && 255 < efld e 0x1A 2)
   | .migrate => 3 < b 0x18 || dieBad 0x19
   | .evict => 3 < b 0x18
   | .fence => 1 < b 0x18
   | .partSet => 63 < b 0x18
   | .partClear => 63 < b 0x18
   | .geomLoad => 63 < b 0x18 || 4 * 2 ^ 20 < efld e 0x28 4
   | .keySet => 4095 < efld e 0x18 2 || efld e 0x28 4 != 72
   | .keyErase => efld e 0x1A 2 == 0 || 4096 < efld e 0x18 2 + efld e 0x1A 2
   | _ => false)

/-- An entry of a length table (R134): sequence, AUX, first position, count. -/
structure LenEnt where
  seq : Nat
  aux : Nat
  first : Nat
  count : Nat
  deriving DecidableEq, Repr

/-- A length table read from the host; none when its header or size is wrong. TOTAL and the distinctness of its SEQ_IDs are the
first check of R135. -/
def lenTable (b : Bytes) : Option (List LenEnt) :=
  let n := rd b 0 4
  if n = 0 ∨ 4096 < n ∨ b.length < 16 + 16 * n then none
  else
    let es := (List.range n).map fun i =>
      let o := 16 + 16 * i
      { seq := rd b o 6, aux := rd b (o + 6) 2, first := rd b (o + 8) 4, count := rd b (o + 12) 4 : LenEnt }
    let ids := es.map (·.seq)
    if sumBy (·.count) es = rd b 4 4 ∧ ids.eraseDups.length = n then some es else none

/-- Bytes of a length table. -/
def lenTableBytes (es : List LenEnt) : Bytes :=
  leBytes 4 es.length ++ leBytes 4 (sumBy (·.count) es) ++ leBytes 8 0 ++
  es.flatMap fun e => leBytes 6 e.seq ++ leBytes 2 e.aux ++ leBytes 4 e.first ++ leBytes 4 e.count

/-- The whole of a buffer the command has read. -/
def Cmd.bufAll (c : Cmd) (addr : Nat) : Option Bytes := (c.bufs.find? fun b => b.addr == addr).bind (·.data)

/-- A buffer has been read, whole or poisoned. -/
def Cmd.hasBuf (c : Cmd) (addr : Nat) : Bool := c.bufs.any fun b => b.addr == addr

/-- Sequences a command names (R377); those of a length table once it has been read. -/
def Cmd.names (c : Cmd) : List Nat :=
  if c.batch || (c.is .hint && c.f 0x18 1 = 3) then
    match (c.bufAll c.tableAddr).bind lenTable with
    | some es => es.map (·.seq)
    | none => []
  else match c.opc with
    | some .seqOpen => [c.seq] | some .seqClose => [c.seq] | some .append => [c.seq] | some .seal => [c.seq]
    | some .truncate => [c.seq]
    | some .seqFork => if c.f 0x18 1 = 0 then [c.seq, c.f 0x20 6] else [c.seq]
    | some .pin => if c.f 0x19 1 = 1 then [c.seq] else []
    | some .decode => [c.seq] | some .chunk => [c.seq] | some .sparse => [c.seq] | some .fwd => [c.seq]
    | some .deliver => if bit (c.f 0x24 1) 0 then [] else [c.seq]
    | some .fetch => if bit (c.f 0x24 1) 0 then [] else [c.seq]
    | some .hint => if c.f 0x18 1 ∈ [0, 1, 4] then [c.seq] else []
    | some .migrate => if bit (c.f 0x1A 1) 0 then [] else [c.seq]
    | some .evict => if bit (c.f 0x1A 1) 0 then [] else [c.seq]
    | _ => []

/-- Sequences a command changes (R377): of a fork, the child. -/
def Cmd.changes (c : Cmd) : List Nat :=
  if c.is .seqOpen || c.is .seqClose || c.is .append || c.is .seal || c.is .truncate then c.names
  else if c.is .seqFork then [c.seq] else []

/-- Where the length table or the buffer descriptor of a command stands, whose poison is its queue's (R495). -/
def Cmd.headAddr (c : Cmd) : Option Nat :=
  if c.batch || (c.is .hint && c.f 0x18 1 = 3) then some c.tableAddr
  else if c.is .bwd && c.f 0x1C 1 ≠ 2 then some (c.f 0x20 8) else none

/-- The length table a command depends on has not been read. -/
def Cmd.tableOwed (c : Cmd) : Bool := (c.batch || (c.is .hint && c.f 0x18 1 = 3)) && !c.hasBuf c.tableAddr

/-- A buffer the acceptance checks of a command depend on (R370, R442, R386): its length table, its buffer descriptor, the handles of a
DELIVER or FETCH. -/
def Cmd.acceptAddr (c : Cmd) : Option Nat :=
  if (c.is .deliver || c.is .fetch) && bit (c.f 0x24 1) 0 && c.f 0x18 4 != 0 then some (c.f 0x38 8) else c.headAddr

/-- A buffer its acceptance needs has not been read. -/
def Cmd.owed (c : Cmd) : Bool := match c.acceptAddr with | some a => !c.hasBuf a | none => false

/-- The command names a sequence, or may: its length table has still to be read. -/
def Cmd.mayName (c : Cmd) (q : Nat) : Bool := c.names.contains q || c.tableOwed

end Sys2Proof.Machine
end

