-- ==== Sys2Proof/Machine/Queues.lean ====
section
/-! DEFINITION. The command rings (chapter 9): queue pairs and their states, doorbells, acceptance, start, completion, interrupts,
fences and cancel. -/

namespace Sys2Proof.Machine

/-! ### Queues -/

/-- A queue's QMGR register. -/
def State.qreg (s : State) (f : Fld) (q : Nat) : Nat := s.reg f 0 255 q 0

def State.wq (s : State) (f : Fld) (q v : Nat) : State := s.setReg f 0 255 q 0 v

/-- Partition a queue is bound to; 255 for a supervisor queue (R361). -/
def State.queuePart (s : State) (q : Nat) : Nat := if q ≥ 65536 then 255 else s.qreg F.QBIND_PARTITION q

def State.sqSize (s : State) (q : Nat) : Nat := 2 ^ s.qreg F.QCTRL_SQ_LOG2 q
def State.cqSize (s : State) (q : Nat) : Nat := 2 ^ s.qreg F.QCTRL_CQ_LOG2 q

/-- The number an agent has in select-register keys. -/
def agentNo : Agent → Nat
  | .pf p => p
  | .vf p q => 16 + p * 64 + q
  | .half h => 1000 + h
  | .quinbel => 1002

/-- The function a queue belongs to: 0 the physical function, p + 1 a virtual function. -/
def agentFn : Agent → Nat
  | .vf _ p => p + 1
  | _ => 0

def agentPort : Agent → Nat
  | .pf p => p
  | .vf p _ => p
  | _ => 0

/-- Least queue number of the 65,536 that no queue holds. -/
def State.freeQueueNo (s : State) : Nat :=
  (s.q.queues.foldl (fun (n : Nat) _ => if s.q.queues.any fun q => q.num == n then n + 1 else n) 0)

/-- The queue an agent addresses: the physical function by global number, a virtual function by its own count of the queues it
created, in their order (R358). A first write creates it, on the front end of the port that carried it (QCTRL.FE). -/
def State.queueFor (s : State) (a : Agent) (n : Nat) : State × Option Nat :=
  match a with
  | .vf port p =>
    match s.q.queues.find? fun q => q.port == port && q.fn == p + 1 && q.loc == n with
    | some q => (s, some q.num)
    | none =>
      let have_ := (s.q.queues.filter fun q => q.port == port && q.fn == p + 1).length
      let g := s.freeQueueNo
      if n = have_ ∧ g < 65536 then
        let s1 := { s with q := { s.q with queues := s.q.queues ++ [({ num := g, port := port, fn := p + 1, loc := n } : Queue)] } }
        ((s1.wq F.QBIND_PARTITION g p).wq F.QCTRL_FE g (if port % 8 < 4 then 0 else 1), some g)
      else (s, none)
  | _ =>
    if s.q.queues.any fun q => q.num == n then (s, some n)
    else if n < 65536 then
      let port := agentPort a
      let s1 := { s with q := { s.q with queues := s.q.queues ++ [({ num := n, port := port, fn := 0, loc := n } : Queue)] } }
      (s1.wq F.QCTRL_FE n (if port % 8 < 4 then 0 else 1), some n)
    else (s, none)

/-- Commands of a queue. -/
def State.cmdsOf (s : State) (q : Nat) : List Cmd := s.q.cmds.filter fun c => c.q == q

/-- Unconsumed completions of a queue. -/
def State.unconsumed (s : State) (x : Queue) : Nat := (x.cqTail + s.cqSize x.num - x.cqHead) % s.cqSize x.num

/-- A queue enters ERROR (R362). -/
def State.queueFails (s : State) (q reason : Nat) : State :=
  (s.setQueue q fun y => { y with st := .error, reason := reason, cqFailed := y.cqFailed || reason == 3 }).raise Ev.QUEUE_ERROR (s.queuePart q)

/-- An ACTIVE queue enters ERROR (R362). -/
def State.queueError (s : State) (q reason : Nat) : State :=
  match s.queue q with
  | some x => if x.st == .active then s.queueFails q reason else s
  | none => s

/-- Inline rings in use: offset and size of each (R359). -/
def State.inlineRings (s : State) : List (Nat × Nat) :=
  s.q.queues.flatMap fun x => x.sqInline.toList ++ x.cqInline.toList

/-- Ring SRAM in use by a partition, bytes. -/
def State.inlineUsed (s : State) (p : Nat) : Nat :=
  sumBy (·.2) ((s.q.queues.filter fun x => s.queuePart x.num == p).flatMap fun x => x.sqInline.toList ++ x.cqInline.toList)

/-- A place for an inline ring of `size` bytes in the SRAM of a front end, aligned to its size (R772): which of the free ones is
the device's choice. -/
def State.placeRing (s : State) (fe size : Nat) : State × Option Nat :=
  let used := s.inlineRings
  let cands := ((List.range (8 * 2 ^ 20 / size)).map fun i => fe * 8 * 2 ^ 20 + i * size).filter fun o =>
    used.all fun r => decide (o + size ≤ r.1 ∨ r.1 + r.2 ≤ o)
  if cands.isEmpty then (s, none)
  else
    let c := s.choose
    (c.2, cands[c.1 % cands.length]?)

/-- ENABLE refused (R362). -/
def State.enableRefused (s : State) (q reason : Nat) : State :=
  ((s.setQueue q fun y => { y with reason := reason }).wq F.QCTRL_ENABLE q 0).raise Ev.QUEUE_ERROR (s.queuePart q)

/-- The function's interface is CONFIG_LOCKED: no queue, window map or destination is accepted for it until it runs (R470). -/
def State.tdiHolds (s : State) (port fn : Nat) : Bool :=
  s.sec.tdis.any fun t => t.port == port && t.fn == fn && t.st == .locked

/-- ENABLE takes effect (R362, R389): version, then base alignment, then inline quota. -/
def State.enableQueue (s : State) (q : Nat) : State :=
  match s.queue q with
  | none => s
  | some x =>
    let p := s.queuePart q
    let offered := [0x302, 0x301, 0x300, 0x201, 0x200].find? fun v =>
      s.qreg F.QVER_OFFER_MIN q ≤ v && v ≤ s.qreg F.QVER_OFFER_MAX q
    let used := (s.q.queues.filter fun y => y.num < 65536 && y.st != .disabled && s.queuePart y.num == p).length
    if x.st != .disabled || (p < 64 && s.pst p == .free) then s
    else match offered with
      | none => (s.enableRefused q 4).raise Ev.VERSION_REFUSED p
      | some v =>
        let sqIn := s.qreg F.QCTRL_SQ_INLINE q = 1
        let cqIn := s.qreg F.QCTRL_CQ_INLINE q = 1
        let sqBytes := 64 * s.sqSize q
        let cqBytes := 32 * s.cqSize q
        let need := (if sqIn then sqBytes else 0) + (if cqIn then cqBytes else 0)
        if (!sqIn ∧ s.qreg F.SQ_BASE q % 4096 ≠ 0) ∨ (!cqIn ∧ s.qreg F.CQ_BASE q % 4096 ≠ 0) then s.enableRefused q 7
        else if (p < 64 ∧ used ≥ s.gp F.QP_LIMIT p) ∨ s.tdiHolds x.port x.fn then
          -- beyond QP_LIMIT, or held by R470: refused; the chapter names no reason code for it
          s.choose.2.enableRefused q (s.choose.1 % 16)
        else if need ≠ 0 ∧ s.inlineUsed p + need > s.gp F.INLINE_QUOTA p * 1024 then s.enableRefused q 5
        else
          let fe := s.qreg F.QCTRL_FE q
          let a := if sqIn then s.placeRing fe sqBytes else (s, some 0)
          let s1 := a.1.setQueue q fun y => { y with sqInline := if sqIn then a.2.map fun o => (o, sqBytes) else none }
          let b := if cqIn then s1.placeRing fe cqBytes else (s1, some 0)
          match a.2, b.2 with
          | some so, some co =>
            let s2 := b.1.setQueue q fun y =>
              { y with
                st := .active, reason := 0, ver := v, sqHead := 0, sqTail := 0, cqHead := 0, cqTail := 0, phase := true,
                paused := false, irqCount := 0, heldEnable := false, cqFailed := false,
                cqInline := if cqIn then some (co, cqBytes) else none }
            let s3 := if sqIn then s2.wq F.SQ_BASE q so else s2
            let s4 := if cqIn then s3.wq F.CQ_BASE q co else s3
            (s4.wq F.QVER_CHOSEN q v).wq F.QCTRL_ENABLE q 1
          | _, _ => (b.1.setQueue q fun y => { y with sqInline := none }).enableRefused q 5

/-- A step of start-up has ended (R699). -/
def State.stepDone (s : State) (n : Nat) : Bool := s.boot.ended.contains n

/-- Step 6 of start-up has begun: the steps before it have ended (R699, R711). -/
def State.serving (s : State) : Bool := s.g F.BOOT_PHASE_SERVICE ≥ 1 || s.stepDone 6

/-- QUEUE_ENABLE (R362, R711): q is the number in the function's own numbering. -/
def execQueueEnable (a : Agent) (q : Nat) (s : State) : Host.Outcome State Fault Refusal :=
  match s.queueFor a q with
  | (s1, some g) =>
    if s1.serving then .next (s1.enableQueue g)
    else .next ((s1.setQueue g fun y => { y with heldEnable := true }).wq F.QCTRL_ENABLE g 1)
  | (s1, none) => .next s1

/-- QUEUE_DISABLE (R362): ACTIVE becomes DRAINING. -/
def execQueueDisable (q : Nat) (s : State) : Host.Outcome State Fault Refusal :=
  match s.queue q with
  | some x =>
    if x.st == .active && q < 65536 then .next ((s.setQueue q fun y => { y with st := .draining }).wq F.QCTRL_ENABLE q 0)
    else .next ((s.setQueue q fun y => { y with heldEnable := false }).wq F.QCTRL_ENABLE q 0)
  | none => .next s

/-- A queue returns to DISABLED: its inline rings are returned, its pointers 0. -/
def State.queueOff (s : State) (q : Nat) : State :=
  (s.setQueue q fun y =>
    { y with
      st := .disabled, reason := 0, paused := false, sqHead := 0, sqTail := 0, cqHead := 0, cqTail := 0, phase := true,
      irqCount := 0, cqFailed := false, sqInline := none, cqInline := none }).wq F.QCTRL_ENABLE q 0 |>.wq F.QCTRL_RESET q 0

/-- QUEUE_DRAINED (R362). -/
def execQueueDrained (q : Nat) (s : State) : Host.Outcome State Fault Refusal :=
  match s.queue q with
  | some x =>
    if x.st == .draining && (s.cmdsOf q).isEmpty then
      .next ((s.setQueue q fun y => { y with st := .disabled, sqInline := none, cqInline := none }))
    else .next s
  | none => .next s

/-! ### Leases (R116–R119) -/

def State.seq (s : State) (p id : Nat) : Option Seq := s.sq.seqs.find? fun x => x.part == p && x.id == id

def State.setSeq (s : State) (p id : Nat) (f : Seq → Seq) : State :=
  { s with sq := { s.sq with seqs := upd (fun x => x.part == p && x.id == id) f s.sq.seqs } }

/-- An APPEND or TRUNCATE of the holder is executing, from before the lease's expiry to the posting of its completion (R113, R118). -/
def State.leaseBusy (s : State) (x : Seq) : Bool :=
  s.q.cmds.any fun c =>
    some c.q == x.holder && c.part == x.part && c.st != .waiting && (c.is .append || c.is .truncate) &&
      (c.keeps.contains x.id || c.took.contains x.id)

/-- The lease is held and not expired (R117, R118). -/
def State.leaseHeld (s : State) (x : Seq) : Bool := x.holder.isSome && (s.now < x.expiry || s.leaseBusy x)

/-- The holder's uncompleted APPEND and TRUNCATE commands on a sequence. -/
def State.holderCmds (s : State) (x : Seq) : List Cmd :=
  match x.holder with
  | none => []
  | some q => s.q.cmds.filter fun c =>
      c.q == q && c.part == x.part && c.live && (c.is .append || c.is .truncate) && c.names.contains x.id

/-- The holder's batch APPENDs whose length table has still to be read remember the sequence: they complete LEASE_LOST if they name it
(R119). -/
def State.markLost (s : State) (x : Seq) : State :=
  { s with q := { s.q with
    cmds := upd (fun c => some c.q == x.holder && c.part == x.part && c.live && c.is .append && c.tableOwed)
      (fun c => { c with lost := c.lost ++ [x.id] }) s.q.cmds } }

/-- The lease is released at once; the old holder's uncompleted commands are discarded and complete LEASE_LOST where their
completion ring still exists (R119). -/
def State.releaseLease (s : State) (p id : Nat) : State :=
  match s.seq p id with
  | none => s
  | some x =>
    let cs := s.holderCmds x
    let s1 := cs.foldl (fun (a : State) c => a.fail c.uid St.leaseLost) s
    let s2 := (s1.setSeq p id fun y => { y with holder := none }).markLost x
    if cs.isEmpty then s2 else s2.raise Ev.ROLLBACK p

/-! ### Removing a command -/

/-- A block of a seal outlives the command the seal counted for. -/
def CodecJob.orphan (c : Nat) (j : CodecJob) : CodecJob := if j.owner = c ∧ j.forSeal.isSome then { j with owner := 0 } else j

/-- Seals and installations that `dead` picks end before their leaves are committed: the serial runs that their pages took again return (R102),
the units written for them become invalid, no engine codes their blocks any more. -/
def State.dropJobs (s : State) (dead : SealJob → Bool) : State :=
  let js := s.sq.seals.filter dead
  let ps := (js.filter fun j => decide (j.step ≤ 5)).flatMap (·.pages)
  let back := (ps.filter fun x => decide (1 < x.gen)).map fun x => ({ part := x.part, serial := x.serial, gen := x.gen - 1 } : FreedSlot)
  let coded := fun (b : CodecJob) => js.any fun j => b.forSeal == some (j.part, j.seq, j.leafNo)
  { s with
    part := { s.part with runs := del (fun r => js.any fun j => r.leaf == some (j.part, j.seq, j.leafNo)) s.part.runs }
    sq := { s.sq with seals := del dead s.sq.seals, freed := s.sq.freed ++ back }
    ftl := { s.ftl with units := del (fun u => u.what == 0 && ps.any fun x => x.part == u.part && x.serial == u.serial) s.ftl.units }
    att := { s.att with codecs := s.att.codecs.map fun k => { k with
      queue := del coded k.queue
      lanes := k.lanes.map fun l => l.map fun b => if coded b then { b with forSeal := none } else b } } }

/-- Sequence under which the leaves of an import are placed: outside the 48-bit numbers of sequences. -/
def importSeq (c : Nat) : Nat := 2 ^ 48 + c

/-- What an import had begun to place goes; leaves already installed stay (R179). -/
def State.dropImport (s : State) (c : Nat) : State := s.dropJobs fun j => j.seq == importSeq c

/-- What the engines hold for a command is dropped: its runs and partials, the objects of its attention, lookup, capo being
made, delivery, NM work, moves and admissions. Seals it started go on without it, and so do the moves of pages a MIGRATE has handled
(R240). A view it named is in use until now (R298). -/
def State.dropWork (s : State) (c : Nat) : State :=
  let named := fun (v : View) => (s.q.cmds.any fun x => x.uid == c && x.part == v.part && x.viewNamed == v.num) ||
    s.att.attns.any fun a => a.cmd == c && a.part == v.part && a.view == v.num
  { s with
    part := { s.part with runs := del (fun r => r.cmd == c) s.part.runs }
    att := { s.att with attns := del (fun a => a.cmd == c) s.att.attns, helds := del (fun h => h.cmd == c) s.att.helds
                        flows := del (fun f => f.cmd == c) s.att.flows
                        views := upd named (fun v => { v with lastUse := s.now }) (del (fun v => v.made == c) s.att.views)
                        codecs := s.att.codecs.map fun k => { k with
                          queue := (del (fun j => j.owner == c && j.forSeal.isNone) k.queue).map (CodecJob.orphan c)
                          lanes := k.lanes.map fun l => l.map (CodecJob.orphan c) } }
    pdir := { s.pdir with lookups := del (fun l => l.cmd == c) s.pdir.lookups
                          capos := del (fun k => k.cmd == c) s.pdir.capos }
    dlv := { s.dlv with delivs := del (fun d => d.cmd == c) s.dlv.delivs
                        pushes := del (fun p => p.cmd == c && p.st == 0) s.dlv.pushes }
    cxl := { s.cxl with jobs := del (fun j => j.cmd == c) s.cxl.jobs }
    tier := { s.tier with moves := upd (fun m => m.cmd == c) (fun m => { m with cmd := 0 }) (del (fun m => m.cmd == c && m.why != 4) s.tier.moves)
                          waits := del (fun w => w.cmd == c) s.tier.waits }
    sq := { s.sq with seals := upd (fun j => j.cmd == c) (fun j => { j with cmd := 0 }) s.sq.seals
                      forks := del (fun f => f.cmd == c) s.sq.forks } }

/-- The command leaves the device without a completion (R374). -/
def State.discard (s : State) (c : Nat) : State :=
  let s1 := (s.dropImport c).dropWork c
  { s1 with q := { s1.q with cmds := (del (fun x => x.uid == c) s1.q.cmds).map fun x =>
      { x with waitFor := x.waitFor.filter (· != c) } } }

/-- A waiting FENCE or CANCEL whose targets have completed reaches its commit point (R379, R384); a SEQ_CLOSE has its own row. -/
def State.settle (s : State) : State :=
  s.q.cmds.foldl (fun (a : State) c =>
    if c.live && c.waitFor.isEmpty then
      if c.is .fence && c.st == .started then a.finish c.uid St.ok c.count 0
      else if c.is .cancel && c.phase = 1 then a.finish c.uid St.ok c.count 0
      else a
    else a) s

/-- A queue is reset (R362): commands not past their commit point are discarded without completion, the append leases it holds
are released. -/
def State.resetQueue (s : State) (q : Nat) : State :=
  match s.queue q with
  | none => s
  | some x =>
    if x.st == .active || x.st == .draining || x.st == .error then
      let held := s.sq.seqs.filter fun y => y.holder == some q
      let lost := held.filter fun y => !(s.holderCmds y).isEmpty
      let s1 := (s.cmdsOf q).foldl (fun (a : State) c => if c.live then a.discard c.uid else a) s
      let s2 := held.foldl (fun (a : State) y => a.releaseLease y.part y.id) s1
      let s3 := if lost.isEmpty then s2 else s2.raise Ev.ROLLBACK (s.queuePart q)
      ((s3.setQueue q fun y => { y with st := .resetting }).wq F.QCTRL_RESET q 1).settle
    else s

/-- QUEUE_RESET (R362). -/
def execQueueReset (q : Nat) (s : State) : Host.Outcome State Fault Refusal := .next (s.resetQueue q)

/-- QUEUE_RESET_DONE (R362): the last command has ended. -/
def execQueueResetDone (q : Nat) (s : State) : Host.Outcome State Fault Refusal :=
  match s.queue q with
  | some x => if x.st == .resetting && (s.cmdsOf q).isEmpty then .next (s.queueOff q) else .next s
  | none => .next s

/-! ### Doorbells (R363, R364) -/

/-- Vectors of a function (R393). -/
def msixCount (fn : Nat) : Nat := if fn = 0 then 2048 else 64

/-- An entry of a function's MSI-X table. -/
def State.msixVec (s : State) (port fn v : Nat) : MsixVec :=
  (s.q.msix.find? fun e => e.port == port && e.fn == fn && e.vec == v).getD { port := port, fn := fn, vec := v }

def State.setMsix (s : State) (v : MsixVec) : State :=
  { s with q := { s.q with msix := put (fun e => e.port == v.port && e.fn == v.fn && e.vec == v.vec) v s.q.msix } }

/-- A vector's message is sent, or stays pending while the vector is masked (R393); a number beyond the function's vectors names none, and
sends nothing (DESIGN CHOICE, assumption 88). -/
def State.sendMsix (s : State) (port fn v : Nat) : State :=
  let e := s.msixVec port fn v
  if v ≥ msixCount fn then s
  else if e.masked then s.setMsix { e with pending := true }
  else s.emit (.msix port fn v e.addr e.data)

/-- A vector's Mask bit is written: a pending message of a vector that is no longer masked is sent (R393). -/
def State.maskMsix (s : State) (e : MsixVec) (on : Bool) : State :=
  if on ∨ !e.pending then s.setMsix { e with masked := on }
  else (s.setMsix { e with masked := false, pending := false }).emit (.msix e.port e.fn e.vec e.addr e.data)

/-- A CQ's message (R394): sent and the count cleared. -/
def State.sendIrq (s : State) (x : Queue) : State :=
  (s.setQueue x.num fun y => { y with irqCount := 0 }).sendMsix x.port x.fn (s.qreg F.QBIND_VECTOR x.num)

/-- The queue behind the doorbell of a number in an agent's numbering (R358, R363); none where the function has not created it (R771). A
course half has the doorbell of its supervisor queue. -/
def State.queueOf (s : State) (a : Agent) (n : Nat) : Option Nat :=
  match a with
  | .vf port p => (s.q.queues.find? fun q => q.port == port && q.fn == p + 1 && q.loc == n).map (·.num)
  | .pf port => (s.q.queues.find? fun q => q.port == port && q.fn == 0 && q.num == n).map (·.num)
  | .half h => if n = 0 then some (65536 + h) else none
  | .quinbel => none

/-- SQ_TAIL of a queue is written (R363, R364). -/
def State.sqBell (s : State) (q tail : Nat) : State :=
  match s.queue q with
  | some x =>
    if x.st != .active then s
    else if tail ≥ s.sqSize q then s.queueError q 1
    else s.setQueue q fun y => { y with sqTail := tail }
  | none => s

/-- CQ_HEAD and ARM of a queue are written (R363, R364, R394): CQ_HEAD consumes completions; ARM asks for a message if some remain. -/
def State.cqBell (s : State) (q head : Nat) (arm : Bool) : State :=
  match s.queue q with
  | some x =>
    if x.st == .disabled || x.st == .resetting then s
    else if head ≥ s.cqSize q ∨ (head + s.cqSize q - x.cqHead) % s.cqSize q > s.unconsumed x then s.queueError q 1
    else
      let s1 := s.setQueue q fun y => { y with cqHead := head }
      if arm && head != x.cqTail && s.qreg F.QCTRL_IRQ_EN q == 1 then s1.sendIrq x else s1
  | none => s

/-- SQ_DOORBELL (R363, R364, R771). -/
def execSqDoorbell (q : Doorbell) (tail : Nat) (s : State) : Host.Outcome State Fault Refusal :=
  match s.queueOf q.agent q.q with
  | some g => .next (s.sqBell g tail)
  | none => .next s

/-- CQ_DOORBELL (R363, R364, R394, R771). -/
def execCqDoorbell (q : Doorbell) (head : Nat) (arm : Bool) (s : State) : Host.Outcome State Fault Refusal :=
  match s.queueOf q.agent q.q with
  | some g => .next (s.cqBell g head arm)
  | none => .next s

/-! ### Acceptance (R365–R370) -/

/-- Room for one more completion (R366). -/
def State.acceptRoom (s : State) (x : Queue) : Bool :=
  decide ((s.cmdsOf x.num).length + s.unconsumed x + 1 < s.cqSize x.num)

/-- The supervisor queue's half, and its epoch check (R361, R667). -/
def State.supervisorOk (s : State) (q e : Nat) : Bool := s.epochOk (q - 65536) (efld e 0x3C 4)

/-- The commands a FENCE waits for (R379). -/
def State.fenceTargets (s : State) (x : Queue) (scope : Nat) : List Nat :=
  (s.q.cmds.filter fun c =>
    if scope = 1 then s.q.queues.any fun y => y.num == c.q && y.port == x.port && y.fn == x.fn else c.q == x.num).map (·.uid)

/-- The status acceptance decides for an entry of queue x by the entry alone; none when it passes (R370, R385, R361). Every entry of a
supervisor queue carries an epoch, FENCE and CANCEL too. An opcode of the hosts on a supervisor queue completes PERM (DESIGN CHOICE,
assumption 87: the chapter says only that no other queue takes supervisor opcodes). -/
def State.acceptStatus (s : State) (x : Queue) (e : Nat) : Option Nat :=
  let sup := x.num ≥ 65536
  if !versionOk x.ver e then some St.version
  else match Op.ofCode (efld e 0 1) with
    | none => some St.version
    | some o =>
      let supOp := 0x60 ≤ o.code && o.code ≤ 0x6F
      if supOp != sup && o != .fence && o != .cancel then some St.perm
      else if sup && !s.supervisorOk x.num e then some St.perm
      else if entryBad o (entryFor (x.ver / 256 * 256 + efld e 2 1) e) then some St.badCmd
      else none

/-- The leaf i of a sequence is full in staging and not sealed (R121). -/
def State.leafReady (s : State) (x : Seq) (i : Nat) : Bool :=
  let T := 2 ^ (4 + x.order)
  !(x.leaves.any fun e => e.1 == i) && !(x.gone.any fun e => decide (e.1 < (i + 1) * T ∧ i * T < e.2)) && x.lens.all (fun n => decide ((i + 1) * T ≤ n)) &&
  (List.range x.lens.length).all fun l => (List.range (T / 16)).all fun k =>
    s.sq.granules.any fun g =>
      g.part == x.part && g.seq == x.id && g.layer == l && g.first == i * T + 16 * k && g.rows.length == 16

/-- Leaf numbers of the ready leaves of a sequence, in position order. -/
def State.readyLeaves (s : State) (x : Seq) : List Nat :=
  let nos := ((s.sq.granules.filter fun g => g.part == x.part && g.seq == x.id && g.layer == 0).map fun g =>
    g.first / 2 ^ (4 + x.order)).eraseDups
  (sortNat nos).filter (s.leafReady x)

/-- The key slots of a partition's sharing groups with the generations in force (R640). -/
def State.pinKeys (s : State) (p : Nat) : List (Nat × Nat) :=
  (s.pdir.slots.filter fun g => g.part == p && g.id != 0).map fun g =>
    (g.key, ((s.sec.keys.find? fun k => k.num == g.key).map (·.gen)).getD 0)

/-- The groups a partition declares, with their key slots. -/
def State.pinGroups (s : State) (p : Nat) : List (Nat × Nat) :=
  (s.pdir.slots.filter fun g => g.part == p && g.id != 0 && (g.st == .declared || g.st == .waiting || g.st == .active)).map fun g =>
    (g.id, g.key)

/-! ### Ingress policing (R458–R460) -/

/-- Size of a command to its policer (R458); none when it is not policed, or its length table has still to be read. -/
def State.policed (s : State) (c : Cmd) : Option Nat :=
  let perPos := match s.geom c.part with
    | some ge => sumBy (fun l => posBytes ge (ge.layer l)) ((appendLayers ge c.layer).getD [])
    | none => 0
  if c.is .append then
    if !c.batch then some (c.f 0x18 4 * perPos + 4 * c.f 0x30 4)
    else if c.tableOwed then none
    else some (sumBy (·.count) (((c.bufAll c.tableAddr).bind lenTable).getD []) * perPos + 4 * c.f 0x30 4)
  else if c.is .truncate then some (4 * c.f 0x28 4)
  else if c.is .nmFill || c.is .nmCopy || c.is .nmReduce then some (c.f 0x28 8)
  else none

/-- A bucket filled continuously at a rate (10^6 bytes/s) up to a size (bytes). -/
def Bucket.filled (b : Bucket) (rate size now : Nat) : Bucket :=
  { tokens := min ((size * 1000 : Nat) : Int) (b.tokens + ((rate * (now - b.last) : Nat) : Int)), last := now }

/-- Rates and burst sizes of a group's policer: CIR, PIR (10^6 bytes/s), CBS, PBS (bytes). -/
def State.plcRates (s : State) (p g : Nat) : Nat × Nat × Nat × Nat :=
  let cir := s.gps F.PLC_CIR p g
  (cir, max cir (s.gps F.PLC_PIR p g), s.gps F.PLC_BURST_CBS_KIB p g * 1024, s.gps F.PLC_BURST_PBS_KIB p g * 1024)

/-- A policer's buckets filled up to now under the rates in force (R459). -/
def State.fillPolicer (s : State) (y : Policer) : Policer :=
  let r := s.plcRates y.part y.qg
  { y with committed := y.committed.filled r.1 r.2.2.1 s.now, peak := y.peak.filled r.2.1 r.2.2.2 s.now }

/-- The command is coloured by its group's policer: a red one completes RATE_DROP at once. -/
def State.police (s : State) (c : Nat) : State :=
  match s.cmd c with
  | none => s
  | some x =>
    if x.part ≥ 64 ∨ x.colour ≠ 0 ∨ !x.live ∨ s.gps F.PLC_CTRL_ENABLE x.part x.qg = 0 then s
    else match s.policed x with
      | none => s
      | some n =>
        let p := x.part
        let r := s.plcRates p x.qg
        let same := fun (y : Policer) => y.part == p && y.qg == x.qg
        let full := fun (z : Nat) => ({ tokens := ((z * 1000 : Nat) : Int), last := s.now } : Bucket)
        let old := (s.dlv.policers.find? same).getD { part := p, qg := x.qg, committed := full r.2.2.1, peak := full r.2.2.2 }
        let cb := (s.fillPolicer old).committed
        let pb := (s.fillPolicer old).peak
        let b := ((n * 1000 : Nat) : Int)
        let yellowIn := s.gps F.PLC_CTRL_AWARE p x.qg == 1 && decide (x.prio < s.gps F.PLC_CTRL_YELLOW_BELOW p x.qg)
        let colour := if pb.tokens < b then 3 else if yellowIn || decide (cb.tokens < b) then 2 else 1
        let cb1 := if colour = 1 then { cb with tokens := cb.tokens - b } else cb
        let pb1 := if colour = 3 then pb else { pb with tokens := pb.tokens - b }
        let s1 : State := { s with dlv := { s.dlv with
          policers := put same { old with committed := cb1, peak := pb1 } s.dlv.policers } }
        let s2 := s1.setCmd c fun y => { y with colour := colour }
        match colour with
        | 1 => s2.bumpPS F.PLC_GREEN p x.qg
        | 2 => s2.bumpPS F.PLC_YELLOW p x.qg
        | _ => ((s2.bumpPS F.PLC_RED p x.qg).raise Ev.RATE_RED p).fail c St.rateDrop

/-- The settings of a delivery queue, as a command accepted now takes them (R449, R453, R454, R462). -/
def State.dqCfg (s : State) (p dq : Nat) : DqCfg :=
  { qg := s.gps F.DQ_CFG_QGROUP p dq, cls := s.gps F.DQ_CFG_GATE_CLASS p dq, quantum := s.gps F.DQ_QUANTUM p dq
    fixed := s.gps F.DQ_OVH_FIXED p dq, perUnit := s.gps F.DQ_OVH_PER_UNIT p dq, unitLog2 := s.gps F.DQ_OVH_UNIT_LOG2 p dq }

/-- The groups of a partition that are active (R145). -/
def State.activeGroups (s : State) (p : Nat) : List Nat :=
  (s.pdir.slots.filter fun g => g.part == p && g.id != 0 && g.st == .active).map (·.id)

/-- One entry enters: it becomes a command that waits to start, or completes at once with the status of its failed check. The checks that
need more than the entry follow in `State.letIn`. -/
def State.acceptEntry (s : State) (x : Queue) (raw : Nat) : State :=
  let q := x.num
  let p := s.queuePart q
  let ver := x.ver / 256 * 256 + efld raw 2 1
  let e := entryFor ver (raw % 2 ^ 512)
  let st := s.acceptStatus x raw
  let isFence := efld e 0 1 == Op.fence.code
  let c : Cmd :=
    { uid := s.q.nextUid, q := q, part := p, qg := if q ≥ 65536 then 0 else s.qreg F.QBIND_QGROUP q, ver := ver, entry := e,
      acceptT := s.now, st := if st.isSome then .done else .waiting, status := st.getD 0, keys := s.pinKeys p, groups := s.pinGroups p,
      active := s.activeGroups p,
      dqCfg := if efld e 0 1 == Op.deliver.code || efld e 0 1 == Op.fetch.code then s.dqCfg p (efld e 0x20 2) else {} }
  let w := if isFence && st.isNone then s.fenceTargets x (efld e 0x18 1)
    else if efld e 0 1 == Op.seqClose.code then
      (s.q.cmds.filter fun d => d.part == p && d.names.contains (efld e 8 6)).map (·.uid)
    else []
  -- R388: of the leaves ready at acceptance, those that are committed but not past the point of R125 count already
  let past := if efld e 0 1 == Op.seal.code && (match s.seq p (efld e 8 6) with | some y => y.auto | none => false) then
      (s.sq.seals.filter fun j => j.part == p && j.seq == efld e 8 6 && !j.released && decide (j.step = 6 ∨ j.step = 7)).map (·.leafNo)
    else []
  let lv := if efld e 0 1 == Op.seal.code then
      match s.seq p (efld e 8 6) with | some y => if y.auto then past ++ s.readyLeaves y else [] | none => []
    else []
  let s1 := { s with q := { s.q with
    cmds := s.q.cmds ++ [{ c with waitFor := w, count := w.length + past.length, leaves := lv }], nextUid := c.uid + 1 } }
  let s2 := s1.setQueue q fun y => { y with sqHead := (y.sqHead + 1) % s.sqSize q, paused := false }
  let s3 := if q < 65536 then s2.bumpU F.FE_ACCEPTED (s.qreg F.QCTRL_FE q) else s2
  let s4 := if st.isSome ∧ p < 64 then s3.bumpP F.ENTRY_ERRORS p else s3
  -- the stale epoch of a supervisor entry is reported (R361, R667)
  let stale := q ≥ 65536 && versionOk x.ver raw && !s.supervisorOk q e
  if stale then
    ((s4.bumpU F.STALE_REJECTS (q - 65536)).raise Ev.STALE_EPOCH).setHalf (q - 65536) fun h => { h with stale := h.st == .lead }
  else s4

/-- Poison is received on the port of a queue (R495). -/
def State.poisonIn (s : State) (q : Nat) : State :=
  match s.queue q with
  | some x => if x.port < 8 then (s.bumpU F.POISON_RX x.port).raiseU Ev.POISON x.port else s
  | none => s

/-! #### The order of acceptance (R412) -/

/-- The first of some numbers after x in round order. -/
def nextAfter (x : Nat) (xs : List Nat) : Option Nat := ((xs.filter fun y => x < y).min?).or xs.min?

/-- Queues of front end f that have an entry it may accept. -/
def State.frontPending (s : State) (f : Nat) : List Queue :=
  s.q.queues.filter fun x => decide (x.num < 65536) && x.st == .active && x.sqHead != x.sqTail && s.qreg F.QCTRL_FE x.num == f &&
    !s.paused 0x0E (f + 1) && s.acceptRoom x

/-- Queue groups of a partition a front end may take: those with a share, and the best-effort ones where no other has an entry pending. -/
def State.frontGroups (s : State) (f p : Nat) : List Nat :=
  let gs := (((s.frontPending f).filter fun x => s.queuePart x.num == p).map fun x => s.qreg F.QBIND_QGROUP x.num).eraseDups
  let shared := gs.filter fun g => s.shareOf p g != 0
  if shared.isEmpty then gs else shared

/-- The visit a front end is in, or the next one: partition by partition in turn, within a partition group by group, each for a quantum of
one entry per 1,024 units of its share and at least one. That one turn of a partition serves one group is DEDUCED (assumption 79). -/
def State.frontVisit (s : State) (f : Nat) : FrontEnd :=
  let x := s.q.fronts.getD f {}
  if x.left ≠ 0 ∧ (s.frontGroups f x.part).contains x.group then x
  else
    match nextAfter x.part (((s.frontPending f).map fun y => s.queuePart y.num).eraseDups) with
    | none => x
    | some p =>
      match nextAfter (alGetD p 65536 x.groups) (s.frontGroups f p) with
      | none => x
      | some g => { x with part := p, group := g, left := max 1 (s.shareOf p g / 1024), groups := alSet p g x.groups }

/-- Queue of the visited group the front end takes from: the highest PRIO_CLASS among the entries at the heads it has read, given as (queue,
class), ties by round robin. -/
def State.frontQueue (s : State) (f : Nat) (v : FrontEnd) (heads : List (Nat × Nat)) : Option Nat :=
  let qs := ((s.frontPending f).map (·.num)).filter fun n => s.queuePart n == v.part && s.qreg F.QBIND_QGROUP n == v.group
  let hs := heads.filter fun h => qs.contains h.1
  let top := (hs.map (·.2)).foldl max 0
  nextAfter (alGetD (v.part, v.group) 65536 v.queues) ((hs.filter fun h => h.2 == top).map (·.1))

/-- It is the turn of a queue's head entry (R412), beside the other heads its front end has read; a supervisor queue waits for no turn. -/
def State.myTurn (s : State) (q entry : Nat) (heads : List (Nat × Nat)) : Bool :=
  let f := s.qreg F.QCTRL_FE q
  decide (65536 ≤ q) || s.frontQueue f (s.frontVisit f) (put (fun h => h.1 == q) (q, efld entry 3 1 % 16) heads) == some q

/-- An entry of a queue is accepted in its turn: the visit has one entry less to take. -/
def State.tookTurn (s : State) (q : Nat) : State :=
  if q ≥ 65536 then s
  else
    let f := s.qreg F.QCTRL_FE q
    let v := s.frontVisit f
    { s with q := { s.q with
      fronts := nthUpd f (fun _ => { v with left := v.left - 1, queues := alSet (v.part, v.group) q v.queues }) s.q.fronts } }

/-- ACCEPT_RESUME (R366). -/
def execAcceptResume (q : Nat) (s : State) : Host.Outcome State Fault Refusal :=
  match s.queue q with
  | some x => if x.paused && s.acceptRoom x then .next (s.setQueue q fun y => { y with paused := false }) else .next s
  | none => .next s

/-! ### Start (R377–R379) -/

/-- No earlier command of the queue stands in the way of c (R377, R378, R379), its partition is not switching (R406), its block is not
quiesced (R763). -/
def State.mayBegin (s : State) (c : Cmd) : Bool :=
  let earlier := s.q.cmds.filter fun d => d.q == c.q && d.uid < c.uid
  let switching := c.part < 64 && s.pst c.part == .switching && !(c.is .fence || c.is .cancel)
  c.st == .waiting && !switching && !c.owed && !s.paused c.block 0 &&
  (!c.fFence || earlier.isEmpty) &&
  !(earlier.any fun d => d.is .fence) &&
  earlier.all fun d => !(c.names.any fun n => d.changes.contains n) && (c.names.isEmpty || !(d.is .append && d.tableOwed))

/-- Command c may start. Commands a geometry switch held start in acceptance order (R406). -/
def State.mayStart (s : State) (c : Cmd) : Bool :=
  s.mayBegin c && (!c.held || !(s.q.cmds.any fun d => d.held && d.part == c.part && d.uid < c.uid && s.mayBegin d))

/-- Sequences an APPEND or TRUNCATE names whose unexpired lease its queue holds (R118). -/
def State.heldNames (s : State) (c : Cmd) : List Nat :=
  if c.is .append || c.is .truncate then
    c.names.filter fun i => match s.seq c.part i with | some y => y.holder == some c.q && s.leaseHeld y | none => false
  else []

/-- COMMAND_START (R377, R378). -/
def execCommandStart (c : Nat) (s : State) : Host.Outcome State Fault Refusal :=
  match s.cmd c with
  | some x =>
    if s.mayStart x then .next ((s.setCmd c fun y => { y with st := .started, keeps := s.heldNames x }).settle) else .next s
  | none => .next s

/-- FENCE (R379): completes once every command it waits for has completed. -/
def execFence (c : Nat) (s : State) : Host.Outcome State Fault Refusal :=
  match s.cmd c with
  | some x => if x.is .fence && x.st == .started then .next s.settle else .next s
  | none => .next s

/-- Targets of a CANCEL (R381): commands accepted before it on the named queue of its function, not past their commit point. -/
def State.cancelTargets (s : State) (x : Cmd) : List Cmd :=
  let qn := x.f 0x1C 2
  let target := if qn = 0xFFFF then some x.q
    else match s.queue x.q with
      | some y => (s.q.queues.find? fun z => z.port == y.port && z.fn == y.fn && z.loc == qn).map (·.num)
      | none => none
  s.q.cmds.filter fun d =>
    some d.q == target && d.uid < x.uid && d.live && !d.is .cancel && (bit (x.f 0x1E 1) 0 || d.tag == x.f 0x18 4)

/-! ### Completion (R371–R374, R380, R392–R395) -/

/-- The status a 2.x queue reports (R392). -/
def statusFor (ver st : Nat) : Nat :=
  if ver < 0x300 then (if st = St.keyWithdrawn then St.perm else if st = St.extentRevoked then St.poison else st) else st

/-- The 32 bytes of a completion entry (R371). -/
def Cmd.cqe (c : Cmd) (phase : Bool) (load : Nat) : Bytes :=
  let old := c.ver < 0x300
  leBytes 4 c.tag ++ leBytes 1 (statusFor c.ver c.status) ++ leBytes 1 (if phase then 1 else 0) ++
  leBytes 1 (if old then 0 else load) ++ leBytes 1 0 ++ leBytes 8 c.r0 ++ leBytes 8 c.r1 ++
  leBytes 4 (if old then 0 else min c.ns (2 ^ 32 - 1)) ++
  leBytes 4 (if old then 0 else min (ceilDiv c.bytes 1024) (2 ^ 32 - 1))

/-- The command has completed: those that wait for it are told, a CANCEL counts the targets that completed CANCELLED. -/
def State.retire (s : State) (c : Cmd) : State :=
  let s1 := s.dropWork c.uid
  let told := fun (x : Cmd) =>
    if x.waitFor.contains c.uid then
      { x with
        waitFor := x.waitFor.filter (· != c.uid)
        count := if x.is .cancel && c.status == St.cancelled then x.count + 1 else x.count }
    else x
  let left := (del (fun x => x.uid == c.uid) s1.q.cmds).map told
  { s1 with q := { s1.q with cmds := left } }.settle

/-- v of n, scaled so that 255 means saturated (R373). -/
def loadOf (v n : Nat) : Nat := if n = 0 then 0 else min 255 (255 * v / n)

/-- LOAD (R373): the larger of the partition's cores holding a run over the last 64 µs, and of its stack bytes against its share: its allotments of
the last share window, or before one has ended the rate of the stacks where it has T1 quota (DESIGN CHOICE, assumption 19). -/
def State.loadNow (s : State) (p : Nat) : Nat :=
  let me := s.partition p
  let from_ := s.now - 64000
  let held := sumBy (fun (e : Nat × Nat) => e.2 - max e.1 from_) (s.recent me.heldT) +
    sumBy (fun (r : Run) => if r.part = p ∧ r.stage = 2 then s.now - max r.startT from_ else 0) s.part.runs
  let share := me.allot.sum * 64 / max 1 (s.g F.SHARE_WINDOW)
  let whole := 76800000 * (me.t1.filter (· != 0)).length
  max (loadOf held (64000 * (s.coresOf p).length)) (loadOf (sumBy (·.1) (s.recent me.hbmT)) (if share = 0 then whole else share))

/-- The completion entry is written at the CQ tail; PHASE inverts at each wrap (R372). It counts for the queue's message while IRQ_EN is set
(R394). -/
def State.writeCqe (s : State) (x : Queue) (c : Cmd) : State :=
  let n := s.cqSize x.num
  let d := c.cqe x.phase (s.loadNow c.part)
  let s1 := match x.cqInline with
    | some (o, _) => { s with q := { s.q with ring := Memory.writeAll (o + 32 * x.cqTail) d s.q.ring } }
    | none => s.emit (.hostWrite x.port x.fn (s.qreg F.CQ_BASE x.num + 32 * x.cqTail) d)
  let t := (x.cqTail + 1) % n
  let on := decide (s.qreg F.QCTRL_IRQ_EN x.num = 1)
  s1.setQueue x.num fun y =>
    { y with
      cqTail := t, phase := if t = 0 then !y.phase else y.phase, irqCount := if on then y.irqCount + 1 else y.irqCount,
      irqFirst := if on ∧ y.irqCount = 0 then s.now else y.irqFirst }

/-- The queue's message, where R394 asks for one after this completion. -/
def State.irqAfter (s : State) (q : Nat) (notify : Bool) : State :=
  match s.queue q with
  | some x =>
    if s.qreg F.QCTRL_IRQ_EN q = 1 ∧ (notify = true ∨ x.irqCount ≥ max 1 (s.qreg F.IRQ_AGG_COUNT q)) then s.sendIrq x else s
  | none => s

/-- IRQ_AGG_TIMEOUT (R394). -/
def execIrqAggTimeout (q : Nat) (s : State) : Host.Outcome State Fault Refusal :=
  match s.queue q with
  | some x =>
    let us := s.qreg F.IRQ_AGG_US q
    if x.irqCount = 0 ∨ us = 0 ∨ s.qreg F.QCTRL_IRQ_EN q = 0 then .next s
    else .next ((s.reach (x.irqFirst + us * 1000)).sendIrq x)
  | none => .next s

end Sys2Proof.Machine
end

