-- ==== Sys2Proof/Machine/Content.lean ====
section
/-! DEFINITION. The content of the device: leaves, pages, copies and their room (R198–R205), reference counts (R159), the freeing
of leaves (R105, R133, R163), handles (R103), groups (R145), shards (R165, R166), Malroth sending (R507, R510). -/

namespace Sys2Proof.Machine

/-! ### Objects -/

def State.leaves (s : State) : List Leaf := s.sq.leaves.filter fun l => !l.freed

/-- The leaf a leaf handle names. -/
def State.leaf (s : State) (h : Nat) : Option Leaf := s.leaves.find? fun l => l.handle == h

/-- The leaf that holds page `serial` of partition p. -/
def State.leafAt (s : State) (p serial : Nat) : Option Leaf :=
  s.leaves.find? fun l => l.part == p && l.serial ≤ serial && serial < l.serial + l.layers

def State.page (s : State) (p serial : Nat) : Option Page := s.sq.pages.find? fun x => x.part == p && x.serial == serial

def State.setLeaf (s : State) (h : Nat) (f : Leaf → Leaf) : State :=
  { s with sq := { s.sq with leaves := upd (fun l => l.handle == h && !l.freed) f s.sq.leaves } }

def State.setPage (s : State) (p serial : Nat) (f : Page → Page) : State :=
  { s with sq := { s.sq with pages := upd (fun x => x.part == p && x.serial == serial) f s.sq.pages } }

/-- Pages of a leaf, in layer order. -/
def State.leafPages (s : State) (l : Leaf) : List Page := (List.range l.layers).filterMap fun i => s.page l.part (l.serial + i)

def State.copiesOf (s : State) (p serial : Nat) : List Copy :=
  s.tier.copies.filter fun c => c.part == p && c.serial == serial && !c.leaving

def State.copyAt (s : State) (p serial t d : Nat) : Option Copy :=
  (s.copiesOf p serial).find? fun c => c.tier == t && c.die == d

def State.setCopy (s : State) (p serial t d : Nat) (f : Copy → Copy) : State :=
  let l := upd (fun c => c.part == p && c.serial == serial && c.tier == t && c.die == d && !c.leaving) f s.tier.copies
  { s with tier := { s.tier with copies := l } }

/-- Some copy of the page can be read (R103, R338). -/
def State.readable (s : State) (p serial : Nat) : Bool := (s.copiesOf p serial).any (·.good)

/-- Some copy of the page can be read, one that has left its tier and is held by a read reference included (R34, R105). -/
def State.anyCopy (s : State) (p serial : Nat) : Bool := s.tier.copies.any fun c => c.part == p && c.serial == serial && c.good

/-- A class P page whose T3 copy was lost is being restored from its replica, and work on it waits (R577). -/
def State.restoring (s : State) (p serial : Nat) : Bool :=
  (match s.page p serial with | some x => x.cls == 2 | none => false) &&
  (match s.leafAt p serial with | some l => l.replica != 0 | none => false) &&
  (s.copiesOf p serial).any fun c => c.tier == 3 && !c.good

/-! ### Groups (R139, R145) -/

def GrpSlot.declared (g : GrpSlot) : Bool := g.st == .declared || g.st == .waiting || g.st == .active

/-- The slot of a partition that declares a group, or one that has named it. -/
def State.groupSlot (s : State) (p id : Nat) : Option GrpSlot :=
  let mine := s.pdir.slots.filter fun g => g.part == p && g.id == id && g.id != 0
  match mine.find? (·.declared) with
  | some g => some g
  | none => mine.head?

/-- The group key in a key slot of partition p's own range (R140, R635). -/
def State.groupKey (s : State) (p n : Nat) : Option KeySlot :=
  let d := (s.partition p).desc
  if d.keyFirst ≤ n ∧ n < d.keyFirst + d.keyCount then s.sec.keys.find? fun k => k.num == n && k.st == .set && k.typ == 1 else none

/-- The key slot a command hashes a group's namespace with: the one it pinned at its acceptance, or the declared slot's. -/
def State.keyNo (s : State) (c : Cmd) (ns : Nat) : Option Nat :=
  if ns = 0 then none
  else match alGet ns c.groups with
    | some n => some n
    | none => (s.groupSlot c.part ns).map (·.key)

def State.groupActive (s : State) (p id : Nat) : Bool :=
  match s.groupSlot p id with
  | some g => g.st == .active
  | none => false

/-- The key of a namespace of partition p: its private key, or the group key of its slot (R140). -/
def State.nsKey (s : State) (p ns : Nat) : Option Bytes :=
  if ns = 0 then if (s.partition p).shut then none else some (s.partition p).nsKey
  else match s.groupSlot p ns with
    | some g => (s.groupKey p g.key).map (·.key)
    | none => none

/-- Generation of the key of a namespace that a command pinned at its acceptance (R640), 0 for the private namespace. -/
def State.cmdGen (s : State) (c : Cmd) (ns : Nat) : Nat :=
  match s.keyNo c ns with
  | some n => alGetD n 0 c.keys
  | none => 0

/-- The key of a namespace under the generation the command pinned; none when it has been erased. -/
def State.cmdKey (s : State) (c : Cmd) (ns : Nat) : Option Bytes :=
  if ns = 0 then if (s.partition c.part).shut then none else some (s.partition c.part).nsKey
  else match s.keyNo c ns with
    | some num =>
      let n := alGetD num 0 c.keys
      (s.sec.keys.find? fun k => k.num == num).bind fun k =>
        if k.st == .set && k.typ == 1 && k.gen == n then some k.key else alGet n k.old
    | none => none

/-- The slot's key is gone, so a command that needs it completes KEY_WITHDRAWN (R641); for a private key that cannot be unwrapped (R627) the
status is the model's (DESIGN CHOICE, assumption 81). -/
def State.keyGone (s : State) (c : Cmd) (ns : Nat) : Bool :=
  (ns == 0 || (s.keyNo c ns).isSome) && (s.cmdKey c ns).isNone

/-! ### Handles (R103) -/

/-- Two partitions share an active sharing group. -/
def State.share (s : State) (p q : Nat) : Bool := (s.activeGroups p).any fun g => s.groupActive q g

/-- The status of the first failing check for a handle named by partition p where order o is expected; none when it resolves. A handle of a
leaf that was freed is no other partition's secret to the partitions of its groups: it resolves to MISS (R163, R177). -/
def State.resolve (s : State) (p h o : Nat) : Option Nat :=
  let q := hPart h
  let lf := s.leafAt q (hSerial h)
  let allowed := q == p || (match lf.bind fun l => if l.gen = hGen h then some l else none with
    | some l => l.ns != 0 && l.published && s.groupActive p l.ns && s.groupActive q l.ns
    | none => s.share p q)
  if !allowed then some St.perm
  else if hOrder h != o then some St.badCmd
  else match lf with
    | none => some St.miss
    | some l =>
      if l.gen != hGen h || l.order != hOrder h then some St.miss
      else if !s.readable q (hSerial h) && !s.restoring q (hSerial h) then some St.lostData
      else none

/-! ### Reference counts (R159–R161) -/

/-- REFS of a leaf: one for each sequence whose view holds it, one for each training view (R295), one for each capo, one while it is
published. -/
def State.refs (s : State) (l : Leaf) : Nat :=
  let h := l.handle
  (s.sq.seqs.filter fun x => x.leaves.any fun e => e.2 == h).length +
  (s.sq.forks.filter fun f => f.child.leaves.any fun e => e.2 == h).length +
  (s.att.views.filter fun v => v.leaves.any fun e => e.2 == h).length +
  (s.pdir.capos.filter fun k => k.cmd == 0 && k.leaves.contains h).length + (if l.published then 1 else 0)

/-- A retained leaf: the directory reference is the only one (R160). -/
def State.retained (s : State) (l : Leaf) : Bool := l.published && s.refs l == 1

/-! ### Shards (R165–R168) -/

/-- Shard of a leaf chain value (R165). -/
def shardOf (chain : Bytes) : Nat := rd chain 0 4 % 2 ^ 18

/-- Point j of a device on the ring (R166). -/
def ringPoint (serial j : Nat) : Nat :=
  leNat (Blake.hash 4 [] ([0x4C, 0x53, 0x52, 0x50] ++ leBytes 8 serial ++ leBytes 2 j ++ [0, 0]))

/-- Every point of the members: position and serial. -/
def ringPoints (members : List Nat) : List (Nat × Nat) :=
  members.flatMap fun m => (List.range 64).map fun j => (ringPoint m j, m)

/-- Owner of a shard among the members (R166): the first point at or after shard × 16,384, wrapping; equal points by the lower
serial. -/
def ownerIn (members : List Nat) (shard : Nat) : Option Nat :=
  let at_ := shard * 16384
  (argMin (fun (e : Nat × Nat) => (((e.1 + 2 ^ 32 - at_) % 2 ^ 32 * 2 ^ 64 + e.2 : Nat) : Int)) (ringPoints members)).map (·.2)

def State.shardOwner (s : State) (shard : Nat) : Option Nat := ownerIn s.pdir.ring shard

/-- The entry key of a leaf (R151): namespace, order, chain value. -/
def entryKey (ns order : Nat) (chain : Bytes) : Bytes := leBytes 4 ns ++ leBytes 1 order ++ chain.take 16

/-- Whether the REFS of a leaf is known (R26, R33): a directory engine serves its record, the survivor's while the other bridge die is lost
or fenced. Without a chain value the record has shard 0. -/
def State.refsKnown (s : State) (l : Leaf) : Bool :=
  let b := shardOf (l.chain.getD []) % 2
  s.bridgeUp b || s.bridgeUp (1 - b)

/-- The reference state of a page is known, so that it may be moved or evicted (R33, R211). -/
def State.pageKnown (s : State) (p serial : Nat) : Bool := match s.leafAt p serial with | some l => s.refsKnown l | none => true

/-- The copy a move reads. -/
def Move.reads (m : Move) : Nat × Nat := m.again.getD (m.srcTier, m.srcDie)

/-! ### Malroth sending -/

/-- The device's port for a new Malroth message: an UP Ethernet port, which one is the device's choice. -/
def State.malPort (s : State) : State × Option Nat :=
  let ups := (List.range 8).filter fun i => (s.port (8 + i)).st == .up
  if ups.isEmpty then (s, none)
  else
    let c := s.choose
    (c.2, ups[c.1 % ups.length]?)

/-- The Malroth range this device offers (R511): MAL_VER, with MIN at least 3.0 while LN520_EN is clear. -/
def State.malRange (s : State) : Nat × Nat :=
  (if s.g F.NET_CTRL_LN520_EN = 0 then max 0x300 (s.g F.MAL_VER_MIN) else s.g F.MAL_VER_MIN, s.g F.MAL_VER_MAX)

/-- The domain map lists the device (R143, R714). -/
def State.listed (s : State) (n : Nat) : Bool := match s.boot.map with | some m => m.entries.any fun e => e.serial == n | none => false

/-- The device's own entry of its domain map. -/
def State.ownEntry (s : State) : Option MapEnt := s.boot.map.bind fun m => m.entries.find? fun e => e.serial == s.dev.serial

/-- The HELLO body of this device (R714). -/
def State.helloBody (s : State) : Bytes :=
  let r := s.malRange
  let fl := (if s.g F.NET_CTRL_LEADER_ELIGIBLE = 1 then 1 else 0) + (if s.net.leader = s.dev.serial then 2 else 0) +
    (if s.net.coordinator = s.dev.serial then 4 else 0) + (if s.pdir.ring.contains s.dev.serial then 8 else 0) +
    (if s.hw.retireReq then 16 else 0)
  leBytes 4 (r.1 + r.2 * 2 ^ 16) ++ leBytes 1 1 ++ leBytes 1 s.dev.ordering ++ leBytes 2 (s.g F.FAIL_GROUP) ++
  leBytes 4 (s.g F.DOMAIN_ID) ++ leBytes 2 ((s.ownEntry.map (·.group)).getD 0) ++ leBytes 1 fl ++ leBytes 1 0 ++
  leBytes 4 (s.g F.BOOT_EPOCH) ++ leBytes 4 s.pdir.ringEpoch ++ leBytes 8 s.net.leader ++
  slice (((s.boot.map.map (·.digest)).getD []) ++ List.replicate 16 0) 0 16

/-- A Malroth message of this device (R507): its discipline state goes with it (R79). LOAD is the device's own measure. -/
def State.malMsg (s : State) (typ dst msgId ver : Nat) (body : Bytes) : MalMsg :=
  { typ := typ, src := s.dev.serial, dst := dst, msgId := msgId, ringEpoch := if ver < 0x300 then 0 else s.pdir.ringEpoch
    timeState := s.g F.TIME_STATE_STATE - 1, load := s.choose.1 % 256, sentNs := s.now % 2 ^ 32, ver := ver, body := body }

/-- A message as it goes out now: TIME_STATE and SENT_NS are those of its sending (R79, R507). -/
def State.stamped (s : State) (m : MalMsg) : MalMsg := { m with timeState := s.g F.TIME_STATE_STATE - 1, sentNs := s.now % 2 ^ 32 }

/-- The open Malroth connection to a peer. -/
def State.malConn (s : State) (peer : Nat) : Option Conn :=
  s.net.conns.find? fun c => c.malroth && c.peer == peer && (c.st == .open_ || c.st == .held)

/-- A connection number not in use (R506). -/
def State.freeConn (s : State) : Nat :=
  s.net.conns.foldl (fun (n : Nat) _ => if s.net.conns.any fun c => c.num == n then n + 1 else n) 0

/-- A connection to a peer is being opened: HELLO goes first (R506, R508). -/
def State.malOpen (s : State) (dst : Nat) : State :=
  if s.net.conns.any fun c => c.malroth && c.peer == dst then s
  else if s.g F.NET_CTRL_MALROTH_EN = 0 then s
  else match s.malPort with
    | (s1, some p) =>
      let id := s1.net.nextMsg
      let m := s1.malMsg 0x0001 dst id s1.malRange.2 s1.helloBody
      let c : Conn := { num := s1.freeConn, malroth := true, peer := dst, port := 8 + p, st := .opening, lastT := s.now }
      let w : MalWait := { msg := m, sentT := s.now, tries := 1, ctx := 0 }
      { s1 with net := { s1.net with conns := s1.net.conns ++ [c], nextMsg := (id + 1) % 2 ^ 32, waits := s1.net.waits ++ [w] }
                free := s1.free + 1, out := .malroth m :: s1.out }
    | (s1, none) => s1

/-- A request made for a number and a connection's version is sent, or waits for its connection, which the device opens (R506). `ctx`
says what the answer is for. -/
def State.malPost (s : State) (dst ctx why : Nat) (again : Bool) (mk : Nat → Nat → MalMsg) : State :=
  let id := s.net.nextMsg
  match s.malConn dst with
  | some c =>
    let m := mk id (if c.ver = 0 then 0x301 else c.ver)
    let w : MalWait := { msg := m, sentT := s.now, tries := 1, ctx := ctx, why := why, again := again }
    let cs := upd (fun x => x.num == c.num) (fun x => { x with lastT := s.now, unacked := x.unacked ++ [id] }) s.net.conns
    let s1 := { s with net := { s.net with nextMsg := (id + 1) % 2 ^ 32, waits := s.net.waits ++ [w], conns := cs }
                       free := s.free + 1 }
    if c.st == .held || s.g F.NET_CTRL_MALROTH_EN = 0 then s1 else s1.emit (.malroth m)
  | none =>
    let m := mk id 0x301
    let w : MalWait := { msg := m, sentT := s.now, tries := 0, ctx := ctx, sent := false, why := why, again := again }
    { s with net := { s.net with nextMsg := (id + 1) % 2 ^ 32, waits := s.net.waits ++ [w] }, free := s.free + 1 }.malOpen dst

/-- A request of the device's own. -/
def State.malSend (s : State) (typ dst : Nat) (body : Bytes) (ctx : Nat) (why : Nat := 0) (last : Bool := true) : State :=
  s.malPost dst ctx why false fun id ver => { s.malMsg typ dst id ver body with last := last }

/-- The one retry after a redirect, under the newer epoch `e` (R170). -/
def State.malAgain (s : State) (typ dst : Nat) (body : Bytes) (ctx e : Nat) : State :=
  s.malPost dst ctx 0 true fun id ver => { s.malMsg typ dst id ver body with ringEpoch := max e s.pdir.ringEpoch }

/-- A query a device passes on for another (R4, R169, R534) is a query of its own, for an LN520 a 2.x query, which snapshots answer
(R192). -/
def State.malForward (s : State) (m : MalMsg) (dst : Nat) (body : Bytes) : State :=
  s.malPost dst 0 0 false fun id ver => s.malMsg m.typ dst id (if m.ver < 0x300 then m.ver else ver) body

/-- A key body (R512). -/
def keyBody (ns order cls : Nat) (chain geom : Bytes) (handle holder : Nat) : Bytes :=
  leBytes 4 ns ++ leBytes 1 order ++ leBytes 1 cls ++ leBytes 2 0 ++ slice (chain ++ List.replicate 16 0) 0 16 ++
  slice (geom ++ List.replicate 16 0) 0 16 ++ leBytes 8 handle ++ leBytes 8 holder

/-- The digest of the geometry a partition holds. -/
def State.geomDigest (s : State) (p : Nat) : Bytes := ((s.geom p).map (·.digest)).getD []

def Leaf.body (l : Leaf) (geom : Bytes) : Bytes := keyBody l.ns l.order l.cls (l.chain.getD []) geom l.handle 0

/-! ### Pages in use -/

/-- A read reference holds the page (R34): an attention or training command, a delivery, a move reading it, a host-cached line
of it not yet back-invalidated (R105). -/
def State.pageBusy (s : State) (p serial : Nat) : Bool :=
  (s.att.attns.any fun a => a.pages.contains (p, serial)) ||
  (s.dlv.delivs.any fun d => d.pages.contains (p, serial)) ||
  (s.tier.moves.any fun m => m.part == p && m.serial == serial) ||
  (s.cxl.leases.any fun l => l.slots.any fun w =>
    hPart w.handle == p && hSerial w.handle == serial && s.cxl.sf.any fun f => f.lease == l.num && f.slot == w.slot)

/-- A slot maps the page. -/
def WinSlot.maps (w : WinSlot) (p serial : Nat) : Bool := hPart w.handle == p && hSerial w.handle == serial

/-- A read reference holds the copy (R34): a run streams it, a delivery or a host-cached line reads it, a move reads it. A run's reference
stands from its start to its end, that of a line until its BIRsp, in a slot that was vacated too (R105). -/
def State.copyRead (s : State) (c : Copy) : Bool :=
  (s.part.runs.any fun r => r.stage == 2 && r.src == some (c.part, c.serial, c.tier, c.die)) ||
  (s.tier.moves.any fun m => m.part == c.part && m.serial == c.serial && m.reads == (c.tier, c.die)) ||
  (c.tier ≤ 1 && ((s.dlv.delivs.any fun d => d.pages.contains (c.part, c.serial)) ||
    s.cxl.leases.any fun l => (l.binv.any fun w => w.maps c.part c.serial) || l.slots.any fun w =>
      w.maps c.part c.serial && s.cxl.sf.any fun f => f.lease == l.num && f.slot == w.slot))

/-- Staging granules: those of sequences, and those of class P forks that wait for their replicas. -/
def State.staged (s : State) : List Granule := s.sq.granules ++ s.sq.forks.flatMap (·.grans)

/-- A granule is read by a command or a seal (R123). -/
def State.granBusy (s : State) (g : Granule) : Bool :=
  (s.att.attns.any fun a => a.part == g.part && a.layer == g.layer && a.grans.any fun h => h.seq == g.seq && h.first == g.first) ||
  (s.sq.seals.any fun j => j.part == g.part && j.seq == g.seq && !j.released && j.first ≤ g.first && j.first + j.count > g.first)

/-! ### Room (R199–R202, R219, R226) -/

/-- T1 bytes of a partition on a stack beside copies (R201): staging granules, fret summaries, those of leaves being sealed, view
statistics, gradient sets and work areas (R297, R311, R316). -/
def State.t1Other (s : State) (p d : Nat) : Nat :=
  sumBy (·.slot) (s.staged.filter fun g => g.part == p && g.home == d) +
  sumBy (·.sumBytes) (s.sq.pages.filter fun x => x.part == p && x.sumStack == d) +
  sumBy (·.sumBytes) ((s.sq.seals.flatMap (·.pages)).filter fun x => x.part == p && x.sumStack == d) +
  sumBy (fun v => sumBy (fun e => 8 * e.2.length) v.stats) (s.att.views.filter fun v => v.part == p && v.stack == d) +
  sumBy (fun g => sumBy (fun (e : GAcc) => if e.stack = d then e.bytes else 0) g.acc) (s.att.gsets.filter fun g => g.part == p) +
  sumBy (fun a => sumBy (fun w => if w.1 = d then w.2 else 0) a.work) (s.att.attns.filter fun a => a.part == p)

/-- Bytes a partition uses in a pool: T0 on a die, T1 on a stack, T2, T3 (R201, R220), with the room that moves in flight and
leaves being sealed have been given. -/
def State.used (s : State) (p t d : Nat) : Nat :=
  let here := fun (c : Copy) => c.part == p && c.tier == t && (t ≥ 2 || c.die == d)
  sumBy (·.bytes) (s.tier.copies.filter here) + sumBy (·.bytes) ((s.sq.seals.flatMap (·.copies)).filter here) +
  sumBy (·.bytes) (s.tier.moves.filter fun m => m.part == p && m.dstTier == t && (t ≥ 2 || m.dstDie == d)) +
  if t = 1 then s.t1Other p d else 0

/-- T0 bytes of a partition on a die: its units in the die's ten clusters (R199). -/
def State.t0Quota (s : State) (p d : Nat) : Nat :=
  sumBy (fun k => (s.partition p).t0.getD (10 * d + k) 0) (List.range 10) * 262144

/-- Quota of a pool in bytes; a partition without T2 extents has no T2 (R202). An extent counts until it is released, so that a release
request takes no pool over its quota (R226); it takes no new copy meanwhile. -/
def State.quota (s : State) (p t d : Nat) : Nat :=
  match t with
  | 0 => s.t0Quota p d
  | 1 => (s.partition p).t1.getD d 0 * 2 ^ 30
  | 2 => sumBy (·.len) (s.cxl.extents.filter fun e => e.part == p && e.kind == 1 && e.st != .revoking)
  | _ => (s.partition p).desc.flashGib * 2 ^ 30

/-- Level of a pool, per mille (R219). -/
def State.level (s : State) (p t d : Nat) : Nat :=
  let u := s.used p t d
  let q := s.quota p t d
  if q = 0 then (if u = 0 then 0 else 0xFFFFFFFF) else 1000 * u / q

/-- A copy of `b` bytes enters the pool (R226). -/
def State.fits (s : State) (p t d b : Nat) : Bool := s.used p t d + b ≤ s.quota p t d

/-- Stacks on which the partition holds T1 quota, ascending. -/
def State.t1Stacks (s : State) (p : Nat) : List Nat := (List.range 8).filter fun d => (s.partition p).t1.getD d 0 > 0

/-- The stack of a T1 copy of leaf j, layer l for a sequence whose SEQ_ID has low byte f (R213, R810): the next one while the
stack's T1 watermark unit shows a level above WM_HIGH; none when the partition has no T1 quota. Where every stack stands above its mark the
rule names none, and the first in order is taken (DESIGN CHOICE, assumption 73). -/
def State.t1Stack (s : State) (p j l f : Nat) : Option Nat :=
  let ss := s.t1Stacks p
  let n := ss.length
  if n = 0 then none
  else
    let order := (List.range n).map fun i => ss.getD ((j + l + f + i) % n) 0
    match order.find? fun d => s.level p 1 d ≤ s.cm (Fld.wmHigh 0x0B 1 1) (d + 1) p with
    | some d => some d
    | none => order.head?

/-- Bytes of an extent taken: by copies, by moves on their way into it, by leaves being sealed into it. -/
def State.extentUsed (s : State) (i : Nat) : Nat :=
  let here := fun (c : Copy) => c.tier == 2 && c.unit == i
  sumBy (·.bytes) (s.tier.copies.filter here) + sumBy (·.bytes) ((s.sq.seals.flatMap (·.copies)).filter here) +
  sumBy (·.bytes) (s.tier.moves.filter fun m => m.dstTier == 2 && m.unit == i)

/-- T2 extent that takes a copy: the first with room for it (R202). -/
def State.t2Extent (s : State) (p b : Nat) : Option Nat :=
  ((s.cxl.extents.filter fun e => e.part == p && e.kind == 1 && e.st == .held).find? fun e =>
    decide (s.extentUsed e.idx + b ≤ e.len)).map (·.idx)

/-- The cluster of a die with the most free T0 bytes of the partition. -/
def State.t0Cluster (s : State) (p d : Nat) : Nat :=
  let free := fun (k : Nat) =>
    (((s.partition p).t0.getD (10 * d + k) 0 * 262144 : Nat) : Int) -
    (sumBy (·.bytes) (s.tier.copies.filter fun c => c.part == p && c.tier == 0 && c.unit == 10 * d + k) : Nat)
  10 * d + (argMin (fun k => - free k) (List.range 10)).getD 0

/-- A copy is published in the page map. -/
def State.addCopy (s : State) (c : Copy) : State := { s with tier := { s.tier with copies := s.tier.copies ++ [c] } }

/-- Back-invalidation of the filtered lines of a lease that satisfy p: one snoop for each aligned block of four lines (R481). -/
def State.snoopLines (s : State) (e : Lease) (p : SfLine → Bool) : State :=
  let mine := fun (f : SfLine) => f.lease == e.num && !f.snooped && p f
  let ls := (s.cxl.sf.filter mine).map (·.line)
  let blocks := (ls.map (· / 4)).eraseDups
  let s1 := { s with cxl := { s.cxl with sf := upd mine (fun f => { f with snooped := true }) s.cxl.sf } }
  let s2 := blocks.foldl (fun (a : State) b => a.emit (.biSnp e.port e.num b (ls.filter fun n => n / 4 == b))) s1
  if blocks.isEmpty then s2 else s2.bumpU F.BISNP e.port blocks.length

/-- Back-invalidation of the lines of every slot that maps a page (R481). -/
def State.snoopPage (s : State) (p serial : Nat) : State :=
  s.cxl.leases.foldl (fun (a : State) e =>
    a.snoopLines e fun f => e.slots.any fun w => w.slot == f.slot && w.maps p serial) s

/-- A copy leaves its tier; its storage waits for the read references on it (R34). -/
def State.dropCopy (s : State) (p serial t d : Nat) : State :=
  let same := fun (c : Copy) => c.part == p && c.serial == serial && c.tier == t && c.die == d && !c.leaving
  if t ≤ 2 && (s.tier.copies.any fun c => same c && s.copyRead c) then
    { s with tier := { s.tier with copies := upd same (fun c => { c with leaving := true }) s.tier.copies } }.snoopPage p serial
  else
    let us := if t = 3 then del (fun (u : NUnit) => u.part == p && u.serial == serial && u.what == 0) s.ftl.units else s.ftl.units
    { s with tier := { s.tier with copies := del same s.tier.copies }, ftl := { s.ftl with units := us } }

/-- A command ends on what it names: PERM is a request whose tag does not match its target, counted and alarmed (R103, R622). -/
def State.failNamed (s : State) (c st part : Nat) : State :=
  (if st = St.perm then (s.bump F.TAG_FAULTS).raise Ev.TAG_FAULT part else s).fail c st

/-! ### The D total (R596, R597) -/

/-- A granule counts: class D without a current flash image. -/
def Granule.counted (g : Granule) : Bool := g.cls == 1 && !g.flash

/-- Sealed class D bytes of a partition whose backing copy is in T1 (TIER.D_COUNTED). -/
def State.dSealed (s : State) (p : Nat) : Nat :=
  sumBy (·.bytes) (s.tier.copies.filter fun c =>
    c.part == p && c.tier == 1 && c.backing && !c.leaving && (match s.page p c.serial with | some x => x.cls == 1 | none => false))

/-- D_USED of a partition, bytes. -/
def State.dUsed (s : State) (p : Nat) : Nat :=
  s.dSealed p + sumBy (·.slot) (s.staged.filter fun g => g.part == p && g.counted)

/-- The D total of the device. -/
def State.dTotal (s : State) : Nat := sumBy s.dUsed (List.range 64)

/-- The test of R597 with `more` bytes of the partition added and `less` taken away. -/
def State.dAdmits (s : State) (p more less : Nat) : Bool :=
  s.dTotal + more - less ≤ s.plp.budget * 2 ^ 20 && s.dUsed p + more - less ≤ s.gp F.D_LIMIT p * 2 ^ 20

/-- A command refused under R597: counted, with its event (PLP.D_REFUSED, D_REFUSE). -/
def State.refuseD (s : State) (p : Nat) : State := (s.bumpP F.D_REFUSED p).raise Ev.D_REFUSE p

/-- The D total is at 90 % of the D budget or above. -/
def State.dBehind (s : State) : Bool := s.dTotal != 0 && decide (9 * (s.plp.budget * 2 ^ 20) ≤ 10 * s.dTotal)

/-- DESTAGE_BEHIND (R229) when the D total has reached 90 % of the budget since the state `old`. -/
def State.noteBehind (s old : State) : State := if s.dBehind && !old.dBehind then s.raise Ev.DESTAGE_BEHIND else s

/-! ### Freeing (R105, R133, R163) -/

/-- A leaf leaves the directory: the local index first, then the shard owner (R163, R191). -/
def State.unpublish (s : State) (l : Leaf) : State :=
  if !l.published then s
  else
    let s0 := s.setLeaf l.handle fun x => { x with published := false, pubT := 0 }
    let s1 := { s0 with pdir := { s0.pdir with pubs := del (fun w => w.part == l.part && w.serial == l.serial) s0.pdir.pubs } }
    match l.chain with
    | some ch =>
      if l.ns = 0 then s1
      else match s1.shardOwner (shardOf ch) with
        | some o =>
          if o = s.dev.serial then
            let key := entryKey l.ns l.order ch
            let cut := fun (e : ShardEnt) =>
              { e with holders := e.holders.filter fun h => !(h.serial == s.dev.serial && h.handle == l.handle) }
            let es := (upd (fun e => e.key == key) cut s1.pdir.shards).filter fun e => !e.holders.isEmpty
            { s1 with pdir := { s1.pdir with shards := es } }
          else s1.malSend 0x0012 o (l.body (s1.geomDigest l.part)) l.serial
        -- the owner hears of it once a ring is known
        | none => { s1 with pdir := { s1.pdir with unpubs := s1.pdir.unpubs ++ [l.body (s1.geomDigest l.part)] } }
    | none => s1

/-- A window slot that holds a page of the leaf is vacated: its host-cached lines are back-invalidated (R105, R481). -/
def State.vacateLeaf (s : State) (l : Leaf) : State :=
  let mine := fun (w : WinSlot) =>
    hPart w.handle == l.part && l.serial ≤ hSerial w.handle && hSerial w.handle < l.serial + l.layers && hGen w.handle == l.gen
  s.cxl.leases.foldl (fun (a : State) e =>
    let gone := e.slots.filter mine
    if gone.isEmpty then a
    else
      let a1 := a.snoopLines e fun f => gone.any fun w => w.slot == f.slot
      let owed := gone.filter fun w => a1.cxl.sf.any fun f => f.lease == e.num && f.slot == w.slot
      let cut := fun (x : Lease) => { x with slots := x.slots.filter (fun w => !mine w), binv := x.binv ++ owed }
      let a2 := { a1 with cxl := { a1.cxl with leases := upd (fun x => x.num == e.num) cut a1.cxl.leases } }
      gone.foldl (fun (t : State) _ => (t.bumpP F.WIN_VACATED e.part).raise Ev.SLOT_VACATED e.part) a2) s

/-- A delta page of another leaf, sealed or being sealed, names a page of the leaf as its base (R343). -/
def State.baseInUse (s : State) (l : Leaf) : Bool :=
  (s.sq.pages ++ s.sq.seals.flatMap (·.pages)).any fun x =>
    x.base != 0 && hPart x.base == l.part && hGen x.base == l.gen && l.serial ≤ hSerial x.base && hSerial x.base < l.serial + l.layers

/-- A leaf whose last reference is gone is freed (R133): its record goes, its handles resolve to MISS. -/
def State.freeLeaf (s : State) (l : Leaf) : State :=
  let s0 := (s.vacateLeaf l).unpublish l
  -- a base leaf that a delta page still names becomes a base remnant (R343)
  let s1 := if s.baseInUse l then s0.raise Ev.REMNANT l.part else s0
  -- its seal has nothing left to publish or to replicate, and releases the granules it still has (R123)
  let its := fun (j : SealJob) => j.part == l.part && j.serial == l.serial && j.gen == l.gen && decide (j.step = 6 ∨ j.step = 7)
  { s1 with sq := { s1.sq with
    leaves := upd (fun x => x.handle == l.handle) (fun x => { x with freed := true }) s1.sq.leaves
    seals := upd its (fun j => { j with step := 8 }) (del (fun j => its j && j.released) s1.sq.seals) } }

/-- Storage of freed leaves and of leaving copies that nothing reads any more returns; the slots of generation 127 are retired
(R102, R105). -/
def State.reclaim (s : State) : State :=
  let ready := fun (l : Leaf) => l.freed && !s.baseInUse l && (List.range l.layers).all fun i =>
    !s.pageBusy l.part (l.serial + i) &&
    !(s.cxl.leases.any fun e => e.binv.any fun w => hPart w.handle == l.part && hSerial w.handle == l.serial + i)
  let goneL := s.sq.leaves.filter ready
  let inGone := fun (p serial : Nat) => goneL.any fun l => l.part == p && l.serial ≤ serial && serial < l.serial + l.layers
  let slots := goneL.flatMap fun l =>
    if l.gen ≥ 127 then [] else (List.range l.layers).map fun i => (⟨l.part, l.serial + i, l.gen⟩ : FreedSlot)
  let ls := s.sq.leaves.filter fun l => !ready l
  let ps := s.sq.pages.filter fun x => !inGone x.part x.serial
  let cs := s.tier.copies.filter fun c => !inGone c.part c.serial && !(c.leaving && !s.copyRead c)
  let s1 := { s with
    sq := { s.sq with leaves := ls, pages := ps, freed := s.sq.freed ++ slots }
    tier := { s.tier with copies := cs }
    ftl := { s.ftl with units := s.ftl.units.filter fun (u : NUnit) => !(u.what == 0 && inGone u.part u.serial) } }
  goneL.foldl (fun (a : State) l =>
    if l.gen ≥ 127 then (List.range l.layers).foldl (fun (t : State) _ => (t.bumpP F.GEN_RETIRED l.part).raise Ev.GEN_RETIRE l.part) a
    else a) s1

/-- Leaves without a reference are freed, and storage nothing reads is returned. -/
def State.sweep (s : State) : State :=
  ((s.leaves.filter fun l => s.refs l == 0).foldl (fun (a : State) l => a.freeLeaf l) s).reclaim

/-- Serials for a new leaf (R102): a freed run of one generation below 127, or a run never used; which is the device's choice.
Answers first serial and generation. -/
def State.allocRun (s : State) (p layers : Nat) : State × Nat × Nat :=
  let mine := s.sq.freed.filter fun f => f.part == p && f.gen < 127
  let runs := mine.filter fun f =>
    (List.range layers).all fun i => mine.any fun g => g.serial == f.serial + i && g.gen == f.gen
  let fresh := alGetD p 0 s.sq.nextSerial
  let c := s.choose
  match runs[c.1 % (runs.length + 1)]? with
  | some f =>
    let rest := c.2.sq.freed.filter fun g => !(g.part == p && f.serial ≤ g.serial && g.serial < f.serial + layers)
    ({ c.2 with sq := { c.2.sq with freed := rest } }, f.serial, f.gen + 1)
  | none => ({ c.2 with sq := { c.2.sq with nextSerial := alSet p (fresh + layers) c.2.sq.nextSerial } }, fresh, 1)

end Sys2Proof.Machine
end

