-- ==== Sys2Proof/Machine/SeqOps.lean ====
section
/-! DEFINITION. Sequences (R80–R84, R106–R120, R130, R153–R155): the chain state, the append lease, granules and their positions,
and what an APPEND, a fork and a truncation do to them. -/

namespace Sys2Proof.Machine

/-! ### The chain state (R150, R153) -/

/-- Chain value of hash block i (R150). -/
def chainStep (key : Bytes) (ns : Nat) (geom : Bytes) (variant i : Nat) (prev : Bytes) (toks : List Nat) : Bytes :=
  Blake.hash 16 key ([0x4C, 0x50, 0x48, 0x31] ++ leBytes 4 i ++ leBytes 4 ns ++ leBytes 4 0 ++ prev.take 16 ++
    slice (geom ++ List.replicate 16 0) 0 16 ++ leBytes 8 variant ++ toks.flatMap (leBytes 4))

/-- The chain values of a token list's whole hash blocks. -/
def chainValues (key : Bytes) (ns : Nat) (geom : Bytes) (variant : Nat) (toks : List Nat) : List Bytes :=
  (((chunks 16 toks).filter fun t => t.length == 16).zipIdx.foldl (fun (acc : Bytes × List Bytes) t =>
    let c := chainStep key ns geom variant t.2 acc.1 t.1
    (c, acc.2 ++ [c])) (List.replicate 16 (0 : Byte), [])).2

/-- One token ID arrives for position K. -/
def Seq.takeToken (key geom : Bytes) (x : Seq) (t : Nat) : Seq :=
  let toks := x.toks ++ [t]
  if toks.length < 16 then { x with toks := toks, k := x.k + 1 }
  else
    let i := x.k / 16
    let c := chainStep key x.ns geom x.variant i x.chain toks
    let b := x.bchain.map fun p => chainStep key x.ns geom x.baseVariant i p toks
    let k := x.k + 1
    { x with toks := [], k := k, chain := c, bchain := b,
             ends := if k % orderT x.order = 0 then x.ends ++ [(k, c, b)] else x.ends
             bends := match b with | some v => if k % orderT x.order = 0 then x.bends ++ [(k, v)] else x.bends | none => x.bends }

/-- Token IDs are hashed under generation `gen`: the chain began under it, or begins now (R640). -/
def Seq.hashes (x : Seq) (gen : Nat) : Bool := x.ns == 0 || x.k == 0 || x.keyGen == gen

/-- The base chain value of a mode 1 sequence at the end k of a leaf of its view (R340): the one it held there; a leaf under the base variant
tag holds it as its own chain value, one coded against a leaf under that tag in its base binding. Elsewhere the device does not hold it. -/
def State.baseChain (s : State) (x : Seq) (k : Nat) (l : Leaf) : Option Bytes :=
  if x.baseMode ≠ 1 then none
  else match alGet k x.bends with
    | some b => some b
    | none =>
      if l.variant = x.baseVariant then l.chain
      else if l.bindKind = 1 ∧ ((s.leafAt (hPart l.base) (hSerial l.base)).any fun b => b.variant == x.baseVariant) then some l.bindChain
      else none

/-- K is set to the highest held point at or below p (R153). -/
def State.setK (s : State) (x : Seq) (p : Nat) : Seq :=
  let lo := x.k / 16 * 16
  let zero := List.replicate 16 (0 : Byte)
  let held := x.bends.filter fun e => e.1 ≤ p
  if p ≥ lo then { x with k := min p x.k, toks := x.toks.take (min p x.k - lo), ends := x.ends.filter (fun e => e.1 ≤ p), bends := held }
  else
    let T := orderT x.order
    let cands := x.leaves.filterMap fun e =>
      match s.leaf e.2 with
      | some l => if (e.1 + 1) * T ≤ p then l.chain.map fun c => ((e.1 + 1) * T, c, s.baseChain x ((e.1 + 1) * T) l) else none
      | none => none
    match argMin (fun (c : Nat × Bytes × Option Bytes) => -((c.1 : Nat) : Int)) cands with
    | some (k, c, b) => { x with k := k, chain := c, toks := [], bchain := b, ends := [], bends := held }
    | none =>
      { x with k := 0, chain := zero, toks := [], bchain := if x.baseMode = 1 then some zero else none, ends := [], bends := [] }

/-! ### The append lease (R116–R118) -/

/-- The lease rule of R117 for queue q (an epoch of 2^32 − 1 cannot be exceeded, R677) and EPOCH e: none when the command completes LEASE_LOST, else the sequence with the lease
held, and whether this command acquired it. -/
def State.takeLease (s : State) (x : Seq) (q e : Nat) : Option (Seq × Bool) :=
  if e ≠ 0 then (if x.holder = some q ∧ x.epoch = e ∧ s.leaseHeld x then some (x, false) else none)
  else if x.holder = some q ∧ s.leaseHeld x then some (x, false)
  else if s.leaseHeld x then none
  else if x.epoch ≥ 2 ^ 32 - 1 then none
  else some ({ x with holder := some q, epoch := x.epoch + 1 }, true)

/-- LEASE_MS in ns. -/
def State.leaseNs (s : State) (p : Nat) : Nat := s.gp F.SEQ_CTRL_LEASE_MS p * 1000000

/-! ### Granules (R110–R114) -/

def State.gran (s : State) (p q l f : Nat) : Option Granule :=
  s.sq.granules.find? fun g => g.part == p && g.seq == q && g.layer == l && g.first == f

/-- The granules of one layer of a sequence. -/
def State.gransOf (s : State) (p q l : Nat) : List Granule :=
  s.sq.granules.filter fun g => g.part == p && g.seq == q && g.layer == l

/-- Number of staged positions of a granule (VALID). -/
def Granule.valid (g : Granule) : Nat := g.rows.length

/-- Staging bytes of a partition. -/
def State.stageUsed (s : State) (p : Nat) : Nat := sumBy (·.slot) (s.staged.filter fun g => g.part == p)

/-- What one layer of one sequence receives: its granules, changed or new. -/
structure Put where
  seq : Seq
  layer : Nat
  first : Nat
  rows : List (List Bytes)
  cls : Nat
  copied : Bool
  epoch : Nat
  tag : Nat

/-- The granules after a put: rows fill them in position order (R113). Positions of a new granule before the first one put are absent, and
stand as rows of nothing (R128). -/
def putRows (ge : Geom) (now : Nat) (u : Put) (gs : List Granule) : List Granule :=
  (u.rows.zipIdx).foldl (fun (acc : List Granule) (r : List Bytes × Nat) =>
    let pos := u.first + r.2
    let f := pos / 16 * 16
    let same := fun (g : Granule) => g.part == u.seq.part && g.seq == u.seq.id && g.layer == u.layer && g.first == f
    if acc.any same then
      upd same (fun g =>
        { g with rows := g.rows ++ [r.1], cls := max g.cls u.cls, copied := g.copied || u.copied, epoch := u.epoch, tag := u.tag,
                 time := now, dirty := g.rows.length + 1 < 16, inSlot := if g.rows.length + 1 < 16 then g.inSlot else 16, flash := false }) acc
    else
      acc ++ [{ part := u.seq.part, seq := u.seq.id, layer := u.layer, first := f, geom := ge.id, cls := u.cls, copied := u.copied,
                epoch := u.epoch, tag := u.tag, time := now, rows := List.replicate (pos - f) [] ++ [r.1]
                home := u.seq.home, slot := slotBytes ge u.layer }])
    gs

/-- Granules of a sequence's named layers take at least a class (R591). -/
def raiseCls (p q : Nat) (layers : List Nat) (cls : Nat) (gs : List Granule) : List Granule :=
  if cls = 0 then gs
  else upd (fun g => g.part == p && g.seq == q && layers.contains g.layer && g.cls < cls)
    (fun g => { g with cls := cls, flash := false }) gs

/-- The staging quota, the T1 quota of each home stack and the D budget have room for the new granule list (R114, R130, R201, R597);
answers a status when they do not, and whether the D test refused. -/
def State.admitGrans (s : State) (p : Nat) (gs : List Granule) : Option Bool :=
  let s' := { s with sq := { s.sq with granules := gs } }
  let grown := fun (d : Nat) => s'.used p 1 d > s.used p 1 d
  let newD := gs.any fun g => g.part == p && g.counted &&
    !(s.sq.granules.any fun o => o.part == p && o.seq == g.seq && o.layer == g.layer && o.first == g.first && o.counted)
  if s'.stageUsed p > s.stageUsed p ∧ s'.stageUsed p > s.gp F.STAGE_QUOTA p * 2 ^ 20 then some false
  else if (List.range 8).any fun d => grown d && s'.used p 1 d > s.quota p 1 d then some false
  else if newD ∧ !s'.dAdmits p 0 0 then some true
  else none

/-- A granule whose buffer holds bytes that its slot does not is written to its slot (R111). -/
def Granule.writeBack (g : Granule) : Granule := { g with dirty := false, inSlot := g.rows.length }

/-- The same granule. -/
def Granule.same (a b : Granule) : Bool := a.part == b.part && a.seq == b.seq && a.layer == b.layer && a.first == b.first

/-- One buffer of die d's SRAM is reclaimed, which one is the device's choice, when the granules buffered there exceed 4 MiB, or at all
once the die's buffer is retired (R111, R663). -/
def State.reclaimBuf (s : State) (d : Nat) : State :=
  let held := s.sq.granules.filter fun g => g.home == d && g.dirty
  if sumBy (·.slot) held ≤ (if s.hw.bufRetired.contains d then 0 else 4 * 2 ^ 20) then s
  else
    let c := s.choose
    match held[c.1 % held.length]? with
    | some g => { c.2 with sq := { c.2.sq with granules := upd (fun x => x.same g) Granule.writeBack c.2.sq.granules } }
    | none => s

/-- The granules are replaced, and buffers reclaimed until those of every die have room (R111). -/
def State.putGrans (s : State) (gs : List Granule) : State :=
  let s1 : State := { s with sq := { s.sq with granules := gs } }
  ((gs.filter (·.dirty)).map (·.home)).foldl (fun (a : State) d => a.reclaimBuf d) s1

/-- Granules of class P that the put leaves without a flash image are written to flash, which their command waits for (R591). -/
def flashP (gs : List Granule) : List Granule := gs.map fun g => 
  if g.cls = 2 then { g.writeBack with flash := true, savedRows := g.rows.length } else g

/-! ### Replication of class P (R608, R609) -/

/-- Candidates for a replica peer, best first: own rack group before the rest, then the lowest LOAD. -/
def State.replicaPeers (s : State) : List Peer :=
  let ok := s.net.peers.filter fun r =>
    s.pdir.ring.contains r.serial && r.kind == 1 && r.failGroup != s.g F.FAIL_GROUP && r.reachable && r.replicaFree != 0 &&
    !(s.net.incidents.any fun i => i.suspect == r.serial && i.st == .declared)
  sortBy (fun r => ((if r.group = s.net.group then 0 else 256) + r.load : Nat)) ok

/-- The replica peer of a sequence: the one kept while it serves, else the best candidate (R609). -/
def State.replicaPeer (s : State) (x : Seq) : Option Nat :=
  if s.replicaPeers.any fun r => r.serial == x.peer then some x.peer else s.replicaPeers.head?.map (·.serial)

/-- The staging handle of a sequence (R608). -/
def stagingHandle (p q : Nat) : Nat := p * 2 ^ 58 + 7 * 2 ^ 55 + q

/-- A fetch body (R518). -/
def fetchBody (handle : Nat) (chain : Bytes) (ns order flags radrr rkey rlen : Nat) : Bytes :=
  leBytes 8 handle ++ slice (chain ++ List.replicate 16 0) 0 16 ++ leBytes 4 ns ++ leBytes 1 order ++ leBytes 1 flags ++
  leBytes 2 0 ++ leBytes 8 radrr ++ leBytes 4 rkey ++ leBytes 4 0 ++ leBytes 8 rlen

/-- REPLICA of each granule (layer, first position, slot bytes) to the peer, on behalf of `ctx`. The address and key of the
sender's area are the device's own. -/
def State.sendReplicas (s : State) (p q peer ctx : Nat) (gs : List (Nat × Nat × Nat)) : State :=
  gs.foldl (fun (a : State) g =>
    let c := a.choose
    let d := c.2.choose
    d.2.malSend 0x0022 peer
      (fetchBody (stagingHandle p q) (leBytes 2 g.1 ++ leBytes 2 0 ++ leBytes 4 g.2.1 ++ leBytes 8 0) 0 7 0 c.1 d.1 g.2.2) ctx) s

/-- Requests of a command or job that still wait for their reply. -/
def State.malWaiting (s : State) (typ ctx : Nat) : Bool := s.net.waits.any fun w => w.msg.typ == typ && w.ctx == ctx

/-! ### Leaves of a sequence -/

/-- The sequence length (R115): the lowest of its layers' lengths. -/
def Seq.length (x : Seq) : Nat := (x.lens.min?).getD 0

/-- Rows [lo, hi) of one layer of a sequence, from the sealed page that covers them or from staging; positions held by neither
are absent. -/
def State.rowsOf (s : State) (ge : Geom) (x : Seq) (layer lo hi : Nat) : List (List Bytes) :=
  let T := orderT x.order
  (List.range (hi - lo)).filterMap fun i =>
    let pos := lo + i
    match x.leaves.find? fun e => e.1 == pos / T with
    | some e =>
      match s.page (hPart e.2) (hSerial e.2 + layer) with
      | some pg => (imageRows ge layer T pg.image)[pos % T]?
      | none => none
    | none => (s.gran x.part x.id layer (pos / 16 * 16)).bind fun g => g.rows[pos % 16]?

/-- Class of a partition's option code: 0 default, else V, D, P. -/
def State.clsOf (s : State) (p code : Nat) : Nat := if code = 0 then s.gp F.SEQ_CTRL_DEF_CLASS p else code - 1

def State.autoOf (s : State) (p code : Nat) : Bool := if code = 0 then s.gp F.SEQ_CTRL_AUTO_SEAL p == 1 else code == 1

/-- Staging home: the die named, which must be enabled and hold partition cores, or the device's choice among those that do;
a partition without cores takes a die of its T1 quota (R83). -/
def State.homeDie (s : State) (p die : Nat) : State × Option Nat :=
  let cores := (List.range 8).filter fun d => s.dieOk d && s.dieOf p d
  let cands := if cores.isEmpty then (s.t1Stacks p).filter s.dieOk else cores
  if die < 8 then (s, if cores.contains die then some die else none)
  else if cands.isEmpty then (s, none)
  else
    let c := s.choose
    (c.2, cands[c.1 % cands.length]?)

/-- The command numbered `uid` finds the sequence open: it is, or it was at the command's acceptance, before the SEQ_CLOSE (R84). -/
def Seq.openTo (x : Seq) (uid : Nat) : Bool := !x.closing || uid < x.closeCmd

/-- The common checks of command `uid` that names one open sequence (R80, R84, R85): a status, or the sequence and the geometry. -/
def State.seqFor (s : State) (p id uid : Nat) : Except Nat (Seq × Geom) :=
  match s.geom p with
  | none => .error St.badCmd
  | some ge =>
    match s.seq p id with
    | none => .error St.miss
    | some x => if !x.openTo uid then .error St.miss else if x.geom ≠ ge.id then .error St.badCmd else .ok (x, ge)

/-- A command that has started, has its opcode, and is not at its commit point. -/
def State.running (s : State) (c : Nat) (o : Op) : Option Cmd :=
  match s.cmd c with
  | some x => if x.is o && x.st == .started then some x else none
  | none => none

/-- The state of the command's buffers: none while one has still to be read, true when all are good, false on poison. -/
def Cmd.buffers (c : Cmd) (addrs : List Nat) : Option Bool :=
  if addrs.all fun a => c.hasBuf a then some (addrs.all fun a => (c.bufAll a).isSome) else none

/-- Little-endian 4-byte numbers. -/
def u32s (b : Bytes) (n : Nat) : List Nat := (List.range n).map fun i => rd b (4 * i) 4

def u64s (b : Bytes) (n : Nat) : List Nat := (List.range n).map fun i => rd b (8 * i) 8

/-- Open and closing sequences of a partition. -/
def State.openCount (s : State) (p : Nat) : Nat :=
  (s.sq.seqs.filter fun x => x.part == p).length + (s.sq.forks.filter fun f => f.child.part == p).length

/-- The SEQ_ID is in use: by a sequence, or by the child of a fork that waits for its replicas. -/
def State.idUsed (s : State) (p id : Nat) : Bool :=
  (s.seq p id).isSome || s.sq.forks.any fun f => f.child.part == p && f.child.id == id

/-- Room for one more sequence (R81). -/
def State.seqRoom (s : State) (p : Nat) : Bool := s.sq.seqs.length + s.sq.forks.length < 4194304 && s.openCount p < s.gp F.SEQ_LIMIT p

/-- Removes a sequence's granules. -/
def State.dropGrans (s : State) (p q : Nat) (gone : Granule → Bool) : State :=
  { s with sq := { s.sq with granules := del (fun g => g.part == p && g.seq == q && gone g) s.sq.granules } }

/-- Position i is absent from the sequence's view (R107, R128). -/
def Seq.absent (x : Seq) (i : Nat) : Bool := x.gone.any fun e => decide (e.1 ≤ i ∧ i < e.2)

/-- The absent spans below position t. -/
def Seq.goneBelow (x : Seq) (t : Nat) : List (Nat × Nat) := (x.gone.filter fun e => decide (e.1 < t)).map fun e => (e.1, min e.2 t)

/-- The granule holds no position that the view shows: what the ring dropped stands in it until its seal releases it (R107). -/
def Seq.covers (x : Seq) (g : Granule) : Bool := x.gone.any fun e => decide (e.1 ≤ g.first ∧ g.first + g.rows.length ≤ e.2)

/-- A truncation to position t (R130, R155): references on leaves at or after the leaf containing t are dropped, positions of the
partial leaf are copied, granules above t go, every length becomes t. The caller has checked room with the same granule list. -/
def State.truncGrans (s : State) (ge : Geom) (x : Seq) (t tag : Nat) : List Granule :=
  let T := orderT x.order
  let j := t / T
  let sealed := x.leaves.any fun e => e.1 == j
  -- granules that lie under a sealed leaf wait for their release (R123 step 8): the copy is made from the leaf, in their place
  let from_ := if sealed then j * T else t
  let cut0 := (s.sq.granules.filter fun g => !(g.part == x.part && g.seq == x.id && g.first ≥ from_)).map fun g =>
    if g.part = x.part ∧ g.seq = x.id ∧ g.first + g.rows.length > t then
      { g with rows := g.rows.take (t - g.first), savedRows := min g.savedRows (t - g.first), inSlot := min g.inSlot (t - g.first) }
    else g
  -- what is left of a leaf that the ring dropped is no part of the sequence
  let cut := cut0.filter fun g => !(g.part == x.part && g.seq == x.id && decide (j * T ≤ g.first) && x.covers g)
  if sealed ∧ t % T ≠ 0 then
    (List.range ge.layers.length).foldl (fun gs l =>
      putRows ge s.now ⟨x, l, j * T, s.rowsOf ge x l (j * T) t, x.cls, true, x.epoch, tag⟩ gs) cut
  else cut

/-- Number under which a seal goes on whose granules are no longer its leaf's. -/
def SealJob.oldNo (j : SealJob) : Nat := 2 ^ 20 + j.serial

/-- Seals of a sequence that reach past position t: those before their commit point end (R121), and so do those that had only granules to
release, which are theirs no more (R130). One that publishes or replicates its leaf goes on under a number of its own, which the SEAL
commands that wait for it take. -/
def State.endSeals (s : State) (p id t : Nat) : State :=
  let past := fun (j : SealJob) => j.part == p && j.seq == id && !j.released && decide (j.first + j.count > t)
  let go := fun (j : SealJob) => past j && decide (j.step = 6 ∨ j.step = 7)
  let moved := (s.sq.seals.filter go).map fun j => (j.leafNo, j.oldNo)
  let s1 := s.dropJobs fun j => past j && !go j
  let js := upd past (fun j => { j with released := true, leafNo := j.oldNo }) s1.sq.seals
  let cs := if moved.isEmpty then s.q.cmds
    else upd (fun c => c.is .seal && c.part == p && c.seq == id)
      (fun c => { c with leaves := c.leaves.map fun i => alGetD i i moved }) s.q.cmds
  { s1 with sq := { s1.sq with seals := js }, q := { s1.q with cmds := cs } }

/-- A SEAL whose leaves have passed completes (R125, R388). A leaf that is neither ready, being sealed nor sealed any more is not
waited for. -/
def State.settleSeals (s : State) : State :=
  s.q.cmds.foldl (fun (a : State) c =>
    if c.is .seal && c.st == .started && c.phase = 1 then
      let left := c.leaves.filter fun i =>
        (s.sq.seals.any fun j => j.part == c.part && j.seq == c.seq && j.leafNo == i && j.step < 8) ||
        (match s.seq c.part c.seq with | some y => y.auto && s.leafReady y i | none => false)
      if left.isEmpty then a.finish c.uid St.ok c.count 0 else a.setCmd c.uid fun y => { y with leaves := left }
    else a) s

/-- The sequence after a truncation. -/
def State.truncSeq (s : State) (ge : Geom) (x : Seq) (t : Nat) : Seq :=
  let T := orderT x.order
  let j := t / T
  let y := s.setK x (min x.k (j * T))
  let pred := if t % T ≠ 0 then x.leaves.filter fun e => e.1 == j else []
  { y with
    leaves := x.leaves.filter fun e => decide (e.1 < j)
    lens := List.replicate ge.layers.length t
    durable := (List.range ge.layers.length).map fun l => if !pred.isEmpty && x.cls != 0 then t else min t (x.durable.getD l 0)
    gone := Seq.goneBelow x t
    readyBy := x.readyBy.filter fun e => decide (e.1 < j)
    preds := if x.baseMode = 2 then pred.foldl (fun ps e => alSet e.1 e.2 ps) x.preds else x.preds }

/-- A sequence is cut to position t by the device itself (R149, R162, R242): as TRUNCATE would, with ROLLBACK raised. The copy of a
partial leaf is made where it fits. -/
def State.cutSeq (s : State) (p id t : Nat) : State :=
  match s.seq p id, s.geom p with
  | some x, some ge =>
    let gs := s.truncGrans ge x t 0
    let s1 := s.putGrans gs
    (((s1.setSeq p id fun _ => s.truncSeq ge x t).endSeals p id t).raise Ev.ROLLBACK p).sweep.settleSeals
  | some x, none =>
    -- no loaded geometry: its leaves and granules at or after t go
    let T := orderT x.order
    let s1 := s.dropGrans p id fun g => decide (g.first + 16 > t)
    ((s1.setSeq p id fun y => { s.setK y (min y.k t) with leaves := y.leaves.filter (fun e => decide ((e.1 + 1) * T ≤ t)), gone := y.goneBelow t,
                                                          lens := y.lens.map (min t), durable := y.durable.map (min t) }).raise Ev.ROLLBACK p).sweep
  | none, _ => s

/-! ### The end of an APPEND (R113, R116, R153) -/

/-- The lease of every sequence whose lease the completing command acquired, or, when it completes OK, that it names, expires LEASE_MS
from now while its queue holds it (R116). -/
def State.renewLeases (s : State) (c : Cmd) : State :=
  if c.is .append || c.is .truncate then
    let ids := if c.status = St.ok then c.names else c.took
    { s with sq := { s.sq with
      seqs := upd (fun x => x.part == c.part && ids.contains x.id && x.holder == some c.q)
        (fun x => { x with expiry := s.now + s.leaseNs c.part }) s.sq.seqs } }
  else s

/-- The leaves of a sequence that have just become ready are put down to a group (R430). -/
def State.markReady (s : State) (p id g : Nat) : State :=
  s.setSeq p id fun y =>
    let now := s.readyLeaves y
    { y with readyBy := (y.readyBy.filter fun e => now.contains e.1) ++
        (now.filter fun i => (alGet i y.readyBy).isNone).map fun i => (i, g) }

/-- The positions an APPEND has committed become visible: lengths, chain state, lease expiry (R113, R116, R153). -/
def State.applyAppends (s0 : State) (c : Cmd) : State :=
  let s := s0.renewLeases c
  if c.status ≠ St.ok then s
  else c.appends.foldl (fun (a : State) u =>
    match a.geom c.part, a.seq c.part u.1 with
    | some ge, some y =>
      let key := a.cmdKey c y.ns
      let gen := a.cmdGen c y.ns
      let b := a.setSeq c.part u.1 fun z =>
        let z1 := { z with
          lens := z.lens.zipIdx.map fun l => if u.2.1.contains l.2 then l.1 + u.2.2.1 else l.1
          durable := z.lens.zipIdx.map fun l =>
            if u.2.1.contains l.2 ∧ c.fClass.getD y.cls ≥ 1 then l.1 + u.2.2.1 else z.durable.getD l.2 0 }
        match key with
        | some k =>
          if y.hashes gen then
            { u.2.2.2.foldl (fun w t => w.takeToken k ge.digest t) z1 with keyGen := if y.k = 0 then gen else y.keyGen }
          else z1
        | none => z1
      if y.auto then b.markReady c.part u.1 c.qg else b
    | _, _ => a) s

/-- A command past its commit point ends without its completion (R374). What it did stands; the positions an APPEND committed become visible
as its completion is given up (DESIGN CHOICE, assumption 84). -/
def State.unposted (s : State) (c : Cmd) : State := (s.applyAppends c).retire c

/-! ### The front end of a lost bridge die -/

/-- The front end of a lost bridge die (R360): the other takes over the queues whose rings lie in host memory, draining ones too; a queue with
an inline ring on the lost die enters ERROR with reason 6, its commands discarded. -/
def State.frontEndLost (s : State) (b : Nat) : State :=
  let mine := s.q.queues.filter fun x => x.num < 65536 && s.qreg F.QCTRL_FE x.num == b
  let lostRing := fun (x : Queue) => (x.sqInline.toList ++ x.cqInline.toList).any fun r => r.1 / (8 * 2 ^ 20) == b
  let s1 := (mine.filter fun x => lostRing x && x.st != .disabled).foldl (fun (a : State) x =>
    let b := (a.cmdsOf x.num).foldl (fun (t : State) c => if c.live then t.discard c.uid else t.unposted c) a
    if x.st == .active || x.st == .draining then b.queueFails x.num 6 else b) s
  let keep := mine.filter fun x => !lostRing x && x.st != .disabled
  let s2 := keep.foldl (fun (a : State) x => a.wq F.QCTRL_FE x.num (1 - b)) s1
  let base := b * 8 * 2 ^ 20
  let s3 := { s2 with q := { s2.q with ring := s2.q.ring.filter fun c => !(base ≤ c.1 && c.1 < base + 8 * 2 ^ 20) } }
  if keep.isEmpty then s3.settle else (s3.raiseU Ev.TAKEOVER (1 - b)).settle

end Sys2Proof.Machine
end

