-- ==== Sys2Proof/Machine/Attn.lean ====
section
/-! DEFINITION. The arithmetic of attention and training (chapters 6 and 7): score modifiers, the tile procedure, the rescaled merge,
tile shapes, the canonical tree, fret bounds, the backward tile. FP32 values are 32-bit patterns. -/

namespace Sys2Proof.Machine

/-! ### Score modifiers (R250–R253) -/

/-- A modifier set (R250). -/
structure Mods where
  causal : Bool
  window : Option Nat
  cap : Option Nat
  scale : Nat
  /-- Offset of the bias table in the descriptor. -/
  bias : Option Nat

/-- The modifier set of a layer. -/
def Geom.mods (g : Geom) (layer : Nat) : Mods :=
  let e := g.modOff + 4 + 32 * (g.layer layer).modSet
  let fl := rd g.raw e 1
  { causal := bit fl 0, window := if bit fl 1 then some (rd g.raw (e + 12) 4) else none
    cap := if bit fl 2 then some (rd g.raw (e + 8) 4) else none, scale := rd g.raw (e + 4) 4
    bias := if bit fl 3 then some (rd g.raw (e + 16) 4) else none }

/-- The bias bucket of a distance (R252). -/
def bucket (d : Nat) : Nat :=
  if d < 16 then d
  else
    let e := Nat.log2 d
    min (16 + 4 * (e - 4) + (d >>> (e - 2)) % 4) 63

/-- A bias entry: query head and bucket. -/
def Geom.biasAt (g : Geom) (off head b : Nat) : Nat := rd g.raw (off + 4 * (head * 64 + b)) 4

/-- The effective window (R251): the set's, the ring's, or the smaller of the two. -/
def Mods.effWindow (m : Mods) (ring : Option Nat) : Option Nat :=
  match m.window, ring with
  | some a, some b => some (min a b)
  | some a, none => some a
  | none, r => r

/-- A key at position k is masked for a row at position q (R251). -/
def Mods.masked (m : Mods) (ring : Option Nat) (q k : Nat) : Bool :=
  (m.causal && decide (k > q)) || (m.effWindow ring).any fun w => decide (q ≥ k + w)

/-- A query row (R247): its position, query head and decoded query. -/
structure QRow where
  pos : Nat
  head : Nat
  q : List Fv

/-- dot_ref (R258): exact products, one rounding for each 32 channels, FP32 sums in order. -/
def dotRef (q k : List Fv) : Nat :=
  (chunks 32 (List.zipWith Fp.vmul q k)).foldl (fun (acc : Nat) g => Fp.add acc (Fp.round (Fp.vsum g))) 0

/-- R253 steps 1 and 2: the value, and θ where the soft-cap is set. -/
def Mods.capped (m : Mods) (x : Nat) : Nat × Nat :=
  let y := Fp.mul x m.scale
  match m.cap with
  | some c => let th := Fp.tanh (Fp.div y c); (Fp.mul c th, th)
  | none => (y, 0)

/-- The score of an unmasked key from its raw dot product (R253), with θ. -/
def Geom.scoreOf (g : Geom) (m : Mods) (r : QRow) (pos x : Nat) : Nat × Nat :=
  let y := m.capped x
  match m.bias with
  | some off => (Fp.add y.1 (g.biasAt off r.head (bucket (max r.pos pos - min r.pos pos))), y.2)
  | none => y

/-- A key of a tile: its position, key channels and value channels. -/
abbrev KeyVal := Nat × List Fv × List Fv

/-- The score of a key for a row, −∞ where masked. -/
def Geom.score (g : Geom) (m : Mods) (ring : Option Nat) (r : QRow) (k : KeyVal) : Nat :=
  if m.masked ring r.pos k.1 then Fp.ninf else (g.scoreOf m r k.1 (dotRef r.q k.2.1)).1

/-! ### One tile and the merge (R258–R261) -/

/-- One row of a partial: m, l and the vector o. -/
abbrev RowPart := Nat × Nat × List Nat

def nanRow (dv : Nat) : RowPart := (Fp.qnan, Fp.qnan, List.replicate dv Fp.qnan)
def emptyRow (dv : Nat) : RowPart := (Fp.ninf, 0, List.replicate dv 0)

/-- run_tile for one row (R258, R259): a score of NaN or +∞ makes a NaN row, a probability of 0 adds nothing. -/
def Geom.tileRow (g : Geom) (m : Mods) (ring : Option Nat) (dv : Nat) (keys : List KeyVal) (r : QRow) : RowPart :=
  let s := keys.map fun k => g.score m ring r k
  if s.any fun x => Fp.isNan x || x == Fp.pinf then nanRow dv
  else
    let mx := s.foldl Fp.max Fp.ninf
    if mx = Fp.ninf then emptyRow dv
    else
      let ps := List.zipWith (fun (x : Nat) (k : KeyVal) => (Fp.exp (Fp.sub x mx), k.2.2)) s keys
      (chunks 32 ps).foldl (fun (a : RowPart) grp =>
        let l := Fp.add a.2.1 (Fp.round (Fp.vsum (grp.map fun e => Fp.toFv e.1)))
        let live := grp.filter fun e => !Fp.isZero e.1
        let o := (a.2.2.zipIdx).map fun c =>
          Fp.add c.1 (Fp.round (Fp.vsum (live.map fun e => Fp.vmul (Fp.toFv e.1) (e.2.getD c.2 (.fin false 0 0)))))
        (mx, l, o)) (mx, 0, List.replicate dv 0)

/-- The rescaled merge of one row (R260). -/
def mergeRow (a b : RowPart) : RowPart :=
  if Fp.isNan a.1 || Fp.isNan b.1 then nanRow a.2.2.length
  else if a.1 = Fp.ninf then b
  else if b.1 = Fp.ninf then a
  else
    let m := Fp.max a.1 b.1
    let fa := Fp.exp (Fp.sub a.1 m)
    let fb := Fp.exp (Fp.sub b.1 m)
    (m, Fp.add (Fp.mul a.2.1 fa) (Fp.mul b.2.1 fb), List.zipWith (fun x y => Fp.add (Fp.mul x fa) (Fp.mul y fb)) a.2.2 b.2.2)

def Partial.toRows (p : Partial) : List RowPart := List.zipWith (fun m (lo : Nat × List Nat) => (m, lo)) p.m (List.zip p.l p.o)

def partialOf (rs : List RowPart) : Partial := { m := rs.map (·.1), l := rs.map (·.2.1), o := rs.map (·.2.2) }

def Partial.merge (a b : Partial) : Partial := partialOf (List.zipWith mergeRow a.toRows b.toRows)

def emptyPartial (rows dv : Nat) : Partial := partialOf (List.replicate rows (emptyRow dv))

/-- A partial's statistics without its output vectors (R268). -/
def Partial.stats (p : Partial) : Partial := { p with o := p.o.map fun _ => [] }

/-- The reported result of a row (R261): output values, m, l. -/
def finalRow (r : RowPart) : RowPart :=
  if Fp.isNan r.1 then nanRow r.2.2.length
  else if Fp.isZero r.2.1 then emptyRow r.2.2.length
  else (r.1, r.2.1, r.2.2.map fun x => Fp.div x r.2.1)

/-- A value in a format of code 0 (FP32) or 1 (BF16). -/
def fpOut (fmt v : Nat) : Bytes := if fmt = 0 then leBytes 4 v else leBytes 2 (Fp.toBf16 v)

/-! ### Tile shape and lists (R262, R263, R266) -/

def Geom.dv (g : Geom) : Nat := if g.vDim = 0 then g.headDim else g.vDim

/-- Query heads that attend one KV head (R247). -/
def Geom.group (g : Geom) : Nat := g.qHeads / max g.kvHeads 1

/-- Streamed bytes per position and KV head (b of R262). -/
def Geom.streamBytes (g : Geom) (layer : Nat) : Nat := (headPlanes g (g.layer layer)).sum

/-- w of R262: 32 where a streamed format is 16 or 32 bits wide. -/
def Geom.macs (g : Geom) (layer : Nat) : Nat :=
  let l := g.layer layer
  if l.kf ≤ 2 ∨ (g.vDim = 0 ∧ l.vf ≤ 2) then 32 else 64

def pow2Floor (n : Nat) : Nat := 2 ^ Nat.log2 n

/-- tile_shape (R262): rows and positions of a tile. `fuel` bounds the halvings. -/
def tileShape (b w d limit : Nat) : Nat → Nat → Nat × Nat
  | 0, rb => (rb, 1)
  | fuel + 1, rb =>
    let p := min limit (min (8704 / b) (1536 * w / (rb * d)))
    if 1 ≤ p then (rb, pow2Floor p) else tileShape b w d limit fuel (ceilDiv rb 2)

def Geom.tile (g : Geom) (layer : Nat) (decode : Bool) (rowsOfHead limit : Nat) : Nat × Nat :=
  tileShape (max 1 (g.streamBytes layer)) (g.macs layer) (g.headDim + g.dv) limit 32
    (if decode then rowsOfHead else min rowsOfHead 32)

/-- The tiles of a span (R262): cut at absolute multiples of P. `fuel` bounds them. -/
def tileSpans (P : Nat) : Nat → Nat → Nat → List (Nat × Nat)
  | 0, _, _ => []
  | fuel + 1, lo, n =>
    if n = 0 then []
    else
      let k := min n (P - lo % P)
      (lo, k) :: tileSpans P fuel (lo + k) (n - k)

/-- Work time of a tile of R rows and n positions in steps, rounded up (R263). -/
def Geom.tileSteps (g : Geom) (layer rows n : Nat) : Nat :=
  64 + max (ceilDiv (rows * n * (g.headDim + g.dv)) (g.macs layer)) (ceilDiv (n * g.streamBytes layer) 8)

/-- One level of the canonical tree: entries 2i and 2i + 1 combined, an unpaired last entry unchanged (R266). -/
def pairUp {α : Type} (f : α → α → α) : List α → List α
  | a :: b :: l => f a b :: pairUp f l
  | l => l

/-- The canonical tree reduced (R266); `fuel` at least the list's length. -/
def treeFold {α : Type} (f : α → α → α) : Nat → List α → Option α
  | _, [] => none
  | _, [a] => some a
  | 0, a :: _ => some a
  | fuel + 1, l => treeFold f fuel (pairUp f l)

def canonical {α : Type} (f : α → α → α) (l : List α) : Option α := treeFold f l.length l

/-- Tiles [a, a + m) and [b, b + n) of a list of `len` are siblings of the canonical tree, the first to the left. -/
def siblings (len a m b n : Nat) : Bool :=
  decide (a + m = b) && m == pow2Floor (max m 1) && decide (a % (2 * m) = 0) && decide (b + n = min (a + 2 * m) len)

/-- Tiles [lo, lo + n) cut into pieces of at most `most` (a power of two), each a power of two of tiles that starts at a multiple of its
length: completed subtrees of the canonical tree (R267). `fuel` bounds the pieces. -/
def cutAligned (most : Nat) : Nat → Nat → Nat → List (Nat × Nat)
  | 0, _, _ => []
  | fuel + 1, lo, n =>
    if n = 0 then []
    else
      let cap := min most (pow2Floor n)
      let k := if lo = 0 then cap else min cap (Nat.gcd lo (2 ^ 64))
      (lo, k) :: cutAligned most fuel (lo + k) (n - k)

/-- Tiles cut into pieces of at most `most`. -/
def cutPlain (most : Nat) : Nat → Nat → Nat → List (Nat × Nat)
  | 0, _, _ => []
  | fuel + 1, lo, n => if n = 0 then [] else (lo, min most n) :: cutPlain most fuel (lo + min most n) (n - min most n)

def cutRuns (det : Bool) (most lo n : Nat) : List (Nat × Nat) :=
  if det then cutAligned (pow2Floor (max most 1)) n lo n else cutPlain (max most 1) n lo n

/-! ### Queries and keys -/

/-- Bytes of one element of a query or output format. -/
def elemBytes (fmt : Nat) : Nat := if fmt = 0 then 4 else 2

/-- Query rows of a KV head (R247, R248): `base` is the first element row of the sequence in the buffer. -/
def Geom.queryRows (g : Geom) (buf : Bytes) (base qpos head lo n : Nat) : List QRow :=
  let per := g.headDim * elemBytes g.qFmt
  (List.range n).map fun i =>
    let r := lo + i
    let h := head * g.group + r % g.group
    { pos := qpos + r / g.group, head := h
      q := Fp.rowVals g.qFmt g.headDim (slice buf (((base + r / g.group) * g.qHeads + h) * per) per) [] }

/-- Index of row r of a KV head in a token-then-head buffer. -/
def Geom.rowIndex (g : Geom) (base head r : Nat) : Nat := (base + r / g.group) * g.qHeads + head * g.group + r % g.group

/-! ### Fret bounds (R283) -/

def fpUp (v : Fv) : Nat := Fp.enc Fp.f32 .up v

/-- The greater of two patterns, NaN where either is NaN. -/
def fpMaxNan (a b : Nat) : Nat := if Fp.isNan a || Fp.isNan b then Fp.qnan else Fp.max a b

/-- The bound of a page for a row: fret bounds of the head's channels, then R253 steps 1 and 2, then the largest bias of the page's
buckets. -/
def Geom.rowBound (g : Geom) (m : Mods) (summary : Bytes) (head first n : Nat) (r : QRow) : Nat :=
  let base := 16 + 2 * head * g.headDim
  let val := fun (o : Nat) => Fp.dec Fp.e5m2 (rd summary (base + o) 1)
  let dot := ((r.q).zipIdx).foldl (fun (acc : Nat) (q : Fv × Nat) =>
    let z := match q.1 with | .fin _ 0 _ => true | _ => false
    let pr := if z then 0 else fpMaxNan (fpUp (Fp.vmul q.1 (val q.2))) (fpUp (Fp.vmul q.1 (val (g.headDim + q.2))))
    fpUp (Fp.vadd (Fp.toFv acc) (Fp.toFv pr))) 0
  let x := (m.capped dot).1
  match m.bias with
  | some off =>
    let bs := ((List.range n).map fun i => bucket (max r.pos (first + i) - min r.pos (first + i))).eraseDups
    Fp.add x (bs.foldl (fun (a : Nat) b => fpMaxNan a (g.biasAt off r.head b)) Fp.ninf)
  | none => x

/-- The bound of a page for a KV head: +∞ when the page is UNBOUNDED or a row's bound is NaN (R283). -/
def Geom.pageBound (g : Geom) (m : Mods) (summary : Option Bytes) (head first n : Nat) (rows : List QRow) : Nat :=
  match summary with
  | none => Fp.pinf
  | some b =>
    if bit (rd b 4 1) 0 then Fp.pinf
    else
      let xs := rows.map (g.rowBound m b head first n)
      if xs.any Fp.isNan then Fp.pinf else xs.foldl Fp.max Fp.ninf

/-- FP32 patterns in ascending order of value, as integers. -/
def fpKey (b : Nat) : Int := if Fp.sign b then -((Fp.abs b : Nat) : Int) else (Fp.abs b : Nat)

/-! ### The backward terms (R303–R309) -/

/-- A row of a backward command: its query row, dO, and the records m_f, l_f, Δ (R300, R301). -/
structure BRow where
  r : QRow
  do_ : List Fv
  mf : Nat
  lf : Nat
  delta : Nat

/-- A NaN row (R305), given every key of the range. -/
def Geom.bwdNan (g : Geom) (m : Mods) (ring : Option Nat) (keys : List KeyVal) (b : BRow) : Bool :=
  Fp.isNan b.mf || Fp.isNan b.lf || Fp.isNan b.delta || b.do_.any (· == .nan) ||
  keys.any fun k => !m.masked ring b.r.pos k.1 && (let x := (g.scoreOf m b.r k.1 (dotRef b.r.q k.2.1)).1; Fp.isNan x || x == Fp.pinf)

/-- g and p of a row and a position (R303); none where the position contributes nothing. -/
def Geom.bwdTerm (g : Geom) (m : Mods) (ring : Option Nat) (b : BRow) (rl : Nat) (k : KeyVal) : Option (Nat × Nat) :=
  if m.masked ring b.r.pos k.1 then none
  else
    let x := g.scoreOf m b.r k.1 (dotRef b.r.q k.2.1)
    let p := Fp.mul (Fp.exp (Fp.sub x.1 b.mf)) rl
    if Fp.isZero p then none
    else
      let ds := Fp.mul p (Fp.sub (dotRef b.do_ k.2.2) b.delta)
      let ds1 := match m.cap with | some _ => Fp.mul ds (Fp.sub Fp.one (Fp.mul x.2 x.2)) | none => ds
      some (Fp.mul ds1 m.scale, p)

/-- One channel vector scaled by an FP32 value, exactly. -/
def vscale (a : Nat) (v : List Fv) : List Fv := v.map fun x => Fp.vmul (Fp.toFv a) x

/-- The exact sum of vectors of n channels. -/
def vecSum (n : Nat) (vs : List (List Fv)) : List Fv :=
  (List.range n).map fun c => Fp.vsum (vs.map fun v => v.getD c (.fin false 0 0))

/-- FP32 vectors added channel by channel. -/
def vecAdd (a b : List Nat) : List Nat := List.zipWith Fp.add a b

/-- What one row gives a backward tile: its dQ, and for each key the terms (g, p), or NaN, or nothing. -/
inductive BTerm where
  | nothing
  | nan
  | terms (g p : Nat)

/-- The terms of a row over a column (R304, R305). -/
def Geom.bwdRow (g : Geom) (m : Mods) (ring : Option Nat) (col : List KeyVal) (nan : Bool) (b : BRow) : List BTerm :=
  if nan then col.map fun k => if m.masked ring b.r.pos k.1 then .nothing else .nan
  else if Fp.isZero b.lf || b.mf == Fp.ninf then col.map fun _ => .nothing
  else
    let rl := Fp.div Fp.one b.lf
    col.map fun k => match g.bwdTerm m ring b rl k with
      | some t => .terms t.1 t.2
      | none => .nothing

/-- dQ of a row within a backward tile: groups of 32 positions in order (R304). -/
def Geom.bwdDq (g : Geom) (col : List KeyVal) (nan : Bool) (ts : List BTerm) : List Nat :=
  if nan then List.replicate g.headDim Fp.qnan
  else
    (chunks 32 (List.zip ts col)).foldl (fun (a : List Nat) grp =>
      let vs := grp.filterMap fun e => match e.1 with | .terms x _ => some (vscale x e.2.2.1) | _ => none
      vecAdd a ((vecSum g.headDim vs).map Fp.round)) (List.replicate g.headDim 0)

/-- One backward tile (R304): dQ of its rows, and the column's accumulators after it. `rows` gives each row with its NaN mark. -/
def Geom.bwdTile (g : Geom) (m : Mods) (ring : Option Nat) (col : List KeyVal) (rows : List (BRow × Bool)) (accK accV : List (List Nat)) :
    List (List Nat) × List (List Nat) × List (List Nat) :=
  let ts := rows.map fun r => (g.bwdRow m ring col r.2 r.1, r)
  let dq := ts.map fun t => g.bwdDq col t.2.2 t.1
  let sums := fun (n : Nat) (pick : BTerm → BRow → Option (List Fv)) (i : Nat) =>
    vecSum n (ts.filterMap fun t => match t.1.getD i .nothing with
      | .nothing => none
      | .nan => some (List.replicate n .nan)
      | x => pick x t.2.1)
  let k := fun (x : BTerm) (b : BRow) => match x with | .terms a _ => some (vscale a b.r.q) | _ => none
  let v := fun (x : BTerm) (b : BRow) => match x with | .terms _ p => some (vscale p b.do_) | _ => none
  (dq, (accK.zipIdx).map fun a => vecAdd a.1 ((sums g.headDim k a.2).map Fp.round),
    (accV.zipIdx).map fun a => vecAdd a.1 ((sums g.dv v a.2).map Fp.round))

/-- The backward shape (R307): column span and rows of a backward tile, pages of T positions. -/
def Geom.bwdShape (g : Geom) (layer T : Nat) : Nat × Nat :=
  let per := g.streamBytes layer + 4 * (g.headDim + g.dv)
  let C := min T (pow2Floor (max 1 (163840 / max 1 per)))
  (C, min 32 (max 1 (1536 * g.macs layer / max 1 (C * (3 * g.headDim + 2 * g.dv)))))

end Sys2Proof.Machine
end

