-- ==== Sys2Proof/Machine/Flash.lean ====
section
/-! DEFINITION. Flash media: dies, sets and superblocks, capacity, units and where they are programmed (R539–R565, R581–R583). -/

namespace Sys2Proof.Machine

/-- Planes and HARD_BITS of a profile (R540). -/
def profPlanes (p : Nat) : Nat := if p = 3 then 2 else 4
def profHard (p : Nat) : Nat := match p with | 2 => 165 | 3 => 140 | _ => 150
/-- Rated wear of a block (R563): 10 × the rated TLC P/E cycles. -/
def ratedWear : Nat := 30000

def NDie.bridge (d : NDie) : Nat := d.chan / 16
def NDie.set (d : NDie) : Nat := d.target / 2
/-- Serves: active or draining. -/
def NDie.serves (d : NDie) : Bool := d.st == .active || d.st == .draining
/-- Member of its set: not yet retired (R573). -/
def NDie.member (d : NDie) : Bool := d.serves || d.st == .failed

def State.ndie (s : State) (c t : Nat) : Option NDie := s.ftl.dies.find? fun d => d.chan == c && d.target == t

def State.setNdie (s : State) (c t : Nat) (f : NDie → NDie) : State :=
  { s with ftl := { s.ftl with dies := upd (fun d => d.chan == c && d.target == t) f s.ftl.dies } }

def State.members (s : State) (b k : Nat) : List NDie := s.ftl.dies.filter fun d => d.bridge == b && d.set == k && d.member

/-- Width of a set (R545). -/
def State.width (s : State) (b k : Nat) : Nat := (s.members b k).length

def State.sset (s : State) (b k : Nat) : Option StripeSet := s.ftl.sets.find? fun x => x.bridge == b && x.num == k

def State.setSset (s : State) (b k : Nat) (f : StripeSet → StripeSet) : State :=
  { s with ftl := { s.ftl with sets := upd (fun x => x.bridge == b && x.num == k) f s.ftl.sets } }

/-! ### Capacity (R549, R555) -/

/-- Raw GiB of a bridge die's serving dies. -/
def State.rawGib (s : State) (b : Nat) : Nat := sumBy (·.gib) (s.ftl.dies.filter fun d => d.bridge == b && d.serves)

/-- User capacity of a bridge die in GiB (R549); none on a lost one. -/
def State.userGib (s : State) (b : Nat) : Nat :=
  if s.bridgeLost b then 0
  else
    let fr := (s.ftl.sets.filter fun x => x.bridge == b && x.st != 3).foldl (fun (a : Nat × Nat) x =>
      let raw := sumBy (·.gib) ((s.members b x.num).filter (·.serves))
      let w := s.width b x.num
      if w = 0 then a else (a.1 * (w * 100) + raw * (w - 1) * (100 - s.g F.OP_PCT) * a.2, a.2 * (w * 100))) (0, 1)
    fr.1 / fr.2

def unitBytes (u : NUnit) : Nat := if u.big then 65536 else 4096

/-- Bytes of user capacity in use on a bridge die. -/
def State.unitUsed (s : State) (b : Nat) : Nat := sumBy unitBytes (s.ftl.units.filter fun u => u.bridge == b)

/-- GiB of flash assigned: partitions' quotas and the replica capacity (R401, R610). -/
def State.assignedGib (s : State) : Nat :=
  sumBy (fun p => if p.st == .free then 0 else p.desc.flashGib) s.part.parts + s.g F.REPLICA_GIB

/-- Free user capacity of a bridge die in bytes. -/
def State.freeUser (s : State) (b : Nat) : Nat := s.userGib b * 2 ^ 30 - s.unitUsed b

/-- pSLC target of a bridge die in bytes (R555). -/
def State.pslcTarget (s : State) (b : Nat) : Nat :=
  let raw := s.rawGib b * 2 ^ 30
  let u := s.userGib b * 2 ^ 30
  if u = 0 then 0 else raw * (80 * u - 75 * min (s.unitUsed b) u) / (1000 * u)

/-- The pSLC target at f = 1 less 1 GiB, in whole MiB, over both bridge dies (R556, R594). -/
def State.flashBound (s : State) : Int := (((s.rawGib 0 + s.rawGib 1) * 1024 * 5 / 1000 : Nat) : Int) - 1024

/-- Groups of a superblock's row (one on each data member). -/
def SuperBlk.rowGroups (x : SuperBlk) : Nat := x.members.length - 1

/-- A unit stands in a superblock. -/
def NUnit.inSb (u : NUnit) (x : SuperBlk) : Bool := u.bridge == x.bridge && u.set == x.set && u.sb == some x.num

/-- A relocation puts a unit into a superblock. -/
def NUnit.toSb (u : NUnit) (x : SuperBlk) : Bool :=
  u.bridge == x.bridge && (match u.to_ with | some d => d.1 == x.set && d.2.1 == x.num | none => false)

/-- pSLC bytes taken by a superblock: its groups, but for folded rows whose units have all moved (R557, R558). -/
def State.pslcTaken (s : State) (x : SuperBlk) : Nat :=
  let us := s.ftl.units.filter fun u => u.inSb x
  let free := ((List.range x.folded).filter fun r => !us.any fun u => u.group / x.rowGroups == r).length
  (x.next - free * x.rowGroups) * 65536

/-- pSLC bytes taken. -/
def State.pslcUsed (s : State) : Nat := sumBy s.pslcTaken (s.ftl.sbs.filter (·.pslc))

/-- Writes under R554 wait for folding (R561). -/
def State.pslcFull (s : State) : Bool :=
  s.ftl.targets.sum < s.pslcUsed + (s.plp.budget * 2 ^ 20 + 2 ^ 30)

/-! ### Blocks and superblocks (R546) -/

def State.nblock (s : State) (c t n : Nat) : NBlock :=
  (s.ftl.blocks.find? fun b => b.chan == c && b.target == t && b.num == n).getD { chan := c, target := t, num := n }

def State.setNblock (s : State) (c t n : Nat) (f : NBlock → NBlock) : State :=
  let same := fun (b : NBlock) => b.chan == c && b.target == t && b.num == n
  { s with ftl := { s.ftl with blocks := put same (f (s.nblock c t n)) s.ftl.blocks } }

/-- Blocks of a die that hold nothing; block 0 holds the label. -/
def State.freeBlocks (s : State) (d : NDie) : Nat :=
  d.blocks - 1 - (d.bad.filter (· != 0)).length -
    (s.ftl.blocks.filter fun b => b.chan == d.chan && b.target == d.target && b.inUse && !d.bad.contains b.num).length

/-- The free block of a die with the lowest wear, then the lowest address (R546). -/
def State.bestBlock (s : State) (d : NDie) : Option Nat :=
  let mine := s.ftl.blocks.filter fun b => b.chan == d.chan && b.target == d.target
  let fresh := (List.range (mine.length + d.bad.length + 2)).find? fun n =>
    n != 0 && n < d.blocks && !d.bad.contains n && !mine.any fun b => b.num == n
  let used := (mine.filter fun b => !b.inUse && !d.bad.contains b.num).map fun b => (b.wear, b.num)
  let cands := (match fresh with | some n => [(0, n)] | none => []) ++ used
  (argMin (fun (c : Nat × Nat) => ((c.1 * 2 ^ 32 + c.2 : Nat) : Int)) cands).map (·.2)

/-- Free superblocks of a set. -/
def State.freeSb (s : State) (b k : Nat) : Nat :=
  (((s.members b k).filter fun d => d.st == .active).map s.freeBlocks).min?.getD 0

/-- Open a superblock in a mode; none when a member has no free block or fewer than four dies are active. -/
def State.openSb (s : State) (b k : Nat) (pslc : Bool) : Option State :=
  let ds := (s.members b k).filter fun d => d.st == .active
  let w := ds.length
  match s.sset b k with
  | none => none
  | some x =>
    if w < 4 ∨ x.st = 3 then none
    else
      let ms := ds.filterMap fun d => (s.bestBlock d).map fun n => (d.chan, d.target, n)
      if ms.length ≠ w then none
      else
        let d0 := ds.headD { chan := 0, target := 0 }
        let slots := d0.rows * profPlanes d0.profile * 4 * (if pslc then 1 else 3)
        let y : SuperBlk := { bridge := b, set := k, num := x.nextSb, pslc := pslc, members := ms, parity := x.nextSb % w,
                              groups := (w - 1) * (slots / 16), seqNo := s.ftl.nextSb }
        let s1 := ms.foldl (fun (a : State) m => a.setNblock m.1 m.2.1 m.2.2 fun z =>
          { z with inUse := true, pslc := pslc, reads := 0, refresh := false }) s
        some { s1.setSset b k (fun z => { z with nextSb := z.nextSb + 1 }) with ftl :=
          { (s1.setSset b k (fun z => { z with nextSb := z.nextSb + 1 })).ftl with
            sbs := s1.ftl.sbs ++ [y], nextSb := s1.ftl.nextSb + 1 } }

def State.setSb (s : State) (b k n : Nat) (f : SuperBlk → SuperBlk) : State :=
  { s with ftl := { s.ftl with sbs := upd (fun x => x.bridge == b && x.set == k && x.num == n) f s.ftl.sbs } }

/-- The member (channel, target, block) that holds a group of a superblock. -/
def SuperBlk.memberOf (x : SuperBlk) (g : Nat) : Nat × Nat × Nat :=
  let w := x.members.length
  let i := g % (w - 1)
  x.members.getD (if i < x.parity then i else i + 1) (0, 0, 0)

/-- The row of a group. -/
def SuperBlk.rowOf (x : SuperBlk) (g : Nat) : Nat := g / (x.members.length - 1)

/-! ### Rows and their parity (R547, R548, R575, R577) -/

/-- Groups of one row: a TLC row page is three flash pages of a plane (R547). -/
def SuperBlk.rowSize (x : SuperBlk) : Nat := x.rowGroups * (if x.pslc then 1 else 3)

/-- The bytes of one row page of a member: 16 KiB on each plane, three of them in TLC mode (R547). -/
def rowPageBytes (d : NDie) (pslc : Bool) : Nat := profPlanes d.profile * 16384 * (if pslc then 1 else 3)

/-- Rows whose running parity the write buffer holds: begun, their parity page not programmed (R548). -/
def SuperBlk.running (x : SuperBlk) : List Nat :=
  (List.range (ceilDiv x.next (max 1 x.rowSize))).filter fun r => decide (x.parDone ≤ r)

/-- Every data member of a row has been programmed: the row is full, or closed with filler, and no unit of it waits. -/
def State.rowWritten (s : State) (x : SuperBlk) (r : Nat) : Bool :=
  (decide ((r + 1) * x.rowSize ≤ x.next) || !x.open_) &&
  s.ftl.units.all fun u =>
    (!u.inSb x || u.group / max 1 x.rowSize != r || u.mapped) &&
    (!u.toSb x || (match u.to_ with | some d => d.2.2.1 / max 1 x.rowSize != r | none => true))

/-- The parity pages of rows whose data members are programmed are programmed next, row after row (R547). -/
def State.parityDue (s : State) : State :=
  s.ftl.sbs.foldl (fun (a : State) x =>
    let rs := (List.range (ceilDiv x.next (max 1 x.rowSize))).filter fun r => decide (x.parAsked ≤ r)
    let upto := ((rs.find? fun r => !s.rowWritten x r).getD (x.parAsked + rs.length))
    match x.members[x.parity]? with
    | some m =>
      (List.range (upto - x.parAsked)).foldl (fun (b : State) _ => b.emit (.nand m.1 m.2.1 1 m.2.2))
        (a.setSb x.bridge x.set x.num fun y => { y with parAsked := upto })
    | none => a) s

/-- Members of a row that cannot supply their part: those on FAILED or retired dies. The parity member of an open row does from its running
parity (R548), and one whose parity says nothing does not. -/
def State.cannotSupply (s : State) (x : SuperBlk) (r : Nat) : Nat :=
  (x.members.zipIdx.filter fun e =>
    let gone := match s.ndie e.1.1 e.1.2.1 with | some d => d.st == .failed || d.st == .retired | none => true
    if e.2 == x.parity then x.noPar.contains r || (gone && !x.running.contains r) else gone).length

/-- A unit cannot be read: its die has failed, and its row cannot rebuild it (R575, R577). -/
def State.unitGone3 (s : State) (u : NUnit) : Bool :=
  match s.ftl.sbs.find? (fun x => u.inSb x) with
  | some x =>
    let m := x.memberOf u.group
    (match s.ndie m.1 m.2.1 with | some d => d.st == .failed | none => false) && decide (2 ≤ s.cannotSupply x (u.group / max 1 x.rowSize))
  | none => false

/-- The T3 copy of a page has a unit that cannot be read. -/
def State.t3Unread (s : State) (p serial : Nat) : Bool :=
  s.ftl.units.any fun u => u.part == p && u.serial == serial && u.what == 0 && s.unitGone3 u

/-! ### Channel time (R557, R566) -/

/-- Queue groups wait for the NAND channels of a bridge die: programs of theirs are owed, or a move reads T3. -/
def State.nandWaits (s : State) (b : Nat) : Bool :=
  s.ftl.units.any fun u => u.bridge == b &&
    (!u.mapped || s.tier.moves.any fun m => m.srcTier == 3 && m.part == u.part && m.serial == u.serial && u.what == 0)

/-- Bytes on the channels of a bridge die count in its shares while queue groups wait. -/
def State.tookNand (s : State) (b : Nat) (f : ChanShare → ChanShare) : State :=
  let x := if s.nandWaits b then f (s.ftl.shares.getD b {}) else {}
  { s with ftl := { s.ftl with shares := nthUpd b (fun _ => x) s.ftl.shares } }

/-- Background work of a bridge die may go on: no queue group waits, or it has taken at most its share of the channels since they do, which
is BG_SHARE, and REBUILD_PM for rebuild and for folding at the target (R566). How the share is measured is the model's (assumption 80). -/
def State.bgMay (s : State) (b : Nat) (re : Bool) : Bool :=
  let x := s.ftl.shares.getD b {}
  let bg := min 500 (max 10 (s.g F.BG_CFG_BG_SHARE))
  let rb := min 900 (max 100 (s.g F.BG_CFG_REBUILD_PM))
  !s.nandWaits b || decide ((if re then x.re else x.bg) * 1000 ≤ (if re then rb else bg) * (x.host + x.bg + x.re))

/-- Background work has read and programmed bytes: charged to the device record (R430, R566). -/
def State.bgTook (s : State) (b rd wr : Nat) (re : Bool) : State :=
  ((s.tookNand b fun x => if re then { x with re := x.re + rd + wr } else { x with bg := x.bg + rd + wr }).charge1 .device .t3Rd rd).charge1
    .device .t3Wr wr

/-- PSLC_USED is at or above the target (R557). -/
def State.foldUrgent (s : State) : Bool := decide (s.ftl.targets.sum ≤ s.pslcUsed)

/-- The open superblock of a set and mode with a free group, opened when there is none. -/
def State.openFor (s : State) (b k : Nat) (pslc : Bool) : Option (State × SuperBlk) :=
  let find := fun (t : State) => t.ftl.sbs.find? fun x => x.bridge == b && x.set == k && x.pslc == pslc && x.open_ && x.next < x.groups
  match find s with
  | some x => some (s, x)
  | none => (s.openSb b k pslc).bind fun t => (find t).map fun x => (t, x)

def State.setUnit (s : State) (lua : Nat) (f : NUnit → NUnit) : State :=
  { s with ftl := { s.ftl with units := upd (fun u => u.lua == lua) f s.ftl.units } }

/-- A place in a superblock of a set, which is taken: the superblock, the group, the slot. Small units share a group of 16 slots
(R551). -/
def State.takeSlot (s : State) (b k : Nat) (pslc big : Bool) : Option (State × Nat × Nat × Nat) :=
  let step := fun (t : State) (n : Nat) => t.setSb b k n fun y => { y with next := y.next + 1, open_ := y.next + 1 < y.groups }
  let shared := if big then none else
    s.ftl.sbs.findSome? fun y => if y.bridge == b && y.set == k && y.pslc == pslc then y.small.map fun z => (y, z) else none
  match shared with
  | some (y, g, n) =>
    some (s.setSb b k y.num (fun z => { z with small := if n + 1 < 16 then some (g, n + 1) else none }), y.num, g, n)
  | none => (s.openFor b k pslc).map fun r =>
      let m := r.2.memberOf r.2.next
      let t := (step r.1 r.2.num).emit (.nand m.1 m.2.1 1 m.2.2)
      (if big then t else t.setSb b k r.2.num fun y => { y with small := some (r.2.next, 1) }, r.2.num, r.2.next, 0)

/-- Give a unit a place, where its program is not complete yet. -/
def State.placeIn (s : State) (b k : Nat) (pslc : Bool) (u : NUnit) : Option State :=
  (s.takeSlot b k pslc u.big).map fun (t, n, g, sl) =>
    t.setUnit u.lua fun v => { v with bridge := b, set := k, sb := some n, group := g, slot := sl, mapped := false }

/-- Sets of a bridge die that can take data. -/
def State.goodSets (s : State) (b : Nat) : List Nat :=
  (s.ftl.sets.filter fun x => x.bridge == b && x.st != 3 && ((s.members b x.num).filter fun d => d.st == .active).length ≥ 4).map (·.num)

/-- Place a unit that waits, in pSLC; which set takes it is the device's choice. -/
def State.placeUnit (s : State) (u : NUnit) : Option State :=
  let ks := s.goodSets u.bridge
  if ks.isEmpty ∨ s.pslcFull then none
  else
    let c := s.choose
    let k := ks.getD (c.1 % ks.length) 0
    c.2.placeIn u.bridge k true u

/-- Units that wait for pSLC room are placed while there is room (R561). -/
def State.placeWaiting (s : State) : State :=
  (s.ftl.units.filter fun u => u.sb.isNone).foldl (fun (a : State) u => (a.placeUnit u).getD a) s

/-! ### Writing and admission (R551, R552, R554, R581, R583) -/

/-- Bridge die of a new T3 copy: the one with more free user capacity, ties to B0 (R552). -/
def State.t3Bridge (s : State) : Nat :=
  if s.bridgeLost 0 then 1 else if s.bridgeLost 1 then 0 else if s.freeUser 1 > s.freeUser 0 then 1 else 0

/-- A T3 copy of b bytes is admitted: quota, and free user capacity (R226, R581). -/
def State.t3Fits (s : State) (p b : Nat) : Bool := s.fits p 3 15 b && b ≤ s.freeUser s.t3Bridge

/-- Units of `bytes` bytes are written: floor 64 KiB units, then 4 KiB units (R551). -/
def State.t3Write (s : State) (part serial what bytes : Nat) : State :=
  let b := s.t3Bridge
  let nb := bytes / 65536
  let ns := ceilDiv (bytes % 65536) 4096
  let l0 := s.ftl.nextLua
  let us := (List.range (nb + ns)).map fun i =>
    ({ lua := l0 + i, part := part, serial := serial, what := what, big := i < nb, bridge := b } : NUnit)
  let s1 := { s with ftl := { s.ftl with
    units := s.ftl.units ++ us, nextLua := l0 + nb + ns, writes := s.ftl.writes ++ [(s.now, bytes, 0)] } }
  let s2 := (s1.placeWaiting).bump F.HOST_WR_KIB (ceilDiv bytes 1024)
  if s2.ftl.units.any (fun u => u.sb.isNone) && s2.pslcFull then s2.raise Ev.PSLC_FULL else s2

/-- The programs of an object have completed (R559). -/
def State.t3Done (s : State) (part serial what : Nat) : Bool :=
  (s.ftl.units.filter fun u => u.part == part && u.serial == serial && u.what == what).all (·.mapped)

/-- The units of an object become invalid. -/
def State.t3Drop (s : State) (part serial what : Nat) : State :=
  { s with ftl := { s.ftl with units := del (fun u => u.part == part && u.serial == serial && u.what == what) s.ftl.units } }

/-- Host and background bytes written over the last 24 h (R582). -/
def State.wa24 (s : State) : Nat × Nat :=
  let w := s.ftl.writes.filter fun e => s.now < e.1 + 86400000000000
  (sumBy (·.2.1) w, sumBy (·.2.2) w)

/-- W_A × 1,000. -/
def State.waPm (s : State) : Nat := let w := s.wa24; if w.1 = 0 then 1000 else 1000 + 1000 * w.2 / w.1

/-- Wear units left on the serving dies. -/
def State.wearLeft (s : State) : Nat :=
  let ds := s.ftl.dies.filter (·.serves)
  let total := sumBy (fun d => d.blocks * ratedWear) ds
  total - sumBy (·.wear) (s.ftl.blocks.filter fun b => ds.any fun d => d.chan == b.chan && d.target == b.target)

/-- Wear that b bytes of host writes and g bytes of background writes cost, in units × 31 × block bytes (R582). -/
def wearCost (h g : Nat) : Nat := 32 * (13 * h + 10 * g)

/-- Bytes of a block in TLC mode, and dies that serve. -/
def State.blockBytes (s : State) : Nat :=
  match s.ftl.dies.find? (·.serves) with | some x => x.gib * 2 ^ 30 / max 1 x.blocks | none => 0

/-- Projected days left at the mean rate of the last 30 days, saturating (R582). -/
def State.lifeDays (s : State) : Nat :=
  let w := s.ftl.writes.filter fun e => s.now < e.1 + 30 * 86400000000000
  let cost := wearCost (sumBy (·.2.1) w) (sumBy (·.2.2) w)
  if cost = 0 then 0xFFFF else min 0xFFFF (s.wearLeft * s.blockBytes * 31 * 30 / cost)

/-- Used share of the rated wear, per mille (R582). -/
def State.lifeUsed (s : State) : Nat :=
  let total := sumBy (fun d => d.blocks * ratedWear) (s.ftl.dies.filter (·.serves))
  if total = 0 then 0 else min 1000 (1000 * (total - s.wearLeft) / total)

def designLife : Nat := 2191 * 86400000000000 + 43200000000000

/-- Bytes the write budget gains over d ns (R583): remaining wear spread over the remaining design life at the present W_A. -/
def State.budgetGain (s : State) (d : Nat) : Nat :=
  match s.ftl.dies.find? (·.serves) with
  | none => 0
  | some x =>
    let c := x.gib * 2 ^ 30 / max 1 x.blocks
    let life := designLife - (s.now - s.ftl.firstOn)
    if life = 0 then 0 else s.wearLeft * c * 31 * 1000 * d / (life * 32 * (3000 + 10 * s.waPm))

/-- Take b bytes from the write budget; none when it is empty, the write then counted as refused (R583). -/
def State.wbTake (s : State) (b : Nat) : State × Bool :=
  if s.g F.FTL_CTRL_WB_EN = 0 then (s, true)
  else
    let left := min (s.budgetGain 86400000000000) (s.ftl.budget.left + s.budgetGain (s.now - s.ftl.budget.last))
    if left < b then
      (({ s with ftl := { s.ftl with budget := ⟨left, s.now⟩ } }.bump F.WB_REFUSED).raise Ev.BUDGET_EMPTY, false)
    else ({ s with ftl := { s.ftl with budget := ⟨left - b, s.now⟩ } }, true)

end Sys2Proof.Machine
end

