-- ==== Sys2Proof/Machine/Hooks.lean ====
section
/-! DEFINITION. Policy hooks (R726, R727, R728, R738, R743): which action an event takes, and how it reaches a die's queue. -/

namespace Sys2Proof.Machine

/-- What decides an event: the fallback action while ENABLE is clear, a loaded program, or a shipped variant (R743). -/
inductive HookBy where
  | fallback
  | program
  | shipped (variant : Nat)
  deriving DecidableEq, Repr

/-- Highest variant of a hook (R743). -/
def hookVariants (h : Nat) : Nat := match h with | 3 => 2 | 4 => 0 | 8 => 0 | _ => 1

/-- Programs of an owner: its number, or 64 for the device. -/
def State.program (s : State) (owner h : Nat) : Option Program := s.pol.programs.find? fun g => g.part == owner && g.hook == h

def State.hookBy (s : State) (owner h : Nat) : HookBy :=
  if s.gps F.HOOK_CTRL_ENABLE owner h = 0 then .fallback
  else if (s.program owner h).isSome then .program
  else
    let v := s.gps F.HOOK_CTRL_VARIANT owner h
    .shipped (if v ≤ hookVariants h then v else 0)

/-- An event decided at once: a shipped variant's event is counted as run, a fallback as one (R738, R743). -/
def State.hookCount (s : State) (owner h : Nat) : State :=
  match s.hookBy owner h with
  | .fallback => s.bumpPS F.HOOK_FALLBACKS owner h
  | _ => s.bumpPS F.HOOK_EVENTS owner h

def State.hookParam (s : State) (owner h k : Nat) : Nat := s.reg F.HOOK_PARAM 0 owner h k

/-- Sequencers of a die that are not retired. -/
def State.seqrsOn (s : State) (die : Nat) : List Sequencer := s.pol.seqrs.filter fun q => q.die == die && !q.retired

def State.eventsOn (s : State) (die : Nat) : List PolEvent := s.pol.events.filter fun e => e.die == die

/-- The bridge die of an owner's events: B0 for even numbers and the device, B1 for odd ones; the other once it is lost (R728,
R738). -/
def State.hookBridge (s : State) (owner : Nat) : Nat :=
  let b := if owner < 64 then owner % 2 else 0
  if s.bridgeLost b || (s.seqrsOn (8 + b)).isEmpty then 9 - b else 8 + b

/-- The die whose sequencers run an event of a die: the bridge die with the fewer queued events once it has none (R728). -/
def State.hookDie (s : State) (owner die : Nat) : Nat :=
  if die < 8 then
    if s.dieOk die && !(s.seqrsOn die).isEmpty then die
    else if s.bridgeLost 0 then 9 else if s.bridgeLost 1 then 8
    else if (s.eventsOn 9).length < (s.eventsOn 8).length then 9 else 8
  else s.hookBridge owner

/-- Put an event on its die's queue; the answer is false when the queue is full and the fallback action is due (R727). -/
def State.hookRaise (s : State) (h owner die : Nat) (args : List Nat) (excl ctx : Nat) : State × Bool :=
  let d := s.hookDie owner die
  if (s.eventsOn d).length ≥ 1024 then
    let s1 := (s.bumpU F.SQ_OVERFLOW d).raise Ev.OVERFLOW (if owner < 64 then owner else 255)
    (s1.bumpPS F.HOOK_FALLBACKS owner h, false)
  else
    let e : PolEvent := { id := s.pol.nextEv, hook := h, part := owner, die := d, args := args, excl := excl, ctx := ctx }
    let s1 := { s with pol := { s.pol with events := s.pol.events ++ [e], nextEv := s.pol.nextEv + 1 } }
    (if (s1.eventsOn d).length = 1024 then s1.raiseU Ev.QUEUE_FULL d else s1, true)

/-- An event of this hook and exclusion class is queued or running. -/
def State.hookBusy (s : State) (h owner excl : Nat) : Bool :=
  let same := fun (e : PolEvent) => e.hook == h && e.part == owner && e.excl == excl
  s.pol.events.any same || s.pol.seqrs.any fun q => match q.running with | some e => same e | none => false

/-- A locator (R735): tier in [1:0], die in [5:2], 0xF for none. -/
def locator (tier die : Nat) : Nat := tier + (if tier ≤ 1 then die else 15) * 4

end Sys2Proof.Machine
end

