-- ==== Sys2Proof/Machine/TierOps.lean ====
section
/-! DEFINITION. The tier manager's operations (R203–R229): scores, candidates, victims, moves, admission, demand fetch, placement of
a leaf being sealed. -/

namespace Sys2Proof.Machine

/-! ### Pages of a range -/

/-- Leaves that pages of this range of a sequence belong to. -/
def Seq.leavesIn (x : Seq) (lo n : Nat) : List Nat :=
  let T := orderT x.order
  (x.leaves.filter fun e => decide (e.1 * T < lo + n) && decide (lo < (e.1 + 1) * T)).map (·.2)

/-- Pages of one layer of a range of a sequence, by partition and serial: a leaf of the view may be another partition's. -/
def Seq.layerPages (x : Seq) (layer lo n : Nat) : List (Nat × Nat) :=
  (x.leavesIn lo n).map fun h => (hPart h, hSerial h + layer)

/-- Pages of leaves, by partition and serial. -/
def State.pagesOf (s : State) (hs : List Nat) : List (Nat × Nat) :=
  hs.flatMap fun h => match s.leaf h with | some l => (List.range l.layers).map fun i => (l.part, l.serial + i) | none => []

/-- A pending prefetch is of the page. -/
def State.prefetches (s : State) (q : Prefetch) (p serial : Nat) : Bool :=
  match s.seq q.part q.seq with
  | some y => (y.layerPages q.layer q.first q.count).contains (p, serial)
  | none => false

/-! ### Scores (R217, R218) -/

def State.seedScore (s : State) (p : Nat) : Nat := Fp.round (.fin false (s.gp F.SCORE_SEED p) (-8))

/-- A page's score read now; 0 while a COLD hint holds (R230). -/
def State.scoreOf (s : State) (x : Page) : Nat :=
  if s.now < x.coldUntil then 0 else Fp.decay x.score (s.now - x.ts) (s.gp F.TIER_CTRL_HALF_LIFE x.part)

/-- The score of a leaf (R218): the mean of its layer pages' scores. The chapters name it and let nothing read it; it is rounded once
(DESIGN CHOICE, assumption 73). -/
def State.leafScore (s : State) (l : Leaf) : Nat :=
  let ps := s.sq.pages.filter fun x => x.part == l.part && decide (l.serial ≤ x.serial ∧ x.serial < l.serial + l.layers)
  Fp.round (Fp.vdiv (Fp.vsum (ps.map fun x => Fp.toFv (s.scoreOf x))) (.fin false (max 1 ps.length) 0))

/-- Add mass to a page for a sequence; mass from another sequence ends a COLD hint (R217, R230). -/
def State.addScore (s : State) (p serial a seq : Nat) : State :=
  s.setPage p serial fun x =>
    { x with score := Fp.add (Fp.decay x.score (s.now - x.ts) (s.gp F.TIER_CTRL_HALF_LIFE p)) a, ts := s.now
             coldUntil := if seq ≠ x.coldSeq then 0 else x.coldUntil }

/-! ### Copies -/

/-- Tiers of the capos that hold a leaf. -/
def State.capoTiers (s : State) (h : Nat) : List Nat := (s.pdir.capos.filter fun k => k.leaves.contains h).map (·.tier)

def State.leafHandle (s : State) (p serial : Nat) : Nat := ((s.leafAt p serial).map (·.handle)).getD 0

/-- The copy is the page's only one at or faster than the tier of a capo that holds the page (R186, R222). -/
def State.capoOnly (s : State) (c : Copy) : Bool :=
  (s.capoTiers (s.leafHandle c.part c.serial)).any fun t =>
    c.tier ≤ t && !(s.copiesOf c.part c.serial).any fun o => o.tier ≤ t && !(o.tier == c.tier && o.die == c.die)

def State.moveOf (s : State) (p serial : Nat) : Option Move := s.tier.moves.find? fun m => m.part == p && m.serial == serial

def Copy.inPool (c : Copy) (p t d : Nat) : Bool := c.part == p && c.tier == t && (t ≥ 2 || c.die == d) && !c.leaving

/-- Demotion candidates of a pool (R222), ordered by score, then older t_s, then lower serial (R223, R736). -/
def State.candidates (s : State) (p t d : Nat) : List Copy :=
  let ok := s.tier.copies.filter fun c =>
    c.inPool p t d && (s.moveOf p c.serial).isNone && c.pinUntil ≤ s.now && c.protUntil ≤ s.now && !s.capoOnly c &&
    (match s.leafAt p c.serial with | some l => s.refsKnown l | none => true)
  let keyed := ok.map fun c => (c, match s.page p c.serial with | some x => (s.scoreOf x, x.ts) | none => (0, 0))
  ((sortBy (fun e => ((e.2.1 : Nat) : Int)) (sortBy (fun e => ((e.2.2 : Nat) : Int))
    (sortBy (fun e => ((e.1.serial : Nat) : Int)) keyed)))).map (·.1)

/-! ### Moves (R206, R207) -/

/-- The copy a move reads: one named, else the fastest that can be read. -/
def State.moveSrc (s : State) (p serial : Nat) (src : Option (Nat × Nat)) : Option Copy :=
  let cs := (s.copiesOf p serial).filter (·.good)
  match src with
  | some (t, d) => cs.find? fun c => c.tier == t && (t ≥ 2 || c.die == d)
  | none => argMin (fun (c : Copy) => ((c.tier : Nat) : Int)) cs

/-- What a request for a move meets. -/
inductive MoveAns where
  | started | joined | busy | noRoom | absent
  deriving DecidableEq, Repr

/-- A move to a tier and die is requested (R207, R226). Room is taken at once; a copy to T3 is programmed from here on. -/
def State.askMove (s : State) (p serial t d : Nat) (replace backing : Bool) (why cmd useT qg : Nat) (src : Option (Nat × Nat)) :
    State × MoveAns :=
  -- no copy moves while its reference state is unknown (R33, R211)
  if !s.pageKnown p serial then (s, .busy)
  else match s.moveOf p serial with
  | some m => (s, if m.dstTier = t then .joined else .busy)
  | none =>
    match s.page p serial, s.moveSrc p serial src with
    | some x, some c =>
      let b := x.stored
      let unit := if t = 0 then some (s.t0Cluster p d) else if t = 2 then s.t2Extent p b else some 0
      let fits := if t = 3 then s.t3Fits p b else s.fits p t d b
      let budgeted := t == 3 && (why == 2 || why == 4 || why == 8)
      match fits, unit with
      | true, some u =>
        let w := if budgeted then s.wbTake b else (s, true)
        if !w.2 then (w.1, .noRoom)
        else
          let m : Move :=
            { id := s.tier.nextMove, part := p, serial := serial, srcTier := c.tier, srcDie := c.die, dstTier := t
              dstDie := if t ≤ 1 then d else 15, unit := u, bytes := b, replace := replace, backing := backing, why := why
              cmd := cmd, useT := useT, qg := qg, startT := s.now }
          let s1 := { w.1 with tier := { w.1.tier with moves := w.1.tier.moves ++ [m], nextMove := m.id + 1 } }
          -- between two stacks it is a flow over a bridge die (R29)
          (if t = 3 then s1.t3Write p serial 0 b
            else if c.tier ≤ 1 ∧ t ≤ 1 then s1.openFlow cmd (if cmd = 0 then m.id else 0) c.die d else s1, .started)
      | _, _ => (s, .noRoom)
    | _, _ => (s, .absent)

/-- A copy waits for room (R228). -/
def State.awaitRoom (s : State) (p serial t d bytes until_ why cmd : Nat) (f : Nat := 0) : State :=
  if s.tier.waits.any fun w => w.part == p && w.serial == serial && w.tier == t && w.cmd == cmd then s
  else
    let w : AdmitWait := { id := s.tier.nextWait, part := p, serial := serial, tier := t, die := d, bytes := bytes,
                           until_ := until_, why := why, cmd := cmd, f := f }
    { s with tier := { s.tier with waits := s.tier.waits ++ [w], nextWait := w.id + 1 } }

/-- Stack of a T1 copy the device makes without a die named, for SEQ_ID low byte f (R810). -/
def State.stackFor (s : State) (p serial f : Nat) : Option Nat :=
  match s.sq.leaves.find? fun l => l.part == p && decide (l.serial ≤ serial ∧ serial < l.serial + l.layers) with
  | some l => s.t1Stack p l.leafNo (serial - l.serial) f
  | none => s.t1Stack p 0 0 f

/-- The page has a T0 or T1 copy that can be read (R205). -/
def State.near (s : State) (p serial : Nat) : Bool := (s.copiesOf p serial).any fun c => c.tier ≤ 1 && c.good

/-- Pages that decoding a page reads: itself, and of a delta page its base page (R205, R340). -/
def State.decodeSet (s : State) (p serial : Nat) : List (Nat × Nat) :=
  (p, serial) :: match s.page p serial with
    | some x => if x.base = 0 then [] else [(hPart x.base, hSerial x.base)]
    | none => []

/-- What is left of a span of positions without some others: first, count. -/
def cutSpan (sp cut : Nat × Nat) : List (Nat × Nat) :=
  let hi := sp.1 + sp.2
  let to_ := cut.1 + cut.2
  if to_ ≤ sp.1 ∨ hi ≤ cut.1 then [sp]
  else (if sp.1 < cut.1 then [(sp.1, cut.1 - sp.1)] else []) ++ if to_ < hi then [(to_, hi - to_)] else []

/-- A pending prefetch without the pages of a list. -/
def State.without (s : State) (ks : List (Nat × Nat)) (q : Prefetch) : List Prefetch :=
  match s.seq q.part q.seq with
  | none => [q]
  | some y =>
    let T := orderT y.order
    let cuts := (y.leaves.filter fun e => ks.contains (hPart e.2, hSerial e.2 + q.layer)).map fun e => (e.1 * T, T)
    (cuts.foldl (fun (sps : List (Nat × Nat)) c => sps.flatMap fun sp => cutSpan sp c) [(q.first, q.count)]).map fun sp =>
      { q with first := sp.1, count := sp.2 }

/-- Work has reached a page: a prefetch of it that is due, put to its hook or waiting for another move becomes the demand fetch (R235);
the answer says that there was one. -/
def State.takePrefetch (s : State) (p serial : Nat) : State × Bool :=
  let of_ := fun (m : Move) => m.why == 1 && m.part == p && m.serial == serial
  let asked := fun (e : PolEvent) => e.hook == 5 && e.part == p &&
    s.prefetches { part := p, seq := e.args.getD 1 0, layer := e.args.getD 2 0, first := e.args.getD 3 0, count := e.args.getD 4 0
                   issueT := 0, useT := 0, t0 := false, qg := 0, group := 0 } p serial
  let late := (s.tier.prefetches.any fun q => s.prefetches q p serial) || s.tier.behind.any of_ || s.tier.asks.any of_ ||
    s.pol.events.any asked || s.pol.seqrs.any fun q => match q.running with | some e => asked e | none => false
  ({ s with tier := { s.tier with
      prefetches := s.tier.prefetches.flatMap fun q => if s.prefetches q p serial then s.without [(p, serial)] q else [q]
      behind := del of_ s.tier.behind
      asks := del of_ s.tier.asks } }, late)

/-- A demand fetch (R205, R207, R228, R235): the page is brought to T1 and the work waits. A prefetch of it becomes the demand fetch. Where no
stack has quota, or another move of the page runs, it waits like one without room. -/
def State.demandFetch (s : State) (p serial f cmd why : Nat) : State :=
  if s.near p serial then s
  else match s.moveOf p serial with
    | some m =>
      if m.why = 1 then
        let a := (s.takePrefetch p serial).1
        let ms := upd (fun x => x.id == m.id) (fun x => { x with why := why, cmd := cmd }) a.tier.moves
        (({ a with tier := { a.tier with moves := ms } }.bumpP F.LATE_PREFETCH p).bumpP F.DEMAND_FETCHES p).raise Ev.LATE_PREFETCH p
      else
        let r := s.takePrefetch p serial
        let a := if r.2 then (r.1.bumpP F.LATE_PREFETCH p).raise Ev.LATE_PREFETCH p else r.1
        if m.dstTier ≤ 1 then a else a.awaitRoom p serial 1 15 m.bytes (s.now + s.gp F.ADMIT_WAIT p * 1000) 6 cmd f
    | none =>
      if s.tier.waits.any fun w => w.part == p && w.serial == serial && w.cmd == cmd then s
      else
        let r := s.takePrefetch p serial
        let s0 := if r.2 then (r.1.bumpP F.LATE_PREFETCH p).raise Ev.LATE_PREFETCH p else r.1
        match s0.page p serial with
        | some x =>
          let s1 := s0.bumpP F.DEMAND_FETCHES p
          let wait := fun (a : State) (d : Nat) => a.awaitRoom p serial 1 d x.stored (a.now + a.gp F.ADMIT_WAIT p * 1000) 6 cmd f
          match s1.stackFor p serial f with
          | none => wait s1 15
          | some d =>
            match s1.askMove p serial 1 d false false why cmd 0 0 none with
            | (s2, .noRoom) => wait s2 d
            | (s2, .busy) => wait s2 d
            | (s2, _) => s2
        | none => s0

/-- Everything that decoding a page reads is brought to T1 (R205). -/
def State.demandAll (s : State) (p serial f cmd why : Nat) : State :=
  (s.decodeSet p serial).foldl (fun (a : State) k => a.demandFetch k.1 k.2 f cmd why) s

/-! ### Demotion (R219–R227, R739) -/

def State.pool (s : State) (p t d : Nat) : Pool :=
  (s.tier.pools.find? fun x => x.part == p && x.tier == t && x.die == d).getD { part := p, tier := t, die := d }

def State.setPool (s : State) (p t d : Nat) (st : PoolSt) : State :=
  let x : Pool := { s.pool p t d with st := st }
  { s with tier := { s.tier with pools := put (fun y => y.part == p && y.tier == t && y.die == d) x s.tier.pools } }

/-- WM_HIGH and WM_LOW of a pool for its partition (R220, R244); WM_LOW acts as at most WM_HIGH (R765). -/
def State.marks (s : State) (p t d : Nat) : Nat × Nat :=
  let u := if t ≤ 1 then 1 else 0
  let pg := if t ≤ 1 then d + 1 else 0
  let hi := s.cm (Fld.wmHigh 0x0B u t) pg p
  (hi, min hi (s.cm (Fld.wmLow 0x0B u t) pg p))

/-- Something waits for room in the pool. -/
def State.poolWanted (s : State) (p t d : Nat) : Bool :=
  (s.tier.waits.any fun w => w.part == p && w.tier == t && (t ≥ 2 || w.die == d)) ||
  (s.sq.seals.any fun j => j.part == p && j.step == 3 && j.waitUntil != 0 && j.want.getLast? == some t)

/-- The pool may return to IDLE: at WM_LOW or below, nothing over its quota or waiting (R220, R227). -/
def State.poolDone (s : State) (p t d : Nat) : Bool :=
  s.level p t d ≤ (s.marks p t d).2 && s.used p t d ≤ s.quota p t d && !s.poolWanted p t d

/-- A leaf whose directory reference is dropped (R160). -/
def State.dropRetained (s : State) (l : Leaf) : State := ((s.bumpP F.RETAINED_DROPS l.part).unpublish l).sweep

/-- A victim leaves its pool in the first way of R224 that applies; none when it is no victim. -/
def State.takeVictim (s : State) (c : Copy) : Option State :=
  let p := c.part
  let count := fun (t : State) => t.bumpP F.EVICTIONS p
  match s.page p c.serial with
  | none => none
  | some x =>
    let moveTo := fun (t d : Nat) => match s.askMove p c.serial t d true true 2 0 0 0 (some (c.tier, c.die)) with
      | (s1, .started) => some (count s1)
      | _ => none
    let retained := match s.leafAt p c.serial with
      | some l => if s.retained l then some (count (s.dropRetained l)) else none
      | none => none
    if !c.backing then some (count (s.dropCopy p c.serial c.tier c.die))
    else if c.tier = 1 then
      let t2 := if x.cls = 0 ∧ s.quota p 2 15 ≠ 0 ∧ s.fits p 2 15 x.stored then moveTo 2 15 else none
      match t2 with
      | some r => some r
      | none => match moveTo 3 15 with | some r => some r | none => retained
    else if c.tier = 2 then (match moveTo 3 15 with | some r => some r | none => retained)
    else retained

/-- The first candidate that can leave. -/
def State.firstVictim (s : State) (cs : List Copy) : Option State := cs.findSome? s.takeVictim

/-- The order a shipped variant gives the candidates (R743). Variant 2 is the program of "An eviction program". -/
def State.demoteOrder (s : State) (p v : Nat) (cs : List Copy) : List Copy :=
  let ts := fun (c : Copy) => match s.page p c.serial with | some x => x.ts | none => 0
  if v = 1 then sortBy (fun c => ((ts c : Nat) : Int)) (sortBy (fun c => ((c.serial : Nat) : Int)) cs)
  else if v = 2 then
    let n := (max 1 (signed 32 (s.hookParam p 3 0))).toNat
    let head := cs.take n
    let sc := fun (c : Copy) => match s.page p c.serial with | some x => s.scoreOf x | none => 0
    let by_ := fun (c : Copy) => Fp.ofInt c.bytes
    let pick := match head.find? fun c => !c.backing with
      | some c => some c
      | none => head.foldl (fun (a : Option Copy) c => match a with
          | none => some c
          | some b => if Fp.lt (Fp.mul (sc c) (by_ b)) (Fp.mul (sc b) (by_ c)) then some c else some b) none
    match pick with
    | some c => c :: cs.filter (fun x => !(x.serial == c.serial && x.tier == c.tier && x.die == c.die))
    | none => cs
  else cs

/-- A DEMOTE result that names a candidate which can leave is taken, else the fallback victim (R738, R739). -/
def State.demoteResult (s : State) (p t d handle loc : Nat) : State :=
  let cs := s.candidates p t d
  let named := cs.find? fun c => locator c.tier c.die == loc &&
    (match s.page p c.serial with | some x => x.handle == handle | none => false)
  match named.bind s.takeVictim with
  | some s1 => s1
  | none => (s.firstVictim cs).getD s

/-! ### Admission hook and promotion (R228, R229, R738) -/

/-- Score of a page and stored bytes as event arguments. -/
def State.pageArgs (s : State) (p serial : Nat) : Nat × Nat :=
  match s.page p serial with | some x => (s.scoreOf x, x.stored) | none => (0, 0)

/-- The shipped ADMIT program (R229): T0 copies whose score is below the lowest of the partition's T0 copies on the die are declined. No
event makes a T0 copy for a DELIVER alone: only attention tiles raise PROMOTE. -/
def State.admitDefault (s : State) (p serial t d : Nat) : Bool :=
  if t ≠ 0 then true
  else
    let sc := fun (k : Nat) => (s.pageArgs p k).1
    let here := s.tier.copies.filter fun c => c.inPool p 0 d
    here.isEmpty || here.any fun c => !Fp.lt (sc serial) (sc c.serial)

/-- R204: where the backing copy of a page may lie. -/
def State.backingMay (s : State) (x : Page) (from_ t : Nat) : Bool :=
  match x.cls with
  | 0 => t != 0
  | 1 => t == 3 || (t == 1 && s.dAdmits x.part x.stored (if from_ = 1 then x.stored else 0))
  | _ => t == 3

/-- The limits of a program's move of copy c to tier t (R204, R209): where it replaces the backing copy, the new one must be allowed to
be it, and a capo keeps a copy at or faster than its tier. -/
def State.moveMay (s : State) (x : Page) (c : Copy) (t : Nat) (replace : Bool) : Bool :=
  let capo := (s.capoTiers (s.leafHandle x.part x.serial)).any fun k =>
    decide (c.tier ≤ k ∧ k < t) && !(s.copiesOf x.part x.serial).any fun o => o.tier ≤ k && !(o.tier == c.tier && o.die == c.die)
  !replace || (!capo && (!c.backing || s.backingMay x c.tier t))

/-- A copy asked for by a prefetch (why 1), a program or a promotion (why 3), as its move would stand. -/
def State.askedMove (s : State) (p serial t d : Nat) (replace : Bool) (why useT qg : Nat) (src : Option (Nat × Nat)) : Move :=
  { id := s.tier.nextMove, part := p, serial := serial, srcTier := (src.map (·.1)).getD 15, srcDie := (src.map (·.2)).getD 15
    dstTier := t, dstDie := d, bytes := (s.pageArgs p serial).2, replace := replace, backing := false, why := why, useT := useT
    qg := qg, startT := s.now }

/-- The move asked for is admitted without a wait for room, within its limits (R210, R226, R228). It waits while another move of the page
runs (R207), or while its reference state is unknown (R211). -/
def State.admitAsked (s : State) (m : Move) : State × MoveAns :=
  let src := if m.srcTier = 15 then none else some (m.srcTier, m.srcDie)
  let r := match s.page m.part m.serial, s.moveSrc m.part m.serial src with
    | some x, some c =>
      if s.moveMay x c m.dstTier m.replace then
        s.askMove m.part m.serial m.dstTier m.dstDie m.replace (m.replace && c.backing) m.why 0 m.useT m.qg src
      else (s, .noRoom)
    | _, _ => (s, .absent)
  if r.2 == .noRoom && m.why == 1 then (r.1.bumpP F.PREFETCH_SKIPPED m.part, r.2)
  else if r.2 == .busy then ({ r.1 with tier := { r.1.tier with behind := r.1.tier.behind ++ [m] } }, r.2)
  else r

/-- Requests that waited for the end of another move of their page (R207). -/
def State.takeBehind (s : State) : State :=
  let ready := s.tier.behind.filter fun m => (s.moveOf m.part m.serial).isNone && s.pageKnown m.part m.serial
  let s1 := { s with tier := { s.tier with behind := s.tier.behind.filter fun m => !ready.contains m } }
  ready.foldl (fun (a : State) m => (a.admitAsked m).1) s1

/-- A prefetch (why 1) or a program's or promotion's copy (why 3) is put to the ADMIT hook, then admitted without a wait. A program's
ADMIT answers later: the move counts as issued (R748). -/
def State.softAsk (s : State) (p serial t d : Nat) (replace : Bool) (why useT qg : Nat) (src : Option (Nat × Nat)) : State × MoveAns :=
  let m := s.askedMove p serial t d replace why useT qg src
  match s.hookBy p 2 with
  | .fallback => (s.hookCount p 2).admitAsked m
  | .shipped v => if v = 1 ∨ s.admitDefault p serial t d then (s.hookCount p 2).admitAsked m else (s.hookCount p 2, .noRoom)
  | .program =>
    let a := s.pageArgs p serial
    let h := ((s.page p serial).map (·.handle)).getD 0
    match s.hookRaise 2 p (if t ≤ 1 then d else 8) [h, locator t d, a.1, a.2, if why = 1 then 0 else 1] 0 m.id with
    | (s1, true) => ({ s1 with tier := { s1.tier with asks := s1.tier.asks ++ [m], nextMove := m.id + 1 } }, .started)
    | (s1, false) => s1.admitAsked m

def State.softMove (s : State) (p serial t d : Nat) (replace : Bool) (why useT qg : Nat) (src : Option (Nat × Nat)) : State :=
  (s.softAsk p serial t d replace why useT qg src).1

/-- A tile on a die has read a T1 copy of a page (R738 PROMOTE): at most one event per page and die each 1 ms. -/
def State.promote (s : State) (p serial d : Nat) : State :=
  match s.page p serial with
  | none => s
  | some x =>
    let recent := x.promoted.any fun e => e.1 == d && decide (s.now < e.2 + 1000000)
    if recent || (s.copyAt p serial 0 d).isSome || (s.copyAt p serial 1 d).isNone then s
    else
      let s1 := s.setPage p serial fun y => { y with promoted := alSet d s.now y.promoted }
      let sc := s.scoreOf x
      match s.hookBy p 1 with
      | .fallback => s1.hookCount p 1
      | .shipped v =>
        let s2 := s1.hookCount p 1
        if v = 0 ∧ !Fp.lt sc (Fp.round (.fin false (s.hookParam p 1 0) (-8))) then s2.softMove p serial 0 d false 3 0 0 none else s2
      | .program => (s1.hookRaise 1 p d [x.handle, locator 1 d, sc, x.stored] 0 serial).1

/-! ### Placement of a leaf being sealed (R98, R123 step 3, R212, R228) -/

/-- Page l of a job is placed in a tier: its summary on the stack of R213, then its copies; none where one does not fit. The state
carries what the pages placed before it have taken. -/
def State.placePage (s : State) (j : SealJob) (x : Page) (t : Nat) (cached : Bool) (f : Nat) : Option (State × Page × List Copy) :=
  let p := j.part
  let layer := x.layer
  match s.t1Stack p j.leafNo layer f with
  | none => none
  | some sd =>
    if s.used p 1 sd + x.sumBytes > s.quota p 1 sd then none
    else
      let x1 := { x with sumStack := sd }
      let s1 := { s with sq := { s.sq with pages := s.sq.pages ++ [x1] } }
      let d := if j.die < 8 then j.die else sd
      let b := x.stored
      let mk := fun (tier : Nat) (back : Bool) (unit : Nat) =>
        ({ part := p, serial := x.serial, tier := tier, die := if tier ≤ 1 then d else 15, bytes := b, backing := back, unit := unit } : Copy)
      let main := if t = 1 then (if s1.fits p 1 d b then some (mk 1 true 0) else none)
        else if t = 2 then (if s1.quota p 2 15 ≠ 0 ∧ s1.fits p 2 15 b then (s1.t2Extent p b).map (mk 2 true) else none)
        else (if s1.t3Fits p b then some (mk 3 true 0) else none)
      match main with
      | none => none
      | some c =>
        let s2 := s1.addCopy c
        if cached && t ≠ 1 && s2.fits p 1 d b then some (s2.addCopy (mk 1 false 0), x1, [c, mk 1 false 0])
        else some (s2, x1, [c])

/-- All pages of a job placed in a tier, or none. -/
def State.placeAll (s : State) (j : SealJob) (t : Nat) (cached : Bool) (f : Nat) : Option (List Page × List Copy) :=
  (j.pages.foldl (fun (a : Option (State × List Page × List Copy)) x =>
    a.bind fun r => (r.1.placePage j x t cached f).map fun y => (y.1, r.2.1 ++ [y.2.1], r.2.2 ++ y.2.2)) (some (s, [], []))).map (·.2)

/-- Pages placed: each fret summary gets its address in T1, which one is the device's choice (R98, R99). -/
def State.giveSums (s : State) (ps : List Page) : List Page :=
  ps.zipIdx.map fun x => { x.1 with sumAddr := Config.freeChoice (s.free + x.2) }

/-- Slot bytes of the counted granules of a leaf. -/
def State.leafSlots (s : State) (j : SealJob) : Nat :=
  sumBy (·.slot) (s.sq.granules.filter fun g =>
    g.part == j.part && g.seq == j.seq && j.first ≤ g.first && g.first < j.first + j.count && g.counted)

/-- Room for the leaf in the D budget, its stored bytes in place of its granules' (R597). -/
def State.leafD (s : State) (j : SealJob) : Bool := s.dAdmits j.part (sumBy (·.stored) j.pages) (s.leafSlots j)

/-- The shipped placement (R212, R743): tiers in order of preference and whether a cached T1 copy is asked for. -/
def State.defaultPlace (s : State) (j : SealJob) (v : Nat) : List Nat × Bool :=
  match j.cls with
  | 0 => if v = 1 then ([3], true) else ([1] ++ (if s.quota j.part 2 15 = 0 then [] else [2]) ++ [3], false)
  | 1 => if s.leafD j then ([1], false) else ([3], true)
  | _ => ([3], true)

/-- A class V seal to T3 draws on the write budget (R583). -/
def State.sealBudget (s : State) (j : SealJob) (t : Nat) : State × Bool :=
  if t = 3 ∧ j.cls = 0 then s.wbTake (sumBy (·.stored) j.pages) else (s, true)

def State.setJob (s : State) (p q leaf : Nat) (f : SealJob → SealJob) : State :=
  { s with sq := { s.sq with seals := upd (fun j => j.part == p && j.seq == q && j.leafNo == leaf) f s.sq.seals } }

def State.job (s : State) (p q leaf : Nat) : Option SealJob :=
  s.sq.seals.find? fun j => j.part == p && j.seq == q && j.leafNo == leaf

/-- The measured ratio and mean decode steps of a layer (R351), at their start while nothing has been measured. -/
def State.ratioOf (s : State) (p layer : Nat) : Ratio :=
  (s.att.ratios.find? fun r => r.part == p && r.layer == layer).getD
    { part := p, layer := layer, steps := (268, 1)
      ratio := (((s.geom p).bind fun g => (codecTable g.raw g.codecOff (g.layer layer).codecK).map (·.expect)).getD 256, 256) }

def State.setRatio (s : State) (r : Ratio) : State :=
  { s with att := { s.att with ratios := put (fun x => x.part == r.part && x.layer == r.layer) r s.att.ratios } }

/-- One step of the average of R351: r + (v − r) / 2^a, both exact fractions. -/
def ewma (r v : Nat × Nat) (a : Nat) : Nat × Nat :=
  let n := r.1 * v.2 * (2 ^ a - 1) + v.1 * r.2
  let d := r.2 * v.2 * 2 ^ a
  let k := max 1 (Nat.gcd n d)
  (n / k, d / k)

/-- A page of the layer was sealed at this ratio (R351). -/
def State.sawRatio (s : State) (p layer : Nat) (v : Nat × Nat) : State :=
  let r := s.ratioOf p layer
  s.setRatio { r with ratio := ewma r.ratio v (s.gp F.CDC_CTRL_RATIO_ALPHA p) }

/-- A block of the layer was decoded in n steps (R351). -/
def State.sawSteps (s : State) (p layer n : Nat) : State :=
  let r := s.ratioOf p layer
  s.setRatio { r with steps := ewma r.steps (n, 1) (s.gp F.CDC_CTRL_RATIO_ALPHA p) }

/-- Image and blocks of a page's base page. -/
def State.baseOf (s : State) (x : Page) : Option (Bytes × List CBlock) :=
  if x.base = 0 then none else (s.page (hPart x.base) (hSerial x.base)).map fun (b : Page) => (b.image, b.blocks)

/-- Encode steps of a page's blocks, each coded against the matching block of its base page where it has one (R349). -/
def State.pageEncSteps (s : State) (ge : Geom) (T : Nat) (x : Page) : List Nat :=
  let base := match s.baseOf x, ge.sets x.layer with
    | some b, some t => pageSteps ge x.layer T b.1 b.2 none t
    | _, _ => []
  (List.range x.blocks.length).map fun i => encSteps (fieldMap (planeSegs ge x.layer T) i) + base.getD i 0

/-- Charge work of a seal: to its command, or to the group of its auto seal (R429, R430). -/
def State.chargeSeal (s : State) (j : SealJob) (k : Ctr) (n : Nat) (isNs : Bool) : State :=
  if j.cmd ≠ 0 then s.chargeCmd j.cmd k n isNs else s.charge j.part j.qg k n

def State.codec (s : State) (b : Nat) : Codec := (s.att.codecs.find? fun k => k.die == 8 + b).getD { die := 8 + b, lanes := [], okLanes := [] }

def State.setCodec (s : State) (k : Codec) : State :=
  { s with att := { s.att with codecs := upd (fun x => x.die == k.die) (fun _ => k) s.att.codecs } }

/-- The codec that serves a bridge die: the other one once all its lanes have failed (R354), or the die is lost (R38). -/
def State.codecFor (s : State) (b : Nat) : Nat := if !s.bridgeLost b && (s.codec b).okLanes.any id then b else 1 - b

/-- A block is queued for a lane; the first of an empty queue is marked (R353). -/
def State.queueBlock (s : State) (b : Nat) (j : CodecJob) : State :=
  let k := s.codec (s.codecFor b)
  let first := !k.queue.any fun x => x.part == j.part && x.qg == j.qg
  s.setCodec { k with queue := k.queue ++ [{ j with first := first }] }

/-- The bridge die of a port: the four CXL ports, then the four Ethernet ports, of each. -/
def bridgeOfPort (i : Nat) : Nat := i / 4 % 2

/-- The port a T2 copy is reached through: its extent's lowest. -/
def State.extentPort (s : State) (unit : Nat) : Nat :=
  (s.cxl.extents.find? fun e => e.idx == unit).elim 0 fun e => ((List.range 16).find? fun i => bit e.ports i).getD 0

/-- A coded block failed its CRC (R325, R338): counted for its partition, and where a block checker saw it, at its bridge die. -/
def State.crcSeen (s : State) (p : Nat) (bridge : Option Nat) : State :=
  let s1 := (s.bumpP F.CRC_ERRORS p).raise Ev.CRC_ERROR p
  match bridge with
  | some b => (s1.bumpU F.SC_CRC_ERR b).raiseU Ev.SC_CRC_ERROR b
  | none => s1

/-- The blocks of a seal as encode jobs of a stream codec (R327, R349). -/
def State.encodeJobs (s : State) (ge : Geom) (T : Nat) (j : SealJob) : List CodecJob :=
  let qg := ((s.cmd j.cmd).map fun c => c.qg).getD j.qg
  j.pages.flatMap fun x => (x.blocks.zip (s.pageEncSteps ge T x)).map fun b =>
    { part := j.part, qg := qg, bytes := 4096, since := s.now, decode := false, owner := j.cmd, stored := b.1.size
      steps := b.2, layer := x.layer, forSeal := some (j.part, j.seq, j.leafNo) }

/-- The seal tiles of a leaf on the expanders of its staging home die (R327): one for each coded block, in one run for each page; they are released
ahead of both classes (R413). -/
def State.sealRuns (s : State) (ge : Geom) (x : Seq) (j : SealJob) : State :=
  let qg := ((s.cmd j.cmd).map fun c => c.qg).getD j.qg
  let runs := j.pages.zipIdx.map fun (e : Page × Nat) =>
    let steps := s.pageEncSteps ge (orderT x.order) e.1
    ({ id := s.part.nextRun + e.2, cmd := 0, part := j.part, qg := qg, cls := 2, item := e.1.layer, first := 0, count := steps.length
       home := x.home, die := x.home, leaf := some (j.part, j.seq, j.leafNo), steps := steps } : Run)
  { s with part := { s.part with runs := s.part.runs ++ runs.filter (fun r => r.count != 0), nextRun := s.part.nextRun + runs.length } }

/-- The engine that codes a leaf placed in tier t (R327): where its hook named T2 or T3 with no cached T1 copy and STREAM_SEAL_EN is set, the
stream codec of the bridge die that owns the destination port or channel; else the expanders of its staging home die. A partition without a
core has no expander, and its leaves are coded by the stream codec, of which the spec says nothing (DESIGN CHOICE, assumption 77). -/
def State.codeSeal (s : State) (j : SealJob) (t : Nat) (cs : List Copy) : State :=
  match s.geom j.part, s.seq j.part j.seq with
  | some ge, some x =>
    if (j.want.headD t < 2 ∨ t < 2 ∨ j.cached ∨ s.gp F.CDC_CTRL_STREAM_SEAL_EN j.part = 0) ∧ !(s.coresOf j.part).isEmpty then s.sealRuns ge x j
    else
      let own := if t = 3 then s.t3Bridge else (cs.find? fun c => c.tier == 2).elim 0 fun c => bridgeOfPort (s.extentPort c.unit)
      (s.encodeJobs ge (orderT x.order) j).foldl (fun (a : State) b => a.queueBlock own b) s
  | _, _ => s

/-- Cores or a stream codec still code blocks of the leaf. -/
def State.coding (s : State) (j : SealJob) : Bool :=
  let mine := fun (b : CodecJob) => b.forSeal == some (j.part, j.seq, j.leafNo)
  (s.part.runs.any fun r => r.leaf == some (j.part, j.seq, j.leafNo)) || s.att.codecs.any fun k => k.queue.any mine || k.lanes.any fun l => l.any mine

/-- The leaf is placed in a tier: its blocks are coded on the engine of R327, programs start for T3 (R123 steps 2 to 4). -/
def State.placed (s : State) (j : SealJob) (t : Nat) (ps : List Page) (cs : List Copy) : State :=
  let s0 := if j.coded then s else s.codeSeal { j with pages := ps } t cs
  let s1 := s0.setJob j.part j.seq j.leafNo fun k =>
    { k with pages := ps, copies := cs, step := if t = 3 then 4 else 5, waitUntil := 0, coded := true }
  if t = 3 then ps.foldl (fun (a : State) x => a.t3Write x.part x.serial 0 x.stored) s1 else s1

/-- Try to place a job under its preferences; without room at the last tier the wait of R126 begins. -/
def State.tryPlace (s : State) (j : SealJob) : State :=
  let f := if j.seq < 2 ^ 48 then j.seq % 256 else 0
  let r := j.want.foldl (fun (a : State × Bool) t =>
    if a.2 then a
    else match a.1.placeAll j t j.cached f with
      | some (ps, cs) =>
        (match a.1.sealBudget j t with
         | (s1, true) => (s1.placed j t ps cs, true)
         | (s1, false) => (s1, false))
      | none => a) (s, false)
  if r.2 then r.1
  else r.1.setJob j.part j.seq j.leafNo fun k => { k with step := 3, waitUntil := if k.waitUntil = 0 then s.now + 1000000 else k.waitUntil }

/-! ### What waits is tried again when room may have appeared -/

/-- A wait whose copy now fits starts its move; one whose copy there is already ends. -/
def State.tryWait (s : State) (w : AdmitWait) : State :=
  let gone := { s with tier := { s.tier with waits := del (fun x => x.id == w.id) s.tier.waits } }
  let evac := w.why == 7
  let why := if w.why = 6 then 0 else if w.why = 5 then 7 else if evac then 8 else 5
  let have_ := !evac && (s.copiesOf w.part w.serial).any fun c => decide (c.tier ≤ w.tier) && c.good
  let die := if w.tier = 1 ∧ w.die = 15 then s.stackFor w.part w.serial w.f else some w.die
  if have_ then gone
  else match die with
    | none => s
    | some d =>
      match gone.askMove w.part w.serial w.tier d evac evac why w.cmd 0 0 (if evac then some (2, 15) else none) with
      | (_, .noRoom) => s
      | (_, .busy) => s
      | (s1, _) => s1

/-- The copies that stand in an extent being released leave it (R241): cached ones are discarded, backing ones move to T3. -/
def State.evacuate (s : State) (e : Extent) : State :=
  let mine := s.tier.copies.filter fun c => c.tier == 2 && c.unit == e.idx && !c.leaving
  let s1 := (mine.filter fun c => !c.backing).foldl (fun (a : State) c => a.dropCopy c.part c.serial 2 c.die) s
  (mine.filter (·.backing)).foldl (fun (a : State) c =>
    if (a.moveOf c.part c.serial).any fun m => m.dstTier == 3 && m.replace && m.srcTier == 2 then a
    else match a.askMove c.part c.serial 3 15 true true 8 0 0 0 (some (2, c.die)) with
      | (b, .started) => b
      | (b, _) => b.awaitRoom c.part c.serial 3 15 c.bytes e.evacUntil 7 0) s1

def State.pump (s : State) : State :=
  let s0 := (s.cxl.extents.filter fun e => e.kind == 1 && e.st == .releasing).foldl (fun (a : State) e => a.evacuate e) s.takeBehind
  let s1 := s0.tier.waits.foldl (fun (a : State) w => a.tryWait w) s0
  (s1.sq.seals.filter fun j => j.step == 3 && j.waitUntil != 0).foldl (fun (a : State) j => a.tryPlace j) s1

end Sys2Proof.Machine
end

