-- ==== Sys2Proof/Machine/Dir.lean ====
section
/-! DEFINITION. The prefix directory's operations (R139–R197): the local index, shard entries, publication, sharing groups and their
declarations, capos. -/

namespace Sys2Proof.Machine

/-! ### The local index (R156, R174) -/

/-- The published leaf with an entry key, as partition p sees it: a private namespace belongs to one partition (R139, R151). -/
def State.indexed (s : State) (p ns order : Nat) (chain : Bytes) : Option Leaf :=
  s.leaves.find? fun l =>
    l.published && l.ns == ns && (ns != 0 || l.part == p) && l.order == order && l.chain == some chain

/-- Leaf records the device holds or has promised to a coded seal or an import, and room for them: 32 Mi for each 2 GiB (R158, R195). -/
def State.indexFull (s : State) : Bool :=
  s.leaves.length + (s.sq.seals.filter fun j => decide (2 ≤ j.step ∧ j.step ≤ 5)).length ≥ s.g F.INDEX_RSV * 16 * 2 ^ 20

/-- The 64-byte leaf record (R158). The directory caches hold parts of these records and nothing else. -/
def State.leafRecord (s : State) (l : Leaf) : Bytes :=
  let ch := (l.chain.getD [] ++ List.replicate 16 0).take 16
  let pinned := s.pdir.capos.any fun k => k.cmd == 0 && k.leaves.contains l.handle
  let fl := (if l.published then 1 else 0) + (if pinned then 2 else 0) + l.cls * 4 + if l.imported then 16 else 0
  let b := ch ++ leBytes 4 l.ns ++ leBytes 1 l.order ++ leBytes 1 fl ++ leBytes 2 l.geom ++ leBytes 8 l.variant ++ leBytes 8 l.handle ++
    leBytes 4 (s.refs l) ++ leBytes 4 l.leafNo ++ leBytes 8 l.pubT ++ leBytes 4 (shardOf ch)
  b ++ leBytes 4 (crc32c b)

/-! ### Shard entries (R168, R192) -/

/-- A publication applied at the owner: a refresh where the list names the device and handle already, else a new holder, in place
of the one last published longest ago when the list is full (R168, R514). -/
def State.applyPublish (s : State) (ns order : Nat) (chain geom : Bytes) (serial handle ver : Nat) : State :=
  let key := entryKey ns order chain
  let h : Holder := { serial := serial, handle := handle, ver := ver, pubT := s.now, geom := geom }
  let same := fun (x : Holder) => x.serial == serial && x.handle == handle
  let add := fun (hs : List Holder) =>
    if hs.any same then upd same (fun _ => h) hs
    else if hs.length < max 1 (s.g F.PDIR_HOLDER_MAX) then hs ++ [h]
    else match argMin (fun (x : Holder) => ((x.pubT : Nat) : Int)) hs with
      | some old => upd (fun x => x == old) (fun _ => h) hs
      | none => [h]
  let es := if s.pdir.shards.any fun e => e.key == key
    then upd (fun e => e.key == key) (fun e => { e with holders := add e.holders }) s.pdir.shards
    else s.pdir.shards ++ [({ key := key, shard := shardOf chain, holders := [h] } : ShardEnt)]
  { s with pdir := { s.pdir with shards := es } }

/-- A holder leaves the shard entries; an entry without holders goes. -/
def State.removeHolder (s : State) (gone : Bytes → Holder → Bool) : State :=
  let es := s.pdir.shards.map fun e => { e with holders := e.holders.filter fun h => !gone e.key h }
  { s with pdir := { s.pdir with shards := es.filter fun e => !e.holders.isEmpty } }

/-- What a Malroth request of this part is about: partition and serial. -/
def leafCtx (p serial : Nat) : Nat := p * 2 ^ 48 + serial % 2 ^ 48

/-- Publication of a leaf: the local index first, then the shard owner (R156, R189). A private namespace has no shard owner to ask
(R175). Before the ring is formed the publication is deferred at once (R712). -/
def State.publishLeaf (s : State) (h : Nat) : State :=
  match s.leaf h with
  | none => s
  | some l =>
    let s1 := s.setLeaf h fun x => { x with published := true, pubT := s.now }
    match l.chain with
    | none => s1
    | some ch =>
      if l.ns = 0 then s1
      else match s1.shardOwner (shardOf ch) with
        | none =>
          let w : PubWait := { part := l.part, serial := l.serial, key := entryKey l.ns l.order ch, owner := 0, sentT := s.now,
                               deferred := true }
          { s1 with pdir := { s1.pdir with pubs := put (fun x => x.part == l.part && x.serial == l.serial) w s1.pdir.pubs } }.raise
            Ev.PUB_DEFER l.part
        | some o =>
          let geom := s1.geomDigest l.part
          if o = s.dev.serial then
            (s1.applyPublish l.ns l.order ch (geom.take 16) o h 0x31).setLeaf h fun x => { x with ackBy := o, ackT := s.now }
          else
            let w : PubWait := { part := l.part, serial := l.serial, key := entryKey l.ns l.order ch, owner := o, sentT := s.now }
            let same := fun (x : PubWait) => x.part == l.part && x.serial == l.serial
            let s2 := { s1 with pdir := { s1.pdir with pubs := put same w s1.pdir.pubs } }
            s2.malSend 0x0011 o (l.body geom) (leafCtx l.part l.serial)

/-- The publication of a leaf is not acknowledged, nor its wait over (R190). -/
def State.pubPending (s : State) (p serial : Nat) : Bool :=
  s.pdir.pubs.any fun w => w.part == p && w.serial == serial && !w.deferred

/-! ### Group declarations (R142–R148) -/

def State.setSlot (s : State) (p n : Nat) (f : GrpSlot → GrpSlot) : State :=
  let same := fun (g : GrpSlot) => g.part == p && g.slot == n
  let old := (s.pdir.slots.find? same).getD { part := p, slot := n }
  { s with pdir := { s.pdir with slots := put same (f old) s.pdir.slots } }

/-- The key check value of a group (R144). -/
def keyCheck (key : Bytes) (id : Nat) : Nat :=
  leNat (Blake.hash 16 (key.take 32) ([0x4C, 0x53, 0x47, 0x4B] ++ leBytes 4 id))

/-- The declaration of a slot. -/
def GrpSlot.decl (g : GrpSlot) (me : Member) : GrpDecl :=
  { member := me, id := g.id, count := g.members.length, digest := g.digest, kcv := g.kcv }

/-- The declarations the device holds: those heard and those of its own slots. -/
def State.allDecls (s : State) : List GrpDecl :=
  s.pdir.decls ++ (s.pdir.slots.filter (·.declared)).map fun g => g.decl ⟨s.dev.serial, g.part⟩

/-- Members of a slot's list that the domain map does not list, or whose matching declaration the device does not hold (R143, R145). -/
def State.missing (s : State) (g : GrpSlot) : Nat :=
  let ds := s.allDecls
  (g.members.filter fun m => !(m.serial == s.dev.serial || s.listed m.serial) || !ds.any fun d => d == g.decl m).length

/-- A member's declaration differs from the slot's only in its key check value. -/
def State.keyClash (s : State) (g : GrpSlot) : Bool :=
  g.members.any fun m => s.allDecls.any fun d => d.kcv != g.kcv && { d with kcv := g.kcv } == g.decl m

/-- The states of the declared slots follow the declarations held (R145, R146), with the events of R196. Which slots a key check mismatch
refuses, and how they recover, the spec does not say: here every declared slot that holds a clash, active or not, until it is committed
again (DESIGN CHOICE, assumption 82). -/
def State.groupsUpdate (s : State) : State :=
  s.pdir.slots.foldl (fun (a : State) g =>
    if !g.declared then a
    else
      let clash := s.keyClash g
      let n := s.missing g
      let st := if clash then GrpSt.refused else if n = 0 then GrpSt.active else GrpSt.waiting
      let a1 := a.setSlot g.part g.slot fun x => { x with st := st, reason := if clash then 3 else 0 }
      let a2 := if g.st == .active && st != .active then a1.raise Ev.GRP_INACTIVE g.part else a1
      let a3 := if g.st != .active && st == .active then a2.raise Ev.GRP_ACTIVE g.part else a2
      if clash then a3.raise Ev.GRP_REFUSED g.part else a3) s

/-- The body of a GROUP_DECL: the declaring member's record, GROUP_ID, member count, digest, key check value. The chapter gives
no layout; count 0 says that the declaration is withdrawn. -/
def declBody (me : Member) (id count : Nat) (digest : Bytes) (kcv : Nat) : Bytes :=
  leBytes 8 me.serial ++ leBytes 1 me.part ++ leBytes 7 0 ++ leBytes 4 id ++ leBytes 4 count ++
  slice (digest ++ List.replicate 16 0) 0 16 ++ leBytes 16 kcv

/-- Devices of remote members that the domain map lists (R143). -/
def State.memberDevs (s : State) (g : GrpSlot) : List Nat :=
  ((g.members.map (·.serial)).eraseDups).filter fun n => n != s.dev.serial && s.listed n

/-- The GROUP_DECL body of a slot, as a declaration or as its withdrawal. -/
def State.declOf (s : State) (g : GrpSlot) (withdraw : Bool) : Bytes :=
  declBody ⟨s.dev.serial, g.part⟩ g.id (if withdraw then 0 else g.members.length) g.digest g.kcv

/-- The withdrawal of a declaration goes to every device it may have reached (R146). -/
def State.sendWithdraw (s : State) (g : GrpSlot) : State :=
  (s.memberDevs g).foldl (fun (a : State) n => a.malSend 0x0016 n (a.declOf g true) 0) s

/-- Declarations go to the listed devices that satisfy `to_` and have not acknowledged them, where none is on its way (R143, R144,
R712). -/
def State.sendDecls (s : State) (to_ : Nat → Bool) : State :=
  (s.pdir.slots.filter (·.declared)).foldl (fun (a : State) g =>
    ((a.memberDevs g).filter fun n => to_ n && !g.acked.contains n).foldl (fun (t : State) n =>
      let b := t.declOf g false
      if t.net.waits.any fun w => w.msg.typ == 0x0016 && w.msg.dst == n && w.msg.body == b then t else t.malSend 0x0016 n b 0) a) s

/-- A device has acknowledged a declaration; or it starts afresh and knows none. -/
def State.declAcked (s : State) (dev : Nat) (which : GrpSlot → Bool) (ok : Bool) : State :=
  let set := fun (g : GrpSlot) => { g with acked := (g.acked.filter (· != dev)) ++ if ok then [dev] else [] }
  { s with pdir := { s.pdir with slots := upd (fun g => g.declared && which g && g.acked.contains dev != ok) set s.pdir.slots } }

/-- A slot's declaration ends: withdrawn (state empty) or its key erased (R146). -/
def State.endDecl (s : State) (p n : Nat) (st : GrpSt) : State :=
  match s.pdir.slots.find? fun g => g.part == p && g.slot == n with
  | none => s
  | some g =>
    if !g.declared then s.setSlot p n fun x => { x with st := st }
    else
      let s1 := (s.sendWithdraw g).setSlot p n fun x => { x with st := st }
      (if g.st == .active then s1.raise Ev.GRP_INACTIVE p else s1).groupsUpdate

/-- A declaration is refused (R143, R145). -/
def State.refuseDecl (s : State) (p n reason : Nat) : State :=
  (s.setSlot p n fun x => { x with st := .refused, reason := reason }).raise Ev.GRP_REFUSED p

/-- GROUP_DECLARE_COMMIT (R142–R145): the member list has been read, or its read failed. Where several reasons to refuse hold at once the
spec gives no order: the REASON posted is the first of 6, 2, 1, 4, 5 (DESIGN CHOICE, assumption 82). -/
def execGroupDeclareCommit (part slot : Nat) (list : Option Bytes) (s : State) : Host.Outcome State Fault Refusal :=
  if part ≥ 64 ∨ slot ≥ 8 ∨ s.partFree part = true then .next s
  else
    let id := s.gps F.GRP_ID part slot
    if id = 0 then .next s
    else
      let key := s.gps F.GRP_KEY part slot
      let n := s.gps F.GRP_MEMBERS part slot
      let digest := (List.range 4).flatMap fun i => leBytes 4 (s.reg F.GRP_DIGEST 0 part slot i)
      let old := (s.pdir.slots.find? fun g => g.part == part && g.slot == slot)
      let s0 := match old with | some g => if g.declared then s.endDecl part slot .empty else s | none => s
      let s1 := (s0.wps F.GRP_STATE_COMMIT part slot 0).setSlot part slot fun x =>
        { x with id := id, key := key, digest := digest, members := [], reason := 0, st := .declared, kcv := 0, acked := [] }
      let b := list.getD []
      let ms := (List.range n).map fun i => ({ serial := rd b (16 * i) 8, part := rd b (16 * i + 8) 1 } : Member)
      let key2 := fun (m : Member) => m.serial * 256 + m.part
      let rising := (List.range (n - 1)).all fun i =>
        key2 (ms.getD i ⟨0, 0⟩) < key2 (ms.getD (i + 1) ⟨0, 0⟩)
      let slotKey := s1.groupKey part key
      if list.isNone ∨ b.length < 16 * n ∨ n < 2 ∨ n > 4096 ∨ !rising then .next (s1.refuseDecl part slot 6)
      else if (Blake.hash 32 [] (b.take (16 * n))).take 16 ≠ digest then .next (s1.refuseDecl part slot 2)
      else if !ms.contains ⟨s.dev.serial, part⟩ then .next (s1.refuseDecl part slot 1)
      else match slotKey with
        | none => .next (s1.refuseDecl part slot 4)
        | some k =>
          if s1.pdir.slots.any fun g => g.part == part && g.slot != slot && g.id == id && g.declared then
            .next (s1.refuseDecl part slot 5)
          else
            let s2 := s1.setSlot part slot fun x => { x with members := ms, kcv := keyCheck k.key id, st := .waiting }
            .next (s2.sendDecls fun _ => true).groupsUpdate

/-- GROUP_WITHDRAW (R146). -/
def execGroupWithdraw (part slot : Nat) (s : State) : Host.Outcome State Fault Refusal :=
  if s.partFree part then .next s
  else .next (((s.wps F.GRP_ID part slot 0).endDecl part slot .empty).setSlot part slot fun x => { x with id := 0, members := [] })

/-! ### Capos (R184–R188) -/

/-- A capo that loses a leaf is broken: its references go and its number is free (R149, R188). -/
def State.breakCapo (s : State) (num : Nat) : State :=
  match s.pdir.capos.find? fun k => k.num == num with
  | none => s
  | some k =>
    ({ s with pdir := { s.pdir with capos := del (fun x => x.num == num) s.pdir.capos } }.raise Ev.CAPO_BROKEN k.part).sweep

/-- A capo number that no capo holds (R184): a free choice, or the next one after it that is not in use. -/
def State.freeCapo (s : State) : Nat × State :=
  let c := s.choose
  (s.pdir.capos.foldl (fun (n : Nat) _ => if s.pdir.capos.any fun k => k.num == n then (n + 1) % 2 ^ 32 else n) (c.1 % 2 ^ 32), c.2)

/-- The page has a copy at the tier or faster that can be read. -/
def State.atTier (s : State) (p serial t : Nat) : Bool := (s.copiesOf p serial).any fun c => c.tier ≤ t && c.good

/-- Pages of leaves, by serial. -/
def State.serialsOf (s : State) (hs : List Nat) : List Nat :=
  hs.flatMap fun h => match s.leaf h with | some l => (List.range l.layers).map (l.serial + ·) | none => []

/-- Ask for the copy of a page that a capo or MIGRATE needs at a tier, on the stack or cluster of the device's choice. The backing
copy moves with it only where the page's class lets that tier back it and no slower copy backs it. -/
def State.promoteTo (s : State) (p serial t d why cmd f : Nat) : State × MoveAns :=
  let die := if t ≤ 1 then (if d < 8 then some d else s.stackFor p serial f) else some 15
  match die with
  | none => (s, .noRoom)
  | some d' => s.askMove p serial t d' false false why cmd 0 0 none

/-- Capos are restored to their tiers (R188, R208): each page not there yet is promoted, unless a move of it runs already. After a restart no
extent is granted yet, so a page of a capo of T2 goes to T1, which R186 allows (DESIGN CHOICE, assumption 75). -/
def State.restoreCapos (s : State) : State :=
  s.pdir.capos.foldl (fun (a : State) k => (a.serialsOf k.leaves).foldl (fun (t : State) n =>
    if t.atTier k.part n k.tier ∨ (t.tier.moves.any fun m => m.part == k.part && m.serial == n) then t
    else match t.promoteTo k.part n k.tier 15 5 0 0 with
      | (t1, .noRoom) => if k.tier = 2 then (t1.promoteTo k.part n 1 15 5 0 0).1 else t1
      | (t1, _) => t1) a) s

end Sys2Proof.Machine
end

