-- ==== Sys2Proof/Machine/SeqCmds.lean ====
section
/-! DEFINITION. The sequence commands of chapter 3 but SEAL: open, attach, close, fork, APPEND, TRUNCATE, lease expiry. -/

namespace Sys2Proof.Machine

/-- A started command with CANCELLED requested stops here, its pre-emption point (R382). -/
def State.cancelled (s : State) (c : Cmd) : Option State :=
  if c.cancelled then some ((s.dropWork c.uid).fail c.uid St.cancelled) else none

/-- A new sequence record (R84): lease free, epoch 0. -/
def newSeq (p id geom order : Nat) (layers : Nat) : Seq :=
  { part := p, id := id, geom := geom, order := order, ring := false, window := 0, sinks := 0, cls := 0, auto := true, home := 0,
    lens := List.replicate layers 0, leaves := [], ns := 0, variant := 0, chain := List.replicate 16 0 }

/-- SEQ_OPEN (R80–R84, R141, R339). -/
def execSeqOpen (c : Nat) (s : State) : Host.Outcome State Fault Refusal :=
  match s.running c .seqOpen with
  | none => .next s
  | some x =>
    let p := x.part
    let opts := x.f 0x19 1
    if bit opts 0 then .next s
    else match s.cancelled x with
      | some s' => .next s'
      | none =>
        match s.geom p with
        | none => .next (s.fail c St.badCmd)
        | some ge =>
          let ns := x.f 0x20 4
          if s.idUsed p x.seq then .next (s.fail c St.badCmd)
          else if ns ≠ 0 ∧ !s.groupActive p ns then .next (s.fail c St.badCmd)
          else if !s.seqRoom p then .next (s.fail c St.noSpace)
          else match s.homeDie p (x.f 0x1B 1) with
            | (s1, none) => .next (s1.fail c St.badCmd)
            | (s1, some home) =>
              let ring := bit opts 1
              let mode := bits opts 7 6
              let zero := List.replicate 16 (0 : Byte)
              let o := x.f 0x18 1
              let q : Seq := { newSeq p x.seq ge.id (if o = 0xFF then s.gp F.SEQ_CTRL_DEF_ORDER p else o) ge.layers.length with
                ring := ring
                window := if ring then x.f 0x1C 4 else 0
                sinks := if ring then x.f 0x1A 1 else 0
                cls := s.clsOf p (bits opts 5 4)
                auto := s.autoOf p (bits opts 3 2)
                home := home
                ns := ns
                variant := x.f 0x28 8
                baseMode := mode
                baseVariant := if mode = 1 then x.f 0x30 8 else 0
                bchain := if mode = 1 then some zero else none }
              .next ({ s1 with sq := { s1.sq with seqs := s1.sq.seqs ++ [q] } }.finish c St.ok 0 0)

/-- SEQ_OPEN_ATTACH (R80, R84, R387): the per-layer lengths are written as a length table; no state changes. -/
def execSeqOpenAttach (c : Nat) (s : State) : Host.Outcome State Fault Refusal :=
  match s.running c .seqOpen with
  | none => .next s
  | some x =>
    if !bit (x.f 0x19 1) 0 then .next s
    else match s.cancelled x with
      | some s' => .next s'
      | none =>
        match s.seqFor x.part x.seq (2 ^ 64) with
        | .error st => .next (s.fail c st)
        | .ok (y, _) =>
          let es := y.lens.zipIdx.map fun l => ({ seq := y.id, aux := l.2, first := 0, count := l.1 } : LenEnt)
          let s1 := if x.f 0x38 8 = 0 then s else s.output c (x.f 0x38 8) (lenTableBytes es)
          .next (s1.finish c St.ok y.length (y.epoch + y.k * 2 ^ 32))

/-- SEQ_CLOSE (R84): CLOSING; the append lease is released at once. -/
def execSeqClose (c : Nat) (s : State) : Host.Outcome State Fault Refusal :=
  match s.running c .seqClose with
  | none => .next s
  | some x =>
    if x.phase ≠ 0 then .next s
    else match s.cancelled x with
      | some s' => .next s'
      | none =>
        match s.seqFor x.part x.seq (2 ^ 64) with
        | .error st => .next (s.fail c st)
        | .ok (y, _) =>
          let s1 := s.releaseLease x.part y.id
          .next ((s1.setSeq x.part y.id fun z => { z with closing := true, closeCmd := c }).setCmd c fun z => { z with phase := 1 })

/-- A sequence's record is destroyed: its granules freed, one reference of each leaf released (R84). Seals of it that have not
reached their commit point end; the others have no granules left to release. -/
def State.destroySeq (s : State) (p id : Nat) : State :=
  let s1 := s.dropGrans p id fun _ => true
  let s2 := s1.endSeals p id 0
  { s2 with sq := { s2.sq with seqs := del (fun x => x.part == p && x.id == id) s2.sq.seqs } }.sweep.settleSeals

/-- SEQ_CLOSE_DONE (R84): every command accepted before SEQ_CLOSE that names the sequence has completed. -/
def execSeqCloseDone (part seq : Nat) (s : State) : Host.Outcome State Fault Refusal :=
  match s.seq part seq with
  | none => .next s
  | some x =>
    let owed := s.q.cmds.any fun d => d.part == part && d.uid < x.closeCmd && d.mayName seq
    if !x.closing || owed then .next s
    else .next ((s.destroySeq part seq).finish x.closeCmd St.ok 0 0)

/-- A child of a fork, before its content. -/
def State.childSeq (s : State) (x : Cmd) (ge : Geom) (order home : Nat) : Seq :=
  let opts := x.f 0x19 1
  let mode := bits opts 5 4
  { newSeq x.part x.seq ge.id order ge.layers.length with
    cls := s.clsOf x.part (bits opts 3 2)
    auto := s.autoOf x.part (bits opts 1 0)
    home := home
    baseMode := mode
    baseVariant := if mode = 1 then x.f 0x28 8 else 0
    bchain := if mode = 1 then some (List.replicate 16 0) else none }

/-- The child of a fork from a parent at position f (R128, R129, R154): the parent's leaves below f, its namespace and variant, K at the
highest held point. -/
def State.forkChild (s : State) (x : Cmd) (ge : Geom) (par : Seq) (f home : Nat) : Seq :=
  let T := orderT par.order
  let pk := s.setK par (min f par.k)
  let q0 := s.childSeq x ge par.order home
  { q0 with
    ring := par.ring, window := par.window, sinks := par.sinks, ns := par.ns, variant := par.variant
    lens := List.replicate ge.layers.length f
    durable := List.replicate ge.layers.length (if q0.cls = 0 then 0 else f)
    leaves := par.leaves.filter fun e => decide ((e.1 + 1) * T ≤ f)
    gone := par.goneBelow f
    k := pk.k, chain := pk.chain, toks := pk.toks, keyGen := par.keyGen
    bchain := if q0.baseMode ≠ 1 then none else if pk.k = 0 then some (List.replicate 16 0)
      else if par.variant = q0.baseVariant then some pk.chain
      else if par.baseMode = 1 ∧ par.baseVariant = q0.baseVariant then pk.bchain
      else ((par.leaves.find? fun e => (e.1 + 1) * T == pk.k).bind fun e => s.leaf e.2).bind fun l => s.baseChain q0 pk.k l
    bends := if q0.baseMode = 1 ∧ par.baseMode = 1 ∧ par.baseVariant = q0.baseVariant then pk.bends.filter (fun e => e.1 ≤ f) else []
    ends := pk.ends }

/-- The granules with the child's copies of the parent's positions below f that no leaf of the child holds and the ring has not dropped
(R128). -/
def State.forkGrans (s : State) (x : Cmd) (ge : Geom) (par q : Seq) (f : Nat) : List Granule :=
  let T := orderT par.order
  (List.range ge.layers.length).foldl (fun gs l =>
    ((List.range (f / T + 1)).filter fun i => !(q.leaves.any fun e => e.1 == i)).foldl (fun gs i =>
      -- from the end of what is absent of the leaf
      let lo := (q.gone.filter fun e => decide (e.1 ≤ i * T ∧ i * T < e.2)).foldl (fun n e => max n e.2) (i * T)
      putRows ge s.now ⟨q, l, lo, s.rowsOf ge par l lo (min ((i + 1) * T) f), q.cls, true, 0, x.tag⟩ gs) gs) s.sq.granules

/-- Granules of a new child, asked of a replica peer when there is one (R122, R608, R609). -/
def State.askFork (s : State) (c : Nat) (h : ForkHeld) : State :=
  match s.replicaPeer h.child with
  | none => s
  | some r => s.sendReplicas h.child.part h.child.id r c (h.grans.map fun g => (g.layer, g.first, g.slot))

/-- A fork ends: the child and its granules are there. A leaf of its view lost since the fork's start cuts it (R242). -/
def State.installFork (s : State) (c : Nat) (q : Seq) (gs : List Granule) : State :=
  let s1 := s.putGrans (s.sq.granules ++ flashP gs)
  let s2 : State := { s1 with sq := { s1.sq with seqs := s1.sq.seqs ++ [q], forks := del (fun f => f.cmd == c) s1.sq.forks } }
  let s3 := match (q.leaves.filter fun e => (s.leaf e.2).isNone).head? with
    | some e => s2.cutSeq q.part q.id (e.1 * orderT q.order)
    | none => s2
  s3.noteBehind s

/-- SEQ_FORK_PARENT (R128, R129, R122, R154). What the child takes is fixed at the fork's start. -/
def execSeqForkParent (c : Nat) (s : State) : Host.Outcome State Fault Refusal :=
  match s.running c .seqFork with
  | none => .next s
  | some x =>
    if x.f 0x18 1 ≠ 0 then .next s
    else match s.cancelled x, s.sq.forks.find? fun h => h.cmd == c with
      | some s', _ => .next s'.sweep
      | none, some h =>
        if x.phase = 2 then .next ((s.installFork c h.child h.grans).finish c St.ok (x.f 0x1C 4) (h.child.k * 2 ^ 32))
        else if s.malWaiting 0x0022 c then .next s
        else .next (s.askFork c h)
      | none, none =>
        let p := x.part
        match s.seqFor p (x.f 0x20 6) c with
        | .error st => .next (s.fail c st)
        | .ok (par, ge) =>
          let f := x.f 0x1C 4
          if s.idUsed p x.seq ∨ f > par.length then .next (s.fail c St.badCmd)
          else if !s.seqRoom p then .next (s.fail c St.noSpace)
          else match s.homeDie p (x.f 0x1A 1) with
            | (s1, none) => .next (s1.fail c St.badCmd)
            | (s1, some home) =>
              let q := s.forkChild x ge par f home
              let gs := s.forkGrans x ge par q f
              match s1.admitGrans p gs with
              | some d => .next ((if d then s1.refuseD p else s1).fail c St.noSpace)
              | none =>
                let new := gs.filter fun g => g.part == p && g.seq == q.id
                if q.cls = 2 ∧ !new.isEmpty then
                  -- class P: the granules go to flash and to one peer before the fork completes (R122)
                  let h : ForkHeld := { cmd := c, child := q, grans := flashP new }
                  let s2 : State := { s1 with sq := { s1.sq with forks := s1.sq.forks ++ [h] } }
                  .next ((s2.askFork c h).setCmd c fun z => { z with phase := 1 })
                else .next ((s1.installFork c q new).finish c St.ok f (q.k * 2 ^ 32))

/-- SEQ_FORK_HANDLES (R103, R128, R141, R154): the child is linear and takes its order, namespace and variant from the leaves. -/
def execSeqForkHandles (c : Nat) (s : State) : Host.Outcome State Fault Refusal :=
  match s.running c .seqFork with
  | none => .next s
  | some x =>
    if x.f 0x18 1 ≠ 1 then .next s
    else match s.cancelled x with
      | some s' => .next s'
      | none =>
        let p := x.part
        let addr := x.f 0x20 8
        match x.buffers [addr], s.geom p with
        | none, _ => .next s
        | some false, _ => .next (s.fail c St.poison)
        | _, none => .next (s.fail c St.badCmd)
        | some true, some ge =>
          let n := x.f 0x1C 4
          let hs := u64s ((x.bufAll addr).getD []) n
          let order := hOrder (hs.headD 0)
          let T := orderT order
          if n = 0 ∨ order > 6 ∨ n > 2 ^ 24 / T ∨ ((x.bufAll addr).getD []).length < 8 * n ∨ s.idUsed p x.seq then
            .next (s.fail c St.badCmd)
          else match hs.findSome? fun h => s.resolve p h order with
            | some st => .next (s.failNamed c st p)
            | none =>
              let ls := hs.map s.leaf
              let placed := ls.zipIdx.all fun li => match li.1 with
                | some l => l.leafNo == li.2 && l.geom == ge.id
                | none => false
              let l0 := (ls.head?.join).map fun l => (l.ns, l.variant)
              let same := ls.all fun l => (l.map fun y => (y.ns, y.variant)) == l0
              if !placed ∨ !same then .next (s.fail c St.badCmd)
              else if !s.seqRoom p then .next (s.fail c St.noSpace)
              else match s.homeDie p (x.f 0x1A 1) with
                | (s1, none) => .next (s1.fail c St.badCmd)
                | (s1, some home) =>
                  let q0 : Seq := { s.childSeq x ge order home with
                    keyGen := s.cmdGen x ((l0.map (·.1)).getD 0)
                    ns := (l0.map (·.1)).getD 0, variant := (l0.map (·.2)).getD 0
                    lens := List.replicate ge.layers.length (n * T)
                    leaves := hs.zipIdx.map fun h => (h.2, h.1) }
                  -- K is the highest held point at or below the length (R154): a leaf end with a known chain value
                  let q := s1.setK { q0 with k := n * T + 32, toks := [] } (n * T)
                  .next ({ s1 with sq := { s1.sq with seqs := s1.sq.seqs ++ [q] } }.finish c St.ok (n * T) (q.k * 2 ^ 32))

/-! ### APPEND -/

/-- One sequence of an APPEND: its record with the lease held, positions per layer, payload, token IDs. -/
structure AppendReq where
  seq : Seq
  acquired : Bool
  n : Nat
  payload : Bytes
  toks : List Nat

/-- The lease stays with a command that acquired it, whatever its status (R116); while it and the queue's other commands on the sequence
execute, the lease does not expire (R118). -/
def State.keepLease (s : State) (c : Nat) (rs : List AppendReq) : State :=
  rs.foldl (fun (a : State) r =>
    if r.acquired then
      let a1 := a.setSeq r.seq.part r.seq.id fun z => { z with holder := r.seq.holder, epoch := r.seq.epoch, expiry := a.now }
      let hit := fun (y : Cmd) => some y.q == r.seq.holder && y.part == r.seq.part && y.st == .started && y.names.contains r.seq.id
      { a1 with q := { a1.q with cmds := (upd hit (fun y => { y with keeps := y.keeps ++ [r.seq.id] }) a1.q.cmds).map fun y =>
          if y.uid = c then { y with took := y.took ++ [r.seq.id] } else y } }
    else a) s

/-- The granules of a request's puts, layer by layer; payload bytes follow in ascending layer order (R112). -/
def appendPuts (s : State) (ge : Geom) (layers : List Nat) (cls tag : Nat) (r : AppendReq) (gs : List Granule) : List Granule :=
  (layers.foldl (fun (acc : List Granule × Bytes) l =>
    let size := r.n * posBytes ge (ge.layer l)
    let rows := imageRows ge l r.n (acc.2.take size)
    (putRows ge s.now ⟨r.seq, l, r.seq.lens.getD l 0, rows, cls, false, r.seq.epoch, tag⟩ acc.1, acc.2.drop size))
    (if r.n = 0 then gs else raiseCls r.seq.part r.seq.id layers cls gs, r.payload)).1

/-- An APPEND with its requests checked and its leases taken: room, class, commit (R113, R114, R591, R597). -/
def State.appendCommit (s : State) (x : Cmd) (ge : Geom) (layers : List Nat) (rs : List AppendReq) : State :=
  let p := x.part
  let c := x.uid
  let cls := fun (r : AppendReq) => x.fClass.getD r.seq.cls
  let kept := s.keepLease c rs
  let starts := rs.all fun r => (layers.map fun l => r.seq.lens.getD l 0).eraseDups.length ≤ 1
  let exceeds := rs.any fun r => layers.any fun l => r.seq.lens.getD l 0 + r.n > 2 ^ 24
  let need := fun (r : AppendReq) => r.n * sumBy (fun l => posBytes ge (ge.layer l)) layers
  if !starts ∨ exceeds ∨ rs.any (fun r => r.payload.length < need r) then kept.fail c St.badCmd
  else if rs.any fun r => !r.toks.isEmpty && s.keyGone x r.seq.ns then kept.fail c St.keyWithdrawn
  else
    let gs := rs.foldl (fun gs r => appendPuts s ge layers (cls r) x.tag r gs) s.sq.granules
    match s.admitGrans p gs with
    | some d => (if d then kept.refuseD p else kept).fail c St.noSpace
    | none =>
      let pReqs := rs.filter fun r => cls r == 2 && r.n != 0
      if !pReqs.isEmpty ∧ x.phase ≠ 2 then
        -- class P: flash and one peer before the APPEND completes (R114, R608)
        if s.malWaiting 0x0022 c then s
        else
          let lost := pReqs.any fun r => (s.replicaPeer r.seq).isNone
          let s1 := kept.setCmd c fun z => { z with phase := 1 }
          if lost then s1
          else pReqs.foldl (fun (a : State) r =>
            match a.replicaPeer r.seq with
            | some peer =>
              let new := gs.filter fun g => g.part == p && g.seq == r.seq.id && layers.contains g.layer && !g.flash
              (a.sendReplicas p r.seq.id peer c (new.map fun g => (g.layer, g.first, g.slot))).setSeq p r.seq.id fun z =>
                { z with peer := peer }
            | none => a) s1
      else
        let s1 := (kept.putGrans (flashP gs)).noteBehind s
        let s2 := (rs.foldl (fun (a : State) r =>
          a.setSeq p r.seq.id fun z => { z with unreplicated := if cls r = 2 then false else z.unreplicated }) s1).setCmd c fun z =>
              { z with appends := rs.map fun r => (r.seq.id, layers, r.n, r.toks) }
        let bytes := sumBy need rs
        let s3 := s2.chargeCmd c .t1Wr bytes false
        if x.batch then s3.finish c St.ok rs.length 0
        else match rs.head? with
          | some r =>
            match s3.seq p r.seq.id with
            | some y =>
              let len := if x.layer = 0xFFFF then y.length else y.lens.getD x.layer 0
              s3.finish c St.ok (len + r.n) y.epoch
            | none => s3
          | none => s3

/-- APPEND (R112–R118, R135, R153). The bound of 1 to 4,096 positions binds TOKENS (R386); whether it binds each entry's COUNT in a batch the
spec does not say, and no upper bound is applied there (DESIGN CHOICE, assumption 82). -/
def execAppend (c : Nat) (s : State) : Host.Outcome State Fault Refusal :=
  match s.running c .append with
  | none => .next s
  | some x =>
    match s.cancelled x with
    | some s' => .next s'
    | none =>
      let p := x.part
      let tcount := x.f 0x30 4
      let addrs := [x.f 0x20 8] ++ (if tcount ≠ 0 ∧ x.f 0x28 8 ≠ 0 then [x.f 0x28 8] else []) ++ if x.batch then [x.tableAddr] else []
      let data := (x.bufAll (x.f 0x20 8)).getD []
      let tb := (x.bufAll (x.f 0x28 8)).getD []
      let toks := if x.f 0x28 8 = 0 then [] else u32s tb tcount
      match x.buffers addrs, s.geom p with
      | none, _ => .next s
      | some false, _ => .next (s.fail c St.poison)
      | _, none => .next (s.fail c St.badCmd)
      | some true, some ge =>
        match appendLayers ge x.layer with
        | none => .next (s.fail c St.badCmd)
        | some layers =>
          if x.batch then
            match (x.bufAll x.tableAddr).bind lenTable with
            | none => .next (s.fail c St.badCmd)
            | some es =>
              -- R119: the lease was released while the table had still to be read
              if es.any fun e => x.lost.contains e.seq then .next (s.fail c St.leaseLost) else
              -- R135 in its order: openness, then ranges
              match es.findIdx? fun e => match s.seq p e.seq with | some y => !y.openTo c | none => true with
              | some i => .next (s.finish c St.miss 0 i)
              | none =>
                let total := sumBy (·.count) es
                let bad := es.any fun e => match s.seq p e.seq with
                  | some y => y.geom != ge.id || layers.any (fun l => y.lens.getD l 0 != e.first) || (tcount != 0 && y.k != e.first && y.hashes (s.cmdGen x y.ns))
                  | none => true
                if bad ∨ (tcount ≠ 0 ∧ tcount ≠ total) then .next (s.fail c St.badCmd)
                else
                  let size := sumBy (fun l => posBytes ge (ge.layer l)) layers
                  let parts := (es.foldl (fun (acc : List (LenEnt × Bytes × List Nat) × Bytes × List Nat) e =>
                    (acc.1 ++ [(e, acc.2.1.take (e.count * size), acc.2.2.take e.count)],
                     acc.2.1.drop (e.count * size), acc.2.2.drop e.count)) ([], data, toks)).1
                  let rs := parts.filterMap fun t => (s.seq p t.1.seq).bind fun y =>
                    (s.takeLease y x.q 0).map fun l => (⟨l.1, l.2, t.1.count, t.2.1, t.2.2⟩ : AppendReq)
                  if rs.length ≠ es.length then .next ((s.keepLease c rs).fail c St.leaseLost)
                  else .next (s.appendCommit x ge layers rs)
          else
            match s.seqFor p x.seq c with
            | .error st => .next (s.fail c st)
            | .ok (y, _) =>
              match s.takeLease y x.q (x.f 0x1C 4) with
              | none => .next (s.fail c St.leaseLost)
              | some (y', acq) => .next (s.appendCommit x ge layers [⟨y', acq, x.f 0x18 4, data, toks⟩])

/-- TRUNCATE (R116, R117, R130, R155). Token IDs for a sequence whose chain began under an older key generation are not used, and K stays, as R640
has it of APPEND (DEDUCED, assumption 84). -/
def execTruncate (c : Nat) (s : State) : Host.Outcome State Fault Refusal :=
  match s.running c .truncate with
  | none => .next s
  | some x =>
    match s.cancelled x with
    | some s' => .next s'
    | none =>
      let p := x.part
      let t := x.f 0x18 4
      let tcount := x.f 0x28 4
      let taddr := x.f 0x20 8
      match x.buffers (if tcount ≠ 0 ∧ taddr ≠ 0 then [taddr] else []) with
      | none => .next s
      | some false => .next (s.fail c St.poison)
      | some true =>
        match s.seqFor p x.seq c with
        | .error st => .next (s.fail c st)
        | .ok (y0, ge) =>
          match s.takeLease y0 x.q (x.f 0x1C 4) with
          | none => .next (s.fail c St.leaseLost)
          | some (y, acq) =>
            let kept := s.keepLease c [⟨y, acq, 0, [], []⟩]
            let T := orderT y.order
            let base := t / T * T
            if t > y.length ∨ (tcount ≠ 0 ∧ tcount ≠ t - base) then .next (kept.fail c St.badCmd)
            else if tcount ≠ 0 ∧ s.keyGone x y.ns then .next (kept.fail c St.keyWithdrawn)
            else
              let gs := s.truncGrans ge y t x.tag
              match s.admitGrans p gs with
              | some d => .next ((if d then kept.refuseD p else kept).fail c St.noSpace)
              | none =>
                let new := gs.filter fun g => g.part == p && g.seq == y.id && g.first ≥ base && !g.flash
                if y.cls = 2 ∧ y.leaves.any (fun e => e.1 == t / T) ∧ t ≠ base ∧ x.phase ≠ 2 then
                  if s.malWaiting 0x0022 c then .next s
                  else match s.replicaPeer y with
                    | none => .next (kept.setCmd c fun z => { z with phase := 1 })
                    | some r => .next ((kept.sendReplicas p y.id r c (new.map fun g => (g.layer, g.first, g.slot))).setCmd c fun z =>
                        { z with phase := 1 })
                else
                  let z0 := s.truncSeq ge y t
                  let toks := if taddr = 0 then [] else u32s ((x.bufAll taddr).getD []) tcount
                  let z := if tcount ≠ 0 ∧ z0.k = base then
                      match s.cmdKey x y.ns with
                      | some k =>
                        let g := s.cmdGen x y.ns
                        if z0.hashes g then
                          { toks.foldl (fun a b => a.takeToken k ge.digest b) z0 with keyGen := if z0.k = 0 then g else z0.keyGen }
                        else z0
                      | none => z0
                    else z0
                  let s1 := ((kept.putGrans (flashP gs)).setSeq p y.id fun o =>
                    { z with holder := y.holder, epoch := y.epoch, expiry := o.expiry }).endSeals p y.id t |>.sweep.settleSeals
                  .next ((s1.noteBehind s).finish c St.ok t (y.epoch + z.k * 2 ^ 32))

/-- APPEND_LEASE_EXPIRE (R116, R118): an expiry with no release. -/
def execAppendLeaseExpire (part seq : Nat) (s : State) : Host.Outcome State Fault Refusal :=
  match s.seq part seq with
  | none => .next s
  | some x =>
    if x.holder.isNone || s.leaseBusy x then .next s
    else .next (((s.reach x.expiry).setSeq part seq fun y => { y with holder := none }).raise Ev.LEASE_EXPIRED part)

end Sys2Proof.Machine
end

