-- ==== Sys2Proof/Machine/SealCmds.lean ====
section
/-! DEFINITION. Sealing (R121–R126, R156, R340–R347, R351): SEAL and the events of a seal. -/

namespace Sys2Proof.Machine

/-! ### Starting -/

/-- The granules of a leaf. -/
def State.leafGrans (s : State) (p q first count : Nat) : List Granule :=
  s.sq.granules.filter fun g => g.part == p && g.seq == q && first ≤ g.first && g.first < first + count

/-- Ready leaves that no seal covers, in position order. -/
def State.startable (s : State) (x : Seq) : List Nat :=
  (s.readyLeaves x).filter fun i => (s.job x.part x.id i).isNone

/-- The seal of a ready leaf starts (R123 step 1). -/
def State.startSeal (s : State) (x : Seq) (i cmd qg : Nat) : State :=
  let T := orderT x.order
  let gs := s.leafGrans x.part x.id (i * T) T
  let j : SealJob :=
    { part := x.part, seq := x.id, leafNo := i, first := i * T, count := T, step := 1, cmd := cmd
      readyT := maxBy (·.time) gs, qg := qg }
  { s with sq := { s.sq with seals := s.sq.seals ++ [j] } }

/-- Group an automatic seal is charged to (R430): that of the queue that held the append lease when the leaf became ready. A leaf that no APPEND
of the sequence made ready goes to the group of the lease's holder, or to group 0, of which the spec says nothing (DESIGN CHOICE, assumption 80). -/
def State.sealGroup (s : State) (x : Seq) (i : Nat) : Nat :=
  (alGet i x.readyBy).getD (match x.holder with | some q => s.qreg F.QBIND_QGROUP q | none => 0)

/-- SEAL (R121, R125, R388). -/
def execSeal (c : Nat) (s : State) : Host.Outcome State Fault Refusal :=
  match s.running c .seal with
  | none => .next s
  | some x =>
    if x.phase ≠ 0 then .next s.settleSeals
    else match s.cancelled x with
      | some s' => .next s'
      | none =>
        match s.seqFor x.part x.seq c with
        | .error st => .next (s.fail c st)
        | .ok (y, _) =>
          if y.auto then
            .next ((s.setCmd c fun z => { z with phase := 1 }).settleSeals)
          else
            let ls := s.startable y
            let s1 := s.setCmd c fun z => { z with phase := 1, leaves := ls, count := 0 }
            .next (ls.foldl (fun (a : State) i => a.startSeal y i c x.qg) s1).settleSeals

/-- AUTO_SEAL_START (R121, R126): a failed seal holds the next start back until another leaf is ready or 1 ms has passed. None starts while the
partition is SWITCHING (DEDUCED from R355 and R406: the switch waits for those that run, assumption 80). -/
def execAutoSealStart (part seq : Nat) (s : State) : Host.Outcome State Fault Refusal :=
  match s.seq part seq, s.geom part with
  | some x, some ge =>
    let ls := s.startable x
    if s.paused 0x09 0 || s.pst part == .switching || !x.auto || x.closing || x.geom != ge.id || (x.retryT != 0 && !ls.any fun i => decide (x.retryN ≤ i)) then .next s
    else match ls.head? with
      | some i => .next ((s.setSeq part seq fun y => { y with retryT := 0 }).startSeal x i 0 (s.sealGroup x i))
      | none => .next s
  | _, _ => .next s

/-- AUTO_SEAL_RETRY (R126): 1 ms has passed. -/
def execAutoSealRetry (part seq : Nat) (s : State) : Host.Outcome State Fault Refusal :=
  match s.seq part seq with
  | none => .next s
  | some x =>
    if x.retryT = 0 ∨ !x.auto ∨ s.paused 0x09 0 ∨ s.pst part = .switching then .next s
    else
      let s1 := (s.reach x.retryT).setSeq part seq fun y => { y with retryT := 0 }
      match (s1.startable x).head? with
      | some i => .next (s1.startSeal x i 0 (s.sealGroup x i))
      | none => .next s1

/-! ### Ending without a commit (R126) -/

/-- A seal ends under R126: the granules stay; a manual SEAL completes with the status, an auto seal is retried. -/
def State.failSeal (s : State) (j : SealJob) (status : Nat) : State :=
  let s2 := s.dropJobs fun k => k.part == j.part && k.seq == j.seq && k.leafNo == j.leafNo
  let s3 := s2.raise Ev.SEAL_FAIL j.part
  -- an import ends with its command (R228)
  let s4 := if j.cmd = 0 then s3 else (if j.seq = importSeq j.cmd then s3.dropWork j.cmd else s3).fail j.cmd status
  (s4.setSeq j.part j.seq fun y =>
    if y.auto then { y with retryT := s.now + 1000000, retryN := maxBy (· + 1) (s3.readyLeaves y) } else y).settleSeals

/-! ### Coding (R123 step 2) -/

/-- The end of the leaf in the chain: its chain value and the one under the base variant tag, when K has reached it (R156). -/
def Seq.endOf (x : Seq) (pos : Nat) : Option (Bytes × Option Bytes) :=
  if x.k < pos then none else (x.ends.find? fun e => e.1 == pos).map (·.2)

/-- The base leaf of a leaf being sealed, with its kind (R340). -/
def State.baseLeaf (s : State) (x : Seq) (j : SealJob) : Option (Leaf × Nat) :=
  if x.baseMode = 1 then
    match (x.endOf (j.first + j.count)).bind (·.2) with
    | some b => (s.indexed x.part x.ns x.order b).map fun l => (l, 1)
    | none => none
  else if x.baseMode = 2 then (alGet j.leafNo x.preds).bind fun h => (s.leaf h).map fun l => (l, 2)
  else none

/-- The conditions of R341 that do not depend on the layer. -/
def State.baseFits (s : State) (x : Seq) (j : SealJob) (l : Leaf) : Bool :=
  s.gp F.CDC_CTRL_DELTA_EN x.part == 1 && l.part == x.part && l.base == 0 && decide (j.cls ≤ l.cls) && l.geom == x.geom

/-- One layer page of a leaf, coded; and blocks that are RAW for want of a code. -/
def State.codePage (s : State) (ge : Geom) (x : Seq) (j : SealJob) (base : Option Leaf) (serial gen layer : Nat) (t : LayerSets) :
    Page × Nat :=
  let T := orderT x.order
  let rows := s.rowsOf ge x layer j.first (j.first + T)
  let img := padImage (rowsImage ge layer rows)
  let bp := base.bind fun l =>
    if ge.deltaSets layer && s.readable l.part (l.serial + layer) then s.page l.part (l.serial + layer) else none
  let r := codeImage ge layer T img (bp.map (·.image)) t
  let le := ge.layer layer
  let h := mkHandle x.part x.order gen (serial + layer)
  let own := maxBy (·.cls) ((s.leafGrans x.part x.id j.first T).filter fun g => g.layer == layer)
  ({ part := x.part, serial := serial + layer, gen := gen, order := x.order, layer := layer, first := j.first, geom := ge.id
     kf := le.kf, vf := le.vf, shared := ge.vDim != 0, cls := j.cls, own := own, image := img, blocks := r.1
     base := (bp.map (·.handle)).getD 0, sealT := 0, sumStack := 8, sumBytes := summaryBytes ge
     summary := some (fretSummary ge layer rows h), score := 0, ts := 0 }, r.2)

/-- The counters of the codec block for pages coded (R336). -/
def State.countBlocks (s : State) (p : Nat) (pages : List Page) (nocode : Nat) : State :=
  let bs := pages.flatMap (·.blocks)
  let n := fun (k : Nat) => (bs.filter fun b => b.kind == k).length
  let s1 := ((s.bumpP F.BLOCKS_CODED p bs.length).bumpP F.BLOCKS_RAW p (n 0)).bumpP F.BLOCKS_ZERO p (n 2)
  let s2 := s1.setPart p fun q =>
    let all := q.lastBlocks ++ bs.map fun b => b.kind == 0
    { q with lastBlocks := all.drop (all.length - 4096) }
  if nocode = 0 then s2 else (s2.bumpP F.RAW_NOCODE p nocode).raise Ev.NOCODE p

/-- The placement is put to the SEAL_PLACE hook (R212, R738). -/
def State.hookPlace (s : State) (j : SealJob) (home : Nat) : State :=
  let go := fun (a : State) (v : Nat) =>
    let pl := a.defaultPlace j v
    let k : SealJob := { j with want := pl.1, cached := pl.2, step := 3 }
    (a.setJob j.part j.seq j.leafNo fun _ => k).tryPlace k
  match s.hookBy j.part 0 with
  | .fallback => go (s.hookCount j.part 0) 0
  | .shipped v => go (s.hookCount j.part 0) v
  | .program =>
    let order := (j.pages.head?.map (·.order)).getD 0
    match s.hookRaise 0 j.part home
      [mkHandle j.part order j.gen j.serial, j.cls, sumBy (·.stored) j.pages, j.seq, j.leafNo, if s.leafD j then 1 else 0] j.seq
      j.leafNo with
    | (s1, true) => s1.setJob j.part j.seq j.leafNo fun _ => { j with step := 2 }
    | (s1, false) => go s1 0

/-- SEAL_CODE_DONE (R123 steps 2 and 3, R126, R195, R340, R341). -/
def execSealCodeDone (part seq leaf : Nat) (s : State) : Host.Outcome State Fault Refusal :=
  match s.job part seq leaf, s.seq part seq, s.geom part with
  | some j, some x, some ge =>
    if j.step ≠ 1 then .next s
    else
      let n := ge.layers.length
      match (List.range n).mapM ge.sets with
      | none => .next (s.failSeal j St.badCmd)
      | some ts =>
        if s.indexFull then .next ((s.raise Ev.INDEX_FULL part).failSeal j St.noSpace)
        else
          -- the class is the highest of the granules that form the leaf (R122)
          let j : SealJob := { j with cls := maxBy (·.cls) (s.leafGrans part seq j.first j.count) }
          let base := (s.baseLeaf x j).bind fun b => if s.baseFits x j b.1 then some b else none
          let r := s.allocRun part n
          let coded := ts.zipIdx.map fun t => s.codePage ge x j (base.map (·.1)) r.2.1 r.2.2 t.2 t.1
          let pages := coded.map (·.1)
          let delta := pages.any fun y => y.base != 0
          let j1 : SealJob := { j with
            serial := r.2.1
            gen := r.2.2
            pages := pages
            base := if delta then (base.map fun b => b.1.handle).getD 0 else 0
            kind := if delta then (base.map fun b => b.2).getD 0 else 0 }
          .next ((r.1.countBlocks part pages (sumBy (·.2) coded)).hookPlace j1 x.home)
  | _, _, _ => .next s

/-- SEAL_PROGRAMS_DONE (R123 step 4, R559). -/
def execSealProgramsDone (part seq leaf : Nat) (s : State) : Host.Outcome State Fault Refusal :=
  match s.job part seq leaf with
  | some j =>
    if j.step == 4 && j.pages.all fun x => s.t3Done part x.serial 0 then .next (s.setJob part seq leaf fun k => { k with step := 5 })
    else .next s
  | none => .next s

/-! ### The commit (R123 steps 5 to 7) -/

/-- The body of a REPLICA of a leaf to a peer (R347, R522): it is to take the base too where it holds no replica of it. -/
def State.replicaBody (s : State) (l : Leaf) (peer : Nat) : Bytes :=
  let withBase := if l.base ≠ 0 ∧ (s.sq.leaves.find? fun b => b.handle == l.base).map (·.replica) ≠ some peer then 1 else 0
  fetchBody l.handle (l.chain.getD []) l.ns l.order withBase 0 0 0

/-- Replication of a leaf (R347, R608, R609): REPLICA to the peer of its base leaf's replica, or to the best candidate. With no
candidate, or no connection, it is sent when one appears. -/
def State.sendLeafReplica (s : State) (h : Nat) : State :=
  match s.leaf h with
  | none => s
  | some l =>
    let basePeer := if l.base = 0 then none else (s.sq.leaves.find? fun b => b.handle == l.base).map (·.replica)
    let q := (s.sq.seqs.find? fun x => x.part == l.part && x.leaves.any fun e => e.2 == h)
    let peer := match basePeer with
      | some r => if s.replicaPeers.any fun y => y.serial == r then some r else s.replicaPeers.head?.map (·.serial)
      | none => match q with
        | some x => s.replicaPeer x
        | none => s.replicaPeers.head?.map (·.serial)
    match peer with
    | none => s
    | some r =>
      if s.malWaiting 0x0022 h then s else s.malSend 0x0022 r (s.replicaBody l r) h

/-- The seal has only its granules left to release; one that has none is over. -/
def State.lastStep (s : State) (its : SealJob → Bool) : State :=
  { s with sq := { s.sq with
    seals := upd its (fun k => { k with step := 8 }) (del (fun k => its k && k.released) s.sq.seals) } }.settleSeals

/-- The step after publication: replication for class P, else the granules are released. -/
def State.afterPublish (s : State) (j : SealJob) : State :=
  if j.cls = 2 then
    (s.setJob j.part j.seq j.leafNo fun k => { k with step := 7 }).sendLeafReplica
      (mkHandle j.part ((s.leafAt j.part j.serial).map (·.order) |>.getD 0) j.gen j.serial)
  else s.lastStep fun k => k.part == j.part && k.seq == j.seq && k.leafNo == j.leafNo

/-- The seal whose leaf's publication is over goes on. -/
def State.publishOver (s : State) (p serial : Nat) : State :=
  (s.sq.seals.filter fun j => j.part == p && j.serial == serial && j.step == 6).foldl (fun (a : State) j => a.afterPublish j) s

/-- The seal whose replica is in flash goes on (R123 step 7). -/
def State.replicaOver (s : State) (h : Nat) : State :=
  match s.leaf h with
  | none => s
  | some l =>
    s.lastStep fun j => j.part == l.part && j.serial == l.serial && j.gen == l.gen && j.step == 7

/-- The pages and copies of a placed leaf enter the page map with their seed score, and its leaf record the directory (R158, R218). -/
def State.enterLeaf (s : State) (j : SealJob) (l : Leaf) : State :=
  let seed := s.seedScore j.part
  let ps := (s.giveSums j.pages).map fun x => { x with sealT := s.now, score := seed, ts := s.now }
  { s with
    free := s.free + j.pages.length
    sq := { s.sq with pages := s.sq.pages ++ ps, leaves := s.sq.leaves ++ [l] }
    tier := { s.tier with copies := s.tier.copies ++ j.copies } }

/-- A ring sequence drops its reference on its oldest non-sink leaf when it holds more than ceil(W / T) + 1 others (R107). -/
def Seq.ringDrop (x : Seq) : Seq :=
  let T := orderT x.order
  let rest := x.leaves.filter fun e => decide (x.sinks ≤ e.1)
  if x.ring && rest.length > ceilDiv x.window T + 1 then
    match rest.head? with
    | some old => { x with leaves := x.leaves.filter (fun e => e.1 != old.1), gone := x.gone ++ [(old.1 * T, (old.1 + 1) * T)] }
    | none => x
  else x

/-- Bytes of the copies written, charged by tier. -/
def State.chargeCopies (s : State) (j : SealJob) : State :=
  j.copies.foldl (fun (a : State) c =>
    a.chargeSeal j (match c.tier with | 0 => .t0Wr | 1 => .t1Wr | 2 => .t2Wr | _ => .t3Wr) c.bytes false) s

/-- The SEAL commands that wait for a leaf count it as sealed (R121, R388). -/
def State.countSeal (s : State) (p q leaf : Nat) : State :=
  { s with q := { s.q with
    cmds := upd (fun c => c.is .seal && c.live && c.part == p && c.seq == q && c.leaves.contains leaf) (fun c => { c with count := c.count + 1 })
      s.q.cmds } }

/-- The base binding kept with the seal record of a base-delta leaf (R342); its base may have become a base remnant meanwhile. -/
def State.bindBase (s : State) (l : Leaf) (kind : Nat) : Leaf :=
  match (if l.base = 0 then none else s.sq.leaves.find? fun b => b.handle == l.base) with
  | some b => { l with bindChain := b.chain.getD (List.replicate 16 0), bindNs := b.ns, bindKind := kind }
  | none => l

/-- The seal commit point of a leaf (R123 steps 5 and 6, R107, R156, R158, R218, R351). -/
def State.sealCommit (s : State) (j : SealJob) (x : Seq) : State :=
  let p := j.part
  let pos := j.first + j.count
  let h := mkHandle p x.order j.gen j.serial
  let en := x.endOf pos
  let l : Leaf :=
    { part := p, serial := j.serial, gen := j.gen, order := x.order, layers := j.pages.length, geom := x.geom, leafNo := j.leafNo
      ns := x.ns, variant := x.variant, cls := j.cls, chain := en.map (·.1), published := false, base := j.base, sealT := s.now }
  let l := s.bindBase l j.kind
  let dup := match en with | some e => (s.indexed p x.ns x.order e.1).isSome | none => false
  let ok := en.isSome && (x.ns == 0 || s.groupActive p x.ns)
  let s1 := ((s.chargeCopies j).enterLeaf j l).noteBehind s
  let s2 := s1.setSeq p x.id fun y =>
    ({ y with leaves := insBy (fun e => ((e.1 : Nat) : Int)) (j.leafNo, h) y.leaves, ends := y.ends.filter fun e => e.1 != pos }).ringDrop
  let s3 := (s2.countSeal p x.id j.leafNo).setJob p x.id j.leafNo fun k => { k with step := 6, pages := [], copies := [] }
  let s4 := j.pages.foldl (fun (a : State) y =>
    a.sawRatio p y.layer (y.image.length, max 1 y.stored)) s3
  let s5 := (s4.bumpP F.DELTA_PAGES p (j.pages.filter fun y => y.base != 0).length).maxP F.SEAL_LAT_MAX p (s.now - j.readyT)
  let s6 := if ok && !dup then s5.publishLeaf h
    else
      let a := s5.bumpP F.UNPUB_SEALS p
      if ok then a.bumpP F.DUP_SEALS p else a
  let s7 := s6.sweep
  if s7.pubPending p j.serial then s7
  else match s7.job p x.id j.leafNo with
    | some k => s7.afterPublish k
    | none => s7

/-- SEAL_COMMIT (R123, R125): once a stream codec that codes the leaf is done with its blocks (R327). -/
def execSealCommit (part seq leaf : Nat) (s : State) : Host.Outcome State Fault Refusal :=
  match s.job part seq leaf, s.seq part seq with
  | some j, some x => if j.step = 5 ∧ !s.coding j then .next (s.sealCommit j x).pump else .next s
  | _, _ => .next s

/-- SEAL_SPACE_TIMEOUT (R126, R228): a seal, or an import, that found no room within 1 ms ends. -/
def execSealSpaceTimeout (part seq leaf : Nat) (s : State) : Host.Outcome State Fault Refusal :=
  match s.job part seq leaf with
  | some j =>
    if j.step ≠ 3 ∨ j.waitUntil = 0 then .next s
    else .next (((s.reach j.waitUntil).raise Ev.ADMIT_REFUSED part).failSeal j St.noSpace)
  | none => .next s

/-- GRANULE_RELEASE (R123 step 8): no command reads the leaf's granules any more. -/
def execGranuleRelease (part seq leaf : Nat) (s : State) : Host.Outcome State Fault Refusal :=
  match s.job part seq leaf with
  | some j =>
    let read := (s.leafGrans part seq j.first j.count).any fun g =>
      s.att.attns.any fun a => a.part == part && a.layer == g.layer && a.grans.any fun h => h.seq == seq && h.first == g.first
    if j.step ≠ 8 ∨ read then .next s
    else
      let s1 := s.dropGrans part seq fun g => decide (j.first ≤ g.first) && decide (g.first < j.first + j.count)
      .next { s1 with sq := { s1.sq with
        seals := del (fun k => k.part == part && k.seq == seq && k.leafNo == leaf) s1.sq.seals } }.pump
  | none => .next s

end Sys2Proof.Machine
end

