-- ==== Sys2Proof/Machine/Lose.lean ====
section
/-! DEFINITION. Loss of leaves: by revocation of an extent (R242), a flash rebuild or a bridge die (R40, R577), an HBM fault (R680), a
power loss, and of the base of a delta page (R344). -/

namespace Sys2Proof.Machine

/-- Page `serial` of partition p belongs to the leaf, freed or not. -/
def Leaf.holds (l : Leaf) (p serial : Nat) : Bool := l.part == p && decide (l.serial ≤ serial ∧ serial < l.serial + l.layers)

/-- The leaf that holds a page, a base remnant too. -/
def State.leafOf (s : State) (p serial : Nat) : Option Leaf := s.sq.leaves.find? fun l => l.holds p serial

/-- Leaves with a delta page against a page of one of these (R344). -/
def State.dependants (s : State) (ls : List Leaf) : List Leaf :=
  s.leaves.filter fun l =>
    !(ls.any fun m => m.part == l.part && m.serial == l.serial) &&
    (s.leafPages l).any fun x => x.base != 0 && ls.any fun m => m.holds (hPart x.base) (hSerial x.base)

/-- Leaves lose every reference: sequences are truncated to the first position lost, with ROLLBACK (R242), capos are broken (R188),
training views are released (R323), the directory forgets them; their storage returns. -/
def State.dropLeaves (s : State) (gs : List Leaf) : State :=
  let gone := fun (h : Nat) => gs.any fun l => l.handle == h
  let s1 := s.sq.seqs.foldl (fun (a : State) x =>
    match ((x.leaves.filter fun e => gone e.2).map (·.1)).min? with
    | some n => a.cutSeq x.part x.id (n * orderT x.order)
    | none => a) s
  let s2 := (s1.pdir.capos.filter fun k => k.leaves.any gone).foldl (fun (a : State) k => a.breakCapo k.num) s1
  let vs := del (fun (v : View) => v.leaves.any fun e => gone e.2) s2.att.views
  let s3 : State := { s2 with att := { s2.att with views := vs } }
  (gs.foldl (fun (a : State) l => (a.leaf l.handle).elim a a.unpublish) s3).sweep

/-- The lost-handle records of these leaves, one event for each partition and cause (R688). -/
def State.reportLost (s : State) (gs : List Leaf) (cause fault : Nat) : State :=
  ((gs.map (·.part)).eraseDups).foldl (fun (a : State) p =>
    a.lostHandles p cause fault ((gs.filter fun l => l.part == p).map (·.handle))) s

/-- Leaves are lost for a cause (R688), and with them the leaves coded against them (cause 4, BASE_LOST). Answers how many leaves
left the page map. -/
def State.loseLeaves (s : State) (ls : List Leaf) (cause fault : Nat) : State × Nat :=
  let here := ls.filter fun l => !l.freed
  let deps := s.dependants ls
  if ls.isEmpty then (s, 0)
  else
    let s1 := (s.reportLost here cause fault).reportLost deps 4 fault
    let s2 := ((deps.map (·.part)).eraseDups).foldl (fun (a : State) p => a.raise Ev.BASE_LOST p) s1
    (s2.dropLeaves (here ++ deps), here.length + deps.length)

/-- A page whose every copy is unreadable takes with it the leaves with a delta page against it (R344); it is left in the page map itself (R287). -/
def State.baseUnread (s : State) (p serial : Nat) : State :=
  let deps := s.leaves.filter fun l => (s.leafPages l).any fun x => x.base != 0 && hPart x.base == p && hSerial x.base == serial
  if s.anyCopy p serial || s.restoring p serial || deps.isEmpty then s
  else
    let s1 := s.reportLost deps 4 0
    (((deps.map (·.part)).eraseDups).foldl (fun (a : State) q => a.raise Ev.BASE_LOST q) s1).dropLeaves deps

/-- A copy of a page does not read correctly (R206, R338). -/
def State.badCopy (s : State) (p serial t d : Nat) : State :=
  (s.setCopy p serial t d fun k => { k with good := false }).baseUnread p serial

/-- Pages whose every copy, or backing copy, is gone: their leaves are lost. -/
def State.losePages (s : State) (ps : List (Nat × Nat)) (cause fault : Nat) : State × Nat :=
  s.loseLeaves ((s.sq.leaves.filter fun l => ps.any fun p => l.holds p.1 p.2)) cause fault

/-- Copies cease to exist; no read reference keeps them. -/
def State.killCopies (s : State) (dead : Copy → Bool) : State :=
  { s with tier := { s.tier with copies := del dead s.tier.copies } }

/-- Copies that satisfy `dead` are lost (R242, R680, R40): cached copies go; a page whose backing copy goes is lost when no other
device image restores it. Answers the leaves lost. -/
def State.loseCopies (s : State) (dead : Copy → Bool) (cause fault : Nat) : State × Nat :=
  let back := (s.tier.copies.filter fun c => dead c && c.backing && !c.leaving).map fun c => (c.part, c.serial)
  ((s.killCopies dead).losePages back.eraseDups cause fault)

end Sys2Proof.Machine
end

