-- ==== Sys2Proof/Machine/BootOps.lean ====
section
/-! DEFINITION. Boot steps (R699, R703, R704) and the service level (R720), as the events of start-up move them. -/

namespace Sys2Proof.Machine

/-- States of a boot step record (R704). -/
def stepRunning := 1
def stepOk := 2
def stepDegraded := 3
def stepSkipped := 4
def stepFailed := 5

def State.stepState (s : State) (n : Nat) : Nat := s.gs F.STEP_STATE_STATE n

/-- Steps that must have ended before a step begins (R699). -/
def stepAfter : Nat → List Nat
  | 0 => [] | 1 => [0] | 2 => [1] | 3 => [2] | 4 => [2] | 5 => [3, 4] | 6 => [5] | 7 => [6] | 8 => [7] | _ => [8]

/-- A step begins: its record runs from now. -/
def State.beginStep (s : State) (n : Nat) : State :=
  -- of step 0 the failed verifications are the attempts (R700)
  let s1 := ((s.ws F.STEP_STATE_STATE n stepRunning).ws F.STEP_START n s.now).ws F.STEP_STATE_ATTEMPTS n (if n = 0 then 0 else 1)
  if n > s.g F.BOOT_PHASE_STEP then s1.w F.BOOT_PHASE_STEP n else s1

/-- A step may run: those before it have ended, it has not, and the device is not halted. -/
def State.mayStep (s : State) (n : Nat) : Bool :=
  s.boot.begun && !s.boot.halted && !s.hw.stopped && !s.stepDone n && (stepAfter n).all fun k => s.stepDone k

/-- A step ends in a state; the steps that waited for it begin (R699, R704). -/
def State.endStep (s : State) (n st : Nat) : State :=
  if s.stepDone n then s
  else
    let s1 := (s.ws F.STEP_STATE_STATE n st).ws F.STEP_END n s.now
    let s2 := { s1 with boot := { s1.boot with ended := s1.boot.ended ++ [n] } }
    let s3 := if st = stepDegraded then s2.raise Ev.STEP_ALTERNATE else if st = stepSkipped then s2.raise Ev.STEP_SKIPPED else s2
    if n = 9 then s3.w F.BOOT_PHASE_STEP 9
    else (((List.range 10).filter fun k => (stepAfter k).contains n && s3.mayStep k)).foldl (fun (a : State) k => a.beginStep k) s3

/-- A step is still to end and a unit of it has not been through (R703). -/
def State.unitOwed (s : State) (n unit : Nat) : Bool := s.mayStep n && !s.boot.settled.contains (n, unit)

/-- A unit of a step is through. -/
def State.settleUnit (s : State) (n unit : Nat) : State :=
  { s with boot := { s.boot with settled := s.boot.settled ++ [(n, unit)] } }

/-- The step is over: DEGRADED where a unit of it was degraded. -/
def State.closeStep (s : State) (n : Nat) : State := s.endStep n (if s.boot.worse.contains n then stepDegraded else stepOk)

/-- The device halts at a step (R702, R704). -/
def State.halt (s : State) (n : Nat) : State :=
  ({ s.ws F.STEP_STATE_STATE n stepFailed with boot := { s.boot with halted := true } } : State).raise Ev.STEP_FAIL

/-- Time since power-good, in a saturating 32-bit register (LOCAL_NS, FULL_NS). -/
def State.sinceGood (s : State) : Nat := min ((s.now : Int) - s.boot.powerGoodT).toNat (2 ^ 32 - 1)

/-- The service level rises (R720). -/
def State.setService (s : State) (v : Nat) : State :=
  if s.g F.BOOT_PHASE_SERVICE ≥ v then s
  else
    let s1 := s.w F.BOOT_PHASE_SERVICE v
    match v with
    | 1 => (s1.w F.LOCAL_NS s.sinceGood).raise Ev.SERVICE_LOCAL
    | 2 => s1.raise Ev.SERVICE_JOINED
    | _ => (s1.w F.FULL_NS s.sinceGood).raise Ev.SERVICE_FULL

/-- The device has joined the domain (R720). -/
def State.joined (s : State) : Bool := s.g F.BOOT_PHASE_SERVICE ≥ 2

/-- The entries of the device's own shards are written to the journal (R172, R719): every SHARD_CKPT_S and at a clean shutdown. Entries that
name a holder outside the ring are dropped. -/
def State.journalShards (s : State) : State :=
  let live := fun (h : Holder) => s.pdir.ring.contains h.serial || h.ver < 0x30
  let mine := s.pdir.shards.filter fun (e : ShardEnt) => s.shardOwner e.shard == some s.dev.serial
  let kept := (mine.map fun (e : ShardEnt) => { e with holders := e.holders.filter live }).filter fun (e : ShardEnt) => !e.holders.isEmpty
  { s with pdir := { s.pdir with journalled := kept, journalRing := s.pdir.ring } }

end Sys2Proof.Machine
end

