-- ==== Sys2Proof/Machine/Net.lean ====
section
/-! DEFINITION. The domain network's operations (R506–R536): replies, shard queries and publications, incidents and their
declarations, the ring and what a change of it starts (R164–R172, R719), replication that waits for a peer (R612). -/

namespace Sys2Proof.Machine

/-! ### Receiving and answering (R507–R510) -/

/-- Reply statuses of the header. -/
def mOk := 0
def mMiss := 1
def mBusy := 2
def mRedirect := 3
def mRefused := 4
def mVersion := 5

/-- Answer a request once and keep the reply (R509). -/
def State.malReply (s : State) (m : MalMsg) (status : Nat) (body : Bytes) : State :=
  let r : MalMsg := { s.malMsg m.typ m.src m.msgId m.ver body with reply := true, status := status }
  let k : KeptReply := { src := m.src, msgId := m.msgId, reply := r, time := s.now }
  let same := fun (x : KeptReply) => x.src == m.src && x.msgId == m.msgId
  { s with net := { s.net with kept := put same k s.net.kept }, free := s.free + 1 }.emit (.malroth r)

def State.peer (s : State) (n : Nat) : Option Peer := s.net.peers.find? fun p => p.serial == n

def State.setPeer (s : State) (n : Nat) (f : Peer → Peer) : State :=
  { s with net := { s.net with peers := upd (fun p => p.serial == n) f s.net.peers } }

/-! ### Leaders and arbiters (R523, R527) -/

/-- The group leaders known, ascending. -/
def State.leaders (s : State) : List Nat :=
  let ps := (s.net.peers.filter fun p => p.kind == 1 && p.leader && p.reachable).map (·.serial)
  sortNat ((if s.net.leader = s.dev.serial then s.dev.serial :: ps else ps).eraseDups)

/-- The leader that follows x in ascending serial order, wrapping. -/
def State.nextLeader (s : State) (x : Nat) : Option Nat :=
  let ls := s.leaders.filter (· != x)
  match ls.find? fun l => decide (x < l) with
  | some l => some l
  | none => ls.head?

def State.prevLeader (s : State) (x : Nat) : Option Nat :=
  let ls := (s.leaders.filter (· != x)).reverse
  match ls.find? fun l => decide (l < x) with
  | some l => some l
  | none => ls.head?

/-- Rack group of a device, as the map or its HELLO names it. -/
def State.groupOf (s : State) (n : Nat) : Nat :=
  if n = s.dev.serial then s.net.group
  else match s.peer n with
    | some p => p.group
    | none => ((s.boot.map.bind fun m => m.entries.find? fun e => e.serial == n).map (·.group)).getD 0

/-- The suspect of a declared incident of a class. -/
def State.declaredOf (s : State) (n cls : Nat) : Bool :=
  s.net.incidents.any fun i => i.suspect == n && i.cls == cls && i.st == .declared

/-- The next leader that may be an arbiter: one of a declared TIME incident may not (R526). -/
def State.nextArbiter (s : State) (x : Nat) : Option Nat :=
  let ls := s.leaders.filter fun l => l != x && !s.declaredOf l 4
  match ls.find? fun l => decide (x < l) with
  | some l => some l
  | none => ls.head?

/-- The arbiter of an incident (R526, R527): the leader of the suspect's group, or the next leader when the suspect leads or its leader may
not be one. -/
def State.arbiterOf (s : State) (suspect : Nat) : Option Nat :=
  if s.leaders.contains suspect then s.nextArbiter suspect
  else
    let g := s.groupOf suspect
    match s.leaders.find? fun l => s.groupOf l == g with
    | some l => if s.declaredOf l 4 then s.nextArbiter l else some l
    | none => s.nextArbiter suspect

/-! ### Class P replication that waits for a peer (R609, R612) -/

/-- Every class P leaf and sequence without a replica is replicated again, oldest first. -/
def State.rereplicate (s : State) : State :=
  let ls := sortBy (fun (l : Leaf) => ((l.sealT : Nat) : Int)) (s.leaves.filter fun l => l.cls == 2 && l.replica == 0)
  let s1 := ls.foldl (fun (a : State) l => a.sendLeafReplica l.handle) s
  (s.sq.seqs.filter (·.unreplicated)).foldl (fun (a : State) x =>
    match a.replicaPeer x with
    | none => a
    | some r =>
      let gs := a.sq.granules.filter fun g => g.part == x.part && g.seq == x.id && g.cls == 2
      if a.malWaiting 0x0022 (stagingHandle x.part x.id) then a
      else (a.sendReplicas x.part x.id r (stagingHandle x.part x.id) (gs.map fun g => (g.layer, g.first, g.slot))).setSeq
        x.part x.id fun y => { y with peer := r }) s1

/-- A replica peer is gone: what it held is replicated again (R612). -/
def State.peerLost (s : State) (n : Nat) : State :=
  let mine := (s.sq.leaves.any fun l => l.replica == n) || (s.sq.seqs.any fun x => x.peer == n)
  let gone := fun (x : Seq) =>
    if x.peer = n then { x with peer := 0, unreplicated := s.sq.granules.any fun g => g.part == x.part && g.seq == x.id && g.cls == 2 }
    else x
  let s1 := { s with sq := { s.sq with
    leaves := upd (fun l => l.replica == n) (fun l => { l with replica := 0 }) s.sq.leaves
    seqs := s.sq.seqs.map gone } }
  if mine then (s1.raise Ev.REPLICA_MOVE).rereplicate else s1

/-! ### Shard queries and publications (R512–R517, R534) -/

/-- A key body (R512). -/
structure KeyB where
  ns : Nat
  order : Nat
  flags : Nat
  chain : Bytes
  geom : Bytes
  handle : Nat
  holder : Nat
  deriving DecidableEq, Repr

def keyB (b : Bytes) : KeyB :=
  { ns := rd b 0 4, order := rd b 4 1, flags := rd b 5 1, chain := slice b 8 16, geom := slice b 0x18 16, handle := rd b 0x28 8
    holder := rd b 0x30 8 }

def keyBs (b : Bytes) : List KeyB := ((chunks 56 b).filter fun c => c.length == 56).map keyB

def KeyB.key (k : KeyB) : Bytes := entryKey k.ns k.order k.chain
def KeyB.shard (k : KeyB) : Nat := shardOf k.chain

/-- The holders an answer lists (R513). -/
def State.listHolders (s : State) (es : List ShardEnt) (k : KeyB) : List Holder :=
  match es.find? fun e => e.key == k.key with
  | some e => e.holders.filter fun h => h.geom == k.geom && !s.declaredOf h.serial 1 && !s.declaredOf h.serial 3
  | none => []

/-- One answer (R513). -/
def State.answer (s : State) (kind snap owner : Nat) (hs : List Holder) : Bytes :=
  let load := fun (n : Nat) => if n = s.dev.serial then s.choose.1 % 256 else ((s.peer n).map (·.load)).getD 0
  leBytes 1 kind ++ leBytes 1 hs.length ++ leBytes 2 0 ++ leBytes 4 snap ++ leBytes 8 owner ++
  hs.flatMap fun h => leBytes 8 h.serial ++ leBytes 8 h.handle ++ leBytes 1 (load h.serial) ++ leBytes 1 h.ver ++ leBytes 6 0

/-- The shard is on its way to this device, which answers for it from its acknowledgement (R169 step 3). -/
def State.receiving (s : State) (shard : Nat) : Bool := s.pdir.moving.any fun v => v.shard == shard && !v.giving

def State.owns (s : State) (shard : Nat) : Bool := s.shardOwner shard == some s.dev.serial

/-- The shard is this device's to answer: it owns it and has received it, or has still to give it away (R169). -/
def State.answers (s : State) (shard : Nat) : Bool :=
  (s.owns shard && !s.receiving shard) || s.pdir.moving.any fun v => v.shard == shard && v.giving

def State.redirect (s : State) (k : KeyB) : Bytes := s.answer 2 0 ((s.shardOwner k.shard).getD 0) []

/-- A query is passed on to the owners of the keys that `mine` has no answer for, one request each; the reply gathers the answers in the
order of the keys (R169 step 2, R512, R534). With an answer for every key it is sent at once. -/
def State.relay (s : State) (m : MalMsg) (mine : KeyB → Option Bytes) : State :=
  let ks := (keyBs m.body).zipIdx
  let others := ks.filter fun k => (mine k.1).isNone
  let got := ks.filterMap fun k => (mine k.1).map fun b => (k.2, b)
  if others.isEmpty then s.malReply m mOk (got.flatMap (·.2))
  else
    let owners := (others.filterMap fun k => s.shardOwner k.1.shard).eraseDups
    let r := owners.foldl (fun (a : State × List (Nat × List Nat)) o =>
      let is_ := (others.filter fun k => s.shardOwner k.1.shard == some o).map (·.2)
      (a.1.malForward m o (is_.flatMap fun i => slice m.body (56 * i) 56), a.2 ++ [(a.1.net.nextMsg, is_)])) (s, [])
    { r.1 with net := { r.1.net with relays := r.1.net.relays ++ [{ msg := m, parts := r.2, got := got }] } }

/-- The answers a reply carries for n key bodies. -/
def answersOf : Nat → Bytes → List Bytes
  | 0, _ => []
  | n + 1, b => let k := 16 + 24 * rd b 1 1; b.take k :: answersOf n (b.drop k)

def State.relayOf (s : State) (msgId : Nat) : Option Relay := s.net.relays.find? fun r => r.parts.any fun p => p.1 == msgId

/-- An owner has answered a request passed on to it: with the last answer the reply goes to the device that asked (R169, R534). -/
def State.relayReply (s : State) (r : Relay) (m : MalMsg) : State :=
  let is_ := ((r.parts.find? fun p => p.1 == m.msgId).map (·.2)).getD []
  let new := if m.typ = 0x0010 ∧ m.status ≤ 3 then is_.zip (answersOf is_.length m.body) else []
  let r1 : Relay := { r with parts := del (fun p => p.1 == m.msgId) r.parts, got := r.got ++ new
                             status := if m.status = mOk then r.status else m.status }
  let s1 := { s with net := { s.net with relays := del (fun x => x == r) s.net.relays } }
  if r1.parts.isEmpty then
    s1.malReply r.msg r1.status ((sortBy (fun (e : Nat × Bytes) => ((e.1 : Nat) : Int)) r1.got).flatMap (·.2))
  else { s1 with net := { s1.net with relays := s1.net.relays ++ [r1] } }

/-- The live answer for a key, or the answer of the latest snapshot to a 2.x query (R189, R192). -/
def State.answerKey (s : State) (ver : Nat) (k : KeyB) : Bytes :=
  let sn := s.pdir.snaps.head?.getD ⟨0, []⟩
  let hs := s.listHolders (if ver < 0x300 then sn.shards else s.pdir.shards) k
  s.answer (if hs.isEmpty then 0 else 1) (if ver < 0x300 then sn.ver else 0) 0 hs

/-- A request waits until the shards it names have arrived (R169 step 3). -/
def State.awaitShard (s : State) (m : MalMsg) : State := { s with net := { s.net with later := s.net.later ++ [m] } }

/-- A SHARD_QUERY is answered (R169, R170, R189, R192, R513, R517, R534). -/
def State.answerQuery (s : State) (m : MalMsg) : State :=
  let ks := keyBs m.body
  if m.ver < 0x300 ∧ s.pdir.ring.isEmpty then s.malReply m mBusy []
  else if m.ver ≥ 0x300 ∧ m.ringEpoch < s.pdir.ringEpoch then s.malReply m mRedirect (ks.flatMap s.redirect)
  else if ks.any fun k => s.receiving k.shard then s.awaitShard m
  else s.relay m fun k => if s.answers k.shard then some (s.answerKey m.ver k) else none

/-- The version byte of a holder entry. -/
def verByte (v : Nat) : Nat := v / 256 * 16 + v % 16

/-- A publication of keys of which one is not this device's to record: it names the owners. A publication is never passed on, since only a
query is (R4) and its sender is the holder; of an LN520's, to which R170 gives no redirect, the spec says nothing (DESIGN CHOICE, assumption
74). -/
def State.publishElse (s : State) (m : MalMsg) (ks : List KeyB) : State := s.malReply m mRedirect (ks.flatMap s.redirect)

/-- A PUBLISH is applied and acknowledged (R514, R517). -/
def State.answerPublish (s : State) (m : MalMsg) : State :=
  let ks := keyBs m.body
  let go := (ks.filter fun k => s.owns k.shard).foldl (fun (t : State) k =>
    t.applyPublish k.ns k.order k.chain k.geom m.src k.handle (verByte m.ver)) s
  if m.ver < 0x300 then
    if s.pdir.ring.isEmpty then s.malReply m mBusy [] else if ks.any (fun k => !s.owns k.shard) then go.publishElse m ks else go.malReply m mOk []
  else if m.ringEpoch < s.pdir.ringEpoch ∨ ks.any (fun k => !s.owns k.shard) then s.publishElse m ks
  else go.malReply m mOk []

/-- A message under a newer ring waits for it; RING_PULL goes to the leader (R517). -/
def State.awaitRing (s : State) (m : MalMsg) : State :=
  let s1 := { s with net := { s.net with later := s.net.later ++ [m] } }
  if s.net.leader = 0 ∨ s.net.leader = s.dev.serial ∨ s1.malWaiting 0x0041 0 then s1 else s1.malSend 0x0041 s.net.leader [] 0

/-- A stale holder is removed from the entries that list it; STALE_HOLDER says that one was (R196, R515). -/
def State.staleHolder (s : State) (gone : Bytes → Holder → Bool) : State :=
  if s.pdir.shards.any fun e => e.holders.any fun h => gone e.key h then (s.removeHolder gone).raise Ev.STALE_HOLDER else s

/-- A stale holder is reported to the shard owner (R181, R182), which checks it with a FETCH of its own (R515). -/
def State.checkHolder (s : State) (k : KeyB) (holder : Nat) (failed : Bool) : State :=
  if holder = s.dev.serial then
    let have_ := (s.leaf k.handle).isSome
    if !have_ || failed then s.staleHolder fun key h => key == k.key && h.serial == holder && h.handle == k.handle else s
  else s.malSend 0x0020 holder (fetchBody k.handle k.chain k.ns k.order 0 0 0 0) 0 (if failed then 2 else 1)

def State.reportStale (s : State) (k : KeyB) (holder : Nat) (failed : Bool) : State :=
  match s.shardOwner k.shard with
  | none => s
  | some o =>
    if o = s.dev.serial then s.checkHolder k holder failed
    else s.malSend 0x0013 o (keyBody k.ns k.order (if failed then 4 else 0) k.chain k.geom k.handle holder) 0

/-! ### Incidents (R526–R533) -/

def State.inc (s : State) (n : Nat) : Option Incident := s.net.incidents.find? fun i => i.num == n

def State.setInc (s : State) (n : Nat) (f : Incident → Incident) : State :=
  { s with net := { s.net with incidents := upd (fun i => i.num == n) f s.net.incidents } }

def State.windowNs (s : State) : Nat := s.g F.INC_CFG_WINDOW_MS * 1000000

/-- The body of an INCIDENT_REPORT (R526). -/
def State.reportBody (s : State) (suspect cls unit : Nat) : Bytes :=
  leBytes 8 suspect ++ leBytes 1 cls ++ leBytes 1 unit ++ leBytes 2 0 ++ leBytes 4 s.pdir.ringEpoch ++ leBytes 8 s.now

/-- One probe of an incident's suspect: a PROBE, or for an LN520 a FETCH check (R529, R534). -/
def State.sendProbe (s : State) (i : Incident) : State :=
  let ln520 := ((s.peer i.suspect).map (·.kind)).getD 1 == 2
  let s1 := s.setInc i.num fun x => { x with probes := x.probes + 1, probeT := s.now }
  if ln520 then s1.malSend 0x0020 i.suspect (fetchBody 0 [] 0 0 0 0 0 0) i.num 6 else s1.malSend 0x0031 i.suspect [] i.num

/-- The ring's members: the count register follows, and RING_CHANGE where RING_EPOCH rises (R196). -/
def State.setRing (s : State) (e : Nat) (ring : List Nat) : State :=
  let s1 := { s with pdir := { s.pdir with ring := ring, ringEpoch := e } }
  let s2 := (s1.w F.RING_EPOCH e).w F.MEMBERS ring.length
  if e > s.pdir.ringEpoch then s2.raise Ev.RING_CHANGE else s2

/-- An entry of a shard as SHARD_XFER carries it (R516): a key body, then its holder entries. The chapter gives no place for their number: it
stands in LEAF_PH, which names no single holder here. -/
def ShardEnt.body (e : ShardEnt) : Bytes :=
  slice e.key 0 5 ++ leBytes 3 0 ++ slice e.key 5 16 ++
  slice ((e.holders.head?.map fun (h : Holder) => h.geom).getD [] ++ List.replicate 16 0) 0 16 ++ leBytes 8 e.holders.length ++ leBytes 8 0 ++
  e.holders.flatMap fun h => leBytes 8 h.serial ++ leBytes 8 h.handle ++ leBytes 1 0 ++ leBytes 1 h.ver ++ leBytes 6 0

/-- The bodies of the messages that carry a shard, each as many whole entries as fit; at least one message, empty for an empty shard. -/
def State.xferBodies (s : State) (shard : Nat) : List Bytes :=
  let add := fun (a : List Bytes) (b : Bytes) =>
    match a.getLast? with
    | some x => if x.length + b.length ≤ 65504 then a.dropLast ++ [x ++ b] else a ++ [b]
    | none => [b]
  let bs := ((s.pdir.shards.filter fun e => e.shard == shard).map fun (e : ShardEnt) => e.body).foldl add []
  if bs.isEmpty then [[]] else bs

/-- The entries a SHARD_XFER body carries; `fuel` bounds them. -/
def readXfer (now : Nat) : Nat → Bytes → List ShardEnt
  | 0, _ => []
  | fuel + 1, b =>
    if b.length < 56 then []
    else
      let k := keyB (b.take 56)
      let n := k.handle
      let hs := (List.range (min n (b.length / 24))).map fun i =>
        let o := 56 + 24 * i
        ({ serial := rd b o 8, handle := rd b (o + 8) 8, ver := rd b (o + 17) 1, pubT := now, geom := k.geom } : Holder)
      ({ key := k.key, shard := k.shard, holders := hs } : ShardEnt) :: readXfer now fuel (b.drop (56 + 24 * n))

/-- The shard moves a ring change leaves (R169, R536), `prev` being the owners' ring before: every shard this device answered for or holds
entries of, and another owns now, is given; every shard it owns now and another, still in the ring, owned before, is received. A shard
whose old owner has left the ring starts empty (R171). -/
def State.shardMoves (s : State) (prev : List Nat) : List ShardMove :=
  let me := s.dev.serial
  (List.range 262144).filterMap fun n =>
    let was := ownerIn prev n
    let old := s.pdir.moving.find? fun v => v.shard == n
    match s.shardOwner n with
    | none => none
    | some o =>
      if o ≠ me then
        if (was == some me && !old.any fun v => !v.giving) || (old.any fun v => v.giving) || s.pdir.shards.any fun e => e.shard == n then
          some { shard := n, peer := o, giving := true }
        else none
      else match old with
        | some v => if !v.giving && s.pdir.ring.contains v.peer then some v else none
        | none =>
          match was with
          | some w => if w ≠ me && s.pdir.ring.contains w then some { shard := n, peer := w, giving := false } else none
          | none => none

/-- Shard transfers after a ring change (R169, R536): what was on its way to another device is sent anew to the owner. -/
def State.startXfers (s : State) (prev : List Nat) : State :=
  let mv := s.shardMoves prev
  let stays := fun (w : MalWait) => w.msg.typ != 0x0014 || mv.any fun v => v.giving && v.shard == w.ctx && v.peer == w.msg.dst
  let new := mv.filter fun v => v.giving && !s.pdir.moving.contains v
  let s1 := { s with pdir := { s.pdir with moving := mv }, net := { s.net with waits := s.net.waits.filter stays } }
  new.foldl (fun (a : State) v =>
    let bs := a.xferBodies v.shard
    bs.zipIdx.foldl (fun (t : State) b => t.malSend 0x0014 v.peer b.1 v.shard 0 (b.2 + 1 == bs.length)) a) s1

/-- Published leaves whose shard has an owner (R171). -/
def State.shardLeaves (s : State) : List Leaf := s.leaves.filter fun l => l.published && l.ns != 0 && l.chain.isSome

def Leaf.shard (l : Leaf) : Nat := shardOf (l.chain.getD [])

/-- What a device does with the first ring after a start-up (R172, R719): it loads its journalled entries, and lists the leaf
records to republish. -/
def State.startWarm (s : State) : State :=
  let me := s.dev.serial
  let mine := s.pdir.journalled.filter fun e =>
    s.shardOwner e.shard == some me && ownerIn s.pdir.journalRing e.shard == some me
  let keep := mine.map fun e => { e with holders := e.holders.filter fun h => s.pdir.ring.contains h.serial || h.ver < 0x30 }
  let loaded := (keep.filter fun e => !e.holders.isEmpty).filter fun e => !s.pdir.shards.any fun x => x.key == e.key
  let late := fun (l : Leaf) =>
    s.boot.passedPfail && decide (s.boot.pfailT < l.ackT + 2 * s.g F.SHARD_CKPT * 1000000000)
  let due : List Leaf := s.shardLeaves.filter fun (l : Leaf) => s.shardOwner l.shard != some l.ackBy || late l
  let s1 := { s with
    pdir := { s.pdir with shards := s.pdir.shards ++ loaded }
    boot := { s.boot with republish := due.map fun (l : Leaf) => l.handle } }
  s1.w F.REPUB_LEFT due.length

/-- The shard that the last message of a transfer ends: the one its entries name, or, of an empty shard, the lowest that is still on its way
from that device. -/
def State.xferShard (s : State) (src : Nat) (es : List ShardEnt) : Option Nat :=
  match es.head? with
  | some e => some e.shard
  | none => (s.pdir.moving.filter fun v => !v.giving && v.peer == src).map (·.shard) |>.min?

/-- The entries of a SHARD_XFER are taken (R169, R516): the reply to the last message is the acknowledgement, from which this device answers.
What an older ring still sent here goes on to its owner (R536). -/
def State.takeXfer (a : State) (m : MalMsg) : State :=
  let es := readXfer a.now m.body.length m.body
  let merge := fun (t : State) (e : ShardEnt) =>
    let lim := max 1 (t.g F.PDIR_HOLDER_MAX)
    let old := ((t.pdir.shards.find? fun x => x.key == e.key).map fun (x : ShardEnt) => x.holders).getD []
    let new := e.holders.filter fun h => !old.any fun o => o.serial == h.serial && o.handle == h.handle
    let x : ShardEnt := { e with holders := (old ++ new).take lim }
    { t with pdir := { t.pdir with shards := put (fun y => y.key == e.key) x t.pdir.shards } }
  let a1 := (es.foldl merge a).malReply m mOk []
  if !m.last then a1
  else
    let a2 := match a.xferShard m.src es with
      | none => a1
      | some n => { a1 with pdir := { a1.pdir with moving := del (fun v => v.shard == n && !v.giving) a1.pdir.moving } }
    if m.ringEpoch < a.pdir.ringEpoch then a2.startXfers a2.pdir.ring else a2

/-- Requests that waited for a newer ring or for a shard are taken again (R169, R517): transfers first, since queries wait for them. -/
def State.retryLater (s : State) : State :=
  let ready := s.net.later.filter fun m => decide (m.ringEpoch ≤ s.pdir.ringEpoch)
  let s1 := { s with net := { s.net with later := s.net.later.filter fun m => decide (s.pdir.ringEpoch < m.ringEpoch) } }
  let s2 := (ready.filter fun m => m.typ == 0x0014).foldl (fun (a : State) m => a.takeXfer m) s1
  (ready.filter fun m => m.typ != 0x0014).foldl (fun (a : State) m => if m.typ = 0x0010 then a.answerQuery m else a.answerPublish m) s2

/-- The owners hear of the leaves that were freed while no ring was known (R163). -/
def State.sendUnpubs (s : State) : State :=
  if s.pdir.ring.isEmpty then s
  else s.pdir.unpubs.foldl (fun (a : State) b =>
    let k := keyB b
    match a.shardOwner k.shard with
    | some o =>
      if o = a.dev.serial then a.removeHolder fun key h => key == k.key && h.serial == o && h.handle == k.handle
      else a.malSend 0x0012 o b 0
    | none => a) { s with pdir := { s.pdir with unpubs := [] } }

/-- A ring is applied (R164, R167, R169, R171, R525, R526): shards move, lost owners' entries are republished, and the first one
ends step 8. -/
def State.applyRing (s : State) (e : Nat) (ring : List Nat) : State :=
  if e ≤ s.pdir.ringEpoch ∧ !s.pdir.ring.isEmpty then s
  else
    let me := s.dev.serial
    let old := s.pdir.ring
    -- a device that joins a ring that stands takes its shards from their owners there (R718)
    let late := s.net.peers.any fun (p : Peer) => p.ringMember && p.serial != me && ring.contains p.serial
    let prev := if old.isEmpty then (if late then ring.filter (· != me) else []) else old
    let left := old.filter fun n => !ring.contains n
    let s1 := (s.setRing e ring).removeHolder fun _ h => left.contains h.serial
    let s2 := if s.stepDone 8 then
        let lost := fun (l : Leaf) => left.contains l.ackBy || (ownerIn old l.shard).any fun o => left.contains o
        let due : List Nat := (s1.shardLeaves.filter lost).map fun (l : Leaf) => l.handle
        let all := s1.boot.republish ++ due.filter fun h => !s1.boot.republish.contains h
        { s1 with boot := { s1.boot with republish := all } }.w F.REPUB_LEFT all.length
      else ((s1.endStep 8 stepOk).setService 2).startWarm
    (((((s2.startXfers prev).sendUnpubs).rereplicate).sendDecls fun _ => true)).retryLater

/-- RING_UPDATE's body: epoch, counts, joining and leaving serials. The chapter gives no layout. -/
def ringBody (e : Nat) (joins leaves : List Nat) : Bytes :=
  leBytes 4 e ++ leBytes 4 joins.length ++ leBytes 4 leaves.length ++ leBytes 4 0 ++ (joins ++ leaves).flatMap (leBytes 8)

/-- A full member list: epoch, count, serials. -/
def memberBody (e : Nat) (ms : List Nat) : Bytes := leBytes 4 e ++ leBytes 4 ms.length ++ ms.flatMap (leBytes 8)

/-- Pass a message down the domain tree (R525, R531): a sender at the top to the other leaders, a leader to its members. -/
def State.passDown (s : State) (typ : Nat) (body : Bytes) (top : Bool) (but : Nat) : State :=
  let ls := if top then s.leaders.filter fun l => l != s.dev.serial && l != but else []
  let ms := if s.net.leader = s.dev.serial then s.net.members.filter fun n => n != s.dev.serial && n != but && !ls.contains n else []
  (ls ++ ms).foldl (fun (a : State) n => a.malSend typ n body 0) s

/-- The coordinator issues a RING_UPDATE (R525). -/
def State.issueRing (s : State) (e : Nat) (joins leaves : List Nat) : State :=
  let new := joins.filter fun n => !s.pdir.ring.contains n
  let ring := sortNat ((s.pdir.ring.filter fun n => !leaves.contains n) ++ new)
  (s.passDown 0x0040 (ringBody e new leaves) true 0).applyRing e ring

/-- Best rank: lowest (boot epoch, serial) (R715). -/
def State.rankOf (s : State) (n : Nat) : Nat :=
  (if n = s.dev.serial then s.g F.BOOT_EPOCH else ((s.peer n).map (·.epoch)).getD (2 ^ 32 - 1)) * 2 ^ 64 + n

def State.bestLeader (s : State) : Option Nat := argMin (fun n => ((s.rankOf n : Nat) : Int)) s.leaders

/-- ROLE, LEADER, COORDINATOR and LEADER_SERIAL follow the tree (R523). -/
def State.showTree (s : State) : State :=
  let lead := s.net.leader = s.dev.serial
  let coord := lead ∧ s.net.coordinator = s.dev.serial
  ((((s.w F.TREE_STATE_GROUP s.net.group).w F.TREE_STATE_LEADER (if lead then 1 else 0)).w F.TREE_STATE_COORDINATOR
    (if coord then 1 else 0)).w F.LEADER_SERIAL s.net.leader).w F.JOIN_STATE_ROLE
    (if coord then 3 else if lead then 2 else if s.net.leader ≠ 0 then 1 else 0)

/-- The device stops serving domain traffic and joins anew (R536, R718). -/
def State.rejoin (s : State) : State :=
  let c := s.choose
  let s1 := { c.2 with
    net := { c.2.net with leader := 0, coordinator := 0, members := [] }
    pdir := { c.2.pdir with ring := [], moving := [] }
    boot := { c.2.boot with ended := c.2.boot.ended.filter fun n => decide (n < 7), heard := [], gatherEnd := 0, ringGatherEnd := 0
                            backoffEnd := s.now + c.1 % (s.g F.JOIN_CFG_BACKOFF_MS * 1000000 + 1) } }
  ((s1.w F.BOOT_PHASE_SERVICE 1).beginStep 7).showTree

/-- What a declaration does here (R526, R611, R612). -/
def State.declared (s : State) (suspect cls : Nat) : State :=
  if cls ≠ 1 then s
  else if suspect = s.dev.serial then s.rejoin
  else
    let s1 := (s.setPeer suspect fun p => { p with reachable := false, leader := false, ringMember := false }).removeHolder
      fun _ h => h.serial == suspect
    let keep := fun (r : Replica) => { r with unknownSince := some (r.unknownSince.getD s.now) }
    let s2 := { s1 with plp := { s1.plp with replicas := upd (fun r => r.owner == suspect) keep s1.plp.replicas } }
    let s3 : State := if s2.net.coordinator = suspect then
        ({ s2 with net := { s2.net with coordinator := s2.bestLeader.getD 0 } }).showTree
      else s2
    let s4 : State := if s3.net.leader = suspect then { s3 with net := { s3.net with leader := 0 } }.showTree else s3
    let s5 : State := s4.peerLost suspect
    if s5.net.coordinator == s.dev.serial && s5.pdir.ring.contains suspect then s5.issueRing (s5.pdir.ringEpoch + 1) [] [suspect]
    else s5

/-- The body of an INCIDENT_DECL (R531). -/
def declIncBody (i : Incident) (state now : Nat) : Bytes :=
  leBytes 8 i.arbiter ++ leBytes 4 i.incNo ++ leBytes 1 i.cls ++ leBytes 1 i.unit ++ leBytes 2 (min i.reporters.length 65535) ++
  leBytes 8 i.suspect ++ leBytes 4 i.epoch ++ leBytes 1 state ++ leBytes 3 0 ++ leBytes 8 now

/-- The arbiter confirms an incident: declared to the domain once (R531). -/
def State.confirm (s : State) (n : Nat) : State :=
  match s.inc n with
  | none => s
  | some i =>
    let d := { i with st := .declared, epoch := s.pdir.ringEpoch, arbiter := s.dev.serial, reprobeT := s.now, good := 0,
                      bootEpoch := ((s.peer i.suspect).map (·.epoch)).getD 0 }
    let s1 := ((s.setInc n fun _ => d).bump F.INC_DECLARED).raise Ev.INCIDENT_DECLARED
    (s1.passDown 0x0032 (declIncBody d 1 s.now) true i.suspect).declared i.suspect i.cls

/-- Answer state of an entry (R530). -/
def IncSt.code (st : IncSt) : Nat := match st with | .declared => 1 | .cleared => 2 | _ => 0

/-- A storm record starts (R533). -/
def State.startStorm (s : State) : State :=
  ({ s with net := { s.net with storm := some ⟨s.now, s.now, [], []⟩ } }.bump F.STORMS).raise Ev.STORM

/-- The entry a report is merged into (R528): one of its suspect, class and unit whose window is open, or that stands declared. -/
def State.mergedInto (s : State) (suspect cls unit : Nat) : Option Incident :=
  s.net.incidents.find? fun i =>
    i.suspect == suspect && i.cls == cls && i.unit == unit && (decide (s.now ≤ i.firstT + s.windowNs) || i.st == .declared)

/-- An LN520 suspect is confirmed only for UNREACHABLE (R534). -/
def State.mayConfirm (s : State) (suspect cls : Nat) : Bool := cls == 1 || !((s.peer suspect).any fun p => p.kind == 2)

/-- A report is merged into the incident table, counted in a storm, or makes an entry; an arbiter, or a device that must, starts probing
(R528, R529, R533). The answer is the incident number and its state. -/
def State.takeReport (s : State) (suspect cls unit reporter : Nat) (must : Bool := false) : State × Nat × Nat :=
  let count := fun (a : State) =>
    match a.net.storm with
    | none => (a, 0)
    | some t =>
      let cs := alSet cls (alGetD cls 0 t.counts + 1) t.counts
      let ss := if (t.suspects.any fun e => e.1 == suspect) || t.suspects.length < 64
        then alSet suspect (alGetD suspect 0 t.suspects + 1) t.suspects else t.suspects
      ({ a with net := { a.net with storm := some { t with lastT := s.now, counts := cs, suspects := ss } } }, sumBy (fun (e : Nat × Nat) => e.2) cs)
  if s.net.storm.isSome then
    let r := count s
    (r.1, r.2, 3)
  else
    match s.mergedInto suspect cls unit with
    | some i =>
      let s1 := s.setInc i.num fun x =>
        { x with lastT := s.now, reporters := if x.reporters.contains reporter then x.reporters else x.reporters ++ [reporter] }
      let two := cls = 3 ∧ s.mayConfirm suspect 3 ∧ i.st = .probing ∧ !i.reporters.contains reporter ∧ s.arbiterOf suspect = some s.dev.serial
      let s2 := if reporter = s.dev.serial then s1 else s1.bump F.INC_KNOWN
      let s3 := if two then s2.confirm i.num else s2
      (s3, i.incNo, if two then 1 else i.st.code)
    | none =>
      if s.net.incidents.length ≥ 1024 then
        let r := count s.startStorm
        (r.1, r.2, 3)
      else
        let arb := must ∨ s.arbiterOf suspect = some s.dev.serial
        let no := if arb then (s.net.incCounter + 1) % 2 ^ 32 else 0
        let i : Incident :=
          { num := s.net.nextInc, suspect := suspect, cls := cls, unit := unit, firstT := s.now, lastT := s.now
            reporters := [reporter], st := if arb then .probing else .open_, incNo := no
            arbiter := if arb then s.dev.serial else 0 }
        let s1 := { s with net := { s.net with
          incidents := s.net.incidents ++ [i], nextInc := i.num + 1, incCounter := if arb then no else s.net.incCounter } }
        (if arb then s1.sendProbe i else s1, no, 0)

/-- This device files an incident report (R526, R528): once for each entry, to the incident's arbiter. -/
def State.fileIncident (s : State) (suspect cls unit : Nat) : State :=
  let known := (s.mergedInto suspect cls unit).any fun i => i.reporters.contains s.dev.serial
  let s1 := (s.takeReport suspect cls unit s.dev.serial).1
  if known then s1
  else
    let s2 := s1.raise Ev.REPORT_FILED
    match s.arbiterOf suspect with
    | some a => if a = s.dev.serial then s2 else s2.malSend 0x0030 a (s.reportBody suspect cls unit) 0
    | none => s2

/-- A message of a peer has been heard: its load, the time check of R526, traffic on its connection. -/
def State.heardFrom (s : State) (m : MalMsg) : State :=
  let d := signed 32 (s.now % 2 ^ 32 + 2 ^ 32 - m.sentNs)
  let bad := m.ver ≥ 0x300 ∧ (m.timeState = 4 ∨ d.natAbs > 1000000)
  let n := m.src
  let s1 : State := s.setPeer n fun p => { p with load := m.load, timeBad := if bad then p.timeBad + 1 else 0, reachable := true }
  let cs := upd (fun c => c.malroth && c.peer == n) (fun (c : Conn) => { c with lastT := s.now }) s1.net.conns
  let s2 : State := { s1 with net := { s1.net with conns := cs } }
  if ((s2.peer n).map fun (p : Peer) => p.timeBad).getD 0 == 16 then s2.fileIncident n 4 0xFF else s2

/-- A request is received: a repeated one receives its kept reply (R509), any request but HELLO is answered BUSY before the device
has joined (R712). Otherwise `f` handles it. -/
def State.request (s : State) (m : MalMsg) (since : Nat) (f : State → State) : State :=
  if s.g F.NET_CTRL_MALROTH_EN = 0 then s
  else match s.net.kept.find? fun k => k.src == m.src && k.msgId == m.msgId with
    | some k => (s.bump F.DUP_DROPS).emit (.malroth k.reply)
    | none =>
      let s1 := s.heardFrom m
      if m.ver < since then s1.malReply m mVersion []
      else f s1

/-- A request that the device serves only once it has joined (R712, R721). -/
def State.served (s : State) (m : MalMsg) (since : Nat) (f : State → State) : State :=
  s.request m since fun a => if a.joined then f a else a.malReply m mBusy []

end Sys2Proof.Machine
end

