-- ==== Sys2Proof/Machine/DirCmds.lean ====
section
/-! DEFINITION. The prefix directory's commands and events (R173–R197): LOOKUP_PREFIX with its import, PIN and UNPIN, publication
that waits, snapshots, republication. -/

namespace Sys2Proof.Machine

/-! ### Lookups (R173–R179) -/

def State.lookup (s : State) (c : Nat) : Option Lookup := s.pdir.lookups.find? fun l => l.cmd == c

def State.setLookup (s : State) (c : Nat) (f : Lookup → Lookup) : State :=
  { s with pdir := { s.pdir with lookups := upd (fun l => l.cmd == c) f s.pdir.lookups } }

/-- LOOKUP_PREFIX (R173, R174 step 1): the group was active at its acceptance, and the generation of its key pinned then goes on (R146,
R640). -/
def execLookupPrefix (c : Nat) (s : State) : Host.Outcome State Fault Refusal :=
  match s.running c .lookup with
  | none => .next s
  | some x =>
    if x.phase ≠ 0 then .next s
    else match s.cancelled x with
      | some s' => .next s'
      | none =>
        let ns := x.f 0x20 4
        if (s.geom x.part).isNone ∨ (ns ≠ 0 ∧ !x.active.contains ns) then .next (s.fail c St.badCmd)
        else match x.buffers [x.f 0x30 8] with
          | none => .next s
          | some false => .next (s.fail c St.poison)
          | some true =>
            let l : Lookup :=
              { cmd := c, part := x.part, ns := ns, variant := x.f 0x28 8, order := x.f 0x18 1, imp := bit (x.f 0x19 1) 0
                cls := x.fClass.getD 0 }
            let s1 := s.setCmd c fun y => { y with phase := 1 }
            .next { s1 with pdir := { s1.pdir with lookups := s1.pdir.lookups ++ [l] } }

/-- Leaves a lookup considers (R173). -/
def Lookup.leaves (l : Lookup) : Nat := l.chains.length

/-- The state change at which a cancelled lookup ends CANCELLED (R179): what it had begun to place goes; leaves already installed stay. -/
def State.lookupCancelled (s : State) (c : Nat) : Option State :=
  match s.cmd c with
  | none => none
  | some x => (s.dropImport c).cancelled x

/-- The result list and the completion (R176–R178); a lookup cancelled by then ends CANCELLED (R179). -/
def State.lookupDone (s : State) (c : Nat) : State :=
  match s.lookupCancelled c with
  | some s' => s'
  | none =>
  match s.lookup c, s.cmd c with
  | some l, some x =>
    let T := orderT l.order
    let m := l.found.length * T
    let r := max l.found.length l.run * T
    let entry := fun (e : Nat × Nat) =>
      let h := e.1
      let lf := s.leaf h
      let tier := (((s.copiesOf (hPart h) (hSerial h)).map fun (k : Copy) => k.tier).min?).getD 0
      leBytes 8 h ++ leBytes 4 (e.2 * T) ++
      leBytes 1 (tier + ((lf.map fun (y : Leaf) => y.cls).getD 0) * 4 + if l.imported.contains h then 16 else 0) ++ leBytes 3 0
    let list := leBytes 4 l.found.length ++ leBytes 4 m ++ leBytes 4 r ++ leBytes 4 0 ++ l.found.zipIdx.flatMap entry
    let st := if l.leaves = 0 ∨ (m = 0 ∧ r = 0) then St.miss else if m = l.leaves * T then St.ok else St.partialHit
    let un := if l.unreach then 2 ^ 32 else 0
    let s1 := ((s.output c (x.f 0x38 8) list).bumpP F.LOOKUPS l.part).bumpP F.HIT_POS l.part m
    let s2 := if l.unreach then s1.bumpP F.SHARD_UNREACH l.part else s1
    let s3 := { s2 with pdir := { s2.pdir with lookups := del (fun y => y.cmd == c) s2.pdir.lookups } }
    if st = St.miss then s3.finish c st 0 un else s3.finish c st (m + r * 2 ^ 32) (l.found.length + un)
  | _, _ => s

/-! ### Importing (R180–R182, R346, R518–R520) -/

/-- Holder of a leaf with the lowest load that has not been tried. -/
def State.nextHolder (s : State) (l : Lookup) (leaf : Nat) : Option Ans :=
  argMin (fun (a : Ans) => ((a.load : Nat) : Int)) (l.remote.filter fun (a : Ans) =>
    a.leaf == leaf && a.serial != s.dev.serial && !l.tried.contains (leaf, a.serial))

/-- The FETCH of a leaf for a lookup: the receive area, its key and its length are the device's own; a 2.x holder receives
RADDR 0 and answers by FETCH_DATA. -/
def State.sendFetch (s : State) (c : Nat) (l : Lookup) (a : Ans) : State :=
  let c1 := s.choose
  let c2 := c1.2.choose
  let c3 := c2.2.choose
  let body := fetchBody a.handle (l.chains.getD a.leaf []) l.ns l.order (if a.ver ≥ 0x31 then 1 else 0)
    (if a.ver < 0x30 then 0 else 1 + c1.1) c2.1 c3.1
  c3.2.malSend 0x0020 a.serial body c 4

/-- A leaf is fetched from its next holder; a leaf that no holder supplies ends the run (R181). -/
def State.fetchLeaf (s : State) (c leaf : Nat) : State :=
  match s.lookup c with
  | none => s
  | some l =>
    match s.nextHolder l leaf with
    | some a => (s.setLookup c fun y => { y with tried := y.tried ++ [(leaf, a.serial)] }).sendFetch c l a
    | none =>
      let s1 := s.setLookup c fun y => { y with run := min y.run leaf, got := y.got.filter fun g => decide (g.1 < leaf) }
      match s1.lookup c with
      | some k => if k.found.length ≥ k.run then s1.lookupDone c else s1
      | none => s1

/-- The answers are complete or timed out: the run is extended (R174 steps 4 to 6). -/
def State.lookupRun (s : State) (c : Nat) : State :=
  match s.lookupCancelled c with
  | some s' => s'
  | none =>
  match s.lookup c with
  | none => s
  | some l =>
    let a := l.found.length
    let good := fun (j : Nat) => l.answered.contains j && l.remote.any fun (h : Ans) => h.leaf == j && h.serial != s.dev.serial
    let more := ((List.range l.asked.length).takeWhile fun i => good (a + i)).length
    let b := a + more
    let s1 := s.setLookup c fun y => { y with run := b, step := if y.imp && decide (a < b) then 3 else 4 }
    if l.imp ∧ a < b then (List.range more).foldl (fun (t : State) i => t.fetchLeaf c (a + i)) s1 else s1.lookupDone c

/-- The holders an answer names for the leaves of a query, in request order; a redirected leaf is answered by nobody yet. -/
def readAnswers : List Nat → Bytes → List (Nat × Nat × List Ans × Nat)
  | [], _ => []
  | j :: js, b =>
    let n := rd b 1 1
    let hs := (List.range n).map fun i =>
      let o := 16 + 24 * i
      ({ leaf := j, serial := rd b o 8, handle := rd b (o + 8) 8, load := rd b (o + 16) 1, ver := rd b (o + 17) 1 } : Ans)
    (j, rd b 0 1, hs, rd b 8 8) :: readAnswers js (b.drop (16 + 24 * n))

/-- A lookup takes answers for some of its leaves; with the last one its run is known. -/
def State.takeAnswers (s : State) (c : Nat) (as_ : List (Nat × Nat × List Ans × Nat)) : State :=
  let s1 := as_.foldl (fun (t : State) a =>
    if a.2.1 = 2 then t
    else t.setLookup c fun l =>
      if l.answered.contains a.1 then l
      else { l with answered := l.answered ++ [a.1], remote := if a.2.1 = 1 then l.remote ++ a.2.2.1 else l.remote }) s
  match s1.lookup c with
  | some l => if l.step = 2 ∧ l.asked.all (fun j => l.answered.contains j) then s1.lookupRun c else s1
  | none => s1

/-- The key body of leaf j of a lookup. -/
def State.lookupKey (s : State) (l : Lookup) (j : Nat) : Bytes :=
  keyBody l.ns l.order l.cls (l.chains.getD j []) (s.geomDigest l.part) 0 0

/-- The answers of this device itself for leaves whose shards it answers for (R169, R189). -/
def State.ownAnswers (s : State) (l : Lookup) (js : List Nat) : List (Nat × Nat × List Ans × Nat) :=
  (js.filter fun j => s.answers (shardOf (l.chains.getD j [])) && s.owns (shardOf (l.chains.getD j []))).map fun j =>
    let hs := (s.listHolders s.pdir.shards (keyB (s.lookupKey l j))).map fun (h : Holder) =>
      ({ leaf := j, serial := h.serial, handle := h.handle, load := ((s.peer h.serial).map fun (q : Peer) => q.load).getD 0
         ver := h.ver } : Ans)
    (j, (if hs.isEmpty then 0 else 1), hs, 0)

/-- A shard has arrived: the device's own lookups that waited for it have their answers. -/
def State.askOwn (s : State) : State :=
  (s.pdir.lookups.filter fun l => l.step == 2).foldl (fun (a : State) l =>
    a.takeAnswers l.cmd (a.ownAnswers l (l.asked.filter fun j => !l.answered.contains j))) s

/-- The shard owners of the next leaves are asked, one SHARD_QUERY each; this device's own shards are answered at once, or as they arrive. -/
def State.askShards (s : State) (c : Nat) : State :=
  match s.lookup c with
  | none => s
  | some l =>
    let a := l.found.length
    let js := (List.range (min l.leaves (a + max 1 (s.g F.PDIR_QFAN)) - a)).map (a + ·)
    let s1 := s.setLookup c fun y => { y with step := 2, asked := js, queryT := s.now }
    let own := fun (j : Nat) => s.shardOwner (shardOf (l.chains.getD j []))
    let others := ((js.filterMap own).eraseDups).filter (· != s.dev.serial)
    let s2 := others.foldl (fun (t : State) o =>
      t.malSend 0x0010 o ((js.filter fun j => own j == some o).flatMap (s.lookupKey l)) c) s1
    s2.takeAnswers c (s.ownAnswers l js)

/-- LOOKUP_HASH_DONE (R174 steps 1 to 3, R175, R179). -/
def execLookupHashDone (c : Nat) (s : State) : Host.Outcome State Fault Refusal :=
  match s.lookup c, s.cmd c with
  | some l, some x =>
    if l.step ≠ 1 then .next s
    else match s.cancelled x with
      | some s' => .next s'
      | none =>
        match s.cmdKey x l.ns with
        | none => .next ((s.dropWork c).fail c St.keyWithdrawn)
        | some key =>
          let n := x.f 0x1C 4
          let T := orderT l.order
          let L := n / T
          let cv := chainValues key l.ns (s.geomDigest l.part) l.variant (u32s ((x.bufAll (x.f 0x30 8)).getD []) (L * T))
          let chains := (List.range L).map fun j => cv.getD ((j + 1) * (T / 16) - 1) []
          let hits := chains.map fun ch => s.indexed l.part l.ns l.order ch
          let run := (hits.takeWhile fun h => h.isSome).filterMap fun h => h.map fun (y : Leaf) => y.handle
          let bd := 8 + s.qreg F.QCTRL_FE x.q % 2
          let s1 := s.chargeCmd c .nsMatch (L * T / 16 * 16 * 16000 / max 1 (s.pace bd)) true
          let s2 := s1.setLookup c fun y => { y with chains := chains, found := run, run := run.length, step := 4 }
          if run.length = L ∨ l.ns = 0 then .next (s2.lookupDone c)
          else if !s.joined ∨ s.pdir.ring.isEmpty then .next ((s2.setLookup c fun y => { y with unreach := true }).lookupDone c)
          else .next (s2.askShards c)
  | _, _ => .next s

/-- LOOKUP_SHARD_TIMEOUT (R178): the run ends before the first leaf unanswered. -/
def execLookupShardTimeout (c : Nat) (s : State) : Host.Outcome State Fault Refusal :=
  match s.lookup c, s.cmd c with
  | some l, some x =>
    if l.step ≠ 2 then .next s
    else
      let s1 := s.reach (l.queryT + s.g F.PDIR_CTRL_SHARD_TO_US * 1000)
      match s1.cancelled x with
      | some s' => .next s'
      | none => .next ((s1.setLookup c fun y => { y with unreach := true }).lookupRun c)
  | _, _ => .next s

/-- A page record of a transfer: the descriptor and the coded blocks, CRCs checked; and the bytes after it (R519). -/
def readRec (b : Bytes) : Option (Bytes × List CBlock × Bytes) :=
  let n := rd b 0x1C 4
  let size := roundUp (16 * n) 64 + rd b 0x18 4
  if b.length < 64 + size then none
  else (readStored n (slice b 64 size)).map fun bs => (b.take 64, bs, b.drop (64 + size))

def readRecs : Nat → Bytes → Option (List (Bytes × List CBlock))
  | 0, _ => some []
  | n + 1, b => (readRec b).bind fun r => (readRecs n r.2.2).map fun rest => (r.1, r.2.1) :: rest

/-- A record's descriptor agrees with the geometry (R182). -/
def descOk (g : Geom) (order layer leaf : Nat) (d : Bytes) (bs : List CBlock) : Bool :=
  let le := g.layer layer
  let T := orderT order
  rd d 0x08 4 == leaf * T && rd d 0x0C 2 == layer && rd d 0x10 1 == le.kf && rd d 0x11 1 == le.vf &&
  rd d 0x14 4 == imageBytes g layer T && rd d 0x1C 4 * 4096 == imageBytes g layer T && hOrder (rd d 0 8) == order &&
  rd d 0x38 4 == (bs.filter fun b => b.kind == 0).length

/-- The pages of a fetched leaf, decoded and given their local serials; none when a check fails. -/
def State.readLeaf (s : State) (p : Nat) (g : Geom) (order leaf cls serial gen : Nat) (recs : List (Bytes × List CBlock))
    (base : List Page) : Option (List Page) :=
  (recs.zipIdx).mapM fun (e : (Bytes × List CBlock) × Nat) =>
    let d := e.1.1
    let bs := e.1.2
    let T := orderT order
    let bp := if rd d 0x20 8 = 0 then none else base.find? fun (y : Page) => y.layer == e.2
    if !descOk g order e.2 leaf d bs || (rd d 0x20 8 != 0 && bp.isNone) then none
    else (g.sets e.2).bind fun t => (decodeImage g e.2 T bs (bp.map fun (y : Page) => y.image) t).map fun img =>
      let h := mkHandle p order gen (serial + e.2)
      ({ part := p, serial := serial + e.2, gen := gen, order := order, layer := e.2, first := leaf * T, geom := g.id
         kf := rd d 0x10 1, vf := rd d 0x11 1, shared := bit (rd d 0x12 1) 0, cls := cls, own := cls, image := img, blocks := bs
         base := (bp.map fun (y : Page) => y.handle).getD 0, sealT := rd d 0x30 8, sumStack := 8, sumBytes := summaryBytes g
         summary := some (fretSummary g e.2 (imageRows g e.2 T img) h), score := 0, ts := s.now } : Page)

/-- A transfer that fails its check (R182): the holder is reported and the next one is tried. -/
def State.failedHolder (s : State) (c leaf holder : Nat) (failed : Bool) : State :=
  match s.lookup c with
  | none => s
  | some l =>
    let handle := ((l.remote.find? fun (a : Ans) => a.leaf == leaf && a.serial == holder).map fun (a : Ans) => a.handle).getD 0
    let k : KeyB := { keyB (s.lookupKey l leaf) with handle := handle, holder := holder }
    let s1 := s.reportStale k holder failed
    ((if failed then s1.fileIncident holder 3 0xFF else s1).setLookup c fun y =>
      { y with got := y.got.filter fun g => !(g.1 == leaf && g.2.1 == holder) }).fetchLeaf c leaf

/-- A published leaf of the partition with the stored blocks of a base leaf that came with a transfer: the local base of R346. No message carries
the holder's base binding, so the leaf is known by its content (DEDUCED, assumption 84). -/
def State.localBase (s : State) (p order leaf : Nat) (brecs : List (Bytes × List CBlock)) : Option Leaf :=
  s.leaves.find? fun y => y.part == p && y.published && y.order == order && y.leafNo == leaf && y.base == 0 && !brecs.isEmpty &&
    (s.leafPages y).map (·.blocks) == brecs.map (·.2)

/-- A fetched leaf is checked and its installation begins (R180, R182, R346). -/
def State.beginImport (s : State) (c leaf holder : Nat) (data : Bytes) : State :=
  match s.lookup c with
  | none => s
  | some l =>
    match s.geom l.part with
    | none => s
    | some g =>
      let n := rd data 0 2
      let baseOff := rd data 0x20 8
      let bytes := data.drop 40
      let r := if n = g.layers.length ∧ slice data 0x10 16 = (g.digest ++ List.replicate 16 0).take 16 then readRecs n bytes else none
      let br := if bit (rd data 3 1) 0 then readRecs n (bytes.drop baseOff) else some []
      match r, br with
      | some recs, some brecs =>
        -- an import needs a leaf record as a seal does (R126, R195; DEDUCED, assumption 84)
        if s.indexFull then (((s.raise Ev.INDEX_FULL l.part).dropImport c).dropWork c).fail c St.noSpace
        else
        let a1 := s.allocRun l.part n
        let here := s.localBase l.part l.order leaf brecs
        let a2 := if brecs.isEmpty || here.isSome then (a1.1, 0, 0) else a1.1.allocRun l.part n
        let base := match here with
          | some y => some (s.leafPages y)
          | none => s.readLeaf l.part g l.order leaf l.cls a2.2.1 a2.2.2 brecs []
        let got := base.bind fun bps => (s.readLeaf l.part g l.order leaf l.cls a1.2.1 a1.2.2 recs bps).map fun ps => (ps, bps)
        match got with
        | none => s.failedHolder c leaf holder true
        | some (ps, bps) =>
          let j : SealJob :=
            { part := l.part, seq := importSeq c, leafNo := leaf, first := leaf * orderT l.order, count := orderT l.order, step := 3
              cmd := c, readyT := s.now, serial := a1.2.1, gen := a1.2.2, pages := if here.isSome then ps else ps ++ bps, cls := l.cls
              base := (bps.head?.map fun (y : Page) => y.handle).getD 0 }
          let s1 := a2.1
          let pl := s1.defaultPlace j 0
          let k : SealJob := { j with want := pl.1, cached := pl.2 }
          let s2 := { s1 with sq := { s1.sq with seals := s1.sq.seals ++ [k] } }
          s2.tryPlace k
      | _, _ =>
        -- the checker of the Ethernet port a block came in through saw its CRC, unless the leaf is of another geometry (R325, R338)
        let same := n = g.layers.length ∧ slice data 0x10 16 = (g.digest ++ List.replicate 16 0).take 16
        (if same then s.crcSeen l.part ((s.malConn holder).map fun (k : Conn) => bridgeOfPort k.port) else s).failedHolder c leaf holder true

/-- An imported leaf whose copies are made is installed and published (R180, R343, R346); a base leaf that came with it is a base
remnant. Of the base's kind the messages say nothing: a free value (R342). -/
def State.installImport (s : State) (c : Nat) (j : SealJob) : State :=
  match s.lookup c with
  | none => s
  | some l =>
    let order := l.order
    let n := (s.geom l.part).elim 0 fun g => g.layers.length
    let lf : Leaf :=
      { part := j.part, serial := j.serial, gen := j.gen, order := order, layers := n
        geom := (j.pages.head?.map fun (y : Page) => y.geom).getD 0, leafNo := j.leafNo, ns := l.ns, variant := l.variant
        cls := j.cls, chain := l.chains[j.leafNo]?, published := false, imported := true, base := j.base, sealT := s.now }
    let seed := s.seedScore j.part
    let ps := (s.giveSums j.pages).map fun (x : Page) => { x with score := seed, ts := s.now }
    let bl := (j.pages.drop n).head?.map fun (y : Page) =>
      ({ lf with serial := y.serial, gen := y.gen, chain := none, freed := true, base := 0 } : Leaf)
    let s1 := { s with
      sq := { s.sq with
        pages := s.sq.pages ++ ps
        leaves := s.sq.leaves ++ ({ s with sq := { s.sq with leaves := s.sq.leaves ++ bl.toList } } : State).bindBase lf
          (1 + Config.freeChoice s.free % 2) :: bl.toList
        seals := del (fun k => k.part == j.part && k.seq == j.seq && k.leafNo == j.leafNo) s.sq.seals }
      tier := { s.tier with copies := s.tier.copies ++ j.copies }
      free := s.free + 1 + j.pages.length }
    let s2 := (if bl.isSome then s1.raise Ev.REMNANT j.part else s1).bumpP F.IMPORT_KIB j.part (sumBy (fun (x : Page) => x.stored) ps / 1024)
    let s3 := (s2.setLookup c fun y => { y with found := y.found ++ [lf.handle], imported := y.imported ++ [lf.handle] }).publishLeaf
      lf.handle
    let s4 := s3.noteBehind s
    match s4.lookup c with
    | some k => if k.found.length ≥ k.run then s4.lookupDone c else s4
    | none => s4

/-- LOOKUP_IMPORT_DONE (R174 step 5, R179–R182): the transfer of the next leaf has ended, or its copies are made. -/
def execLookupImportDone (c : Nat) (s : State) : Host.Outcome State Fault Refusal :=
  match s.lookup c, s.cmd c with
  | some l, some _ =>
    if l.step ≠ 3 then .next s
    else match s.lookupCancelled c with
      | some s' => .next s'
      | none =>
        let j := l.found.length
        let s1 := match s.job l.part (importSeq c) j with
          | some _ => s
          | none => match l.got.find? fun (g : Nat × Nat × Bytes) => g.1 == j with
            | some g => s.beginImport c j g.2.1 g.2.2
            | none => s
        match s1.job l.part (importSeq c) j with
        | some k =>
          if k.step = 5 ∨ (k.step = 4 ∧ k.pages.all fun (y : Page) => s1.t3Done l.part y.serial 0) then .next (s1.installImport c k).pump
          else .next s1
        | none => .next s1
  | _, _ => .next s

/-! ### Capos (R184–R187) -/

/-- Bytes of the pages that capos of a tier hold. -/
def State.capoBytes (s : State) (p t : Nat) (more : List Nat) : Nat :=
  let hs := ((s.pdir.capos.filter fun k => k.part == p && k.tier == t).flatMap (·.leaves) ++ more).eraseDups
  sumBy (fun n => ((s.page p n).map fun (x : Page) => x.stored).getD 0) (s.serialsOf hs)

/-- Quota of a partition at a tier over all its pools. -/
def State.tierQuota (s : State) (p t : Nat) : Nat :=
  if t ≤ 1 then sumBy (fun d => s.quota p t d) (List.range 8) else s.quota p t 15

/-- A PIN that waits for promotions: the pages still short of the tier are asked for; when all are there the capo is made. A page
with no readable copy ends it LOST_DATA (R184, R185); so does a leaf freed meanwhile, for which the spec names no status (DESIGN CHOICE,
assumption 73). -/
def State.settlePin (s : State) (c : Nat) : State :=
  match s.pdir.capos.find? fun k => k.cmd == c, s.cmd c with
  | some k, some x =>
    let gone := k.leaves.any fun h => (s.leaf h).isNone
    let f := if x.f 0x19 1 = 1 then x.seq % 256 else 0
    let ns := s.serialsOf k.leaves
    let lost := ns.any fun n => !s.readable k.part n && !s.restoring k.part n
    if gone ∨ lost then (s.dropWork c).fail c St.lostData
    else if ns.all fun n => s.atTier k.part n k.tier then
      ({ s with pdir := { s.pdir with capos := upd (fun y => y.cmd == c) (fun y => { y with cmd := 0 }) s.pdir.capos } }).finish c
        St.ok k.num 0
    else (ns.filter fun n => !s.atTier k.part n k.tier).foldl (fun (a : State) n =>
      if (a.moveOf k.part n).isSome || a.tier.waits.any (fun w => w.part == k.part && w.serial == n && w.cmd == c) then a
      else match a.promoteTo k.part n k.tier 15 5 c f with
        | (a1, .noRoom) =>
          let d := if k.tier ≤ 1 then (a1.stackFor k.part n f).getD 15 else 15
          a1.awaitRoom k.part n k.tier d ((a1.page k.part n).elim 0 fun y => y.stored) (a1.now + 1000000) 5 c f
        | (a1, _) => a1) s
  | _, _ => s

/-- Every waiting PIN goes on. -/
def State.settlePins (s : State) : State :=
  (s.pdir.capos.filter fun k => k.cmd != 0).foldl (fun (a : State) k => a.settlePin k.cmd) s

/-- PIN (R184, R185). -/
def execPin (c : Nat) (s : State) : Host.Outcome State Fault Refusal :=
  match s.running c .pin with
  | none => .next s
  | some x =>
    let p := x.part
    match s.cancelled x with
    | some s' => .next s'
    | none =>
      if x.phase ≠ 0 then .next (s.settlePin c)
      else
        let tier := x.f 0x18 1
        let start := fun (hs : List Nat) =>
          let mine := s.pdir.capos.filter fun k => k.part == p
          if mine.length ≥ s.gp F.CAPO_LIMIT p ∨ s.pdir.capos.length ≥ 65536 then s.fail c St.noSpace
          else if tier = 2 ∧ s.quota p 2 15 = 0 then s.fail c St.noSpace
          else if s.capoBytes p tier hs > s.tierQuota p tier then s.fail c St.noSpace
          else
            let n := s.freeCapo
            let k : Capo := { num := n.1, part := p, tier := tier, leaves := hs, cmd := c }
            let s1 := n.2.setCmd c fun y => { y with phase := 1 }
            ({ s1 with pdir := { s1.pdir with capos := s1.pdir.capos ++ [k] } }).settlePin c
        if x.f 0x19 1 = 1 then
          match s.seqFor p x.seq x.uid with
          | .error st => .next (s.fail c st)
          | .ok (y, _) =>
            let hs := y.leavesIn (x.f 0x1C 4) (x.f 0x20 4)
            if hs.any fun h => hPart h != p then .next (s.failNamed c St.perm p) else .next (start hs)
        else match x.buffers [x.f 0x28 8] with
          | none => .next s
          | some false => .next (s.fail c St.poison)
          | some true =>
            let hs := u64s ((x.bufAll (x.f 0x28 8)).getD []) (x.f 0x1C 4)
            let bad := hs.findSome? fun h =>
              if hPart h ≠ p then some St.perm
              else match s.resolve p h (hOrder h) with
                | some st => some st
                | none => if (s.leaf h).isSome then none else some St.miss
            match bad with
            | some st => .next (s.failNamed c st p)
            | none => .next (start hs.eraseDups)

/-- UNPIN (R187). -/
def execUnpin (c : Nat) (s : State) : Host.Outcome State Fault Refusal :=
  match s.running c .unpin with
  | none => .next s
  | some x =>
    match s.pdir.capos.find? fun k => k.num == x.f 0x18 4 && k.part == x.part && k.cmd == 0 with
    | none => .next (s.fail c St.miss)
    | some k =>
      let s1 := { s with pdir := { s.pdir with capos := del (fun y => y.num == k.num) s.pdir.capos } }
      .next ((s1.sweep).finish c St.ok k.leaves.length 0).pump

/-! ### Publication that waits, snapshots, republication (R171, R190, R192) -/

def State.setPub (s : State) (p serial : Nat) (f : PubWait → PubWait) : State :=
  { s with pdir := { s.pdir with pubs := upd (fun w => w.part == p && w.serial == serial) f s.pdir.pubs } }

def State.pubOf (s : State) (p serial : Nat) : Option PubWait := s.pdir.pubs.find? fun w => w.part == p && w.serial == serial

/-- PUBLISH_ACK_TIMEOUT (R190): seal step 6 ends without the acknowledgement. -/
def execPublishAckTimeout (part serial : Nat) (s : State) : Host.Outcome State Fault Refusal :=
  match s.pubOf part serial with
  | some w =>
    if w.deferred then .next s
    else
      let s1 := s.reach (w.sentT + s.g F.PDIR_CTRL_PUB_TO_US * 1000)
      .next (((s1.setPub part serial fun y => { y with deferred := true, nextT := s1.now + 1000000000 }).raise Ev.PUB_DEFER part).publishOver
        part serial)
  | none => .next s

/-- PUBLISH_RETRY (R190): at most once a second, until acknowledged. -/
def execPublishRetry (part serial : Nat) (s : State) : Host.Outcome State Fault Refusal :=
  match s.pubOf part serial with
  | some w =>
    if !w.deferred then .next s
    else
      let s1 := s.reach w.nextT
      match s1.leafAt part serial with
      | none => .next { s1 with pdir := { s1.pdir with pubs := del (fun y => y.part == part && y.serial == serial) s1.pdir.pubs } }
      | some l =>
        match l.chain.bind fun ch => s1.shardOwner (shardOf ch) with
        | none => .next (s1.setPub part serial fun y => { y with nextT := s1.now + 1000000000 })
        | some o =>
          if o = s1.dev.serial then
            let s2 := (s1.applyPublish l.ns l.order (l.chain.getD []) ((s1.geomDigest part).take 16) o l.handle 0x31).setLeaf l.handle
              fun y => { y with ackBy := o, ackT := s1.now }
            .next { s2 with pdir := { s2.pdir with pubs := del (fun y => y.part == part && y.serial == serial) s2.pdir.pubs } }
          else
            let s2 := s1.setPub part serial fun y => { y with owner := o, nextT := s1.now + 1000000000 }
            .next (s2.malSend 0x0011 o (l.body (s1.geomDigest part)) (leafCtx part serial))
  | none => .next s

/-- SNAPSHOT_CUT (R192). -/
def execSnapshotCut (s : State) : Host.Outcome State Fault Refusal :=
  let s1 := s.reach (s.pdir.lastSnap + max 1 (s.g F.PDIR_CTRL_SNAP_MS) * 1000000)
  let v := (((s.pdir.snaps.head?.map fun (x : Snap) => x.ver).getD 0) + 1) % 2 ^ 32
  .next ({ s1 with pdir := { s1.pdir with snaps := [⟨v, s1.pdir.shards⟩], lastSnap := s1.now } }.w F.SNAP_VER v)

/-- SHARD_REPUBLISH_SEND (R171, R719): the next leaf record is republished to its owner, at most 10,000 each second. -/
def execShardRepublishSend (s : State) : Host.Outcome State Fault Refusal :=
  match s.boot.republish with
  | [] => .next s
  | h :: rest =>
    let s1 := s.reach (s.boot.lastPublishT + 100000)
    let s2 := { s1 with boot := { s1.boot with republish := rest, lastPublishT := s1.now } }.w F.REPUB_LEFT rest.length
    match s2.leaf h with
    | none => .next s2
    | some l =>
      match l.chain.bind fun ch => s2.shardOwner (shardOf ch) with
      | none => .next s2
      | some o =>
        if o = s2.dev.serial then
          .next ((s2.applyPublish l.ns l.order (l.chain.getD []) ((s2.geomDigest l.part).take 16) o h 0x31).setLeaf h fun y =>
            { y with ackBy := o, ackT := s2.now })
        else .next (s2.malSend 0x0015 o (l.body (s2.geomDigest l.part)) (leafCtx l.part l.serial))

end Sys2Proof.Machine
end

