-- ==== Sys2Proof/Machine/NetOps.lean ====
section
/-! DEFINITION. What Malroth messages and their replies do (R163, R507–R535, R608–R613, R713–R718): hellos and the tree, transfers,
replicas, the ends of requests. -/

namespace Sys2Proof.Machine

/-! ### Hellos and the tree (R511, R523, R714–R717) -/

/-- The highest Malroth version common to two ranges (R511). -/
def commonVer (a b : Nat × Nat) : Option Nat :=
  [0x301, 0x300, 0x201, 0x200].find? fun v => decide (a.1 ≤ v ∧ v ≤ a.2 ∧ b.1 ≤ v ∧ v ≤ b.2)

/-- Eligible LN740 devices of the own rack group that are known, this device included. -/
def State.candidatesFor (s : State) : List Nat :=
  let ps := (s.net.peers.filter fun p => p.kind == 1 && p.eligible && p.group == s.net.group && p.reachable).map fun (p : Peer) => p.serial
  if s.g F.NET_CTRL_LEADER_ELIGIBLE = 1 then s.dev.serial :: ps else ps

/-- A HELLO body of a peer, taken into the peer table and the gathered answers (R714). -/
def State.hearHello (s : State) (src ver : Nat) (b0 : Bytes) : State :=
  let b := if ver < 0x300 then b0.take 12 else b0
  let r := b ++ List.replicate 48 0
  let fl := rd r 0x0E 1
  let ok := s.listed src
  let mapG := ((s.boot.map.bind fun m => m.entries.find? fun e => e.serial == src).map fun (e : MapEnt) => e.group).getD 65536
  let old := s.peer src
  let p : Peer :=
    { serial := src, kind := rd r 4 1, group := mapG, failGroup := rd r 6 2, ver := ver, epoch := rd r 0x10 4
      eligible := ok && bit fl 0, leader := ok && bit fl 1, ringMember := ok && bit fl 3, leaderSerial := rd r 0x18 8
      retiring := bit fl 4, ordering := rd r 5 1, domain := rd r 8 4, ringSeen := rd r 0x14 4
      lastHb := (old.map fun (x : Peer) => x.lastHb).getD s.now, load := (old.map fun (x : Peer) => x.load).getD 0
      replicaFree := (old.map fun (x : Peer) => x.replicaFree).getD 1, reachable := true }
  let h : HelloRec :=
    { serial := src, kind := p.kind, epoch := p.epoch, eligible := p.eligible, leader := p.leader, ringMember := p.ringMember
      leaderSerial := p.leaderSerial, ringSeen := p.ringSeen, group := p.group, failGroup := p.failGroup }
  let s1 := { s with
    net := { s.net with peers := put (fun x => x.serial == src) p s.net.peers }
    boot := { s.boot with heard := if ok then put (fun x => x.serial == src) h s.boot.heard else s.boot.heard } }
  -- a device that has started anew knows no declarations (R143, R712)
  let s1 := if old.any fun (x : Peer) => x.epoch == p.epoch then s1 else s1.declAcked src (fun _ => true) false
  let n := ((s1.net.peers.filter fun x => x.group == s.net.group && s1.listed x.serial).map fun (x : Peer) => x.serial).length
  let s2 := s1.w F.JOIN_STATE_MEMBERS_HEARD (min n 96)
  let s3 := if ok then s2 else s2.raise Ev.JOIN_REFUSED
  let mine := ((s.boot.map.map fun (m : DomainMap) => m.digest).getD [] ++ List.replicate 16 0).take 16
  if ver ≥ 0x300 ∧ slice r 0x20 16 ≠ mine then s3.raise Ev.MAP_MISMATCH else s3

/-- The device takes a leader (R716). -/
def State.attach (s : State) (n : Nat) : State :=
  if s.net.leader = n then s
  else
    let s1 := ({ s with net := { s.net with leader := n }, boot := { s.boot with lastChange := s.now } }).showTree
    if n = s.dev.serial then s1 else s1.malSend 0x0002 n [] 0

/-- An answer to this device's HELLO names a leader that is a ring member: the device attaches to it (R716 step 3). -/
def State.attachNamed (s : State) (src : Nat) : State :=
  match s.peer src with
  | none => s
  | some p =>
    let named := if p.leader then src else p.leaderSerial
    let ring := p.ringMember || ((s.peer named).map fun (x : Peer) => x.ringMember).getD false
    if s.stepState 7 = stepRunning ∧ s.net.leader = 0 ∧ p.group = s.net.group ∧ named ≠ 0 ∧ ring = true then s.attach named else s

/-- Leaders settle on the coordinator: the one of best rank (R717). -/
def State.coordBy (s : State) : State :=
  match s.bestLeader with
  | some n => if s.net.leader = s.dev.serial ∧ s.net.coordinator ≠ n then { s with net := { s.net with coordinator := n } }.showTree else s
  | none => s

/-- The best-ranked of the candidates of the group (R716 steps 4, 5). -/
def State.bestOfGroup (s : State) : Option Nat := argMin (fun n => ((s.rankOf n : Nat) : Int)) s.candidatesFor

/-- A leader hands over to a better-ranked eligible device of its group that has no ring-member leader (R716 step 5). -/
def State.handOver (s : State) : State :=
  if s.net.leader ≠ s.dev.serial then s
  else match s.bestOfGroup with
    | some n =>
      let free : Bool := match s.peer n with
        | some p => p.leaderSerial == 0 || !((s.peer p.leaderSerial).map fun (x : Peer) => x.ringMember).getD false
        | none => false
      if n ≠ s.dev.serial ∧ free then ({ s with net := { s.net with members := [] } }).attach n else s
    | none => s

/-- A device reports joins to its coordinator, which collects them (R718). -/
def State.reportJoin (s : State) (ns : List Nat) : State :=
  let new := ns.filter fun n => !s.pdir.ring.contains n && !s.boot.batch.contains n &&
    !(s.net.incidents.any fun i => i.suspect == n && i.cls == 1 && i.st == .probing)
  if new.isEmpty then s
  else if s.net.coordinator = s.dev.serial ∨ s.net.coordinator = 0 then
    let s1 := if s.boot.batch.isEmpty then { s with boot := { s.boot with batchEnd := s.now + s.g F.JOIN_CFG_BATCH_MS * 1000000 } } else s
    { s1 with boot := { s1.boot with batch := s1.boot.batch ++ new } }
  else s.malSend 0x0041 s.net.coordinator (memberBody s.pdir.ringEpoch ns) 0

/-! ### Page transfers (R99, R334, R518–R521) -/

/-- The 64-byte page descriptor (R99). -/
def Page.desc (x : Page) (summaryAddr : Nat) : Bytes :=
  leBytes 8 x.handle ++ leBytes 4 x.first ++ leBytes 2 x.layer ++ leBytes 2 x.geom ++ leBytes 1 x.kf ++ leBytes 1 x.vf ++
  leBytes 1 ((if x.shared then 1 else 0) + (if x.base = 0 then 0 else 2) + x.own * 4) ++ leBytes 1 0 ++ leBytes 4 x.image.length ++
  leBytes 4 x.coded ++ leBytes 4 x.blocks.length ++ leBytes 8 x.base ++ leBytes 8 summaryAddr ++ leBytes 8 x.sealT ++
  leBytes 4 (x.blocks.filter fun b => b.kind == 0).length ++ leBytes 4 0

/-- Page records of a leaf, in layer order (R519). -/
def State.leafRecords (s : State) (l : Leaf) : Bytes :=
  (s.leafPages l).flatMap fun x => let b := x.desc 0 ++ storedBytes x.blocks; b ++ List.replicate (roundUp b.length 64 - b.length) 0

/-- A row of a position that is not committed: its bytes are free (R110). -/
def freeRow (ge : Geom) (layer pos : Nat) : List Bytes :=
  (planes ge (ge.layer layer)).zipIdx.map fun w => (List.range w.1).map fun i => Config.freeByte (pos * 2 ^ 16 + w.2 * 2 ^ 10 + i)

/-- A granule's slot (R110): the image of 16 positions, of which VALID are committed. -/
def Granule.slotData (ge : Geom) (g : Granule) : Bytes :=
  let hd := leBytes 2 g.geom ++ leBytes 2 g.layer ++ leBytes 6 g.seq ++ leBytes 1 g.rows.length ++
    leBytes 1 (g.cls + if g.copied then 4 else 0) ++ leBytes 4 g.first ++ leBytes 4 g.epoch ++ leBytes 4 g.tag ++ leBytes 8 g.time
  let full := rowsImage ge g.layer
    (g.rows ++ (List.range (16 - g.rows.length)).map fun i => freeRow ge g.layer (g.first + g.rows.length + i))
  let b := hd ++ leBytes 4 (crc32c (hd ++ full)) ++ List.replicate 28 0 ++ full
  b ++ List.replicate (g.slot - b.length) 0

/-- The body of a FETCH reply (R519). -/
def fetchReply (layers cls : Nat) (base : Bool) (bytes : Nat) (geom : Bytes) (baseOff : Nat) : Bytes :=
  leBytes 2 layers ++ leBytes 1 cls ++ leBytes 1 (if base then 1 else 0) ++ leBytes 4 0 ++ leBytes 8 bytes ++
  slice (geom ++ List.replicate 16 0) 0 16 ++ leBytes 8 baseOff

/-- What a fetch body names, and its answer: status, reply body, and the bytes written into the receive area. -/
def State.fetchAnswer (s : State) (m : MalMsg) : Nat × Bytes × Bytes :=
  let b := m.body
  let h := rd b 0 8
  let chain := slice b 8 16
  let raddr := rd b 0x20 8
  let rlen := rd b 0x30 8
  let check := m.ver ≥ 0x300 ∧ raddr = 0
  let held := fun (layer first : Nat) => s.plp.replicas.find? fun r =>
    r.owner == m.src && r.handle == h && !r.remnant && r.ask.isNone && (hOrder h != 7 || (r.layer == layer && r.first == first))
  let give := fun (layers cls : Nat) (base : Bool) (off : Nat) (geom data : Bytes) =>
    if data.length > rlen ∧ m.ver ≥ 0x300 then (mRefused, fetchReply 0 0 false data.length geom 0, ([] : Bytes))
    else (mOk, fetchReply layers cls base data.length geom off, data)
  if hOrder h = 7 then
    let layer := rd chain 0 2
    let first := rd chain 4 4
    if check then
      (if s.staged.any fun g => g.part == hPart h && g.seq == hSerial h && g.layer == layer && g.first == first && g.cls == 2
       then (mOk, [], []) else (mMiss, [], []))
    else match held layer first with
      | some r => give 1 2 false 0 [] r.data
      | none => (mMiss, [], [])
  else
    let lf := (s.leaf h).bind fun l =>
      let ch := ((l.chain.getD [] ++ List.replicate 16 0).take 16)
      if ch == chain && l.ns == rd b 0x18 4 && l.order == rd b 0x1C 1 && (s.leafPages l).all (fun x => s.readable x.part x.serial)
      then some l else none
    match lf with
    | some l =>
      if check then (mOk, [], [])
      else
        let base := if m.ver ≥ 0x301 && bit (rd b 0x1D 1) 0 then s.sq.leaves.find? fun y => l.base != 0 && y.handle == l.base else none
        let own := s.leafRecords l
        let data := own ++ (base.elim [] fun y => s.leafRecords y)
        let geom := s.geomDigest l.part
        give l.layers l.cls base.isSome (if base.isSome then own.length else 0) geom data
    | none =>
      if check then (mMiss, [], [])
      else match held 0 0 with
        | some r =>
          let base := if m.ver ≥ 0x301 && bit (rd b 0x1D 1) 0 then s.plp.replicas.find? fun y => r.base != 0 && y.owner == r.owner && y.handle == r.base
            else none
          give ((s.geom r.ownerPart).elim 0 fun g => g.layers.length) 2 base.isSome (if base.isSome then r.data.length else 0) []
            (r.data ++ (base.map (·.data)).getD [])
        | none => (mMiss, [], [])

/-- FETCH_DATA messages of a 2.x transfer: page records in pieces of at most 64 KiB, the last with LAST set (R521). -/
def State.sendFetchData (s : State) (m : MalMsg) (data : Bytes) : State :=
  let cs := chunks 65504 data
  cs.zipIdx.foldl (fun (a : State) c =>
    let x : MalMsg := { a.malMsg 0x0021 m.src m.msgId m.ver c.1 with last := c.2 + 1 == cs.length }
    { a with free := a.free + 1 }.emit (.malroth x)) s

/-! ### Replicas kept for peers (R522, R608–R610) -/

/-- Replica bytes held, of all owners. -/
def State.replicaUsed (s : State) : Nat := sumBy (fun (r : Replica) => r.bytes) s.plp.replicas

/-- The replica is dropped, with its flash (R610, R611), and with it the base remnants that no replica names any more (R347). -/
def State.dropReplica (s : State) (id : Nat) : State :=
  let one := fun (a : State) (n : Nat) => ({ a with plp := { a.plp with replicas := del (fun r => r.id == n) a.plp.replicas } } : State).t3Drop 64 n 1
  let s1 := one s id
  let dead := s1.plp.replicas.filter fun r => r.remnant && !s1.plp.replicas.any fun x => x.owner == r.owner && x.base == r.handle
  dead.foldl (fun (a : State) r => one a r.id) s1

/-- Bytes of the page records of the leaf that stands first; none where a record is cut off or a block fails its CRC. -/
def leafRecBytes : Nat → Bytes → Option Nat
  | 0, _ => none
  | n + 1, b =>
    if b.isEmpty then some 0
    else (readRec b).bind fun r =>
      let here := b.length - r.2.2.length
      if r.2.2.isEmpty ∨ rd r.2.2 0x0C 2 = 0 then some here else (leafRecBytes n r.2.2).map (here + ·)

/-- The leaf handle of the base that a leaf's page records name (R99); 0 for none. -/
def baseNamed : Nat → Bytes → Nat
  | 0, _ => 0
  | n + 1, b =>
    let h := rd b 0x20 8
    if h ≠ 0 then mkHandle (hPart h) (hOrder h) (hGen h) (hSerial h - rd b 0x0C 2)
    else match readRec b with
      | some r => if r.2.2.isEmpty then 0 else baseNamed n r.2.2
      | none => 0

/-- A REPLICA is accepted where it fits: the bytes it pulls come with the message in the model. Its blocks are checked at the port (R325); one that
fails, or a base-delta leaf whose base neither is held nor comes with it (R347), is refused. It is answered once in flash. -/
def State.takeReplica (s : State) (m : MalMsg) : State :=
  let b := m.body
  let h := rd b 0 8
  let st := hOrder h = 7
  let data := b.drop 56
  let layer := if st then rd b 8 2 else 0
  let first := if st then rd b 12 4 else 0
  let epoch := if st then rd data 0x10 4 else 0
  let valid := if st then rd data 0x0A 1 else 0
  let same := fun (r : Replica) => r.owner == m.src && r.handle == h && r.layer == layer && r.first == first
  let old := s.plp.replicas.find? same
  let newer := match old with
    | some r => decide (r.epoch * 256 + r.valid > epoch * 256 + valid)
    | none => false
  let freed := (old.map fun (r : Replica) => r.bytes).getD 0
  let own := if st then some data.length else leafRecBytes 4096 data
  let main := data.take (own.getD 0)
  let rest := if bit (rd b 0x1D 1) 0 && !st then data.drop (own.getD 0) else []
  let base := if st ∨ main.isEmpty then 0 else baseNamed 4096 main
  let held := base = 0 ∨ s.plp.replicas.any (fun r => r.owner == m.src && r.handle == base)
  let size := roundUp main.length 4096 + if held then 0 else roundUp rest.length 4096
  let port := ((s.malConn m.src).map fun (k : Conn) => bridgeOfPort k.port).getD 0
  if newer then s.malReply m mOk []
  else if own.isNone then ((s.bumpU F.SC_CRC_ERR port).raiseU Ev.SC_CRC_ERROR port).malReply m mRefused []
  else if !held ∧ rest.isEmpty then s.malReply m mRefused []
  else if s.replicaUsed + size - freed > s.g F.REPLICA_GIB * 2 ^ 30 ∨ size > s.freeUser s.t3Bridge then s.malReply m mRefused []
  else
    let s1 := match old with | some r => s.dropReplica r.id | none => s
    let id := s1.plp.nextReplica
    let r : Replica :=
      { owner := m.src, ownerPart := hPart h, handle := h, layer := layer, first := first, epoch := epoch, valid := valid
        bytes := roundUp main.length 4096, data := main, auditT := s.now, id := id, ask := some m, base := base }
    let put_ := fun (a : State) (r : Replica) =>
      ({ a with plp := { a.plp with replicas := a.plp.replicas ++ [r], nextReplica := r.id + 1 } } : State).t3Write 64 r.id 1 r.bytes
    let s2 := put_ s1 r
    if held then s2
    else put_ s2 { r with handle := base, bytes := roundUp rest.length 4096, data := rest, id := id + 1, ask := none, base := 0, remnant := true }

/-- Replicas whose flash programs have completed are acknowledged (R522). -/
def State.ackReplicas (s : State) : State :=
  s.plp.replicas.foldl (fun (a : State) r =>
    match r.ask with
    | some m =>
      if a.t3Done 64 r.id 1 then
        ({ a with plp := { a.plp with replicas := upd (fun x => x.id == r.id) (fun x => { x with ask := none }) a.plp.replicas } }).malReply
          m mOk []
      else a
    | none => a) s

/-! ### The ends of requests (R509, R510) -/

def State.dropWait (s : State) (id : Nat) : State :=
  { s with net := { s.net with
    waits := del (fun w => w.msg.msgId == id) s.net.waits
    conns := s.net.conns.map fun c => { c with unacked := c.unacked.filter (· != id) } } }

/-- The next candidate for a replica that a peer did not take (R609). -/
def State.nextReplicaPeer (s : State) (dst : Nat) : Option Nat :=
  let ps := (s.replicaPeers.map fun (p : Peer) => p.serial)
  match (ps.dropWhile (· != dst)).drop 1 with
  | n :: _ => some n
  | [] => none

/-- A REPLICA was refused or failed: the next candidate is asked, of a base-delta leaf together with its base (R347); with none left it is asked
again when one appears. -/
def State.replicaElse (s : State) (w : MalWait) : State :=
  match s.nextReplicaPeer w.msg.dst with
  | some n => s.malSend 0x0022 n ((s.leaf w.ctx).elim w.msg.body fun l => s.replicaBody l n) w.ctx
  | none => s

/-- A REPLICA is in the peer's flash (R114, R123 step 7, R612). -/
def State.replicaDone (s : State) (w : MalWait) (src : Nat) : State :=
  let h := w.ctx
  if hOrder h = 7 then
    if s.malWaiting 0x0022 h then s
    else s.setSeq (hPart h) (hSerial h) fun x => { x with unreplicated := false }
  else if hGen h ≠ 0 then (s.setLeaf h fun l => { l with replica := src }).replicaOver h
  else if s.malWaiting 0x0022 h then s
  else s.setCmd h fun x => if x.phase = 1 then { x with phase := 2 } else x

/-- A fetch for a lookup has ended with a status and the body with its records. -/
def State.lookupFetched (s : State) (w : MalWait) (status : Nat) (data : Bytes) : State :=
  let c := w.ctx
  match s.lookup c with
  | none => s
  | some l =>
    let chain := slice w.msg.body 8 16
    let leaf := l.chains.findIdx fun x => x.take 16 == chain
    let from_ := w.msg.dst
    if status = mOk then s.setLookup c fun y => { y with got := y.got ++ [(leaf, from_, data)] }
    else if status = mMiss then s.failedHolder c leaf from_ false
    else if status = mRefused ∧ w.tries < 16 then
      -- once more with a larger area (R520)
      let b := w.msg.body.take 0x30 ++ leBytes 8 (rd data 8 8)
      let s1 := s.malSend 0x0020 from_ b c 4
      { s1 with net := { s1.net with waits := s1.net.waits.map fun x =>
          if x.ctx == c && x.msg.dst == from_ && x.msg.body == b then { x with tries := 16 + x.tries } else x } }
    else s.fetchLeaf c leaf

/-- A publication's request has been acknowledged: the leaf record notes the owner, the wait ends (R190, R719). -/
def State.published (s : State) (ctx owner : Nat) : State :=
  let p := ctx / 2 ^ 48
  let n := ctx % 2 ^ 48
  let s1 := match s.leafAt p n with
    | some l => s.setLeaf l.handle fun y => { y with ackBy := owner, ackT := s.now }
    | none => s
  ({ s1 with pdir := { s1.pdir with pubs := del (fun w => w.part == p && w.serial == n) s1.pdir.pubs } }).publishOver p n

/-- A probe of an incident is answered: good where the condition shows no more (R526, R529, R532). -/
def State.probeAnswer (s : State) (n : Nat) (good : Bool) : State :=
  match s.inc n with
  | none => s
  | some i =>
    if i.st == .probing then s.setInc n fun x => { x with replies := x.replies + 1, good := if good then x.good + 1 else x.good }
    else if i.st == .declared && i.cls != 1 then
      let g := if good then i.good + 1 else 0
      let s1 := s.setInc n fun x => { x with good := g }
      if g < 3 then s1
      else
        let d := { i with good := g, st := .cleared, lastT := s.now }
        (s1.setInc n fun _ => d).passDown 0x0032 (declIncBody d 2 s.now) true i.suspect
    else s

/-- The condition of an incident's class is gone in this answer. -/
def State.conditionGone (s : State) (i : Incident) (m : MalMsg) : Bool :=
  match i.cls with
  | 2 =>
    let bad := fun (k : Nat) => bit (rd m.body k 1) 0 || bit (rd m.body k 1) 1
    if i.unit = 0xFF then !(bad 0 || bad 1 || bad 2) else !bit (rd m.body 4 2) i.unit
  | 3 => match s.peer i.suspect with
    | some p => decide (i.bootEpoch < p.epoch) && s.pdir.ring.contains i.suspect
    | none => false
  | 4 => m.timeState != 4
  | _ => true

/-- A reply to an owner's check or an audit (R515, R611). -/
def State.checkAnswer (s : State) (w : MalWait) (status : Nat) : State :=
  let h := rd w.msg.body 0 8
  if w.why = 3 then (if status = mMiss then s.dropReplica w.ctx else s)
  else if status = mMiss ∨ (w.why = 2 ∧ status = mOk) then
    s.staleHolder fun _ x => x.serial == w.msg.dst && x.handle == h
  else s

/-- The last part of a shard is acknowledged: the giver discards it, and passes later queries for it on (R169). -/
def State.xferDone (s : State) (shard : Nat) : State :=
  if s.malWaiting 0x0014 shard then s
  else { s with pdir := { s.pdir with
    moving := del (fun v => v.shard == shard && v.giving) s.pdir.moving
    shards := if s.shardOwner shard == some s.dev.serial then s.pdir.shards else del (fun e => e.shard == shard) s.pdir.shards } }

/-- Requests that waited for a peer's connection are sent; one passed on for an LN520 stays a 2.x request (R534). -/
def State.flushTo (s : State) (dst cver : Nat) : State :=
  (s.net.waits.filter fun w => !w.sent && w.msg.dst == dst).foldl (fun (a : State) w =>
    let ver := if w.msg.ver < 0x300 then w.msg.ver else cver
    let m := { a.stamped w.msg with ver := ver, ringEpoch := if ver < 0x300 then 0 else max w.msg.ringEpoch a.pdir.ringEpoch }
    let x : MalWait := { w with msg := m, sent := true, sentT := a.now, tries := 1 }
    let ws := upd (fun y => y.msg.msgId == m.msgId) (fun _ => x) a.net.waits
    let cs := upd (fun c => c.malroth && c.peer == dst) (fun (c : Conn) => { c with unacked := c.unacked ++ [m.msgId] }) a.net.conns
    { a with net := { a.net with waits := ws, conns := cs } }.emit (.malroth m)) s

/-- The Malroth connection to a peer is closed. -/
def State.closePeer (s : State) (n : Nat) : State :=
  { s with net := { s.net with conns := del (fun c => c.malroth && c.peer == n) s.net.conns } }

/-- A leader that gathers the ring asks the leader an answer from another group names (R717). -/
def State.askNamed (s : State) (src : Nat) : State :=
  match s.peer src with
  | some p =>
    let named := p.leaderSerial
    if s.net.leader = s.dev.serial ∧ s.boot.ringGatherEnd ≠ 0 ∧ p.group ≠ s.net.group ∧ named ≠ 0 ∧ named ≠ s.dev.serial ∧
        (s.peer named).isNone then s.malOpen named else s
  | none => s

/-- A reply has arrived for a request (R509). -/
def State.replied (s : State) (w : MalWait) (m : MalMsg) : State :=
  match s.relayOf w.msg.msgId with
  | some r => s.relayReply r m
  | none =>
    match w.msg.typ with
    | 0x0001 =>
      if m.status = mOk then
        let cs := upd (fun c => c.malroth && c.peer == m.src) (fun (c : Conn) => { c with st := .open_, ver := m.ver }) s.net.conns
        (((((({ s with net := { s.net with conns := cs } }).hearHello m.src m.ver m.body).attachNamed m.src).coordBy).askNamed m.src).flushTo
          m.src m.ver).sendDecls (· == m.src)
      else s.closePeer m.src
    | 0x0002 =>
      if m.status = mOk then
        (if m.src = s.net.leader ∧ s.stepState 7 = stepRunning ∧ ((s.peer m.src).any fun p => p.ringMember) then s.endStep 7 stepOk else s)
      else if m.status = mRedirect ∧ m.src = s.net.leader then s.attach (rd m.body 0 8)
      else s
    | 0x0010 =>
      match s.lookup w.ctx with
      | none => s
      | some l =>
        let js := (keyBs w.msg.body).map fun k => l.chains.findIdx fun x => x.take 16 == k.chain
        let as_ := readAnswers js m.body
        if m.status = mOk ∨ m.status = mRedirect then
          let s1 := s.takeAnswers w.ctx as_
          -- the one retry goes out under the newer epoch (R170)
          let redo := if w.again then [] else as_.filter fun a => a.2.1 == 2 && a.2.2.2 != s.dev.serial && a.2.2.2 != 0
          redo.foldl (fun (a : State) e => a.malAgain 0x0010 e.2.2.2 (a.lookupKey l e.1) w.ctx m.ringEpoch) s1
        else s
    | 0x0011 =>
      if m.status = mOk then s.published w.ctx m.src
      else if m.status = mRedirect then
        let o := rd m.body 8 8
        if o ≠ 0 ∧ o ≠ s.dev.serial ∧ !w.again then s.malAgain 0x0011 o w.msg.body w.ctx m.ringEpoch else s
      else s
    | 0x0015 =>
      if m.status = mOk then s.published w.ctx m.src
      else
        let h := rd w.msg.body 0x28 8
        { s with boot := { s.boot with republish := s.boot.republish ++ [h] } }.w F.REPUB_LEFT (s.boot.republish.length + 1)
    -- a part not taken is sent again: the shard has still to be given (R169)
    | 0x0014 => if m.status = mOk then s.xferDone w.ctx else s.malSend 0x0014 w.msg.dst w.msg.body w.ctx 0 w.msg.last
    | 0x0016 =>
      if m.status = mOk ∧ rd w.msg.body 0x14 4 ≠ 0 then
        s.declAcked m.src (fun g => g.id == rd w.msg.body 0x10 4 && g.part == rd w.msg.body 8 1) true
      else s
    | 0x0020 =>
      match w.why with
      | 4 => s.lookupFetched w m.status m.body
      | 5 => s
      | 6 => s.probeAnswer w.ctx true
      | _ => s.checkAnswer w m.status
    | 0x0022 => if m.status = mOk then s.replicaDone w m.src else s.replicaElse w
    | 0x0031 =>
      match s.inc w.ctx with
      | some i => if m.status = mVersion then s else s.probeAnswer w.ctx (s.conditionGone i m)
      | none => s
    | 0x0041 =>
      if m.status = mOk ∧ m.body.length ≥ 8 then (s.applyRing (rd m.body 0 4) (u64s (m.body.drop 8) (rd m.body 4 4))).askOwn else s
    | _ => s

/-- A request has failed for want of a reply (R510, R527). -/
def State.unanswered (s : State) (w : MalWait) : State :=
  let s0 := s.dropWait w.msg.msgId
  let s1 := match s0.relayOf w.msg.msgId with
    | some r => { s0 with net := { s0.net with relays := del (fun x => x == r) s0.net.relays } }
    | none => s0
  let rep := fun (a : State) => a.fileIncident w.msg.dst 1 0xFF
  match w.msg.typ with
  | 0x0001 => rep (s1.closePeer w.msg.dst)
  | 0x0010 => s1
  | 0x0031 => s1.setInc w.ctx fun x => if x.st == .declared then { x with good := 0 } else x
  | 0x0030 =>
    let s2 := rep s1
    match s.nextLeader w.msg.dst with
    | some n => if n = s.dev.serial then s2 else s2.malSend 0x0030 n w.msg.body 0
    | none => s2
  | 0x0020 =>
    if w.why = 6 then s1
    else if w.why = 4 then
      let chain := slice w.msg.body 8 16
      match s1.lookup w.ctx with
      | some l => (rep s1).fetchLeaf w.ctx (l.chains.findIdx fun x => x.take 16 == chain)
      | none => rep s1
    else rep s1
  | 0x0022 => (rep s1).replicaElse w
  | _ => rep s1

end Sys2Proof.Machine
end

