-- ==== Sys2Proof/Machine/NetCmds.lean ====
section
/-! DEFINITION. Malroth messages received and the events of the domain network (R506–R536, R163, R170–R172, R608–R611). -/

namespace Sys2Proof.Machine

/-- HELLO (R511, R714): the version is negotiated, or the connection closed. -/
def execHello (m : MalMsg) (s : State) : Host.Outcome State Fault Refusal :=
  .next (if s.g F.NET_CTRL_MALROTH_EN = 0 then s
  else match s.net.kept.find? fun k => k.src == m.src && k.msgId == m.msgId with
    | some k => (s.bump F.DUP_DROPS).emit (.malroth k.reply)
    | none =>
      match commonVer (rd m.body 0 2, rd m.body 2 2) s.malRange with
      | none => ((s.closePeer m.src).bump F.PEER_REFUSED).raise Ev.PEER_REFUSED
      | some v =>
        if rd m.body 8 4 ≠ s.g F.DOMAIN_ID then ((s.closePeer m.src).bump F.PEER_REFUSED).raise Ev.PEER_REFUSED
        else
          let c : Conn := { num := s.freeConn, malroth := true, peer := m.src, port := 8, st := .open_, ver := v, lastT := s.now }
          let cs := if s.net.conns.any fun x => x.malroth && x.peer == m.src
            then upd (fun x => x.malroth && x.peer == m.src) (fun (x : Conn) => { x with st := .open_, ver := v, lastT := s.now }) s.net.conns
            else s.net.conns ++ [c]
          let s1 : State := { s with net := { s.net with conns := cs } }
          let s2 := (s1.hearHello m.src v m.body).coordBy
          ((s2.malReply { m with ver := v } mOk s2.helloBody).flushTo m.src v).sendDecls (· == m.src))

/-- HEARTBEAT (R524, R716): a leader acknowledges its members; the best-ranked device of a group that receives one leads it. A device
that follows another leader names it. -/
def execHeartbeat (m : MalMsg) (s : State) : Host.Outcome State Fault Refusal :=
  .next (s.request m 0x300 fun a =>
    let a1 := a.setPeer m.src fun p => { p with lastHb := a.now, misses := 0 }
    let lead := a1.net.leader = a1.dev.serial
    let a2 := if !lead ∧ (a1.net.leader = 0 ∨ a1.stepState 7 = stepRunning) ∧ a1.bestOfGroup = some a1.dev.serial
      then a1.attach a1.dev.serial else a1
    if a2.net.leader = a2.dev.serial then
      if a2.leaders.contains m.src ∧ !a2.net.members.contains m.src then a2.malReply m mOk []
      else
        let a3 := if a2.net.members.contains m.src || !a2.listed m.src then a2
          else { a2 with net := { a2.net with members := a2.net.members ++ [m.src] } }
        let a4 := a3.malReply m mOk []
        if a4.stepDone 8 then a4.reportJoin [m.src] else a4
    else if a2.net.leader ≠ 0 then a2.malReply m mRedirect (leBytes 8 a2.net.leader)
    else a2.malReply m mRefused [])

/-- HEARTBEAT_TICK (R524, R716 step 5). -/
def execHeartbeatTick (s : State) : Host.Outcome State Fault Refusal :=
  if s.g F.NET_CTRL_MALROTH_EN = 0 then .next s
  else
    let s1 := s.reach (s.net.lastTick + s.g F.HB_US * 1000)
    let s2 := { s1 with net := { s1.net with lastTick := s1.now } }.handOver
    let me := s2.dev.serial
    let receivers := if s2.net.leader = 0 then []
      else if s2.net.leader = me then ((s2.nextLeader me).toList ++ (s2.prevLeader me).toList).eraseDups
      else [s2.net.leader]
    .next (receivers.foldl (fun (a : State) n => if a.malWaiting 0x0002 0 && a.net.waits.any (fun w => w.msg.typ == 2 && w.msg.dst == n) then a
      else a.malSend 0x0002 n [] 0) s2)

/-- Senders whose heartbeats this device expects (R524). -/
def State.heartSenders (s : State) : List Nat :=
  if s.net.leader = s.dev.serial then
    s.net.members ++ (s.nextLeader s.dev.serial).toList ++ (s.prevLeader s.dev.serial).toList
  else []

/-- HEARTBEAT_MISS (R524): three consecutive heartbeats of a sender are missing. -/
def execHeartbeatMiss (peer : Nat) (s : State) : Host.Outcome State Fault Refusal :=
  match s.peer peer with
  | some p =>
    if !s.heartSenders.contains peer ∨ !p.reachable ∨ p.misses ≥ 3 then .next s
    else
      let s1 := s.reach (p.lastHb + 3 * s.g F.HB_US * 1000)
      .next ((s1.setPeer peer fun q => { q with misses := 3 }).fileIncident peer 1 0xFF)
  | none => .next s

/-- SHARD_QUERY (R169, R170, R513, R517, R534). -/
def execShardQuery (m : MalMsg) (s : State) : Host.Outcome State Fault Refusal :=
  .next (s.served m 0x200 fun a => if m.ver ≥ 0x300 ∧ m.ringEpoch > a.pdir.ringEpoch then a.awaitRing m else a.answerQuery m)

/-- PUBLISH (R189, R514, R517, R534). -/
def execPublish (m : MalMsg) (s : State) : Host.Outcome State Fault Refusal :=
  .next (s.served m 0x200 fun a => if m.ver ≥ 0x300 ∧ m.ringEpoch > a.pdir.ringEpoch then a.awaitRing m else a.answerPublish m)

/-- UNPUBLISH (R163, R514, R534): the sender leaves the holder lists of the keys named. -/
def execUnpublish (m : MalMsg) (s : State) : Host.Outcome State Fault Refusal :=
  .next (s.served m 0x200 fun a =>
    let ks := keyBs m.body
    let a1 := a.removeHolder fun key h => h.serial == m.src && ks.any fun k => k.key == key && k.handle == h.handle
    if m.ver < 0x300 ∧ !a1.pdir.ring.isEmpty ∧ ks.any (fun k => !a1.owns k.shard) then a1.publishElse m ks else a1.malReply m mOk [])

/-- HOLDER_STALE (R515). -/
def execHolderStale (m : MalMsg) (s : State) : Host.Outcome State Fault Refusal :=
  .next (s.served m 0x300 fun a =>
    ((keyBs m.body).foldl (fun (t : State) k => t.checkHolder k k.holder (bit k.flags 2)) a).malReply m mOk [])

/-- SHARD_XFER (R169, R516, R517): under a newer ring than this device's it waits until that ring is applied here. -/
def execShardXfer (m : MalMsg) (s : State) : Host.Outcome State Fault Refusal :=
  .next (s.served m 0x300 fun a =>
    if a.pdir.ringEpoch < m.ringEpoch then a.awaitRing m
    else if m.last then ((a.takeXfer m).retryLater).askOwn else a.takeXfer m)

/-- REPUBLISH (R171, R172, R516): applied like publications, acknowledged when applied. -/
def execRepublish (m : MalMsg) (s : State) : Host.Outcome State Fault Refusal :=
  .next (s.served m 0x300 fun a =>
    ((keyBs m.body).foldl (fun (t : State) k =>
      t.applyPublish k.ns k.order k.chain k.geom m.src k.handle (verByte m.ver)) a).malReply m mOk [])

/-- GROUP_DECL (R144–R146): a member's declaration, or its withdrawal. -/
def execGroupDecl (m : MalMsg) (s : State) : Host.Outcome State Fault Refusal :=
  .next (s.served m 0x200 fun a =>
    let b := m.body
    let d : GrpDecl :=
      { member := ⟨rd b 0 8, rd b 8 1⟩, id := rd b 0x10 4, count := rd b 0x14 4, digest := slice b 0x18 16, kcv := rd b 0x28 16 }
    let same := fun (x : GrpDecl) => x.member == d.member && x.id == d.id
    let ds := if d.count = 0 then del same a.pdir.decls else put same d a.pdir.decls
    ({ a with pdir := { a.pdir with decls := ds } }.groupsUpdate).malReply m mOk [])

/-- MALROTH_FETCH (R515, R518–R521, R611, R613). How many fetches are being served is the device's own: a free value. -/
def execMalrothFetch (m : MalMsg) (s : State) : Host.Outcome State Fault Refusal :=
  .next (s.served m 0x200 fun a =>
    let r := a.fetchAnswer m
    let c := a.choose
    if r.1 = mOk ∧ !r.2.2.isEmpty ∧ c.1 ≥ max 1 (a.g F.FETCH_MAX) then (c.2.bump F.FETCH_BUSY).malReply m mBusy []
    else if r.1 ≠ mOk ∨ r.2.2.isEmpty then c.2.malReply m r.1 r.2.1
    else
      let s1 := (c.2.bump F.FETCH_SERVED (r.2.2.length / 1024)).charge 255 0 .peerOut r.2.2.length
      if m.ver < 0x300 then (s1.malReply m mOk []).sendFetchData m r.2.2 else s1.malReply m mOk (r.2.1 ++ r.2.2))

/-- FETCH_DATA (R521): pieces of a 2.x transfer; the last one ends it. -/
def execFetchData (m : MalMsg) (s : State) : Host.Outcome State Fault Refusal :=
  match s.net.waits.find? fun w => w.msg.typ == 0x0020 && w.msg.dst == m.src && w.msg.ver < 0x300 && w.msg.msgId == m.msgId with
  | none => .next s
  | some w =>
    let s1 := s.heardFrom m
    let data := w.data ++ m.body
    if !m.last then
      let ws := upd (fun x => x.msg.msgId == w.msg.msgId) (fun (x : MalWait) => { x with data := data, sentT := s.now }) s1.net.waits
      .next { s1 with net := { s1.net with waits := ws } }
    else
      let s2 := s1.dropWait w.msg.msgId
      if w.why ≠ 4 then .next s2
      else
        match s2.lookup w.ctx with
        | none => .next s2
        | some l =>
          let g := s2.geom l.part
          let hd := fetchReply (g.elim 0 fun x => x.layers.length) 0 false data.length (s2.geomDigest l.part) 0
          .next (s2.lookupFetched w mOk (hd ++ data))

/-- REPLICA (R522, R608, R610). Whether a peer is BUSY is its own: a free value. -/
def execReplica (m : MalMsg) (s : State) : Host.Outcome State Fault Refusal :=
  .next (s.served m 0x300 fun a =>
    let c := a.choose
    if c.1 % 2 = 1 then c.2.malReply m mBusy []
    else (c.2.charge 255 0 .peerIn (m.body.length - 56)).takeReplica m)

/-- INCIDENT_REPORT (R528–R530, R533). -/
def execIncidentReport (m : MalMsg) (s : State) : Host.Outcome State Fault Refusal :=
  .next (s.served m 0x200 fun a =>
    let b := m.body
    let r := a.takeReport (rd b 0 8) (rd b 8 1) (rd b 9 1) m.src
    r.1.malReply m mOk (leBytes 4 r.2.1 ++ leBytes 1 r.2.2 ++ leBytes 3 0))

/-- The 16-byte body of a PROBE's answer (R529): DEGRADED and FAULT of SYS, NET and FLT, and the health of each unit of R526. -/
def State.healthBody (s : State) : Bytes :=
  let st := fun (b : Nat) => s.cm (Fld.blkDegraded b 0) 0 255 + 2 * s.cm (Fld.blkFault b 0) 0 255
  let unit := fun (i : Nat) =>
    if i < 8 then s.cm (Fld.blkDegraded 0x12 1) (i + 1) 255 == 1 || s.cm (Fld.blkFault 0x12 1) (i + 1) 255 == 1
    else !s.bridgeUp (i - 8)
  leBytes 1 (st 0x01) ++ leBytes 1 (st 0x12) ++ leBytes 1 (st 0x06) ++ leBytes 1 0 ++
  leBytes 2 (sumBy (fun i => if unit i then 2 ^ i else 0) (List.range 10)) ++ leBytes 10 0

/-- PROBE (R529). A device being retired answers none (R685). -/
def execProbe (m : MalMsg) (s : State) : Host.Outcome State Fault Refusal :=
  if s.hw.retireReq then .next s else .next (s.served m 0x300 fun a => a.malReply m mOk a.healthBody)

/-- PROBE_SEND (R529). -/
def execProbeSend (inc : Nat) (s : State) : Host.Outcome State Fault Refusal :=
  match s.inc inc with
  | some i =>
    if i.st != .probing || i.probes == 0 || i.probes ≥ 3 then .next s
    else .next ((s.reach (i.probeT + s.g F.INC_CFG_PROBE_GAP_US * 1000)).sendProbe i)
  | none => .next s

/-- The condition of R526 for confirmation, from the probes' answers. -/
def Incident.confirmed (i : Incident) : Bool :=
  match i.cls with
  | 1 => i.replies == 0
  | 3 => decide (2 ≤ i.reporters.length)
  | _ => decide (0 < i.replies) && i.good == 0

/-- PROBE_TIMEOUT (R529, R531): the arbiter declares, or closes the incident as cleared. -/
def execProbeTimeout (inc : Nat) (s : State) : Host.Outcome State Fault Refusal :=
  match s.inc inc with
  | some i =>
    if i.st != .probing || i.probes < 3 then .next s
    else
      let s1 := s.reach (i.probeT + s.g F.INC_CFG_PROBE_TO_US * 1000)
      if i.confirmed && s1.mayConfirm i.suspect i.cls then .next (s1.confirm inc) else .next (s1.setInc inc fun x => { x with st := .cleared })
  | none => .next s

/-- INCIDENT_DECL (R526, R531, R532). -/
def execIncidentDecl (m : MalMsg) (s : State) : Host.Outcome State Fault Refusal :=
  .next (s.request m 0x300 fun a =>
    let b := m.body
    let suspect := rd b 0x10 8
    let cls := rd b 0x0C 1
    let unit := rd b 0x0D 1
    let epoch := rd b 0x18 4
    let named := fun (i : Incident) => i.suspect == suspect && i.cls == cls && i.unit == unit
    let a1 := a.malReply m mOk []
    if rd b 0x1C 1 = 2 then
      let is_ := upd (fun i => named i && i.st == .declared) (fun (i : Incident) => { i with st := .cleared, lastT := a.now }) a1.net.incidents
      ({ a1 with net := { a1.net with incidents := is_ } }).passDown 0x0032 b false suspect
    else if a.net.incidents.any fun i => named i && i.st == .declared && i.epoch == epoch then a1
    else
      let i : Incident :=
        { num := a1.net.nextInc, suspect := suspect, cls := cls, unit := unit, firstT := a.now, lastT := a.now, reporters := []
          st := .declared, incNo := rd b 8 4, arbiter := rd b 0 8, epoch := epoch }
      let full := a1.net.incidents.length ≥ 1024
      let is_ := (del named a1.net.incidents) ++ if full then [] else [i]
      let a2 := { a1 with net := { a1.net with incidents := is_, nextInc := i.num + 1 } }
      ((a2.raise Ev.INCIDENT_DECLARED).passDown 0x0032 b false suspect).declared suspect cls)

/-- A storm record ends when fewer than 768 entries are used: each suspect it counted is probed as a new entry (R533). -/
def State.endStorm (s : State) : State :=
  match s.net.storm with
  | none => s
  | some t =>
    if s.net.incidents.length ≥ 768 then s
    else t.suspects.foldl (fun (a : State) e => (a.takeReport e.1 1 0xFF a.dev.serial true).1) { s with net := { s.net with storm := none } }

/-- INCIDENT_WINDOW_EXPIRE (R528, R533). -/
def execIncidentWindowExpire (inc : Nat) (s : State) : Host.Outcome State Fault Refusal :=
  match s.inc inc with
  | some i =>
    if i.st == .probing || (i.st == .declared && i.cls != 1) then .next s
    else
      let s1 := s.reach (i.lastT + s.windowNs)
      .next ({ s1 with net := { s1.net with incidents := del (fun x => x.num == inc) s1.net.incidents } }).endStorm
  | none => .next s

/-- INCIDENT_REPROBE (R532). -/
def execIncidentReprobe (inc : Nat) (s : State) : Host.Outcome State Fault Refusal :=
  match s.inc inc with
  | some i =>
    if i.st != .declared || i.cls == 1 || i.arbiter != s.dev.serial then .next s
    else
      let s1 := s.reach (i.reprobeT + 1000000000)
      .next ((s1.setInc inc fun x => { x with reprobeT := s1.now }).malSend 0x0031 i.suspect [] inc)
  | none => .next s

/-- RING_UPDATE (R525, R717). -/
def execRingUpdate (m : MalMsg) (s : State) : Host.Outcome State Fault Refusal :=
  .next (s.request m 0x300 fun a =>
    let b := m.body
    let e := rd b 0 4
    let js := u64s (b.drop 16) (rd b 4 4)
    let ls := u64s (b.drop (16 + 8 * rd b 4 4)) (rd b 8 4)
    let a1 := a.malReply m mOk []
    let ring := if a1.pdir.ring.isEmpty then sortNat js
      else sortNat ((a1.pdir.ring.filter fun n => !ls.contains n) ++ js.filter fun n => !a1.pdir.ring.contains n)
    -- with no ring of its own a device can apply only the update that forms one (R717); a late joiner pulls it (R718)
    let forms : Bool := ls.isEmpty && js.contains a1.dev.serial && !(a1.net.peers.any fun (p : Peer) => p.ringMember && !js.contains p.serial)
    if e ≤ a1.pdir.ringEpoch then a1
    else if (!a1.pdir.ring.isEmpty ∧ e = a1.pdir.ringEpoch + 1) ∨ (a1.pdir.ring.isEmpty ∧ forms) then
      let a2 := (a1.applyRing e ring).askOwn.passDown 0x0040 b false m.src
      -- a better-ranked leader is made known to this coordinator (R717)
      match a2.bestLeader with
      | some n =>
        if a2.net.leader = a2.dev.serial ∧ n ≠ m.src ∧ n ≠ a2.dev.serial ∧ a2.rankOf n < a2.rankOf m.src then
          match a2.peer n with
          | some p =>
            let hb := leBytes 4 (0x300 + 0x301 * 2 ^ 16) ++ leBytes 1 1 ++ leBytes 1 p.ordering ++ leBytes 2 p.failGroup ++
              leBytes 4 p.domain ++ leBytes 2 p.group ++ leBytes 1 (3 + (if p.ringMember then 8 else 0)) ++ leBytes 1 0 ++
              leBytes 4 p.epoch ++ leBytes 4 p.ringSeen ++ leBytes 8 n ++
              slice (((a2.boot.map.map fun (x : DomainMap) => x.digest).getD []) ++ List.replicate 16 0) 0 16
            a2.emit (.malroth { a2.malMsg 0x0001 m.src a2.net.nextMsg m.ver hb with src := n })
          | none => a2
        else a2
      | none => a2
    else if a1.net.leader = 0 ∨ a1.net.leader = a1.dev.serial then
      (if a1.malWaiting 0x0041 0 then a1 else a1.malSend 0x0041 m.src [] 0)
    else if a1.malWaiting 0x0041 0 then a1
    else a1.malSend 0x0041 a1.net.leader [] 0)

/-- RING_PULL (R525, R717, R718): answered with the full member list; a member list from a leader is a report to the coordinator. -/
def execRingPull (m : MalMsg) (s : State) : Host.Outcome State Fault Refusal :=
  .next (s.request m 0x300 fun a =>
    if m.body.length ≥ 8 then
      let ns := u64s (m.body.drop 8) (rd m.body 4 4)
      (a.reportJoin (ns.filter a.listed)).malReply m mOk []
    else a.malReply m mOk (memberBody a.pdir.ringEpoch a.pdir.ring))

/-- MALROTH_REPLY (R509): a reply to a request that no longer waits has no effect. -/
def execMalrothReply (m : MalMsg) (s : State) : Host.Outcome State Fault Refusal :=
  match s.net.waits.find? fun w => w.msg.msgId == m.msgId && w.msg.dst == m.src && w.msg.typ == m.typ with
  | none => .next s
  | some w =>
    let s1 := s.heardFrom m
    -- a 2.x transfer goes on after its empty reply (R521)
    if m.typ = 0x0020 ∧ w.msg.ver < 0x300 ∧ m.status = mOk ∧ w.why = 4 then .next s1
    else .next ((s1.dropWait w.msg.msgId).replied w m)

/-- MSG_TIMEOUT (R510, R178, R527): sent again up to three times, over another port where there is one; then the request fails. A
SHARD_QUERY is sent again once, at half of SHARD_TO_US, and files no report. -/
def execMsgTimeout (msgId : Nat) (s : State) : Host.Outcome State Fault Refusal :=
  match s.net.waits.find? fun w => w.msg.msgId == msgId && w.sent with
  | none => .next s
  | some w =>
    let query := w.msg.typ = 0x0010
    let s1 := s.reach (w.sentT + if query then s.g F.PDIR_CTRL_SHARD_TO_US * 500 else s.g F.MSG_TO_US * 1000)
    if w.tries % 16 < (if query then 2 else 4) then
      let ws := upd (fun x => x.msg.msgId == msgId) (fun (x : MalWait) => { x with msg := s1.stamped x.msg, sentT := s1.now, tries := x.tries + 1 }) s1.net.waits
      let s2 := { s1 with net := { s1.net with waits := ws } }.bump F.MSG_RETRIES
      let mv := s2.malPort
      let cs := fun (p : Nat) => upd (fun c => c.malroth && c.peer == w.msg.dst) (fun (c : Conn) => { c with port := 8 + p }) mv.1.net.conns
      match mv.2 with
      | some p => .next ({ mv.1 with net := { mv.1.net with conns := cs p } }.emit (.malroth (s1.stamped w.msg)))
      | none => .next s2
    else
      let s2 := s1.unanswered w
      -- what waited for this connection fails with it
      let rest := if w.msg.typ = 0x0001 then s2.net.waits.filter fun x => !x.sent && x.msg.dst == w.msg.dst else []
      .next (rest.foldl (fun (a : State) x => a.unanswered x) s2)

/-- CONN_IDLE_CLOSE (R506). -/
def execConnIdleClose (conn : Nat) (s : State) : Host.Outcome State Fault Refusal :=
  match s.net.conns.find? fun c => c.num == conn && c.malroth with
  | some c =>
    if s.net.waits.any fun w => w.msg.dst == c.peer then .next s
    else
      let s1 := s.reach (c.lastT + 10000000000)
      .next { s1 with net := { s1.net with conns := del (fun x => x.num == conn) s1.net.conns } }
  | none => .next s

/-- Destination connections of a partition. -/
def State.connsOf (s : State) (p : Nat) : List Conn := s.net.conns.filter fun c => !c.malroth && c.part == p

/-- CONN_OPEN (R506): the connection manager exchange of a destination connection ends, or it is refused before it begins. -/
def execConnOpen (part conn : Nat) (ok : Bool) (s : State) : Host.Outcome State Fault Refusal :=
  if part ≥ 64 ∨ conn ≥ 65536 ∨ s.net.conns.any (fun c => c.num == conn && (c.malroth || c.part != part || c.st == .open_ || c.st == .held))
  then .next s
  else
    let port := 8 + s.gs F.CONN_CTRL_PORT conn % 8
    let others := (s.connsOf part).filter fun c => c.num != conn && c.st != .error
    let st := fun (x : ConnSt) (r : Nat) =>
      let c : Conn := { num := conn, malroth := false, part := part, port := port, st := x, reason := r, lastT := s.now }
      let s1 := { s with net := { s.net with conns := put (fun y => y.num == conn) c s.net.conns } }.ws F.CONN_CTRL_OPEN conn 0
      if x == .error then s1.raise Ev.CONN_ERROR part else s1
    if others.length ≥ s.gp F.CONN_QUOTA part then .next (st .error 1)
    else if !bit (s.gp F.PORT_MASK part) port then .next (st .error 2)
    else if !ok then .next (st .error 3)
    else .next (st .open_ 0)

/-- CONN_CLOSE (R506): once its queued pushes are done the connection's number is free. -/
def execConnClose (conn : Nat) (s : State) : Host.Outcome State Fault Refusal :=
  match s.net.conns.find? fun c => c.num == conn && !c.malroth with
  | some c =>
    let busy := s.dlv.pushes.any fun p => p.part == c.part && s.dlv.dests.any fun d =>
      d.part == p.part && d.num == p.dest && d.conn == conn && d.port ≥ 8
    if busy then .next (s.ws F.CONN_CTRL_CLOSE conn 1)
    else .next ({ s with net := { s.net with conns := del (fun x => x.num == conn) s.net.conns } }.ws F.CONN_CTRL_CLOSE conn 0)
  | none => .next s

/-- The version that adds a message type (R508). -/
def typeSince (t : Nat) : Option Nat :=
  match t with
  | 0x0001 => some 0x200 | 0x0010 => some 0x200 | 0x0011 => some 0x200 | 0x0012 => some 0x200 | 0x0016 => some 0x200
  | 0x0020 => some 0x200 | 0x0021 => some 0x200 | 0x0030 => some 0x200 | 0x0002 => some 0x300 | 0x0013 => some 0x300
  | 0x0014 => some 0x300 | 0x0015 => some 0x300 | 0x0022 => some 0x300 | 0x0031 => some 0x300 | 0x0032 => some 0x300
  | 0x0040 => some 0x300 | 0x0041 => some 0x300 | _ => none

/-- MALROTH_UNKNOWN_TYPE (R508). -/
def execMalrothUnknownType (m : MalMsg) (s : State) : Host.Outcome State Fault Refusal :=
  let known : Bool := match typeSince m.typ with | some v => decide (v ≤ m.ver) | none => false
  if known ∨ s.g F.NET_CTRL_MALROTH_EN = 0 then .next s else .next (s.malReply m mVersion [])

/-- REPLY_RETENTION_EXPIRE (R509). -/
def execReplyRetentionExpire (src msgId : Nat) (s : State) : Host.Outcome State Fault Refusal :=
  let same := fun (k : KeptReply) => k.src == src && k.msgId == msgId
  match s.net.kept.find? same with
  | some k =>
    let s1 := s.reach (k.time + 10000000)
    .next { s1 with net := { s1.net with kept := del same s1.net.kept } }
  | none => .next s

end Sys2Proof.Machine
end

