-- ==== Sys2Proof/Machine/TierCmds.lean ====
section
/-! DEFINITION. The tier manager's commands and events (R205–R243, R230–R240, R598): demotion, moves, cadence and prefetch, destage,
hints, MIGRATE and EVICT. -/

namespace Sys2Proof.Machine

/-! ### Demotion (R220–R227) -/

/-- The pool asks for victims: above WM_HIGH, over its quota, or with something that waits for its room. -/
def State.poolNeeds (s : State) (p t d : Nat) : Bool :=
  decide (s.level p t d > (s.marks p t d).1) || decide (s.used p t d > s.quota p t d) || s.poolWanted p t d

/-- A victim of the pool is still leaving it. -/
def State.victimLeaving (s : State) (p t d : Nat) : Bool :=
  s.tier.moves.any fun m => m.why == 2 && m.part == p && m.srcTier == t && (t ≥ 2 || m.srcDie == d)

/-- No candidate can leave: BLOCKED, with its alarm once (R220, R225, R227). -/
def State.poolBlocked (s : State) (p t d : Nat) : State :=
  if (s.pool p t d).st == .blocked then s else (s.setPool p t d .blocked).raise Ev.TIER_BLOCKED p

/-- The pool enters DEMOTING, from IDLE or BLOCKED (R220, R243). -/
def State.poolDemotes (s : State) (p t d : Nat) : State :=
  if (s.pool p t d).st == .demoting then s else (s.setPool p t d .demoting).raise Ev.DEMOTE_START p

/-- One victim is chosen, by the demotion hook (R220, R223, R738, R743). -/
def State.demoteOne (s : State) (p t d : Nat) : State :=
  let cs := s.candidates p t d
  let go := fun (a : State) (v : Nat) =>
    match a.firstVictim (a.demoteOrder p v cs) with
    | some a1 => a1.poolDemotes p t d
    | none => a.poolBlocked p t d
  -- nothing asks the hook where no candidate can leave
  if cs.isEmpty then s.poolBlocked p t d
  else if (s.pool p t d).st == .blocked && (s.firstVictim cs).isNone then s
  else match s.hookBy p 3 with
  | .fallback => go (s.hookCount p 3) 0
  | .shipped v => go (s.hookCount p 3) v
  | .program =>
    if s.hookBusy 3 p (locator t d) then s
    else
      -- a candidate has appeared in a pool that was BLOCKED (R220)
      let s := s.poolDemotes p t d
      let mk := s.marks p t d
      match s.hookRaise 3 p (if t ≤ 1 then d else 8) [locator t d, s.level p t d, mk.1, mk.2] (locator t d) 0 with
      | (s1, true) => s1
      | (s1, false) => go s1 0

/-- TIER_EVALUATE (R220, R221, R227). -/
def execTierEvaluate (part tier die : Nat) (s : State) : Host.Outcome State Fault Refusal :=
  if part ≥ 64 ∨ tier ≥ 4 ∨ s.pst part == .free ∨ s.paused 0x0B (if tier ≤ 1 then die + 1 else 0) then .next s
  else
    let d := if tier ≥ 2 then 15 else die
    let st := (s.pool part tier d).st
    if st == .idle && !s.poolNeeds part tier d then .next s
    else if s.poolDone part tier d then .next (s.setPool part tier d .idle)
    else
      let s1 := if st == .idle then s.poolDemotes part tier d else s
      if s1.victimLeaving part tier d then .next s1 else .next (s1.demoteOne part tier d).pump

/-! ### MIGRATE and EVICT (R238–R240) -/

/-- Pages a command names, by partition and serial: leaves of a list with every layer, or leaves of a range of its sequence with the layers
named (R238). -/
def State.pagesNamed (s : State) (hs : List Nat) (handles : Bool) (layer span : Nat) : List (Nat × Nat) :=
  hs.flatMap fun h => match s.leaf h with
    | some l =>
      let ls := if handles || layer == 0xFFFF then List.range l.layers else (List.range (max 1 span)).map (layer + ·)
      (ls.filter fun i => decide (i < l.layers)).map fun i => (l.part, l.serial + i)
    | none => []

/-- A page as a command's list of pages holds it: partition and serial in one number. -/
def pageNo (k : Nat × Nat) : Nat := k.1 * 2 ^ 64 + k.2

def pageOfNo (n : Nat) : Nat × Nat := (n / 2 ^ 64, n % 2 ^ 64)

/-- The leaves a MIGRATE or EVICT names; a status where one does not resolve to a leaf of the partition; none while its list has
still to be read. The sequence form names leaves of the sequence's view that are another partition's too: their copies move and go in their
own partition's pools (DESIGN CHOICE, assumption 85). -/
def State.leavesNamed (s : State) (x : Cmd) (handles : Bool) (lo n addr : Nat) : Option (Except Nat (List Nat)) :=
  if handles then
    match x.buffers [addr] with
    | none => none
    | some false => some (.error St.poison)
    | some true =>
      let hs := u64s ((x.bufAll addr).getD []) lo
      let bad := hs.findSome? fun h =>
        if hPart h ≠ x.part then some St.perm
        else match s.resolve x.part h (hOrder h) with
          | some st => some st
          | none => if (s.leaf h).isSome then none else some St.miss
      match bad with
      | some st => some (.error st)
      | none => some (.ok hs.eraseDups)
  else match s.seqFor x.part x.seq x.uid with
    | .error st => some (.error st)
    | .ok (y, _) => some (.ok (y.leavesIn lo n))

/-- What MIGRATE does with one page: handled, skipped for a capo, skipped for room, or not yet, while another move of it runs. -/
inductive MigAns where
  | handled (s : State) | capo | room | wait

/-- One page of a MIGRATE to tier t (R238). A copy that stands at a slower tier already becomes the backing copy. A backing copy in T1 on another die than the one named gets a cached copy there. The die of a T0
copy without a die named is that of the stack R213 names (DESIGN CHOICE, assumption 73: R810 speaks of T1 copies). -/
def State.migrateOne (s : State) (c p serial t die f qg : Nat) : MigAns :=
  let cs := s.copiesOf p serial
  let back := ((cs.find? fun k => k.backing).map fun (k : Copy) => k.tier).getD t
  if (s.capoTiers (s.leafHandle p serial)).any fun k => decide (k < t) then .capo
  else if t = 2 ∧ s.quota p 2 15 = 0 then .room
  else
    let d := if t ≥ 2 then some 15 else if die < 8 then some die else s.stackFor p serial f
    let cls := ((s.page p serial).map fun (y : Page) => y.cls).getD 0
    match d with
    | none => .room
    | some d =>
      let drop := fun (a : State) =>
        (cs.filter fun (k : Copy) => !k.backing && decide (k.tier < t)).foldl (fun (b : State) k => b.dropCopy p serial k.tier k.die) a
      let there := (s.copyAt p serial t d).isSome
      if there ∧ t ≤ back then .handled (if back ≤ t then drop s else s)
      else if back = t ∧ (t ≠ 1 ∨ die ≥ 8) then .handled (drop s)
      else if t ≤ back then
        match s.askMove p serial t d false false 4 c 0 qg none with
        | (s1, .started) => .handled s1
        | (s1, .joined) => .handled s1
        | (_, .busy) => .wait
        | _ => .room
      else if t = 2 ∧ cls ≠ 0 then .room
      else if (s.copyAt p serial t d).any (·.good) ∧ (s.moveOf p serial).isNone then
        let cs1 := upd (fun (k : Copy) => k.part == p && k.serial == serial && !k.leaving) (fun (k : Copy) => { k with backing := k.tier == t })
          s.tier.copies
        .handled ((cs.filter fun (k : Copy) => decide (k.tier < t)).foldl (fun (b : State) k => b.dropCopy p serial k.tier k.die)
          { s with tier := { s.tier with copies := cs1 } })
      else
        let src := (cs.find? fun k => k.backing).map fun (k : Copy) => (k.tier, k.die)
        match s.askMove p serial t d true true 4 c 0 qg src with
        | (s1, .started) => .handled (drop s1)
        -- a move there that does not take the backing copy with it has to end first
        | (s1, .joined) => if (s1.moveOf p serial).any (·.replace) then .handled (drop s1) else .wait
        | (_, .busy) => .wait
        | _ => .room

/-- A MIGRATE goes on with its pages and completes when all are handled and its moves have ended. `count` holds the skips. -/
def State.settleMigrate (s : State) (c : Nat) : State :=
  match s.cmd c with
  | some x =>
    if !x.is .migrate ∨ x.phase ≠ 1 ∨ !x.live then s
    else if x.cancelled then (s.dropWork c).fail c St.cancelled
    else
      let t := x.f 0x18 1
      let f := if bit (x.f 0x1A 1) 0 then 0 else x.seq % 256
      let s1 := x.leaves.foldl (fun (a : State) n =>
        let done := fun (b : State) (k : Nat) => b.setCmd c fun z =>
          { z with leaves := z.leaves.filter (· != n), count := z.count + k, acc := if k = 0 then z.acc ++ [n] else z.acc }
        match a.migrateOne c (pageOfNo n).1 (pageOfNo n).2 t (x.f 0x19 1) f x.qg with
        | .handled b => done b 0
        | .capo => done a 1
        | .room => done a (2 ^ 32)
        | .wait => a) s
      match s1.cmd c with
      | some y =>
        -- its own moves, and those its pages joined, have to end (R207)
        let moving := fun (n : Nat) => (s1.moveOf (pageOfNo n).1 (pageOfNo n).2).any fun m => m.dstTier == t
        let there := fun (k : Copy) => k.tier == t && (t ≥ 2 || x.f 0x19 1 ≥ 8 || k.die == x.f 0x19 1)
        if !y.leaves.isEmpty || y.acc.any moving then s1
        else
          let at_ := (y.acc.filter fun n => (s1.copiesOf (pageOfNo n).1 (pageOfNo n).2).any there).length
          s1.finish c (if y.count / 2 ^ 32 = 0 then St.ok else St.noSpace) at_ y.count
      | none => s1
  | none => s

/-- MIGRATE (R238, R240). -/
def execMigrate (c : Nat) (s : State) : Host.Outcome State Fault Refusal :=
  match s.running c .migrate with
  | none => .next s
  | some x =>
    if x.phase ≠ 0 then .next (s.settleMigrate c)
    else match s.cancelled x with
      | some s' => .next s'
      | none =>
        match s.leavesNamed x (bit (x.f 0x1A 1) 0) (x.f 0x1C 4) (x.f 0x20 4) (x.f 0x28 8) with
        | none => .next s
        | some (.error st) => .next (s.failNamed c st x.part)
        | some (.ok hs) =>
          let ns := s.pagesNamed hs (bit (x.f 0x1A 1) 0) x.layer (x.f 0x24 2)
          .next ((s.setCmd c fun z => { z with phase := 1, leaves := ns.map pageNo, count := 0, acc := [] }).settleMigrate c)

/-- EVICT (R33, R239): it waits while a page's reference state is unknown. -/
def execEvict (c : Nat) (s : State) : Host.Outcome State Fault Refusal :=
  match s.running c .evict with
  | none => .next s
  | some x =>
    match s.cancelled x with
    | some s' => .next s'
    | none =>
      match s.leavesNamed x (bit (x.f 0x1A 1) 0) (x.f 0x1C 4) (x.f 0x20 4) (x.f 0x28 8) with
      | none => .next s
      | some (.error st) => .next (s.failNamed c st x.part)
      | some (.ok hs) =>
        let t := x.f 0x18 1
        let ns := s.pagesNamed hs (bit (x.f 0x1A 1) 0) x.layer (x.f 0x24 2)
        if ns.any fun k => !s.pageKnown k.1 k.2 then .next s
        else
        let cached := ns.flatMap fun n => (s.copiesOf n.1 n.2).filter fun k => k.tier == t && !k.backing && !s.capoOnly k
        let s1 := cached.foldl (fun (a : State) k => a.dropCopy k.part k.serial k.tier k.die) s
        let drops := if bit (x.f 0x1A 1) 1 then hs.filterMap fun h => (s1.leaf h).bind fun l => if s1.retained l then some l else none
          else []
        let s2 := drops.foldl (fun (a : State) l => a.dropRetained l) s1
        .next (s2.finish c St.ok cached.length drops.length).pump

/-! ### Moves (R206, R207) -/

def readCtr (t : Nat) : Ctr := match t with | 0 => .t0Rd | 1 => .t1Rd | 2 => .t2Rd | _ => .t3Rd
def writeCtr (t : Nat) : Ctr := match t with | 0 => .t0Wr | 1 => .t1Wr | 2 => .t2Wr | _ => .t3Wr

/-- Charge to a command, or to a partition's group when none issued the work (R430). -/
def State.chargeFor (s : State) (cmd p qg : Nat) (k : Ctr) (n : Nat) (isNs : Bool) : State :=
  if cmd ≠ 0 then s.chargeCmd cmd k n isNs else s.charge p qg k n

/-- The copy a move made is published; the backing copy follows where the move carries it (R203, R206, R234). A source that has become the
only copy at or faster than a capo's tier stays as a cached copy (R186). -/
def State.publishMove (s : State) (m : Move) : State :=
  let prot := if m.why = 1 then (if m.useT = 0 then s.now else m.useT) + s.gp F.PROTECT_GRACE m.part * 1000 else 0
  let new : Copy := { part := m.part, serial := m.serial, tier := m.dstTier, die := m.dstDie, bytes := m.bytes, backing := m.backing
                      unit := m.unit, protUntil := prot }
  let s1 : State := { s with tier := { s.tier with moves := del (fun x => x.id == m.id) s.tier.moves } }
  let s2 := if m.backing then
      let cs := upd (fun k => k.part == m.part && k.serial == m.serial && k.backing) (fun (k : Copy) => { k with backing := false })
        s1.tier.copies
      { s1 with tier := { s1.tier with copies := cs } }
    else s1
  let s3 := if (s2.copyAt m.part m.serial m.dstTier m.dstDie).isSome then
      s2.setCopy m.part m.serial m.dstTier m.dstDie fun k =>
        { k with backing := k.backing || m.backing, protUntil := max k.protUntil prot, good := true }
    else s2.addCopy new
  let keep := (s3.copyAt m.part m.serial m.srcTier m.srcDie).any s3.capoOnly
  let s4 := if m.replace && !keep then (s3.dropCopy m.part m.serial m.srcTier m.srcDie).reclaim else s3.reclaim
  let s5 := (s4.noteBehind s).bumpP F.MOVE_KIB m.part (m.bytes / 1024)
  ((s5.chargeFor m.cmd m.part m.qg (readCtr m.reads.1) m.bytes false).chargeFor m.cmd m.part m.qg (writeCtr m.dstTier) m.bytes
    false).chargeFor m.cmd m.part m.qg .nsMove (s.now - m.startT) true

/-- A move has failed twice: a read error of its source tier (R206). -/
def State.moveFailed (s : State) (m : Move) : State :=
  let s1 : State := { s with tier := { s.tier with moves := del (fun x => x.id == m.id) s.tier.moves } }
  let s2 := if m.dstTier = 3 then s1.t3Drop m.part m.serial 0 else s1
  (s2.badCopy m.part m.serial m.reads.1 m.reads.2).raise Ev.MOVE_FAIL m.part

/-- Commands that wait for a move go on. -/
def State.settleMoves (s : State) : State :=
  (s.q.cmds.foldl (fun (a : State) c => if c.is .migrate && c.phase == 1 then a.settleMigrate c.uid else a) s.settlePins).pump

/-- A block of a move failed its CRC (R206, R338): at the block checker of the NAND channel or CXL port it entered through, else of the one it
was to leave through. -/
def State.crcError (s : State) (m : Move) : State :=
  let unit := (s.ftl.units.find? fun u => u.what == 0 && u.part == m.part && u.serial == m.serial).map fun (u : NUnit) => u.bridge
  let port := fun (d : Nat) => (s.copyAt m.part m.serial 2 d).map fun (c : Copy) => bridgeOfPort (s.extentPort c.unit)
  s.crcSeen m.part (if m.reads.1 = 3 then unit else if m.reads.1 = 2 then port m.reads.2
    else if m.dstTier = 3 then unit else if m.dstTier = 2 then some (bridgeOfPort (s.extentPort m.unit)) else none)

/-- MOVE_COMPLETE (R206, R207). A destage ends by DESTAGE_COMMIT. A first failure with no other copy to repeat from is treated as the
second (DESIGN CHOICE, assumption 73). -/
def execMoveComplete (move : Nat) (ok : Bool) (s : State) : Host.Outcome State Fault Refusal :=
  match s.tier.moves.find? fun m => m.id == move with
  | none => .next s
  | some m =>
    -- a T3 source with a unit that neither its die nor its row can supply (R575) cannot be read
    let bad := m.reads.1 == 3 && s.t3Unread m.part m.serial
    if ok && !bad then
      if m.why = 6 ∨ (m.dstTier = 3 ∧ !s.t3Done m.part m.serial 0) ∨ (m.reads.1 ≤ 1 ∧ m.dstTier ≤ 1 ∧ !s.diesJoined m.reads.2 m.dstDie) then .next s
      else .next (s.publishMove m).settleMoves
    else
      let s0 := if bad then s else s.crcError m
      let other := (s.copiesOf m.part m.serial).find? fun k => k.good && !(k.tier == m.srcTier && k.die == m.srcDie)
      match m.attempt, other with
      | 0, some k =>
        let ms := upd (fun x => x.id == move) (fun (x : Move) => { x with attempt := 1, again := some (k.tier, k.die) }) s0.tier.moves
        let s1 : State := { s0 with tier := { s0.tier with moves := ms } }
        -- a new attempt writes its T3 copy anew
        .next (if m.dstTier = 3 then (s1.t3Drop m.part m.serial 0).t3Write m.part m.serial 0 m.bytes
          else if k.tier ≤ 1 ∧ m.dstTier ≤ 1 then s1.openFlow m.cmd (if m.cmd = 0 then m.id else 0) k.die m.dstDie else s1)
      | _, _ => .next (s0.moveFailed m).settleMoves

/-- ADMIT_WAIT_EXPIRE (R228): the waiting command completes NO_SPACE. A copy that waits for another move of its page (R207), or for its
reference state (R33), waits on. -/
def execAdmitWaitExpire (wait : Nat) (s : State) : Host.Outcome State Fault Refusal :=
  match s.tier.waits.find? fun w => w.id == wait with
  | none => .next s
  | some w =>
    if w.why = 7 ∨ (s.moveOf w.part w.serial).isSome ∨ !s.pageKnown w.part w.serial then .next s else
    let s1 := s.reach w.until_
    let s2 := { s1 with tier := { s1.tier with waits := del (fun x => x.id == wait) s1.tier.waits } }.raise Ev.ADMIT_REFUSED w.part
    if w.cmd = 0 then .next s2 else .next ((s2.dropWork w.cmd).fail w.cmd St.noSpace)

/-! ### Cadence and prefetch (R230–R237) -/

def State.cadence (s : State) (p n : Nat) : Option Cadence := s.tier.cadences.find? fun g => g.part == p && g.num == n

def State.setCadence (s : State) (g : Cadence) : State :=
  { s with tier := { s.tier with cadences := put (fun x => x.part == g.part && x.num == g.num) g s.tier.cadences } }

/-- The group of a sequence. -/
def State.groupOfSeq (s : State) (p q : Nat) : Option Cadence := s.tier.cadences.find? fun g => g.part == p && g.members.contains q

/-- The group predicts (R233, R236). -/
def Cadence.active (g : Cadence) : Bool := !g.suspended && g.period != 0 && !g.offsets.isEmpty

/-- The prefetches of the group's next step (R233): each layer whose offset is learned, for each member, in place of the group's
earlier ones. -/
def State.predict (s : State) (g : Cadence) : State :=
  let rest := s.tier.prefetches.filter fun q => !(q.part == g.part && q.group == g.num)
  let new := if !g.active || s.gp F.TIER_CTRL_PREFETCH_EN g.part == 0 then []
    else g.offsets.flatMap fun o =>
      let use := g.stepT + g.period + o.2
      g.members.filterMap fun q => (s.seq g.part q).map fun x =>
        ({ part := g.part, seq := q, layer := o.1, first := 0, count := x.length, issueT := use - s.gp F.PREFETCH_LEAD g.part * 1000
           useT := use, t0 := false, qg := g.qg, group := g.num } : Prefetch)
  { s with tier := { s.tier with prefetches := rest ++ new } }

/-- o + (v − o) × 2^(−a), rounded down to whole ns: the spec gives the weight, not the rounding (DESIGN CHOICE, assumption 85). -/
def learn (o v a : Nat) : Nat := (((o : Int) + ((v : Int) - (o : Int)) / (2 ^ a : Int))).toNat

/-- ALPHA in force: 0 is treated as 1 (R232). -/
def State.cadenceAlpha (s : State) (p : Nat) : Nat := max 1 (s.gp F.CADENCE_CFG_ALPHA p)

/-- A new step of a group starts (R232, R236). The learned period and offsets start at the first interval and the first offset seen (DESIGN
CHOICE, assumption 85). -/
def State.stepStart (s : State) (g : Cadence) (q : Nat) : State :=
  let a := s.cadenceAlpha g.part
  let first := g.stepT = 0 ∨ s.now < g.stepT
  let iv := s.now - g.stepT
  let due := g.stepT + g.period
  let bad := !first && g.period != 0 &&
    decide (((s.now : Int) - (due : Int)).natAbs * 100 > s.gp F.CADENCE_CFG_LOSS_PCT g.part * g.period)
  let misses := if first ∨ g.period = 0 then g.misses else if bad then g.misses + 1 else 0
  let hits := if first ∨ g.period = 0 then g.hits else if bad then 0 else g.hits + 1
  let lost := !g.suspended && decide (misses ≥ 4)
  let period := if first then g.period else if g.period = 0 then iv else learn g.period iv a
  let g1 : Cadence := { g with
    period := period
    stepT := s.now
    misses := misses
    hits := hits
    suspended := if lost then true else if hits ≥ 4 then false else g.suspended
    seen := [q]
    offsets := alSet 0 0 g.offsets
    layersSeen := [0] }
  let s1 := s.setCadence g1
  (if lost then s1.raise Ev.CADENCE_LOST g.part else s1).predict g1

/-- An attention command or DELIVER on a layer of a sequence has arrived (R232). A new step begins with layer 0 of a member that this step has
seen already, or once another layer has been seen (DESIGN CHOICE, assumption 73). -/
def State.cadenceSee (s : State) (p q layer : Nat) : State :=
  match s.groupOfSeq p q with
  | none => s
  | some g =>
    if layer = 0 ∧ (g.seen.isEmpty || g.seen.contains q || g.layersSeen.any (· != 0)) then s.stepStart g q
    else if g.seen.isEmpty then s
    else
      let off := s.now - g.stepT
      let offs := if g.layersSeen.contains layer then g.offsets
        else match alGet layer g.offsets with
          | some o => alSet layer (learn o off (s.cadenceAlpha p)) g.offsets
          | none => alSet layer off g.offsets
      s.setCadence { g with
        seen := if g.seen.contains q then g.seen else g.seen ++ [q]
        layersSeen := if g.layersSeen.contains layer then g.layersSeen else g.layersSeen ++ [layer]
        offsets := offs }

/-- The pages of a prefetch that have no T0 or T1 copy are requested (R228, R234, R738). -/
def State.fetchAhead (s : State) (x : Seq) (layer lo n useT qg : Nat) (t0 : Bool) : State :=
  (x.layerPages layer lo n).foldl (fun (a : State) k =>
    let p := k.1
    let have_ := if t0 then (a.copiesOf p k.2).any fun c => c.tier == 0 else a.near p k.2
    if have_ then a
    else match a.stackFor p k.2 (x.id % 256) with
      | some d => a.softMove p k.2 (if t0 then 0 else 1) d false 1 useT qg none
      | none => a.bumpP F.PREFETCH_SKIPPED p) s

/-- A read of a layer of a sequence without an active prediction prefetches the layers after it (R237). -/
def State.seqPrefetch (s : State) (p q layer lo n qg : Nat) : State :=
  let active := (s.groupOfSeq p q).elim false fun g => g.active
  match s.seq p q with
  | some x =>
    if active || s.gp F.TIER_CTRL_SEQ_PREFETCH_EN p == 0 then s
    else ((List.range (s.gp F.TIER_CTRL_SEQ_PREFETCH_DEPTH p)).map fun i => layer + 1 + i).foldl (fun (a : State) l =>
      if l < x.lens.length then a.fetchAhead x l lo n 0 qg false else a) s
  | none => s

/-- PREFETCH_ISSUE (R233): the pending prefetches of a partition go out in ascending order of their bounds; the PREFETCH hook
decides what they do (R738). -/
def execPrefetchIssue (part seq layer : Nat) (s : State) : Host.Outcome State Fault Refusal :=
  let mine := s.tier.prefetches.filter fun q => q.part == part && !s.paused 0x0B 0 && s.gp F.TIER_CTRL_PREFETCH_EN part == 1
  let first := argMin fun (q : Prefetch) => ((q.issueT : Nat) : Int)
  match first mine, first (mine.filter fun q => q.seq == seq && q.layer == layer) with
  | some a, some q =>
    if a.issueT < q.issueT then .next s
    else
      let s1 : State := { s with tier := { s.tier with prefetches := s.tier.prefetches.filter (· != q) } }
      let go := fun (b : State) (v : Nat) => match b.seq part seq with
        | some x => b.fetchAhead x q.layer q.first q.count q.useT q.qg (q.t0 || v == 1)
        | none => b
      match s1.hookBy part 5 with
      | .fallback => .next (go (s1.hookCount part 5) 0)
      | .shipped v => .next (go (s1.hookCount part 5) v)
      | .program =>
        match s1.hookRaise 5 part 8 [if q.group < 256 then q.group else 0xFFFF, seq, layer, q.first, q.count, q.useT,
            if q.t0 then 1 else 0] 0 q.qg with
        | (s2, true) => .next s2
        | (s2, false) => .next (go s2 0)
  | _, _ => .next s

/-- PROTECT_EXPIRE (R234). -/
def execProtectExpire (part serial tier die : Nat) (s : State) : Host.Outcome State Fault Refusal :=
  match s.copyAt part serial tier die with
  | some k =>
    if k.protUntil = 0 then .next s
    else .next ((s.reach k.protUntil).setCopy part serial tier die fun y => { y with protUntil := 0 })
  | none => .next s

/-- PIN_EXPIRE (R209). -/
def execPinExpire (part serial tier die : Nat) (s : State) : Host.Outcome State Fault Refusal :=
  match s.copyAt part serial tier die with
  | some k =>
    if k.pinUntil = 0 then .next s
    else .next ((s.reach k.pinUntil).setCopy part serial tier die fun y => { y with pinUntil := 0 })
  | none => .next s

/-- One near copy of a page is pinned for PIN_MAX_MS (R478): the one pinned longest, else the fastest. -/
def State.pinNear (s : State) (p serial : Nat) : State :=
  let t := s.now + s.gp F.PIN_MAX_MS p * 1000000
  let near := (s.copiesOf p serial).filter fun c => c.tier ≤ 1 && c.good
  match argMin (fun (c : Copy) => ((c.tier : Nat) : Int) - 2 * (c.pinUntil : Int)) near with
  | some c => s.setCopy p serial c.tier c.die fun y => { y with pinUntil := max y.pinUntil t }
  | none => s

/-- PIN_RENEW (R478): the pins of the pages a window maps, every PIN_MAX_MS / 2. -/
def execPinRenew (part lease : Nat) (s : State) : Host.Outcome State Fault Refusal :=
  match s.cxl.leases.find? fun l => l.part == part && l.num == lease with
  | some l =>
    let pins := l.slots.flatMap fun w => ((s.copiesOf (hPart w.handle) (hSerial w.handle)).filter fun c => c.pinUntil != 0).map fun
      (c : Copy) => c.pinUntil
    let s1 := s.reach (maxBy id pins - s.gp F.PIN_MAX_MS part * 500000)
    .next (l.slots.foldl (fun (a : State) w => a.pinNear (hPart w.handle) (hSerial w.handle)) s1)
  | none => .next s

/-! ### Hints (R230, R231) -/

/-- A HINT of a kind, started and not complete. -/
def State.hintOf (s : State) (c kind : Nat) : Option Cmd := (s.running c .hint).bind fun x => if x.f 0x18 1 = kind then some x else none

/-- What a later hint on some pages leaves of an earlier NEED, whatever sequence named it (R231): the other pages. -/
def State.outside (s : State) (ks : List (Nat × Nat)) (q : Prefetch) : List Prefetch := if q.group = 256 then s.without ks q else [q]

/-- Pages of a range are needed at a time (R230, R231): their prefetches replace what earlier hints say of the same layers and
positions. -/
def State.needHint (s : State) (p : Nat) (y : Seq) (ls : List Nat) (lo n t qg : Nat) (t0 : Bool) : State :=
  let new := ls.map fun l =>
    ({ part := p, seq := y.id, layer := l, first := lo, count := n, issueT := t - s.gp F.PREFETCH_LEAD p * 1000, useT := t
       t0 := t0, qg := qg, group := 256 } : Prefetch)
  let ks := ls.flatMap fun l => y.layerPages l lo n
  let rest := s.tier.prefetches.flatMap (s.outside ks)
  -- a NEED replaces a COLD on its pages
  let s1 := ks.foldl (fun (a : State) k => a.setPage k.1 k.2 fun z => { z with coldUntil := 0 }) s
  { s1 with tier := { s1.tier with prefetches := rest ++ new } }

/-- The scores of the pages of a range read as 0 until a time (R230); earlier NEEDs of those pages end (R231). -/
def State.coldHint (s : State) (y : Seq) (lo n t : Nat) : State :=
  let ks := s.pagesOf (y.leavesIn lo n)
  let s1 := { s with tier := { s.tier with prefetches := s.tier.prefetches.flatMap (s.outside ks) } }
  ks.foldl (fun (a : State) k => a.setPage k.1 k.2 fun z => { z with coldUntil := t, coldSeq := y.id }) s1

/-- HINT_NEED (R230, R231, R233). It is recorded while PREFETCH_EN is clear too, and schedules nothing until the bit is set. -/
def execHintNeed (c : Nat) (s : State) : Host.Outcome State Fault Refusal :=
  match s.hintOf c 0 with
  | none => .next s
  | some x =>
    match s.seqFor x.part x.seq x.uid with
    | .error st => .next (s.fail c st)
    | .ok (y, _) =>
      let span := max 1 (x.f 0x24 2)
      let lo := x.f 0x1C 4
      let n := x.f 0x20 4
      if x.layer + span > y.lens.length then .next (s.fail c St.badCmd)
      else
        let t0 := bit (x.f 0x19 1) 0
        let ls := (List.range span).map (x.layer + ·)
        let need := ls.flatMap fun l => (y.layerPages l lo n).filter fun k =>
          if t0 then !(s.copiesOf k.1 k.2).any fun (z : Copy) => z.tier == 0 else !s.near k.1 k.2
        let bytes := if s.gp F.TIER_CTRL_PREFETCH_EN x.part = 0 then 0 else sumBy (fun k => (s.pageArgs k.1 k.2).2) need
        .next ((s.needHint x.part y ls lo n (x.f 0x28 8) x.qg t0).finish c St.ok bytes 0)

/-- HINT_COLD (R230). -/
def execHintCold (c : Nat) (s : State) : Host.Outcome State Fault Refusal :=
  match s.hintOf c 1 with
  | none => .next s
  | some x =>
    match s.seqFor x.part x.seq x.uid with
    | .error st => .next (s.fail c st)
    | .ok (y, _) => .next ((s.coldHint y (x.f 0x1C 4) (x.f 0x20 4) (x.f 0x28 8)).finish c St.ok 0 0)

/-- Coded bytes the predictions of a group will fetch. -/
def State.groupBytes (s : State) (g : Cadence) : Nat :=
  sumBy (fun (q : Prefetch) => match s.seq q.part q.seq with
    | some y => sumBy (fun k => if s.near k.1 k.2 then 0 else (s.pageArgs k.1 k.2).2) (y.layerPages q.layer q.first q.count)
    | none => 0) (s.tier.prefetches.filter fun q => q.part == g.part && q.group == g.num)

/-- A group's period and the next step's start are set, learned offsets stay (R230, R232, R236). -/
def State.cadenceHint (s : State) (p n period layers next qg : Nat) : State :=
  let old := (s.cadence p n).getD { part := p, num := n }
  let g : Cadence := { old with
    period := period
    layers := layers
    stepT := next - period
    qg := qg
    misses := 0
    hits := 0
    suspended := false
    seen := []
    layersSeen := [] }
  (s.setCadence g).predict g

/-- HINT_CADENCE (R230, R232, R236). -/
def execHintCadence (c : Nat) (s : State) : Host.Outcome State Fault Refusal :=
  match s.hintOf c 2 with
  | none => .next s
  | some x =>
    let n := x.f 0x1A 2
    if n > 255 then .next (s.fail c St.badCmd)
    else
      let s1 := s.cadenceHint x.part n (x.f 0x30 8) (x.f 0x1C 4) (x.f 0x28 8) x.qg
      .next (s1.finish c St.ok (((s1.cadence x.part n).map s1.groupBytes).getD 0) 0)

/-- HINT_BATCH (R85, R135, R230, R231, R233): the members are replaced. A table that cannot be read is one that fails its check: a HINT
fails only with BAD_CMD or PERM. It names no layer: its entries' ranges are held against the sequence length (DEDUCED), and a group that no
CADENCE hint has made is made by it (DESIGN CHOICE, both assumption 85). -/
def execHintBatch (c : Nat) (s : State) : Host.Outcome State Fault Refusal :=
  match s.hintOf c 3 with
  | none => .next s
  | some x =>
    let n := x.f 0x1A 2
    match x.buffers [x.tableAddr] with
    | none => .next s
    | some false => .next (s.fail c St.badCmd)
    | some true =>
      match (x.bufAll x.tableAddr).bind lenTable with
      | none => .next (s.fail c St.badCmd)
      | some es =>
        let ids := es.map fun (e : LenEnt) => e.seq
        let ys := es.map fun (e : LenEnt) => (e, s.seq x.part e.seq)
        -- R135 in its order: openness, then ranges; R85
        let bad := fun (e : LenEnt × Option Seq) => match e.2 with
          | some y => decide (y.length < e.1.first + e.1.count) || !(match s.geom x.part with | some ge => ge.id == y.geom | none => false)
          | none => true
        match ys.findIdx? fun e => match e.2 with | some y => !y.openTo c | none => true with
        | some i => .next (s.finish c St.miss 0 i)
        | none =>
        if n > 255 ∨ ys.any bad then .next (s.fail c St.badCmd)
        else
          let cs := s.tier.cadences.map fun (g : Cadence) =>
            if g.part = x.part then { g with members := g.members.filter fun q => !ids.contains q } else g
          -- what another group predicted for a member that leaves it goes
          let ps := s.tier.prefetches.filter fun q => !(q.part == x.part && q.group < 256 && q.group != n && ids.contains q.seq)
          let s1 : State := { s with tier := { s.tier with cadences := cs, prefetches := ps } }
          let old := (s1.cadence x.part n).getD { part := x.part, num := n }
          let g : Cadence := { old with members := ids, qg := x.qg }
          let s2 := (s1.setCadence g).predict g
          .next (s2.finish c St.ok (s2.groupBytes g) 0)

/-- One member leaves a group; its protections end (R230). -/
def State.leaveHint (s : State) (g : Cadence) (y : Seq) : State :=
  let p := g.part
  let ns := s.pagesOf (y.leaves.map fun (e : Nat × Nat) => e.2)
  let cs := upd (fun (k : Copy) => ns.contains (k.part, k.serial)) (fun (k : Copy) => { k with protUntil := 0 }) s.tier.copies
  let s1 : State := { s with tier := { s.tier with
    copies := cs
    prefetches := s.tier.prefetches.filter fun q => !(q.part == p && q.group == g.num && q.seq == y.id) } }
  s1.setCadence { g with members := g.members.filter (· != y.id), seen := g.seen.filter (· != y.id) }

/-- HINT_LEAVE (R230). For a sequence that is no member, or a group that is not there, the spec names no status: BAD_CMD (DESIGN CHOICE, assumption
85). -/
def execHintLeave (c : Nat) (s : State) : Host.Outcome State Fault Refusal :=
  match s.hintOf c 4 with
  | none => .next s
  | some x =>
    match s.seqFor x.part x.seq c with
    | .error st => .next (s.fail c st)
    | .ok (y, _) =>
      match s.cadence x.part (x.f 0x1A 2) with
      | some g =>
        if !g.members.contains y.id then .next (s.fail c St.badCmd) else .next ((s.leaveHint g y).finish c St.ok 0 0)
      | none => .next (s.fail c St.badCmd)

/-! ### Destage and saved granules (R214, R598) -/

/-- Leaves of a partition counted within the D budget and not yet being destaged. -/
def State.countedLeaves (s : State) (p : Nat) : List Leaf :=
  s.sq.leaves.filter fun l => l.part == p && (List.range l.layers).any fun i =>
    s.tier.copies.any (fun c => c.part == p && c.serial == l.serial + i && c.tier == 1 && c.backing && !c.leaving &&
      (match s.page p c.serial with | some x => x.cls == 1 | none => false)) && (s.moveOf p (l.serial + i)).isNone

def State.overBudget (s : State) : Bool := decide (s.dTotal > s.plp.budget * 2 ^ 20)

/-- A counted leaf is written to T3; a page that does not fit is tried again at its next turn (R228). -/
def State.destage (s : State) (l : Leaf) : State :=
  (List.range l.layers).foldl (fun (a : State) i =>
    let c := a.copiesOf l.part (l.serial + i)
    match c.find? fun k => k.backing && k.tier == 1 with
    | some k => (a.askMove l.part (l.serial + i) 3 15 false true 6 0 0 0 (some (1, k.die))).1
    | none => a) s

/-- The item the DESTAGE variant takes next: oldest seal commit point, or largest stored bytes (R743). -/
def State.destageNext (s : State) (p v : Nat) : Option Leaf :=
  let size := fun (l : Leaf) => sumBy (fun (x : Page) => x.stored) (s.leafPages l)
  argMin (fun (l : Leaf) => if v = 1 then -((size l : Nat) : Int) else ((l.sealT : Nat) : Int)) (s.countedLeaves p)

/-- DESTAGE_WRITE (R214, R598, R738): the next counted leaf of the partition is written to T3. -/
def execDestageWrite (part serial : Nat) (s : State) : Host.Outcome State Fault Refusal :=
  if s.paused 0x0B 0 ∨ (s.gp F.TIER_CTRL_AUTO_DESTAGE part = 0 ∧ !s.overBudget) then .next s
  else
    let go := fun (a : State) (v : Nat) => match a.destageNext part v with
      | some l => if l.serial = serial then a.destage l else s
      | none => s
    match s.hookBy part 6 with
    | .fallback => .next (go (s.hookCount part 6) 0)
    | .shipped v => .next (go (s.hookCount part 6) v)
    | .program =>
      if s.hookBusy 6 part 0 then .next s
      else match s.destageNext part 0 with
        | none => .next s
        | some l =>
          match s.hookRaise 6 part 8 [s.dTotal / 2 ^ 20, s.plp.budget, l.handle] 0 0 with
          | (s1, true) => .next s1
          | (s1, false) => .next (s1.destage l)

/-- DESTAGE_COMMIT (R214): once the whole leaf is in T3 its T3 copies become the backing copies, the T1 copies stay as cached ones. -/
def execDestageCommit (part serial : Nat) (s : State) : Host.Outcome State Fault Refusal :=
  match s.sq.leaves.find? fun l => l.part == part && l.serial == serial with
  | none => .next s
  | some l =>
    let ms := s.tier.moves.filter fun m => m.part == part && m.why == 6 && l.serial ≤ m.serial && m.serial < l.serial + l.layers
    let left := (List.range l.layers).any fun i =>
      (s.copiesOf part (l.serial + i)).any (fun k => k.backing && k.tier == 1) && !ms.any fun m => m.serial == l.serial + i
    if ms.isEmpty ∨ left ∨ !(ms.all fun m => s.t3Done part m.serial 0) then .next s
    else .next (ms.foldl (fun (a : State) m => a.publishMove m) s).settleMoves

/-- GRANULE_SAVE (R598): while the D total exceeds the budget and no sealed leaf is left to destage, the oldest counted granule is
saved to flash. -/
def execGranuleSave (part seq layer first : Nat) (s : State) : Host.Outcome State Fault Refusal :=
  match s.gran part seq layer first with
  | none => .next s
  | some g =>
    let counted := s.sq.granules.filter fun x => x.counted
    let oldest := counted.all fun x => decide (g.time ≤ x.time)
    let sealed := (List.range 64).any fun p => !(s.countedLeaves p).isEmpty
    if s.paused 0x07 0 || !s.overBudget || !g.counted || !oldest || sealed then .next s
    else
      let gs := upd (fun x => x.part == part && x.seq == seq && x.layer == layer && x.first == first)
        (fun (x : Granule) => { x with flash := true, savedRows := x.rows.length }) s.sq.granules
      .next ({ s with sq := { s.sq with granules := gs } }.charge part 0 .t3Wr g.slot)

end Sys2Proof.Machine
end

