-- ==== Sys2Proof/Machine/AttnOps.lean ====
section
/-! DEFINITION. What attention and training commands read, plan and place (R132, R245–R248, R262–R274, R282–R284): the snapshot a
command takes when it starts, its items and tile lists, its runs and their dies, the bytes a run streams. -/

namespace Sys2Proof.Machine

def State.attn (s : State) (c : Nat) : Option Attn := s.att.attns.find? fun a => a.cmd == c

def State.setAttn (s : State) (c : Nat) (f : Attn → Attn) : State :=
  { s with att := { s.att with attns := upd (fun a => a.cmd == c) f s.att.attns } }

def State.view (s : State) (p n : Nat) : Option View := s.att.views.find? fun v => v.part == p && v.num == n

/-- A view as a command that names it finds it: one still being made is not visible to it (R380). -/
def State.viewMade (s : State) (p n : Nat) : Option View := (s.view p n).filter fun v => v.made == 0

def State.setView (s : State) (p n : Nat) (f : View → View) : State :=
  { s with att := { s.att with views := upd (fun v => v.part == p && v.num == n) f s.att.views } }

/-- A started, live command names the view (R298). -/
def State.viewInUse (s : State) (p n : Nat) : Bool :=
  (s.att.attns.any fun a => a.part == p && a.view == n) || s.q.cmds.any fun x => x.part == p && x.st == .started && x.viewNamed == n

/-! ### The snapshot (R132, R265) -/

/-- Consecutive positions put together: first and count. -/
def spansOf (ps : List Nat) : List (Nat × Nat) :=
  (ps.foldl (fun (a : List (Nat × Nat)) i => match a with
    | (f, n) :: l => if f + n = i then (f, n + 1) :: l else (i, 1) :: a
    | [] => [(i, 1)]) []).reverse

/-- Segments of positions [lo, lo + n) over leaves of T positions and staged positions. -/
def segments (leaves : List (Nat × Nat)) (T lo n : Nat) (staged : Nat → Bool) : List (Nat × Nat × Nat) :=
  if n = 0 then []
  else (List.range ((lo + n - 1) / T + 1 - lo / T)).flatMap fun i =>
    let j := lo / T + i
    let a := max lo (j * T)
    let b := min (lo + n) ((j + 1) * T)
    match leaves.find? fun e => e.1 == j with
    | some e => [(a, b - a, e.2)]
    | none => (spansOf (((List.range (b - a)).map (· + a)).filter staged)).map fun r => (r.1, r.2, 0)

/-- A sequence's part of an attention command, and the granules it reads. -/
def State.snapshot (s : State) (y : Seq) (layer lo n qpos : Nat) : AttSeq × List Granule :=
  let gs := (s.gransOf y.part y.id layer).filter fun g => decide (g.first + 16 > lo) && decide (g.first < lo + n)
  let staged := fun (i : Nat) => gs.any fun g => g.first == i / 16 * 16 && decide (i % 16 < g.rows.length) && !y.absent i
  ({ seq := y.id, lo := lo, count := n, qpos := qpos, window := if y.ring then some y.window else none
     segs := segments y.leaves (orderT y.order) lo n staged }, gs)

def AttSeq.pages (q : AttSeq) (layer : Nat) : List (Nat × Nat) :=
  (q.segs.filter fun g => g.2.2 != 0).map fun g => (hPart g.2.2, hSerial g.2.2 + layer)

/-- The parts of a command, in entry order: sequence, first position, count, first query position. None while its length table is read;
a status and RESULT1 where it is refused (R246, R135, R287). -/
def State.attnParts (s : State) (x : Cmd) (layer : Nat) : Option (Except (Nat × Nat) (List (Seq × Nat × Nat × Nat))) :=
  let p := x.part
  let bad : Option (Except (Nat × Nat) (List (Seq × Nat × Nat × Nat))) := some (.error (St.badCmd, 0))
  let inRange := fun (y : Seq) (lo n : Nat) => decide (lo + n ≤ y.lens.getD layer 0)
  if x.batch then
    if !x.hasBuf (x.f 0x18 8) then none
    else match x.bufAll (x.f 0x18 8) with
      | none => some (.error (St.poison, 0))
      | some b =>
        match lenTable b with
        | none => bad
        | some es =>
          if b.length < 16 + 20 * es.length then bad
          else
            let open_ := fun (e : LenEnt) => match s.seq p e.seq with | some y => y.openTo x.uid | none => false
            match es.findIdx? fun e => !open_ e with
            | some i => some (.error (St.miss, i))
            | none =>
              let ys := es.zipIdx.filterMap fun (e : LenEnt × Nat) => (s.seq p e.1.seq).map fun y =>
                (y, e.1.first, e.1.count, rd b (16 + 16 * es.length + 4 * e.2) 4)
              let geomOk := fun (y : Seq) => match s.geom p with | some ge => y.geom == ge.id | none => false
              if ys.all fun e => geomOk e.1 && inRange e.1 e.2.1 e.2.2.1 then some (.ok ys) else bad
  else match s.seqFor p x.seq x.uid with
    | .error st => some (.error (st, 0))
    | .ok (y, _) =>
      let fwd := x.is .fwd
      let r := x.f 0x18 8
      let lo := if fwd then bits r 23 0 else x.f 0x18 4
      let n := if fwd then bits r 48 24 else x.f 0x1C 4
      if inRange y lo n then some (.ok [(y, lo, n, x.f 0x20 4)]) else bad

/-- QTOK of a command (R386). -/
def Cmd.qtok (x : Cmd) : Nat := if x.is .fwd then bits (x.f 0x18 8) 60 49 else x.f 0x24 2

def State.detOf (s : State) (x : Cmd) : Bool := x.fDet || s.gp F.ATT_CTRL_DET_FORCE x.part == 1

/-- What a decode, chunk or sparse command fixes when it starts, or a forward that creates a view (R132, R245, R246). -/
def State.planAttn (s : State) (x : Cmd) (kind : Nat) : Option (Except (Nat × Nat) Attn) :=
  let p := x.part
  match s.geom p with
  | none => some (.error (St.badCmd, 0))
  | some ge =>
    let limit := if kind = 1 ∨ kind = 3 then 2048 else 16
    if x.layer ≥ ge.layers.length ∨ x.qtok = 0 ∨ x.qtok > limit then some (.error (St.badCmd, 0))
    else match s.attnParts x x.layer with
      | none => none
      | some (.error e) => some (.error e)
      | some (.ok ps) =>
        let snaps := ps.map fun e => s.snapshot e.1 x.layer e.2.1 e.2.2.1 e.2.2.2
        let sp := if x.approx then (s.gp F.FB_SPARSE_TOPN p, s.gp F.FB_SPARSE_SINK p, s.gp F.FB_SPARSE_RECENT p)
          else (x.f 0x26 1, x.f 0x27 1 % 16, x.f 0x27 1 / 16)
        some (.ok { cmd := x.uid, part := p, kind := kind, layer := x.layer, seqs := snaps.map (·.1), qtok := x.qtok, det := s.detOf x
                    topn := sp.1, sink := sp.2.1, recent := sp.2.2
                    pages := (snaps.flatMap fun q => q.1.pages x.layer).eraseDups, grans := snaps.flatMap (·.2) })

/-! ### Items (R262, R266, R282–R284) -/

/-- Query rows of one KV head of a sequence. -/
def Attn.headRows (a : Attn) (g : Geom) : Nat := a.qtok * g.group

/-- The items of a command whose head k of sequence i attends the segments `keep i k`. Row blocks follow in token order. -/
def Attn.itemsFor (a : Attn) (g : Geom) (keep : Nat → Nat → List (Nat × Nat × Nat)) : List Item :=
  let decode := a.kind == 0 || a.kind == 2
  let n := a.headRows g
  let P := fun (h : Nat) => (g.tile a.layer decode n (if h = 0 then 16 else orderT (hOrder h))).2
  let rb := (g.tile a.layer decode n 16).1
  (List.range a.seqs.length).flatMap fun i =>
    (List.range (ceilDiv n rb)).flatMap fun b =>
      (List.range g.kvHeads).map fun k =>
        { seq := i, head := k, rowLo := b * rb, rows := min rb (n - b * rb)
          tiles := (keep i k).flatMap fun sg => (tileSpans (P sg.2.2) sg.2.1 sg.1 sg.2.1).map fun t => (t.1, t.2, sg.2.2) }

/-- The page sets of one head of a sequence (R282–R284): the segments it attends, and the pages selected. -/
def State.sparsePick (s : State) (g : Geom) (a : Attn) (q : AttSeq) (i head : Nat) (queries : Bytes) :
    List (Nat × Nat × Nat) × List (Nat × Nat × Nat) :=
  let m := g.mods a.layer
  let rows := g.queryRows queries (i * a.qtok) q.qpos head 0 (a.headRows g)
  let pages := q.segs.filter fun sg => sg.2.2 != 0
  let fixed := pages.take a.sink ++ pages.drop (pages.length - a.recent)
  let hidden := fun (sg : Nat × Nat × Nat) =>
    rows.all fun r => (List.range sg.2.1).all fun t => m.masked q.window r.pos (sg.1 + t)
  let cands := pages.filter fun sg => !fixed.contains sg && !hidden sg
  let chosen := if a.topn ≥ cands.length then cands
    else (sortBy (fun (e : Int × (Nat × Nat × Nat)) => -e.1) (cands.map fun sg =>
      let pg := s.page (hPart sg.2.2) (hSerial sg.2.2 + a.layer)
      let T := orderT (hOrder sg.2.2)
      (fpKey (g.pageBound m (pg.bind (·.summary)) head (sg.1 / T * T) T rows), sg))).map (·.2) |>.take a.topn
  (q.segs.filter fun sg => sg.2.2 == 0 || fixed.contains sg || chosen.contains sg, chosen)

/-- The items of a command, given its queries; for sparse attention also what was selected. -/
def State.attnItems (s : State) (g : Geom) (a : Attn) (queries : Bytes) : Attn :=
  if a.kind = 2 then
    let picks := a.seqs.zipIdx.map fun (q : AttSeq × Nat) => (List.range g.kvHeads).map fun k => s.sparsePick g a q.1 q.2 k queries
    let chosen := picks.flatMap fun l => l.flatMap (·.2)
    { a with
      items := a.itemsFor g fun i k => ((picks.getD i []).getD k ([], [])).1
      picked := (chosen.map fun sg => (hPart sg.2.2, hSerial sg.2.2 + a.layer)).eraseDups
      selected := chosen.length }
  else { a with items := a.itemsFor g fun i _ => (a.seqs[i]?.map (·.segs)).getD [] }

/-! ### Keys, copies and what a run streams -/

/-- The positions of a tile with their decoded key and value channels (R254, R265); none where its page is gone. -/
def State.tileKeys (s : State) (g : Geom) (a : Attn) (seq head first n h : Nat) : Option (List KeyVal) :=
  let l := g.layer a.layer
  if h = 0 then
    some ((List.range n).map fun i =>
      let t := first + i
      let row := ((a.grans.find? fun x => x.seq == seq && x.first == t / 16 * 16).bind fun x => x.rows[t % 16]?).getD []
      (t, headVals g l head row))
  else (s.page (hPart h) (hSerial h + a.layer)).map fun pg =>
    (((imageRows g a.layer (orderT pg.order) pg.image).drop (first - pg.first)).take n).zipIdx.map fun (r : List Bytes × Nat) =>
      (first + r.2, headVals g l head r.1)

/-- The work on a page need not wait (R205): it has a T0 or T1 copy, or its leaf was freed since the command started and the copy held
is read. The base page of a delta page is work too. -/
def State.pageReady (s : State) (p serial : Nat) : Bool :=
  (s.decodeSet p serial).all fun k => s.near k.1 k.2 || ((s.copiesOf k.1 k.2).isEmpty && s.anyCopy k.1 k.2)

/-- Demand fetches of the pages of an attention command that its runs still need (R205). -/
def State.fetchFor (s : State) (c : Nat) : State :=
  match s.attn c with
  | none => s
  | some a =>
    let left := s.part.runs.filter fun r => r.cmd == c && r.stage != 2
    let need := left.flatMap fun (r : Run) => match a.items[r.item]? with
      | some it =>
        let ts := if a.kind = 4 then it.tiles else (it.tiles.drop r.first).take r.count
        -- the length-table entry whose work needs the page names the sequence (R810)
        let q := (a.seqs[it.seq]?.map (·.seq)).getD 0
        ts.filterMap fun t => if t.2.2 = 0 then none else some ((hPart t.2.2, hSerial t.2.2 + a.layer), q % 256)
      | none => []
    need.eraseDups.foldl (fun (b : State) (e : (Nat × Nat) × Nat) =>
      let k := e.1
      if b.pageReady k.1 k.2 then b
      else (b.setAttn c fun y => { y with demand := if y.demand.contains k then y.demand else y.demand ++ [k] }).demandAll
        k.1 k.2 e.2 c 0) s

/-- Home die of the tiles over a source (R270): that of the T0 or T1 copy; for a page without one, of the copy to come; for staging,
the staging home. -/
def State.homeOf (s : State) (a : Attn) (i h : Nat) : Nat :=
  let seq := (a.seqs[i]?.map (·.seq)).getD 0
  if h = 0 then ((a.grans.find? fun x => x.seq == seq).map (·.home)).getD 0
  else
    let p := hPart h
    let serial := hSerial h + a.layer
    let cs := (s.copiesOf p serial).filter fun c => c.tier ≤ 1 && c.good
    match argMin (fun (c : Copy) => ((c.tier : Nat) : Int)) cs with
    | some c => c.die
    | none =>
      match s.moveOf p serial with
      | some m => if m.dstTier ≤ 1 then m.dstDie else (s.stackFor p serial (seq % 256)).getD 0
      | none => (s.stackFor p serial (seq % 256)).getD 0

/-- Cores of a partition on a die (R267). -/
def State.coresOn (s : State) (p d : Nat) : Nat := ((s.coresOf p).filter fun c => c / 320 == d).length

/-- The die a run of a home die is sent to (R270): the home where the partition has cores, else the die with most of them. -/
def State.sendDie (s : State) (p home : Nat) : Nat :=
  if s.coresOn p home ≠ 0 then home
  else (argMin (fun (d : Nat) => -((s.coresOn p d : Nat) : Int)) (List.range 8)).getD home

/-- The cluster whose merge unit serves cluster cl: its own, or the next of the die whose unit works (R663). -/
def State.mergeAt (s : State) (cl : Nat) : Nat :=
  (((List.range 10).map fun i => cl / 10 * 10 + (cl % 10 + i) % 10).find? fun k =>
    (s.hw.clusters.getD k { num := k }).mergeOk).getD cl

/-- The root cluster (R32). Where the die whose stack holds most T1 bytes has no core of the partition, the spec names none: the die is taken
among those with cores of the partition (DESIGN CHOICE, assumption 78). -/
def State.rootOf (s : State) (a : Attn) : Nat :=
  let bytes := fun (d : Nat) => sumBy (·.bytes) (s.tier.copies.filter fun c =>
    c.tier == 1 && c.die == d && !c.leaving && a.pages.contains (c.part, c.serial))
  let dies := (List.range 8).filter fun d => s.coresOn a.part d != 0
  match argMin (fun (d : Nat) => -((bytes d : Nat) : Int)) dies with
  | none => 0
  | some d => s.mergeAt (((s.coresOf a.part).find? fun c => c / 320 == d).getD 0 / 32)

/-- Spans of consecutive tiles with one source: first tile, count, source. -/
def sourceSpans (tiles : List (Nat × Nat × Nat)) : List (Nat × Nat × Nat) :=
  (tiles.zipIdx.foldl (fun (a : List (Nat × Nat × Nat)) (t : (Nat × Nat × Nat) × Nat) => match a with
    | (f, n, h) :: l => if h = t.1.2.2 then (f, n + 1, h) :: l else (t.2, 1, t.1.2.2) :: a
    | [] => [(t.2, 1, t.1.2.2)]) []).reverse

/-- Load, backward and store tiles of a column (R307, R308). -/
def bwdTiles (g : Geom) (layer : Nat) (it : Item) : Nat × Nat × Nat :=
  let t := it.tiles.headD (0, 0, 0)
  let rb := (g.bwdShape layer (orderT (hOrder t.2.2))).2
  (ceilDiv (t.2.1 * g.streamBytes layer) 12288, ceilDiv it.rows rb, ceilDiv (t.2.1 * 4 * (g.headDim + g.dv)) 12288)

/-- A queue group with work becomes backlogged (R415): its virtual time is raised to the lowest of the backlogged groups. Best-effort groups have
none. -/
def State.wakeGroup (s : State) (p g : Nat) : State :=
  let waits := fun (n : Nat) => s.part.runs.any fun r => r.part == p && r.qg == n && r.stage != 2
  let here := fun (x : Group) => x.part == p && x.num == g
  let low := argMin (fun (x : Group) => ((x.vt : Nat) : Int)) (s.part.groups.filter fun x => x.part == p && x.num != g && s.shareOf p x.num != 0 && waits x.num)
  let old := (s.part.groups.find? here).getD { part := p, num := g }
  let new := if waits g || s.shareOf p g == 0 then old else { old with vt := max old.vt ((low.map (·.vt)).getD 0) }
  { s with part := { s.part with groups := put here new s.part.groups } }

/-- The runs of a command (R267, R270): cut from its tile lists within one page or one sequence's staging; under DET aligned powers of
two; one run for each column of a backward command. Where the partition has no core on the home die, n_d of R267 is 0: the cores of the die
its runs are sent to are taken (DESIGN CHOICE, assumption 77). -/
def State.makeRuns (s : State) (x : Cmd) (a : Attn) (g : Geom) : State :=
  let p := a.part
  let spans := a.items.zipIdx.flatMap fun (it : Item × Nat) => (sourceSpans it.1.tiles).map fun sp => (it.2, it.1, sp)
  let onDie := fun (d : Nat) => sumBy (fun (e : Nat × Item × (Nat × Nat × Nat)) => if s.homeOf a e.2.1.seq e.2.2.2.2 = d then e.2.2.2.1 else 0) spans
  let lens := (List.range 8).map fun d => max 1 (min (s.gp F.ATT_CTRL_RUN_MAX p) (ceilDiv (onDie d) (max 1 (s.coresOn p (s.sendDie p d)))))
  let pieces := spans.flatMap fun (e : Nat × Item × (Nat × Nat × Nat)) =>
    let home := s.homeOf a e.2.1.seq e.2.2.2.2
    let cuts := if a.kind = 4 then let t := bwdTiles g a.layer e.2.1; [(0, t.1 + t.2.1 + t.2.2)]
      else cutRuns a.det (lens.getD home 1) e.2.2.1 e.2.2.2.1
    cuts.map fun k => (e.1, k.1, k.2, home)
  let runs := pieces.zipIdx.map fun (e : (Nat × Nat × Nat × Nat) × Nat) =>
    { id := s.part.nextRun + e.2, cmd := x.uid, part := p, qg := x.qg, cls := if a.kind = 0 ∨ a.kind = 2 then 0 else 1
      item := e.1.1, first := e.1.2.1, count := e.1.2.2.1, lane := x.lane, home := e.1.2.2.2, die := e.1.2.2.2 : Run }
  let s1 := s.wakeGroup p x.qg
  { s1 with part := { s1.part with runs := s1.part.runs ++ runs, nextRun := s1.part.nextRun + runs.length } }

/-- Coded blocks of a page that the tiles [lo, lo + n) of one head read, each once (R264). -/
def blocksRead (g : Geom) (pg : Page) (head lo n : Nat) : List Nat :=
  let T := orderT pg.order
  let np := (headPlanes g (g.layer pg.layer)).length
  let segs := ((planeSegs g pg.layer T).drop (head * np)).take np
  (segs.flatMap fun sg =>
    let per := sg.len / T
    let b0 := (sg.start + (lo - pg.first) * per) / 4096
    let b1 := (sg.start + (lo - pg.first + n) * per - 1) / 4096
    (List.range (b1 + 1 - b0)).map (· + b0))

/-- Stored bytes and decode steps of the blocks of a page that a run reads, the base page's included (R264, R348). -/
def State.readCost (s : State) (g : Geom) (pg : Page) (bs : List Nat) : Nat × List Nat :=
  let base := s.baseOf pg
  let steps := match g.sets pg.layer with
    | some t => pageSteps g pg.layer (orderT pg.order) pg.image pg.blocks base t
    | none => []
  let size := fun (i : Nat) =>
    let b := pg.blocks.getD i ⟨0, false, 0, []⟩
    roundUp b.data.length 64 + if b.delta then ((base.bind fun y => y.2[i]?).map fun y => roundUp y.data.length 64).getD 0 else 0
  (sumBy size bs, bs.map fun i => steps.getD i 0)

/-! ### Ends -/

/-- The command leaves the attention engines with a status; a view it was creating or naming is settled (R297, R298). -/
def State.endAttn (s : State) (c status r0 r1 : Nat) : State :=
  let s1 := match s.attn c with
    | some a => if a.view = 0 ∨ status > St.approx then s else s.setView a.part a.view fun v => { v with made := 0 }
    | none => s
  ((s1.dropWork c).sweep).finish c status r0 r1

/-- Runs of a command not on a core are withdrawn; a command with no run left on a core ends with the status (R278, R423). -/
def State.stopAttn (s : State) (c status : Nat) : State :=
  let s1 : State := { s with part := { s.part with runs := del (fun r => r.cmd == c && r.stage != 2) s.part.runs } }
  if s1.part.runs.any fun r => r.cmd == c then s1 else s1.endAttn c status 0 0

/-- The command must stop at its next tile boundary: a CANCEL has reached it (R278), or its deadline has passed after its first run was
released (R423). -/
def State.attnStop (s : State) (x : Cmd) : Option Nat :=
  if x.cancelled then some St.cancelled
  else if x.released && x.deadline != 0 && decide (s.now > x.deadline) then some St.deadlineMiss else none

end Sys2Proof.Machine
end

