-- ==== Sys2Proof/Machine/AttnCmds.lean ====
section
/-! DEFINITION. The attention commands (R245–R287, R293–R299) and the merge (R274–R277): from the start of a command to its completion,
the end of a run, the arrival of a partial. -/

namespace Sys2Proof.Machine

/-! ### The result (R215, R261, R287) -/

/-- Final rows of a command in buffer order. -/
def Attn.finalRows (a : Attn) (g : Geom) : List (Nat × RowPart) :=
  sortBy (fun (e : Nat × RowPart) => ((e.1 : Nat) : Int)) (a.finals.flatMap fun f =>
    match a.items[f.1]? with
    | some it => f.2.toRows.zipIdx.map fun (r : RowPart × Nat) => (g.rowIndex (it.seq * a.qtok) it.head (it.rowLo + r.2), r.1)
    | none => [])

/-- The attention mass of a page (R215): the mean over all rows of the command, in buffer order, in FP32. -/
def Attn.pageMass (a : Attn) (g : Geom) (finals : List (Nat × RowPart)) (k : Nat × Nat) : Nat :=
  let mine := (a.stats.filter fun e => e.1 == k.1 && e.2.1 == k.2).flatMap fun e => match a.items[e.2.2.1]? with
    | some it => e.2.2.2.toRows.zipIdx.map fun (r : RowPart × Nat) => (g.rowIndex (it.seq * a.qtok) it.head (it.rowLo + r.2), r.1)
    | none => []
  let total := finals.foldl (fun (acc : Nat) f =>
    match mine.find? fun e => e.1 == f.1 with
    | some e => if Fp.isZero f.2.2.1 then acc
      else Fp.add acc (Fp.div (Fp.mul e.2.2.1 (Fp.exp (Fp.sub e.2.1 f.2.1))) f.2.2.1)
    | none => acc) 0
  Fp.div total (Fp.ofInt finals.length)

/-- Masses are added to the scores (R215–R217), a delta page's to its base page's too (R345), then the SCORE hook is told (R738). -/
def State.addMasses (s : State) (x : Cmd) (a : Attn) (g : Geom) (finals : List (Nat × RowPart)) : State :=
  if s.gp F.ATT_CTRL_MASS_EN a.part = 0 then s
  else
    let read := (a.stats.map fun e => (e.1, e.2.1)).eraseDups
    let ks := if a.kind = 2 then read.filter a.picked.contains else read
    let s1 := ks.foldl (fun (b : State) (k : Nat × Nat) =>
      let readers := a.seqs.filter fun q => (q.pages a.layer).contains k
      let cold := ((b.page k.1 k.2).map (·.coldSeq)).getD 0
      let seq := ((readers.find? fun q => q.seq != cold).map (·.seq)).getD cold
      let m := a.pageMass g finals k
      let base := ((b.page k.1 k.2).map (·.base)).getD 0
      let b1 := b.addScore k.1 k.2 m seq
      if base = 0 then b1 else b1.addScore (hPart base) (hSerial base) m seq) s
    match s1.hookBy a.part 4 with
    | .program => (s1.hookRaise 4 a.part (a.root / 10) [x.op, x.qg, ((a.seqs.head?).map (·.seq)).getD 0, read.length] 0 0).1
    | _ => s1.hookCount a.part 4

/-- The completion of a command whose every row is final (R249, R261, R285, R287, R293, R297). FALLBACK (R291) is raised here, at an APPROX
completion, and not at the conversion of R286: the spec does not say which (DESIGN CHOICE, assumption 77). -/
def State.closeAttn (s : State) (x : Cmd) (a : Attn) (g : Geom) : State :=
  let p := a.part
  let rows := a.finalRows g
  let fin := rows.map fun r => finalRow r.2
  let out := fin.flatMap fun r => r.2.2.flatMap (fpOut g.outFmt)
  let st := fin.flatMap fun r => leBytes 4 r.1 ++ leBytes 4 r.2.1
  let nan := (fin.filter fun r => Fp.isNan r.1).length
  let empty := (fin.filter fun r => !Fp.isNan r.1 && Fp.isZero r.2.1).length
  let s1 := ((s.output x.uid (x.f 0x30 8) out).output x.uid (x.f 0x38 8) st).addMasses x a g rows
  let s2 := (s1.bumpP F.ROWS_EMPTY p empty).bumpP F.ROWS_NAN p nan
  let s3 := if nan = 0 then s2 else s2.raise Ev.NAN_ROWS p
  let s4 := if a.kind = 2 then s3.bumpP F.SPARSE_PAGES p a.selected else s3
  let s5 := if x.approx then (s4.bumpP F.FALLBACKS p).raise Ev.FALLBACK p else s4
  let s6 := if a.kind = 3 then s5.setView p a.view fun v => { v with stats := alSet a.layer (fin.map fun r => (r.1, r.2.1)) v.stats } else s5
  let r1 := (if a.kind = 3 then a.view else a.tiles % 2 ^ 32) + min nan 0xFFFF * 2 ^ 32 +
    min (if a.kind = 2 then a.selected else a.demand.length) 0xFFFF * 2 ^ 48
  s6.endAttn x.uid (if x.approx then St.approx else St.ok) (rows.length % 2 ^ 32 + empty * 2 ^ 32) r1

/-! ### From the start to the runs -/

/-- The bytes of a command's queries (R248). -/
def Attn.queryBytes (a : Attn) (g : Geom) : Nat := a.seqs.length * a.qtok * g.qHeads * g.headDim * elemBytes g.qFmt

/-- A page of the key range, or the base page of one, is unreadable in every copy (R287, R344), and no restore of it is under way (R577). -/
def State.attnLost (s : State) (a : Attn) : Bool :=
  a.pages.any fun n => (s.decodeSet n.1 n.2).any fun k => !s.anyCopy k.1 k.2 && !s.restoring k.1 k.2

/-- The queries have come: the items, the tile lists and the runs (R262–R267, R282–R284); an item without a tile is final at once. -/
def State.buildAttn (s : State) (x : Cmd) (a : Attn) (g : Geom) (queries : Bytes) : State :=
  let a1 := s.attnItems g a queries
  let finals := (a1.items.zipIdx.filter fun (e : Item × Nat) => e.1.tiles.isEmpty).map fun e => (e.2, emptyPartial e.1.rows g.dv)
  let a2 := { a1 with built := true, finals := finals, root := s.rootOf a }
  let s1 := s.setAttn x.uid fun _ => a2
  (s1.makeRuns x a2 g).fetchFor x.uid

/-- A planned command goes on: it stops, builds its runs, or completes. -/
def State.goAttn (s : State) (x : Cmd) (a : Attn) (g : Geom) : State :=
  match s.attnStop x with
  | some st => s.stopAttn x.uid st
  | none =>
    if s.attnLost a then s.stopAttn x.uid St.lostData
    else if !a.built then
      match x.buffers [x.f 0x28 8] with
      | none => s
      | some false => s.endAttn x.uid St.poison 0 0
      | some true => match x.buf (x.f 0x28 8) (a.queryBytes g) with
        | some q => s.buildAttn x a g q
        | none => s
    else if a.finals.length = a.items.length then s.closeAttn x a g
    else s.fetchFor x.uid

/-- The command has started: it is planned, its layer is seen by the cadence tracker and later layers are prefetched (R232, R237). -/
def State.beginAttn (s : State) (x : Cmd) (a : Attn) : State :=
  let s1 : State := { s with att := { s.att with attns := s.att.attns ++ [a] } }
  a.seqs.foldl (fun (b : State) q => (b.cadenceSee a.part q.seq a.layer).seqPrefetch a.part q.seq a.layer q.lo q.count x.qg) s1

/-- One of ATTEND_DECODE, ATTEND_CHUNK and ATTEND_SPARSE, from its start to its completion: every execution carries it as far as it can
go. -/
def State.runAttn (s : State) (x : Cmd) (kind : Nat) : State :=
  match s.geom x.part with
  | none => s.endAttn x.uid St.badCmd 0 0
  | some g =>
    match s.attn x.uid with
    | some a => s.goAttn x a g
    | none =>
      if x.cancelled then s.endAttn x.uid St.cancelled 0 0
      else match s.planAttn x kind with
        | none => s
        | some (.error e) => s.endAttn x.uid e.1 0 e.2
        | some (.ok a) =>
          if (s.coresOf x.part).isEmpty then s.endAttn x.uid St.noSpace 0 0
          else
            let s1 := s.beginAttn x a
            s1.goAttn x a g

/-- ATTEND_DECODE (R245–R287); under R286 it runs as sparse attention. -/
def execAttendDecode (c : Nat) (s : State) : Host.Outcome State Fault Refusal :=
  match s.running c .decode with
  | some x => .next (s.runAttn x (if x.approx then 2 else 0))
  | none => .next s

/-- ATTEND_CHUNK (R245–R287). -/
def execAttendChunk (c : Nat) (s : State) : Host.Outcome State Fault Refusal :=
  match s.running c .chunk with
  | some x => .next (s.runAttn x 1)
  | none => .next s

/-- ATTEND_SPARSE (R245–R249, R282–R287). -/
def execAttendSparse (c : Nat) (s : State) : Host.Outcome State Fault Refusal :=
  match s.running c .sparse with
  | some x => .next (s.runAttn x 2)
  | none => .next s

/-! ### Forward with saved statistics (R293–R299) -/

/-- Leaves of a sequence that overlap a key range, when the range lies wholly in sealed positions (R294). -/
def sealedLeaves (q : AttSeq) (T : Nat) : Option (List (Nat × Nat)) :=
  if q.segs.any (fun sg => sg.2.2 == 0) ∨ sumBy (fun sg => sg.2.1) q.segs ≠ q.count then none
  else some (q.segs.map fun sg => (sg.1 / T, sg.2.2))

/-- A number for a new view of a partition (R295). -/
def State.freeView (s : State) : Nat := s.att.nextView % (2 ^ 32 - 1) + 1

/-- The plan of an ATTEND_FWD_STATS: over the sequence's leaves when it creates a view, over the view's leaves otherwise. -/
def State.planFwd (s : State) (x : Cmd) : Except (Nat × Nat) (Attn × Option View) :=
  let p := x.part
  let n := x.f 0x24 4
  if n = 0 then
    match s.planAttn x 3 with
    | some (.ok a) =>
      match a.seqs, s.geom p with
      | [q], some ge =>
        match sealedLeaves q (match q.segs with | sg :: _ => orderT (hOrder sg.2.2) | [] => 1) with
        | none => .error (St.badCmd, 0)
        | some ls =>
          if (s.att.views.filter fun v => v.part == p).length ≥ s.gp F.VIEW_LIMIT p then .error (St.noSpace, 0)
          else
            let stack := (a.pages.head?.bind fun k => s.stackFor k.1 k.2 (q.seq % 256)).getD 0
            let v : View := { num := s.freeView, part := p, seq := q.seq, keyLo := q.lo, keyCount := q.count, qtok := a.qtok, qpos := q.qpos
                              geom := ge.id, window := q.window, leaves := ls, stack := stack, lastUse := s.now, made := x.uid }
            .ok ({ a with view := v.num }, some v)
      | _, _ => .error (St.badCmd, 0)
    | some (.error e) => .error e
    | none => .error (St.badCmd, 0)
  else match s.viewMade p n, s.geom p with
    | some v, some ge =>
      let r := x.f 0x18 8
      if x.layer ≥ ge.layers.length ∨ bits r 23 0 ≠ v.keyLo ∨ bits r 48 24 ≠ v.keyCount ∨ x.qtok ≠ v.qtok ∨ x.f 0x20 4 ≠ v.qpos then
        .error (St.badCmd, 0)
      else
        let T := match v.leaves with | e :: _ => orderT (hOrder e.2) | [] => 1
        let q : AttSeq := { seq := v.seq, lo := v.keyLo, count := v.keyCount, qpos := v.qpos, window := v.window
                            segs := segments v.leaves T v.keyLo v.keyCount fun _ => false }
        .ok ({ cmd := x.uid, part := p, kind := 3, layer := x.layer, seqs := [q], qtok := x.qtok, det := s.detOf x
               pages := (q.pages x.layer).eraseDups, grans := [], view := v.num }, none)
    | _, _ => .error (St.miss, 0)

/-- ATTEND_FWD_STATS (R293–R299). -/
def execAttendFwdStats (c : Nat) (s : State) : Host.Outcome State Fault Refusal :=
  match s.running c .fwd with
  | none => .next s
  | some x =>
    match s.geom x.part with
    | none => .next (s.endAttn c St.badCmd 0 0)
    | some g =>
      match s.attn c with
      | some a => .next (if (s.view x.part a.view).isNone then s.stopAttn c St.miss else s.goAttn x a g)
      | none =>
        if x.cancelled then .next (s.endAttn c St.cancelled 0 0)
        else match s.planFwd x with
          | .error e => .next (s.endAttn c e.1 0 e.2)
          | .ok (a, v) =>
            if (s.coresOf x.part).isEmpty then .next (s.endAttn c St.noSpace 0 0)
            else
              let s1 : State := match v with
                | some w => { s with att := { s.att with views := s.att.views ++ [w], nextView := s.att.nextView + 1 } }
                | none => s
              let s2 := s1.beginAttn x a
              .next (s2.goAttn x a g)

/-- VIEW_EXPIRE (R298, R324). -/
def execViewExpire (part view : Nat) (s : State) : Host.Outcome State Fault Refusal :=
  match s.view part view with
  | none => .next s
  | some v =>
    if s.viewInUse part view then .next s
    else
      let s1 := s.reach (v.lastUse + s.gp F.VIEW_MS part * 1000000)
      let s2 : State := { s1 with att := { s1.att with views := del (fun w => w.part == part && w.num == view) s1.att.views } }
      .next ((s2.raise Ev.VIEW_EXPIRED part).sweep)

/-! ### The end of a run (R267, R268, R274, R277) -/

/-- The partial of tiles [first, first + n) of an item: in order, or along the canonical tree under DET. -/
def State.runPartial (s : State) (g : Geom) (a : Attn) (it : Item) (queries : Bytes) (first n : Nat) : Option Partial :=
  match a.seqs[it.seq]? with
  | none => none
  | some q =>
    let m := g.mods a.layer
    let rows := g.queryRows queries (it.seq * a.qtok) q.qpos it.head it.rowLo it.rows
    let parts := ((it.tiles.drop first).take n).mapM fun t =>
      (s.tileKeys g a q.seq it.head t.1 t.2.1 t.2.2).map fun ks => partialOf (rows.map (g.tileRow m q.window g.dv ks))
    match parts with
    | none => none
    | some l => if a.det then canonical Partial.merge l
      else match l with
        | [] => none
        | b :: rest => some (rest.foldl Partial.merge b)

/-- Statistics of an item over a page, merged with those reported before (R268). -/
def Attn.addStats (a : Attn) (p serial item : Nat) (st : Partial) : Attn :=
  let same := fun (e : Nat × Nat × Nat × Partial) => e.1 == p && e.2.1 == serial && e.2.2.1 == item
  match a.stats.find? same with
  | some e => { a with stats := upd same (fun _ => (p, serial, item, (e.2.2.2.merge st).stats)) a.stats }
  | none => { a with stats := a.stats ++ [(p, serial, item, st)] }

/-- Steps, FMA, bytes and decode steps of an attention run's tiles (R263, R264). -/
def State.runCost (s : State) (g : Geom) (a : Attn) (it : Item) (first n : Nat) : Nat × Nat × Nat × List Nat :=
  let ts := (it.tiles.drop first).take n
  let steps := sumBy (fun t => g.tileSteps a.layer it.rows t.2.1) ts
  let fma := sumBy (fun t => it.rows * t.2.1 * (g.headDim + g.dv)) ts
  match ts with
  | [] => (steps, fma, 0, [])
  | t :: _ =>
    let k := sumBy (fun u => u.2.1) ts
    if t.2.2 = 0 then (steps, fma, k * g.streamBytes a.layer, [])
    else match s.page (hPart t.2.2) (hSerial t.2.2 + a.layer) with
      | some pg =>
        let c := s.readCost g pg (blocksRead g pg it.head t.1 k)
        (steps, fma, c.1, c.2)
      | none => (steps, fma, 0, [])

/-- Core-steps are credited to the group, to the class over the share window (R414, R415), and to the ATT counters. -/
def State.creditRun (s : State) (r : Run) (steps tiles fma : Nat) : State :=
  let share := s.shareOf r.part r.qg
  let here := fun (x : Group) => x.part == r.part && x.num == r.qg
  let gs := if share = 0 then s.part.groups else upd here (fun x => { x with vt := x.vt + steps * 2 ^ 32 / share }) s.part.groups
  let s1 : State := { s with part := { s.part with groups := gs } }
  let window := s.g F.SHARE_WINDOW * 1000
  let s2 := s1.setPart r.part fun y => { y with steps := (y.steps.filter fun e => decide (s.now < e.1 + window)) ++ [(s.now, r.cls, steps)] }
  let all := alGetD r.part 0 s2.att.fma + fma
  let s3 : State := { s2 with att := { s2.att with fma := alSet r.part all s2.att.fma } }
  let s4 := ((s3.wp F.FMA_MI r.part (all / 2 ^ 20 % 2 ^ 64)).bumpP F.TILES r.part tiles).bumpUS F.TILES_RUN r.die (r.core % 320 / 32) tiles
  s4.setAttn r.cmd fun a => { a with tiles := a.tiles + tiles }

/-- The core held the run until now (R373). -/
def State.ranUntilNow (s : State) (r : Run) : State := s.setPart r.part fun y => { y with heldT := s.recent y.heldT ++ [(r.startT, s.now)] }

/-- Engine time, bytes and activity of an ended run (R373, R429, R431): the core's engines hold it from its start to its end, the expander for the
decode steps of its blocks; bytes are of the tier its die read, staging bytes of T1. -/
def State.chargeRun (s : State) (r : Run) (fromT0 : Bool) (bytes : Nat) (dec : List Nat) (fma exps : Nat) : State :=
  let ns := s.now - r.startT
  let ex := dec.sum * 16000 / max 1 (s.pace r.die)
  let s1 := ((((s.ranUntilNow r).chargeCmd r.cmd .nsDot ns true).chargeCmd r.cmd .nsExp ns true).chargeCmd r.cmd .nsMove ns true).chargeCmd r.cmd
    .nsExpander ex true
  let s2 := (((s1.act r.part r.qg .fma fma).act r.part r.qg .exps exps).act r.part r.qg .decoded dec.length).act r.part r.qg .scratch
    (if dec.isEmpty then bytes else 4096 * dec.length)
  (if r.srcDie = r.die then s2 else s2.act r.part r.qg .link bytes).chargeCmd r.cmd (if fromT0 then .t0Rd else .t1Rd) bytes false

/-- The merge unit of a cluster has met the last partial of an item it will get: it sends what it holds to the root cluster (R274), which makes
room for those that cores still keep (R276).
A cluster's last run for a key is done when no run of that command and item is left in any cluster, since one left may still be stolen; how the
front knows it the spec does not say (DESIGN CHOICE, assumption 77). -/
def State.forwardKey (s : State) (c item : Nat) : State :=
  if s.part.runs.any fun r => r.cmd == c && r.item == item then s
  else
    let busy := fun (cl : Nat) => s.att.helds.any fun h => h.cmd == c && h.item == item && h.cluster == cl && h.place == 0
    let go := fun (h : Held) => h.cmd == c && h.item == item && h.place == 1 && !busy h.cluster
    let hs := upd go (fun h => { h with place := 3, since := s.now, stalled := false }) s.att.helds
    let dies := ((s.att.helds.filter go).map fun h => h.cluster / 10).eraseDups
    let root := ((s.attn c).map fun a => a.root / 10).getD 0
    dies.foldl (fun (b : State) d => b.openFlow c 0 d root) { s with att := { s.att with helds := hs } }

/-- The partials of the ended tiles of a run leave the core: one, or completed subtrees of the canonical tree under DET (R277). -/
def State.emitPartials (s : State) (g : Geom) (a : Attn) (it : Item) (r : Run) (queries : Bytes) (n : Nat) : State :=
  let cuts := if a.det then cutAligned (pow2Floor (max n 1)) n r.first n else [(r.first, n)]
  cuts.foldl (fun (b : State) (k : Nat × Nat) =>
    match b.runPartial g a it queries k.1 k.2 with
    | none => b
    | some p =>
      let h : Held := { cmd := a.cmd, item := r.item, first := k.1, count := k.2, cluster := b.mergeAt (r.core / 32), core := r.core, since := b.now
                        bytes := it.rows * (4 * g.dv + 8), part := p }
      let t := (it.tiles[k.1]?).getD (0, 0, 0)
      let b1 : State := { b with att := { b.att with helds := b.att.helds ++ [h] } }
      if t.2.2 = 0 then b1
      else b1.setAttn a.cmd fun y => y.addStats (hPart t.2.2) (hSerial t.2.2 + a.layer) r.item p.stats) s

/-- The tiles a cut left are queued as new runs, in their class and on their home (R277). -/
def State.requeueRest (s : State) (a : Attn) (r : Run) (n : Nat) : State :=
  let cuts := if r.count ≤ n then [] else if a.kind = 4 then [(r.first + n, r.count - n)]
    else cutRuns a.det r.count (r.first + n) (r.count - n)
  let new := cuts.zipIdx.map fun (k : (Nat × Nat) × Nat) =>
    { r with id := s.part.nextRun + k.2, first := k.1.1, count := k.1.2, stage := 0, cut := false, die := r.home : Run }
  let s1 := if new.isEmpty then s else s.wakeGroup r.part r.qg
  { s1 with part := { s1.part with runs := s1.part.runs ++ new, nextRun := s1.part.nextRun + new.length } }

/-- The run streamed a T0 copy (R22, R34). -/
def Run.fromT0 (r : Run) : Bool := match r.src with | some c => c.2.2.1 == 0 | none => false

/-- The end of an attention run after n tiles. -/
def State.endRunFwd (s : State) (x : Cmd) (a : Attn) (g : Geom) (it : Item) (r : Run) (n : Nat) : State :=
  let cost := s.runCost g a it r.first n
  let s1 := s.reach (r.startT + ceilDiv (cost.1 * 16000) (max 1 (s.pace r.die)))
  let fromT0 := r.fromT0
  let s2 : State := { s1 with part := { s1.part with runs := del (fun (y : Run) => y.id == r.id) s1.part.runs } }
  let s3 := ((s2.creditRun r cost.1 n cost.2.1).chargeRun r fromT0 cost.2.2.1 cost.2.2.2 cost.2.1 (cost.2.1 / max 1 (g.headDim + g.dv)))
  let s4 := cost.2.2.2.foldl (fun (b : State) k => b.sawSteps a.part a.layer k) s3
  match s4.attnStop x with
  | some st => s4.stopAttn x.uid st
  | none =>
    if s4.attnLost a then s4.stopAttn x.uid St.lostData
    else
      let q := ((x.buf (x.f 0x28 8) (a.queryBytes g))).getD []
      ((s4.emitPartials g a it r q n).requeueRest a r n).forwardKey x.uid r.item

/-! ### The merge (R274–R276) -/

/-- Held partials of an item at a place and cluster (the root's place is one for all). -/
def State.heldAt (s : State) (c item place cluster : Nat) : List Held :=
  s.att.helds.filter fun h => h.cmd == c && h.item == item && h.place == place && (place == 4 || h.cluster == cluster)

/-- Merge SRAM in use in a cluster: partials its unit holds, and those of commands whose root it is (R276). -/
def State.mergeUsed (s : State) (cl : Nat) : Nat :=
  sumBy (·.bytes) (s.att.helds.filter fun h =>
    (h.place == 1 && h.cluster == cl) || (h.place == 4 && (s.attn h.cmd).any fun a => a.root == cl))

/-- A merge unit takes a partial (R260, R275): in order of arrival with the one it holds; under DET with its sibling, the lower-numbered
first, and what that gives with its sibling again. `fuel` bounds the merges. -/
def joinHeld (det : Bool) (len : Nat) : Nat → List Held → Held → List Held
  | 0, l, h => l ++ [h]
  | fuel + 1, l, h =>
    let mate := fun (o : Held) => !det || siblings len o.first o.count h.first h.count || siblings len h.first h.count o.first o.count
    match l.find? mate with
    | none => l ++ [h]
    | some o =>
      let left := if det && h.first < o.first then h else o
      let right := if det && h.first < o.first then o else h
      let m : Held := { h with first := min o.first h.first, count := o.count + h.count, part := left.part.merge right.part }
      joinHeld det len fuel (l.filter (· != o)) m

/-- An earlier transfer of a partial's flow has still to arrive (R29): the flow keeps their order; or no path joins its dies. -/
def State.behindInFlow (s : State) (a : Attn) (h : Held) : Bool :=
  h.place == 3 && h.cluster / 10 != a.root / 10 && (!s.diesJoined (h.cluster / 10) (a.root / 10) ||
  s.att.helds.any fun o => o.cmd == h.cmd && o.place == 3 && !o.stalled && o.cluster / 10 == h.cluster / 10 &&
    (decide (o.since < h.since) || (o.since == h.since && decide (s.att.helds.idxOf o < s.att.helds.idxOf h))))

/-- PARTIAL_ARRIVE (R29, R274–R276): the partial of an item whose lowest tile is `first` reaches its cluster's merge unit, or the root's. One
that finds no room stays with its core, or waits at the root, where those behind it in its flow may pass it; it is combined with the others of
its item that wait for the same unit, which takes no room. When the root has combined every tile of the item, its rows are final. -/
def execPartialArrive (c item first : Nat) (s : State) : Host.Outcome State Fault Refusal :=
  match s.attn c, s.att.helds.find? fun h => h.cmd == c && h.item == item && h.first == first && (h.place == 0 || h.place == 2 || h.place == 3) with
  | some a, some h =>
    if s.behindInFlow a h then .next s else
    let len := ((a.items[item]?).map fun it => it.tiles.length).getD 0
    let atRoot := h.place == 3
    let place := if atRoot then 4 else 1
    let there := s.heldAt c item place h.cluster
    let others := s.att.helds.filter fun o => o != h && !there.contains o
    let joined := joinHeld a.det len (there.length + 1) there { h with place := place, stalled := false, since := s.now }
    let unit := if atRoot then a.root else h.cluster
    let room := joined.length ≤ there.length || s.mergeUsed unit + h.bytes ≤ 524288
    let waits := fun (o : Held) => o != h && o.cmd == c && o.item == item && if atRoot then o.place == 3 && o.stalled else o.place == 2 && o.cluster == h.cluster
    let kept := s.att.helds.filter waits
    let pooled := joinHeld a.det len (kept.length + 1) kept { h with place := if atRoot then 3 else 2, stalled := atRoot || h.stalled }
    if !room then
      if pooled.length ≤ kept.length then
        .next { s with att := { s.att with helds := (s.att.helds.filter fun o => o != h && !kept.contains o) ++ pooled } }
      else if h.place == 2 then .next s
      else if atRoot then .next { s with att := { s.att with helds := upd (fun o => o == h) (fun o => { o with stalled := true }) s.att.helds } }
      else
        let wait : Held := { h with place := 2, since := s.now }
        .next (({ s with att := { s.att with helds := others ++ there ++ [wait] } } : State).forwardKey c item)
    else
      match if atRoot then joined.find? fun o => o.count == len else none with
      | some f =>
        let s1 : State := { s with att := { s.att with helds := others } }
        .next (s1.setAttn c fun y => { y with finals := y.finals ++ [(item, f.part)] })
      | none =>
        let s1 : State := { s with att := { s.att with helds := others ++ joined } }
        .next (s1.forwardKey c item)
  | _, _ => .next s

/-- MERGE_STALL (R276, R291): a core of the cluster has waited MERGE_STALL_US for room. -/
def execMergeStall (die cluster : Nat) (s : State) : Host.Outcome State Fault Refusal :=
  match s.att.helds.find? fun h => h.place == 2 && !h.stalled && h.cluster == 10 * die + cluster with
  | none => .next s
  | some h =>
    let p := ((s.attn h.cmd).map (·.part)).getD 0
    let s1 := s.reach (h.since + s.gp F.MERGE_STALL_US p * 1000)
    let hs := upd (fun o => o == h) (fun o => { o with stalled := true }) s1.att.helds
    let s2 : State := { s1 with att := { s1.att with helds := hs } }
    .next (s2.raiseBoth Ev.MERGE_STALL die p)

end Sys2Proof.Machine
end

