-- ==== Sys2Proof/Machine/CxlOps.lean ====
section
/-! DEFINITION. The coherent link and the pool (chapter 12): extents and their leases, the shared window, the snoop filter, release and
revocation. -/

namespace Sys2Proof.Machine

/-! ### Tray extents (R472–R474, R482, R483) -/

def State.extent (s : State) (i : Nat) : Option Extent := s.cxl.extents.find? fun e => e.idx == i

def State.setExtent (s : State) (i : Nat) (f : Extent → Extent) : State :=
  { s with cxl := { s.cxl with extents := upd (fun e => e.idx == i) f s.cxl.extents } }

/-- An extent message of the device (R473). -/
def extMsg (m kind part fmId tray ports mode idx reason scrubbed dpa len epoch : Nat) : Bytes :=
  leBytes 2 m ++ leBytes 1 kind ++ leBytes 1 part ++ leBytes 4 fmId ++ leBytes 2 tray ++ leBytes 1 ports ++ leBytes 1 mode ++
  leBytes 2 idx ++ leBytes 1 reason ++ leBytes 1 scrubbed ++ leBytes 8 dpa ++ leBytes 8 len ++ leBytes 4 epoch ++ leBytes 28 0

def Extent.msg (e : Extent) (m reason scrubbed : Nat) : Bytes :=
  extMsg m e.kind e.part e.fmId e.tray e.ports (if e.hdmDb then 1 else 0) e.idx reason scrubbed e.dpa e.len e.epoch

/-- The port carries tenant data: IDE is up where it is required (R469). -/
def State.ideOk (s : State) (i : Nat) : Bool := s.gu F.PORT_CTRL_IDE_REQ i == 0 || (s.port i).ideUp

/-- A port that reaches the extent's tray now; none while its requests stall (R469, R497). -/
def State.trayPort (s : State) (e : Extent) : Option Nat :=
  (List.range 8).find? fun i => bit e.ports i && s.gu F.PORT_CTRL_POOL_EN i == 1 && (s.port i).st == .up && s.ideOk i

/-- A fabric manager with the pinned key is bound (R648). -/
def State.fmBound (s : State) : Bool := s.sec.fuses.fmBound

/-- A fabric manager's message that no bound session carries is dropped and counted (R648). -/
def State.fmReject (s : State) : State := s.bump F.FM_REJECTS

/-- Moves out of copies that have ceased to exist, and into an extent that is gone, end. -/
def State.cutMoves (s : State) (dead : Move → Bool) : State :=
  let gone := s.tier.moves.filter dead
  let s1 : State := { s with tier := { s.tier with moves := del dead s.tier.moves } }
  gone.foldl (fun (a : State) m => if m.dstTier = 3 then a.t3Drop m.part m.serial 0 else a) s1

/-- The copies that stand in an extent cease to exist (R242), but for those `stays` names: lost leaves are counted and reported. A leaf being
sealed whose copies were placed there is placed anew. -/
def State.loseExtent (s : State) (e : Extent) (stays : Copy → Bool) : State :=
  let inside := fun (c : Copy) => c.tier == 2 && c.unit == e.idx && !stays c
  let r := s.loseCopies inside 3 0
  let hit := r.1.sq.seals.filter fun j => j.copies.any inside
  let s0 := hit.foldl (fun (a : State) j =>
    let k : SealJob := { j with copies := [], step := 3, waitUntil := 0 }
    (a.setJob j.part j.seq j.leafNo fun _ => k).tryPlace k) r.1
  let s1 := s0.cutMoves fun m =>
    (m.dstTier == 2 && m.unit == e.idx) || (m.reads.1 == 2 && (r.1.copyAt m.part m.serial 2 m.reads.2).isNone)
  let ws := s1.tier.waits.filter fun w => !(w.why == 7 && (s1.copyAt w.part w.serial 2 15).isNone)
  let s2 : State := { s1 with tier := { s1.tier with waits := ws } }
  if r.2 = 0 then s2.settleMoves else ((s2.bumpP F.LOST_T2 e.part r.2).raise Ev.T2_LOST e.part).settleMoves

/-- The revocation point of a tray extent (R483). -/
def State.revokeExtent (s : State) (i : Nat) : State :=
  match s.extent i with
  | none => s
  | some e =>
    let s1 := ((s.setExtent i fun x => { x with st := .revoking, relUid := s.q.nextUid }).bumpP F.REVOKES e.part).raise Ev.REVOKED e.part
    if e.kind = 1 then s1.loseExtent e fun _ => false else s1

/-- A graceful release begins (R241, R482): cached copies are discarded, backing copies move to T3. -/
def State.releaseExtent (s : State) (i : Nat) : State :=
  match s.extent i with
  | none => s
  | some e =>
    let until_ := s.now + s.gp F.EVAC_MS e.part * 1000000
    let s1 := s.setExtent i fun x => { x with st := .releasing, evacUntil := until_, relUid := s.q.nextUid }
    if e.kind ≠ 1 then s1 else s1.evacuate { e with evacUntil := until_ }

/-- Nothing of the extent is left, nor on its way into it (R241). -/
def State.extentEmpty (s : State) (i : Nat) : Bool :=
  !(s.tier.copies.any fun c => c.tier == 2 && c.unit == i) && !(s.tier.moves.any fun m => m.dstTier == 2 && m.unit == i) &&
  !s.sq.seals.any fun j => j.copies.any fun c => c.tier == 2 && c.unit == i

/-- Extents an NM command names (R386, R489): those of the operands it uses. -/
def Cmd.nmOperands (c : Cmd) : List Nat :=
  if c.is .nmFill then [c.f 0x18 8]
  else if c.is .nmCopy then [c.f 0x18 8, c.f 0x20 8]
  else if c.is .nmCompare then [c.f 0x20 8, c.f 0x30 8]
  else if c.is .nmReduce then [c.f 0x18 8, c.f 0x20 8, c.f 0x30 8] else []

def nmExt (v : Nat) : Nat := v / 2 ^ 52
def nmOff (v : Nat) : Nat := v % 2 ^ 52

def Cmd.nmNames (c : Cmd) (i : Nat) : Bool := c.nmOperands.any fun v => nmExt v == i

/-- The extent leaves the table and RELEASED is sent (R482, R483). -/
def State.endExtent (s : State) (e : Extent) (scrubbed : Nat) : State :=
  let s1 : State := { s with cxl := { s.cxl with extents := del (fun x => x.idx == e.idx) s.cxl.extents } }
  (if scrubbed = 1 then s1.emit (.trayZero e.tray e.idx) else s1).emit (.fm (e.msg 0x0083 0 scrubbed))

/-! ### The shared window (R475–R481) -/

def State.lease (s : State) (p n : Nat) : Option Lease := s.cxl.leases.find? fun l => l.part == p && l.num == n

def State.setLease (s : State) (n : Nat) (f : Lease → Lease) : State :=
  { s with cxl := { s.cxl with leases := upd (fun l => l.num == n) f s.cxl.leases } }

/-- Lines of a slot: the 64-byte descriptor and the stored bytes, rounded up (R477). -/
def State.slotLines (s : State) (w : WinSlot) : Nat :=
  match s.page (hPart w.handle) (hSerial w.handle) with
  | some x => 1 + ceilDiv x.stored 64
  | none => 0

/-- The slot of a map that holds a line of the extent. -/
def State.slotOf (s : State) (ws : List WinSlot) (n : Nat) : Option WinSlot :=
  ws.find? fun w => w.slot ≤ n && n < w.slot + s.slotLines w

/-- Slot number under which a line outside every slot stands in the snoop filter. -/
def noSlot : Nat := 0xFFFFFFFF

/-- The bytes of a line of a lease (R477, R479); none where every copy of its page is unreadable (R495). -/
def State.lineData (s : State) (e : Lease) (n : Nat) : Option Bytes :=
  match s.slotOf e.slots n with
  | none => some (List.replicate 64 0)
  | some w =>
    match s.page (hPart w.handle) (hSerial w.handle) with
    | some x =>
      if s.readable x.part x.serial then
        let b := slice (x.desc 0 ++ storedBytes x.blocks) (64 * (n - w.slot)) 64
        some (b ++ List.replicate (64 - b.length) 0)
      else none
    | none => some (List.replicate 64 0)

/-- DevLoad of a response of the port (R485), severe for a host over its limits. -/
def State.loadOf (s : State) (port : Nat) (loaded : Bool) : Nat :=
  let occ := (s.cxl.reads.filter fun r => r.port == port).length * 1000 / 1024
  if loaded then 3
  else if occ < s.g F.LOAD_CFG_LOAD_LO then 0
  else if occ < s.g F.LOAD_CFG_LOAD_HI then 1
  else if occ < s.g F.LOAD_CFG_LOAD_SEV then 2 else 3

/-- The DevLoad an S2M response of the port carries is recorded (R485). -/
def State.sentLoad (s : State) (port l : Nat) : State :=
  let s1 := s.wu F.DEVLOAD_LAST port l
  let s2 := if l > s1.gu F.DEVLOAD_MAX port then s1.wu F.DEVLOAD_MAX port l else s1
  if l = 3 then s2.raiseU Ev.SEVERE_LOAD port else s2

/-- A response to a window read: data, or poison (R479, R485, R495). -/
def State.windowReply (s : State) (port tag : Nat) (data : Option Bytes) (loaded : Bool) : State :=
  let l := s.loadOf port loaded
  let s3 := (s.emit (.cxlData port tag l data)).sentLoad port l
  match data with
  | some _ => s3
  | none => (s3.bumpU F.POISON_TX port).raiseU Ev.POISON port

/-- Tokens of a host's bucket, in tenths of a byte; the burst is 64 KiB (R486). -/
def State.hostBucket (s : State) (p port pbr : Nat) : Bucket :=
  let b := ((s.cxl.hosts.find? fun h => h.1 == p && h.2.1 == port && h.2.2.1 == pbr).map (·.2.2.2)).getD ⟨655360, s.now⟩
  ⟨min 655360 (b.tokens + ((s.now - b.last) * s.gp F.HOST_RATE p : Nat)), s.now⟩

def State.setBucket (s : State) (p port pbr : Nat) (b : Bucket) : State :=
  { s with cxl := { s.cxl with
    hosts := put (fun h => h.1 == p && h.2.1 == port && h.2.2.1 == pbr) (p, port, pbr, b) s.cxl.hosts } }

/-- Lines the filter of a bridge die holds at most (R481). -/
def sfMax : Nat := 8388608

/-- A window read is served (R479), or answers none while it must wait: for the host's rate (R486) or for room in the snoop filter
(R481). -/
def State.serveRead (s : State) (r : WinRead) : Option State :=
  match s.cxl.leases.find? fun l => l.num == r.lease with
  | none => some (s.windowReply r.port r.tag none false)
  | some e =>
    let p := e.part
    let limited := s.gp F.HOST_RATE p != 0
    let bk := s.hostBucket p r.port r.pbr
    let loaded := (limited && bk.tokens < 640) ||
      decide ((s.cxl.reads.filter fun x => x.port == r.port && x.pbr == r.pbr).length > s.gp F.HOST_OUTST p)
    if limited && bk.tokens < 640 then none
    else
      let b := if r.port < 4 then 0 else 1
      let mine := fun (f : SfLine) => f.lease == e.num && f.line == r.line
      let sf := s.cxl.sf.filter fun f => !mine f
      if (sf.filter fun f => f.bridge == b).length ≥ sfMax then none
      else
        let data := s.lineData e r.line
        let w := s.slotOf e.slots r.line
        let slot := (w.map (·.slot)).getD noSlot
        -- the line is granted: it stands last in the filter
        let sf' := if data.isNone then s.cxl.sf else sf ++ [({ bridge := b, lease := e.num, slot := slot, line := r.line } : SfLine)]
        let s1 : State := { s with cxl := { s.cxl with sf := sf' } }
        let s2 := if limited then s1.setBucket p r.port r.pbr { bk with tokens := bk.tokens - 640 } else s1
        let wb := s2.cxl.winBytes
        let s3 := (({ s2 with cxl := { s2.cxl with winBytes := alSet p (alGetD p 0 wb + 64) wb } } : State).charge p
          (s.gp F.WIN_CTRL_WIN_QGROUP p) .hostOut 64)
        let tier := match w with
          | some x => ((argMin (fun (c : Copy) => ((c.tier : Nat) : Int)) ((s.copiesOf (hPart x.handle) (hSerial x.handle)).filter (·.good))).map
              fun (c : Copy) => c.tier)
          | none => none
        let s4 := match tier with
          | some 0 => s3.charge p (s.gp F.WIN_CTRL_WIN_QGROUP p) .t0Rd 64
          | some 1 => s3.charge p (s.gp F.WIN_CTRL_WIN_QGROUP p) .t1Rd 64
          | _ => s3
        some (s4.windowReply r.port r.tag data loaded)

/-- A page that a window read needs, the base page of a delta page too, with no T0 or T1 copy though it can be read: it must be fetched first
(R205). -/
def State.readFar (s : State) (r : WinRead) : Option (Nat × Nat) :=
  (s.cxl.leases.find? fun l => l.num == r.lease).bind fun e => (s.slotOf e.slots r.line).bind fun w =>
    (s.decodeSet (hPart w.handle) (hSerial w.handle)).find? fun k => s.readable k.1 k.2 && !s.near k.1 k.2

/-- The queued reads that can be served now, each host's in their order (R486). A read of a page without a T0 or T1 copy waits for its demand
fetch (R205); one that finds the filter full has the least recently granted line back-invalidated first (R481). -/
def State.serveReads (s : State) : State :=
  s.cxl.reads.foldl (fun (a : State) r =>
    let before := a.cxl.reads.any fun x => x.port == r.port && x.pbr == r.pbr && x.since < r.since
    if before || a.paused 0x11 (r.port + 1) then a
    else match a.readFar r with
    | some k => a.demandFetch k.1 k.2 0 0 9
    | none =>
      let left : State := { a with cxl := { a.cxl with reads := del (fun x => x == r) a.cxl.reads } }
      match a.serveRead r with
      | some b => { b with cxl := { b.cxl with reads := left.cxl.reads } }
      | none =>
        let br := if r.port < 4 then 0 else 1
        let mine := a.cxl.sf.filter fun f => f.bridge == br
        if mine.length < sfMax then a
        else match mine.find? fun f => !f.snooped with
          | some f => (a.cxl.leases.find? fun l => l.num == f.lease).elim a fun e => a.snoopLines e fun g => g == f
          | none => a) s

/-- Back-invalidation and drain are complete: the slots are unmapped, their pages unpinned, and the range may be added again
(R476). -/
def State.endLease (s : State) (n : Nat) : State :=
  match s.cxl.leases.find? fun l => l.num == n with
  | none => s
  | some e =>
    if (e.st == .ending || e.st == .revoking) && !(s.cxl.sf.any fun f => f.lease == n) then
      let rest := del (fun (l : Lease) => l.num == n) s.cxl.leases
      let free := e.slots.filter fun w => !(rest.any fun l => l.slots.any fun v => v.handle == w.handle)
      let cs := upd (fun (c : Copy) => c.tier ≤ 1 && free.any fun w => w.maps c.part c.serial) (fun c => { c with pinUntil := 0 })
        s.tier.copies
      let s1 : State := { s with cxl := { s.cxl with leases := rest }, tier := { s.tier with copies := cs } }
      (s1.emit (.dcd e.port e.pbr 4 e.fmId)).sweep
    else s

/-- The lease leaves service: reads accepted before are served, its lines back-invalidated, a commit in progress ends (R483). -/
def State.stopLease (s : State) (n : Nat) (st : LeaseSt) (drop : Bool) : State :=
  match s.cxl.leases.find? fun l => l.num == n with
  | none => s
  | some e =>
    let mine := s.cxl.reads.filter fun r => r.lease == n
    let s1 := mine.foldl (fun (a : State) r =>
      let b := a.windowReply r.port r.tag (a.lineData e r.line) false
      { b with cxl := { b.cxl with reads := del (fun x => x == r) b.cxl.reads } }) s
    let s2 := (s1.setLease n fun l => { l with st := st, pending := none }).wps F.WIN_CTRL_COMMIT e.part n 0
    let s3 := if drop then { s2 with cxl := { s2.cxl with sf := del (fun (f : SfLine) => f.lease == n) s2.cxl.sf } }
      else s2.snoopLines e fun _ => true
    s3.endLease n

/-- The revocation point of a host lease (R476, R483); `drop` where its host can no longer reach the device (R497). -/
def State.revokeLease (s : State) (n : Nat) (drop : Bool) : State :=
  match s.cxl.leases.find? fun l => l.num == n with
  | none => s
  | some e =>
    if e.st == .revoking then
      if drop then ({ s with cxl := { s.cxl with sf := del (fun (f : SfLine) => f.lease == n) s.cxl.sf } } : State).endLease n else s
    else ((s.bumpP F.REVOKES e.part).raise Ev.REVOKED e.part).stopLease n .revoking drop

/-- Slots that a back-invalidation has left without a filtered line are done with (R480). -/
def State.settleBinv (s : State) : State :=
  { s with cxl := { s.cxl with leases := s.cxl.leases.map fun l =>
    { l with binv := l.binv.filter fun w => s.cxl.sf.any fun f => f.lease == l.num && f.slot == w.slot } } }

/-- The valid entries of a map in host memory (R477). -/
def mapSlots (b : Bytes) (n : Nat) : List WinSlot :=
  (List.range n).filterMap fun i =>
    if bit (rd b (16 * i + 12) 1) 0 then some { slot := rd b (16 * i + 8) 4, handle := rd b (16 * i) 8 } else none

/-- Two slots overlap, or one passes the end of the extent (R478 step 1). -/
def State.slotsBad (s : State) (e : Lease) (ws : List WinSlot) : Bool :=
  let sorted := sortBy (fun (w : WinSlot) => ((w.slot : Nat) : Int)) ws
  (ws.any fun w => decide ((w.slot + s.slotLines w) * 64 > e.len)) ||
  (List.range (sorted.length - 1)).any fun i =>
    match sorted[i]?, sorted[i + 1]? with
    | some a, some b => decide (b.slot < a.slot + s.slotLines a)
    | _, _ => false

/-- A commit ends with a reason (R478). -/
def State.refuseMap (s : State) (e : Lease) (reason : Nat) : State :=
  (((s.setLease e.num fun l => { l with pending := none, reason := reason }).wps F.WIN_CTRL_COMMIT e.part e.num 0).raise
    Ev.MAP_REFUSED e.part)

/-! ### Trays (R488) -/

def State.tray (s : State) (t : Nat) : Tray := (s.cxl.trays.find? fun x => x.id == t).getD { id := t }

def State.setTray (s : State) (x : Tray) : State :=
  { s with cxl := { s.cxl with trays := put (fun y => y.id == x.id) x s.cxl.trays } }

/-- The request limit after a response with a DevLoad (R488). -/
def Tray.adjust (t : Tray) (load now : Nat) : Tray :=
  match load with
  | 0 => { t with limit := min 512 (t.limit + 1) }
  | 1 => t
  | 2 => { t with limit := max 8 (t.limit - t.limit / 16) }
  | _ => if t.lastHalve = 0 ∨ now ≥ t.lastHalve + 1000 then { t with limit := max 8 (t.limit / 2), lastHalve := now } else t

end Sys2Proof.Machine
end

