-- ==== Sys2Proof/Machine/Drr.lean ====
section
/-! DEFINITION. Deficit round robin (R352, R453): at each visit a member's deficit rises by its credit, and it sends while the length of
its head is at most its deficit. -/

namespace Sys2Proof.Machine

def Drr.deficit (d : Drr) (k : List Nat) : Nat := alGetD k 0 d.deficits

/-- Visits beyond the first that a member needs before its head may go. -/
def drrRounds (def_ len credit : Nat) : Nat :=
  if len ≤ def_ + credit then 0 else ceilDiv (len - def_) (max 1 credit) - 1

/-- A member without an eligible head loses its deficit. -/
def Drr.prune (d : Drr) (alive : List Nat → Bool) : Drr := { d with deficits := d.deficits.filter fun e => alive e.1 }

/-- The member a level serves next, among those with an eligible head, as (number, length of its head, credit): the one served last while
its deficit lasts, else the first in cyclic order whose deficit suffices. Deficits and the cursor follow. -/
def Drr.pick (d : Drr) (level : List Nat) (ms : List (Nat × Nat × Nat)) : Drr × Option Nat :=
  let key := fun (i : Nat) => level ++ [i]
  let cur := alGet level d.cursor
  match ms.find? fun m => some m.1 == cur && decide (m.2.1 ≤ d.deficit (key m.1)) with
  | some m => (d, some m.1)
  | none =>
    let c := cur.getD 0
    let order := if cur.isSome then (sortBy (fun (m : Nat × Nat × Nat) => (m.1 : Int)) (ms.filter fun m => c < m.1)) ++
        sortBy (fun (m : Nat × Nat × Nat) => (m.1 : Int)) (ms.filter fun m => m.1 ≤ c)
      else sortBy (fun (m : Nat × Nat × Nat) => (m.1 : Int)) ms
    let rs := (List.range order.length).zip order |>.map fun e => (e.1, e.2, drrRounds (d.deficit (key e.2.1)) e.2.2.1 e.2.2.2)
    match argMin (fun (e : Nat × (Nat × Nat × Nat) × Nat) => (e.2.2 * (order.length + 1) + e.1 : Nat)) rs with
    | none => (d, none)
    | some w =>
      let ds := rs.foldl (fun (a : List (List Nat × Nat)) e =>
        alSet (key e.2.1.1) (d.deficit (key e.2.1.1) + (w.2.2 + if e.1 ≤ w.1 then 1 else 0) * e.2.1.2.2) a) d.deficits
      ({ deficits := ds, cursor := alSet level w.2.1.1 d.cursor }, some w.2.1.1)

/-- The member sends n. -/
def Drr.spend (d : Drr) (k : List Nat) (n : Nat) : Drr := { d with deficits := alSet k (d.deficit k - n) d.deficits }

end Sys2Proof.Machine
end

