-- ==== Sys2Proof/Machine/Journal.lean ====
section
/-! DEFINITION. The control journal (R669, R670): a supervisor command has no effect before its record is committed. -/

namespace Sys2Proof.Machine

/-- The record of a supervisor command: begun at the first call, committed at once unless the standby must mirror it. Answers whether
the command may take effect. -/
def State.journalled (s : State) (c : Nat) : State × Bool :=
  match s.course.journal.find? fun r => r.cmd == c with
  | some r => (s, r.committed)
  | none =>
    let n := s.course.nextRec
    let lead := s.leadHalf
    let wait := match lead with | some h => (s.half (1 - h)).st == .standby | none => false
    let r : JRec := { num := n, cmd := c, begun := true, committed := !wait }
    let s1 : State := { s with course := { s.course with
      journal := s.course.journal ++ [r], nextRec := n + 1,
      mirror := if wait then s.course.mirror ++ [({ num := n, sent := s.now } : MirrorWait)] else s.course.mirror } }
    let s2 := match lead with
      | some h => if wait then s1.setHalf (1 - h) fun x => { x with lag := x.lag + 1 } else s1.setHalf h fun x => { x with seq := n }
      | none => s1
    (s2, !wait)

/-- The record of a command that has taken effect is done with. -/
def State.journalEnd (s : State) (c : Nat) : State :=
  { s with course := { s.course with journal := del (fun r => r.cmd == c && r.committed) s.course.journal } }

end Sys2Proof.Machine
end

