-- ==== Sys2Proof/Machine/Part.lean ====
section
/-! DEFINITION. Partitions (R399–R408): descriptors and their checks, T0 units (R199), geometry descriptors (R86, R87, R250, R330–R333),
key slots and key use (R635–R642), TDISP errors (R647), the scrub (R650–R652), partition faults (R661). -/

namespace Sys2Proof.Machine

/-! ### T0 units (R199) and T1 capacity (R200) -/

def bitCount (v lo n : Nat) : Nat := popCount n (v >>> lo)

/-- Cores of a partition in cluster 10 d + k. -/
def Partition.inCluster (p : Partition) (cl : Nat) : Nat := bitCount p.desc.cores (32 * cl) 32

def Partition.live (p : Partition) : Bool := p.st != .free

def Partition.t0Default (p : Partition) : Bool := bit p.desc.flags 0

/-- Units of a partition in a cluster before the remainder is given out. -/
def Partition.t0Base (p : Partition) (cl : Nat) : Nat :=
  if p.t0Default then 6 * p.inCluster cl / 32 else p.desc.t0.getD cl 0

/-- Units of each partition in a cluster: the remainder goes to the default partition with the most cores, ties to the lower
number. Where units have been retired the lower-numbered partitions keep theirs, of which the spec says nothing (DESIGN CHOICE, assumption 80). -/
def State.t0Of (s : State) (p cl : Nat) : Nat :=
  let ps := s.part.parts.filter (·.live)
  let total := (s.hw.clusters.getD cl { num := cl }).t0Units
  let rest := total - sumBy (·.t0Base cl) ps
  let most := argMin (fun (x : Partition) => -((x.inCluster cl : Nat) : Int)) (ps.filter fun x => x.t0Default && x.inCluster cl != 0)
  let me := s.partition p
  if !me.live then 0
  else min (me.t0Base cl) (total - sumBy (·.t0Base cl) (ps.filter fun x => x.num < p)) + (match most with | some x => if x.num = p then rest else 0 | none => 0)

/-- Discards the T0 copies of a partition in a cluster beyond its units (R403): they are cached copies. Those a capo needs there stay longest
(R186). -/
def State.trimT0 (s : State) (p cl : Nat) : State :=
  let room := (s.partition p).t0.getD cl 0 * 262144
  let here := s.tier.copies.filter fun c => c.part == p && c.tier == 0 && c.unit == cl && !c.leaving
  ((here.filter s.capoOnly ++ here.filter fun c => !s.capoOnly c).foldl (fun (a : State × Nat) c =>
    if a.2 + c.bytes ≤ room then (a.1, a.2 + c.bytes) else (a.1.dropCopy p c.serial 0 c.die, a.2)) (s, 0)).1

/-- The T0 units of every partition follow the descriptors in force. -/
def State.allotT0 (s : State) : State :=
  let new := (List.range 64).map fun p => if (s.partition p).live then (List.range 80).map (s.t0Of p) else []
  let s1 : State := { s with part := { s.part with parts := s.part.parts.map fun x => { x with t0 := new.getD x.num [] } } }
  (List.range 64).foldl (fun (a : State) p =>
    if (s.partition p).live then
      (List.range 80).foldl (fun (b : State) cl =>
        if (a.partition p).t0.getD cl 0 < (s.partition p).t0.getD cl 0 then b.trimT0 p cl else b) a
    else a) s1

/-- The reserve of each enabled stack, GiB (R200). -/
def State.stackReserve (s : State) : Nat :=
  let e := max 1 s.enabledDies.length
  ceilDiv (2 ^ 29 * e + s.g F.INDEX_RSV * 2 ^ 30 + 2 * s.g F.MAPCACHE_MIB * 2 ^ 20) (e * 2 ^ 30)

/-- Unassigned GiB of a stack: its capacity less the reserve, the quotas and what is not yet scrubbed. -/
def State.stackFree (s : State) (d : Nat) : Nat :=
  (s.stack d).capGib - s.stackReserve - sumBy (fun (p : Partition) => p.t1.getD d 0 + p.scrubGib.getD d 0) s.part.parts

/-! ### Stack bandwidth (R409–R411) -/

/-- What each asker gets of `cap` bytes, askers given as (number, weight, bytes asked): no more than it asks, and what it leaves goes to the others
by the same weights. `fuel` bounds the rounds. -/
def fillShares : Nat → Nat → List (Nat × Nat × Nat) → List (Nat × Nat)
  | 0, _, _ => []
  | fuel + 1, cap, ms =>
    let w := sumBy (fun (m : Nat × Nat × Nat) => m.2.1) ms
    let full := ms.filter fun m => decide (m.2.2 * w ≤ cap * m.2.1)
    if full.isEmpty then ms.map fun m => (m.1, cap * m.2.1 / max 1 w)
    else (full.map fun m => (m.1, m.2.2)) ++
      fillShares fuel (cap - sumBy (fun (m : Nat × Nat × Nat) => m.2.2) full) (ms.filter fun m => !full.contains m)

/-- Bytes that n 64ths of a stack's rate carry in a share window: 18,750 in 1 µs for each. -/
def State.windowBytes (s : State) (n : Nat) : Nat := n * 18750 * s.g F.SHARE_WINDOW

/-- A partition's reserve of a stack in the window, bytes. -/
def State.reserveBytes (s : State) (p d : Nat) : Nat := s.windowBytes ((s.partition p).rsvNow.getD d 0)

/-- What the partitions ask of a stack in the window, by number. -/
def State.askers (s : State) (d : Nat) : List (Nat × Nat) :=
  (s.part.parts.filter fun x => x.live && x.asked.getD d 0 != 0).map fun x => (x.num, x.asked.getD d 0)

/-- Bytes of a stack that neither the reserves nor the device's own traffic (`own`) took. -/
def State.unreserved (s : State) (d own : Nat) : Nat :=
  s.windowBytes 64 - own - sumBy (fun (e : Nat × Nat) => min e.2 (s.reserveBytes e.1 d)) (s.askers d)

/-- Bytes a partition receives of a stack: what it asks within its reserve, and of the rest a part by weight; nothing its owners do not ask for is
kept back (R411). -/
def State.received (s : State) (p d own : Nat) : Nat :=
  let more := ((s.askers d).filter fun e => decide (s.reserveBytes e.1 d < e.2)).map fun e =>
    (e.1, (s.partition e.1).weightNow, e.2 - s.reserveBytes e.1 d)
  min ((s.partition p).asked.getD d 0) (s.reserveBytes p d) + alGetD p 0 (fillShares 65 (s.unreserved d own) more)

/-- A partition's allotment of a stack (R410). -/
def State.allotment (s : State) (p d own : Nat) : Nat :=
  let w := (s.partition p).weightNow
  let all := sumBy (fun (e : Nat × Nat) => if e.1 = p then 0 else (s.partition e.1).weightNow) (s.askers d) + w
  s.reserveBytes p d + w * s.unreserved d own / max 1 all

/-- Groups of a partition with runs waiting for a stack: those with a share, or the best-effort ones where no other waits (R410). -/
def State.stackGroups (s : State) (p d : Nat) : List Nat :=
  let gs := ((s.part.runs.filter fun r => r.part == p && r.home == d && r.stage != 2).map (·.qg)).eraseDups
  let paid := gs.filter fun g => s.shareOf p g != 0
  if paid.isEmpty then gs else paid

/-- What a group receives of its partition's bytes on a stack: by share; best-effort groups alike. -/
def State.stackShare (s : State) (p g d n : Nat) : Nat :=
  let gs := s.stackGroups p d
  let w := fun (x : Nat) => max 1 (s.shareOf p x)
  if gs.contains g then n * w g / max 1 (sumBy w gs) else 0

/-- Bytes a partition has read from T2 and T3. -/
def State.farRead (s : State) (p : Nat) : Nat × Nat :=
  let r := alGetD (.part p) [] s.part.acct
  (r.getD Ctr.t2Rd.idx 0, r.getD Ctr.t3Rd.idx 0)

/-! ### Descriptors (R401, R402) -/

/-- A partition descriptor's 768 bytes. -/
def parseDesc (b : Bytes) : PartDesc :=
  { flags := rd b 3 1, weight := rd b 4 2, keyFirst := rd b 8 2, keyCount := rd b 0x0A 2, flashGib := rd b 0x0C 4
    t1 := (List.range 8).map fun d => rd b (0x10 + 2 * d) 2
    rsv := (List.range 8).map fun d => rd b (0x20 + d) 1
    t0 := (List.range 80).map fun k => rd b (0x28 + k) 1
    cores := rd b 0x80 320, lane := rd b 0x1C0 320 }

/-- A key slot belongs to the partition (R635). -/
def Partition.ownsKey (p : Partition) (n : Nat) : Bool :=
  p.live && decide (p.desc.keyFirst ≤ n ∧ n < p.desc.keyFirst + p.desc.keyCount)

/-- The descriptor is refused BAD_CMD for partition p (R402). -/
def State.descBad (s : State) (p : Nat) (d : PartDesc) : Bool :=
  let others := s.part.parts.filter fun x => x.num != p && x.live
  let me := s.partition p
  let taken := others.foldl (fun (a : Nat) x => a ||| x.desc.cores ||| x.leaving) 0
  let units := fun (cl : Nat) => if bit d.flags 0 then 6 * bitCount d.cores (32 * cl) 32 / 32 else d.t0.getD cl 0
  let coreBad := (List.range 2560).any fun c => bit d.cores c && (bit taken c || !s.coreOk c)
  let laneBad := d.lane &&& d.cores != d.lane || (d.lane == d.cores && d.cores != 0)
  let t1Bad := (List.range 8).any fun k =>
    let q := d.t1.getD k 0
    q != 0 && (!s.stackOk k || decide (q > s.stackFree k + me.t1.getD k 0))
  let rsvBad := (List.range 8).any fun k =>
    decide (d.rsv.getD k 0 + sumBy (fun (x : Partition) => x.desc.rsv.getD k 0) others > 56)
  let t0Bad := (List.range 80).any fun cl =>
    (!bit d.flags 0 && d.t0.getD cl 0 != 0 && bitCount d.cores (32 * cl) 32 == 0) ||
    decide (units cl + sumBy (·.t0Base cl) others > 6)
  let keyBad := decide (d.keyFirst + d.keyCount > 4096) || (d.keyCount != 0 && others.any fun x =>
    x.desc.keyCount != 0 && decide (d.keyFirst < x.desc.keyFirst + x.desc.keyCount ∧ x.desc.keyFirst < d.keyFirst + d.keyCount))
  let flashBad := decide (d.flashGib + sumBy (·.desc.flashGib) others > s.userGib 0 + s.userGib 1)
  let isoBad := bit d.flags 1 && (List.range 8).any fun k =>
    d.t1.getD k 0 != 0 && (d.rsv.getD k 0 == 0 || bitCount d.cores (320 * k) 320 == 0)
  d.weight == 0 || coreBad || laneBad || t1Bad || rsvBad || t0Bad || keyBad || flashBad || isoBad

/-! ### Geometry descriptors (R86, R87, R250, R330–R333) -/

/-- Finite and greater than 0. -/
def fpPositive (v : Nat) : Bool := 0 < v && v < Fp.pinf

/-- The modifier table is in range (R250). -/
def modsOk (b : Bytes) (off qHeads n : Nat) : Bool :=
  let sets := rd b off 2
  decide (off + 4 ≤ n ∧ 1 ≤ sets ∧ sets ≤ 64 ∧ off + 4 + 32 * sets ≤ n) &&
  (List.range sets).all fun i =>
    let e := off + 4 + 32 * i
    let fl := rd b e 1
    fpPositive (rd b (e + 4) 4) &&
    (!bit fl 2 || fpPositive (rd b (e + 8) 4)) &&
    (!bit fl 1 || decide (1 ≤ rd b (e + 12) 4 ∧ rd b (e + 12) 4 ≤ 2 ^ 24)) &&
    (!bit fl 3 || decide (rd b (e + 16) 4 + qHeads * 256 ≤ n))

/-- A code set is in range: some symbol has a code, no length above the limit, the lengths' sum at most 1 (R332). -/
def codeSetOk (limit : Nat) (ls : List Nat) : Bool :=
  ls.any (· != 0) && ls.all (· ≤ limit) && decide (sumBy (fun l => if l = 0 then 0 else 2 ^ (15 - l)) ls ≤ 2 ^ 15)

/-- A codec table of a directory of version `ver` is in range (R332, R333). -/
def tableOk (b : Bytes) (ver id off n : Nat) : Bool :=
  let fmt := rd b (off + 2) 1
  let sets := rd b (off + 3) 1
  let scaled := fmt ≥ 5
  let size := sumBy (fun i => if bit sets i then roundUp (fieldFmt fmt (i % 2 == 1)).alphabet 4 else 0) (List.range 4)
  decide (off + 16 ≤ n ∧ off + 16 + size ≤ n ∧ fmt ≤ 9) && rd b off 2 == id && bit sets 0 &&
  (if scaled then bit sets 1 else !bit sets 1 && !bit sets 3) && bits sets 7 4 == 0 &&
  (ver ≥ 0x101 || bits sets 3 2 == 0) &&
  (readSets b fmt sets (off + 16)).all fun x => match x with
    | some ls => codeSetOk (if ver ≥ 0x102 then 15 else 12) ls
    | none => true

/-- The directory and its tables are in range. -/
def codecOk (b : Bytes) (dir n : Nat) : Bool :=
  let ver := rd b dir 2
  let k := tableCount b dir
  let es := (List.range k).map (dirEntry b dir)
  decide (dir + 8 ≤ n ∧ 0x100 ≤ ver ∧ ver ≤ 0x102 ∧ 1 ≤ k ∧ k ≤ 512 ∧ dir + 8 + 8 * k ≤ n) &&
  es.all (fun e => e.1 != 0) && (es.map (·.1)).eraseDups.length == k && es.all fun e => tableOk b ver e.1 e.2 n

/-- A layer entry is in range and names tables of its formats (R86, R87, R332). -/
def layerOk (b : Bytes) (dir sets : Nat) (shared : Bool) (l : LayerEnt) : Bool :=
  let named := fun (id fmt : Nat) => match codecTable b dir id with | some t => t.fmt == fmt | none => false
  decide (l.kf ≤ 9 ∧ l.vf ≤ 9 ∧ l.modSet < sets) && (!shared || l.vf == l.kf) && named l.codecK l.kf && (shared || named l.codecV l.vf)

/-- A geometry descriptor of `len` bytes; none when the device refuses it (R87). -/
def parseGeom (b : Bytes) (len : Nat) : Option Geom :=
  let n := rd b 4 4
  let layers := rd b 8 2
  let q := rd b 0x0A 2
  let kv := rd b 0x0C 2
  let hd := rd b 0x0E 2
  let vd := rd b 0x10 2
  let lt := rd b 0x14 4
  let mo := rd b 0x18 4
  let co := rd b 0x1C 4
  let raw := b.take n
  let zeroed := raw.take 0x20 ++ List.replicate 32 0 ++ raw.drop 0x40
  let ls := (List.range layers).map fun i =>
    let o := lt + 16 * i
    ({ kf := rd raw o 1, vf := rd raw (o + 1) 1, modSet := rd raw (o + 2) 1, codecK := rd raw (o + 4) 2, codecV := rd raw (o + 6) 2 } : LayerEnt)
  let ranges := decide (rd b 0 2 = 0x0100 ∧ rd b 2 2 ≠ 0 ∧ n = len ∧ 0x40 ≤ n ∧ n ≤ b.length ∧ 1 ≤ layers ∧ layers ≤ 256 ∧ 1 ≤ kv ∧ kv ≤ 128 ∧
    1 ≤ q ∧ q ≤ 1024 ∧ q % kv = 0 ∧ 64 ≤ hd ∧ hd ≤ 576 ∧ hd % 32 = 0 ∧ (vd = 0 ∨ (32 ≤ vd ∧ vd ≤ hd ∧ vd % 32 = 0)) ∧
    rd b 0x12 1 ≤ 2 ∧ rd b 0x13 1 ≤ 1 ∧ lt + 16 * layers ≤ n)
  if ranges && Blake.hash 32 [] zeroed == slice raw 0x20 32 && modsOk raw mo q n && codecOk raw co n &&
      ls.all (layerOk raw co (rd raw mo 2) (vd != 0)) then
    some { id := rd b 2 2, qHeads := q, kvHeads := kv, headDim := hd, vDim := vd, qFmt := rd b 0x12 1, outFmt := rd b 0x13 1,
           layers := ls, modOff := mo, codecOff := co, digest := slice raw 0x20 32, raw := raw }
  else none

/-! ### Keys (R635–R642) -/

def State.keySlot (s : State) (n : Nat) : KeySlot := (s.sec.keys.find? fun k => k.num == n).getD { num := n }

def State.setKey (s : State) (k : KeySlot) : State :=
  { s with sec := { s.sec with keys := put (fun x => x.num == k.num) k s.sec.keys } }

/-- The partition that owns a key slot. -/
def State.keyOwner (s : State) (n : Nat) : Option Nat := (s.part.parts.find? fun p => p.ownsKey n).map (·.num)

/-- AES-256-GCM decryption: the plaintext, cut to the ciphertext's length, or none where the tag does not match. The cipher lies outside
the spec: an opaque function whose empty answer is the failed check. -/
def gcmOpen (key nonce aad body tag : Bytes) : Option Bytes :=
  let r := Config.crypt 1 (key ++ nonce ++ aad ++ body ++ tag)
  if r.isEmpty then none else some (r.take body.length ++ List.replicate (body.length - r.length) 0)

/-- What an envelope of sealed tables holds (R642): a status, or the plaintext and the slot used. -/
def State.openEnvelope (s : State) (p : Nat) (b : Bytes) (len : Nat) : Except Nat (Bytes × Nat) :=
  let n := rd b 8 4
  let slot := rd b 4 2
  let k := s.keySlot slot
  if b.take 4 ≠ [0x4C, 0x54, 0x45, 0x31] ∨ len ≠ n + 40 ∨ b.length < len then .error St.badCmd
  else if !(s.partition p).ownsKey slot then .error St.perm
  else if k.st != .set then .error St.keyWithdrawn
  else if k.typ ≠ 2 ∨ k.gen ≠ rd b 6 2 then .error St.perm
  else match gcmOpen k.key (slice b 0x0C 12) (slice b 0 24) (slice b 24 n) (slice b (24 + n) 16) with
    | some t => .ok (t, slot)
    | none => .error St.perm

/-- Key slots a live command pins: the slots of the group namespaces it hashes under, and its own TABLE key (R640). -/
def State.keyUses (s : State) (c : Cmd) : List Nat :=
  let nsOf := fun (id : Nat) => (s.seq c.part id).map (·.ns)
  let ns :=
    if c.is .lookup then [c.f 0x20 4]
    else if c.is .append && c.f 0x30 4 != 0 then c.names.filterMap nsOf
    else if c.is .truncate && c.f 0x28 4 != 0 then c.names.filterMap nsOf
    else []
  (ns.filter (· != 0)).filterMap (s.keyNo c) ++
  if c.is .geomLoad || c.is .policyLoad then c.keys.map (·.1) else []

/-! ### TDISP (R647, R470) -/

/-- The interfaces of a function move to ERROR and its queues are reset. -/
def State.tdiError (s : State) (which : Tdi → Bool) : State :=
  let hit := s.sec.tdis.filter fun t => which t && (t.st == .locked || t.st == .run)
  hit.foldl (fun (a : State) t =>
    let a1 : State := { a with sec := { a.sec with tdis := upd (fun x => x.port == t.port && x.fn == t.fn) (fun x => { x with st := .error }) a.sec.tdis } }
    ((a1.q.queues.filter fun q => q.port == t.port && q.fn == t.fn && q.num < 65536).foldl (fun (b : State) q => b.resetQueue q.num) a1).raise
      Ev.TDI_ERROR (if t.fn = 0 then 255 else t.fn - 1)) s

/-! ### Queues of a partition -/

def State.queuesOf (s : State) (p : Nat) : List Queue := s.q.queues.filter fun q => q.num < 65536 && s.queuePart q.num == p

/-- A partition enters FAULTED (R400, R661): its queues enter ERROR, append leases are released. The chapters name no reason code for
such an error: a free value. -/
def State.partFault (s : State) (p reason : Nat) : State :=
  if !(s.pst p == .active || s.pst p == .switching) then s
  else
    let c := s.choose
    let s0 := ((c.2.setPart p fun x => { x with st := .faulted, next := none }).wp F.PART_FAULT_REASON p reason).raise Ev.PART_FAULT p
    let s1 := if s.pst p == .switching then s0.raise Ev.SWITCH_DONE p else s0
    let s2 := (s1.queuesOf p).foldl (fun (a : State) q => a.queueError q.num (c.1 % 16)) s1
    ((s2.sq.seqs.filter fun x => x.part == p && x.holder.isSome).foldl (fun (a : State) x => a.releaseLease p x.id) s2).settle

/-! ### Scrub (R650–R652, R84, R140) -/

/-- Leaves of a partition that sequences or capos of another hold (R149). -/
def State.foreignHolds (s : State) (p : Nat) : Bool :=
  (s.sq.seqs.any fun x => x.part != p && x.leaves.any fun e => hPart e.2 == p) ||
  (s.att.views.any fun v => v.part != p && v.leaves.any fun e => hPart e.2 == p) ||
  s.pdir.capos.any fun k => k.part != p && k.leaves.any fun h => hPart h == p

/-- REVOKE_SHARED (R149, R323): foreign sequences are truncated, foreign capos and training views released. -/
def State.revokeShared (s : State) (p : Nat) : State :=
  let s1 := s.sq.seqs.foldl (fun (a : State) x =>
    if x.part = p then a
    else match ((x.leaves.filter fun e => hPart e.2 == p).map (·.1)).min? with
      | some n => a.cutSeq x.part x.id (n * orderT x.order)
      | none => a) s
  let vs := del (fun (v : View) => v.part != p && v.leaves.any fun e => hPart e.2 == p) s1.att.views
  let s2 : State := { s1 with att := { s1.att with views := vs } }
  (s2.pdir.capos.filter fun k => k.part != p && k.leaves.any fun h => hPart h == p).foldl (fun (a : State) k => a.breakCapo k.num) s2

/-- Group declarations of a partition end and its slots empty. -/
def State.dropGroups (s : State) (p : Nat) : State :=
  let s1 := (s.pdir.slots.filter fun g => g.part == p).foldl (fun (a : State) g => a.endDecl p g.slot .empty) s
  { s1 with pdir := { s1.pdir with slots := del (fun g => g.part == p) s1.pdir.slots } }

/-- The content of a partition goes at the scrub: sequences, granules, leaves, copies, capos, cadences, moves, attention and training
objects, delivery objects, programs. Handle generations stay (R102). -/
def State.wipeContent (s : State) (p : Nat) : State :=
  let s1 := s.dropGroups p
  let s2 : State := { s1 with
    sq := { s1.sq with seqs := del (fun x => x.part == p) s1.sq.seqs, granules := del (fun g => g.part == p) s1.sq.granules
                       seals := del (fun j => j.part == p) s1.sq.seals, forks := del (fun f => f.child.part == p) s1.sq.forks }
    pdir := { s1.pdir with lookups := del (fun l => l.part == p) s1.pdir.lookups, capos := del (fun k => k.part == p) s1.pdir.capos }
    tier := { s1.tier with moves := del (fun m => m.part == p) s1.tier.moves, asks := del (fun m => m.part == p) s1.tier.asks
                           behind := del (fun m => m.part == p) s1.tier.behind
                           waits := del (fun w => w.part == p) s1.tier.waits, pools := del (fun x => x.part == p) s1.tier.pools
                           cadences := del (fun x => x.part == p) s1.tier.cadences
                           prefetches := del (fun x => x.part == p) s1.tier.prefetches }
    part := { s1.part with runs := del (fun r => r.part == p && r.leaf.isSome) s1.part.runs }
    att := { s1.att with attns := del (fun a => a.part == p) s1.att.attns, views := del (fun v => v.part == p) s1.att.views
                         gsets := del (fun g => g.part == p) s1.att.gsets, ratios := del (fun r => r.part == p) s1.att.ratios
                         codecs := s1.att.codecs.map fun c => { c with queue := del (fun j => j.part == p) c.queue } }
    dlv := { s1.dlv with dests := del (fun d => d.part == p) s1.dlv.dests, pushes := del (fun x => x.part == p) s1.dlv.pushes
                         delivs := del (fun d => d.part == p) s1.dlv.delivs, policers := del (fun x => x.part == p) s1.dlv.policers }
    pol := { s1.pol with programs := del (fun g => g.part == p) s1.pol.programs, segs := del (fun g => g.part == p) s1.pol.segs
                         events := del (fun e => e.part == p) s1.pol.events
                         seqrs := s1.pol.seqrs.map fun (q : Sequencer) =>
                           if (q.running.map fun (e : PolEvent) => e.part) == some p then { q with running := none, inst := none } else q
                         timers := del (fun t => t.1 == p) s1.pol.timers } }
  let s3 := (s2.sq.leaves.filter fun l => l.part == p && !l.freed).foldl (fun (a : State) l => a.unpublish l) s2
  ({ s3 with tier := { s3.tier with copies := del (fun (c : Copy) => c.part == p && !s3.pageBusy p c.serial) s3.tier.copies }
             ftl := { s3.ftl with units := del (fun (u : NUnit) => u.part == p && u.what != 1) s3.ftl.units } } : State).sweep

/-- Zeroises a key slot (R641); its generation stays. -/
def State.zeroKey (s : State) (n : Nat) : State := s.setKey { s.keySlot n with st := .empty, typ := 0, key := [], old := [] }

/-- What is left of a partition as it becomes FREE: keys, sessions of its functions, registers, the ring's held records, the
bit of its functions' expert gate (R650, R768, R807). -/
def State.wipeRest (s : State) (p : Nat) : State :=
  let me := s.partition p
  let s0 := (s.sec.keys.filter fun k => me.ownsKey k.num).foldl (fun (a : State) k => a.zeroKey k.num) s
  let gate := s0.g F.EXPERT_GATE_VF
  let s1 := if bit gate p then s0.w F.EXPERT_GATE_VF (gate - 2 ^ p) else s0
  let s2 : State := { s1 with
    sec := { s1.sec with sessions := del (fun x => x.fn == p + 1) s1.sec.sessions }
    regs := s1.regs.filter fun e => e.1.part != p
    part := { s1.part with groups := del (fun g => g.part == p) s1.part.groups }
    att := { s1.att with fma := alDel p s1.att.fma }
    cxl := { s1.cxl with hosts := del (fun h => h.1 == p) s1.cxl.hosts, winBytes := alDel p s1.cxl.winBytes } }
  ((s2.setPath { id := p }).setPart p fun _ => { num := p }).allotT0

/-- Runs on cores a partition is losing (R403). -/
def State.leavingRuns (s : State) (p : Nat) : Bool :=
  s.part.runs.any fun r => r.part == p && r.stage == 2 && bit (s.partition p).leaving r.core

/-- T0 copies, views, gradient sets and ratios of a partition go at a geometry switch (R298, R319, R351, R406). -/
def State.switchWipe (s : State) (p : Nat) : State :=
  let t0 := s.tier.copies.filter fun c => c.part == p && c.tier == 0 && !c.leaving
  let s1 := t0.foldl (fun (a : State) c => a.dropCopy p c.serial 0 c.die) s
  { s1 with att := { s1.att with views := del (fun v => v.part == p) s1.att.views, gsets := del (fun g => g.part == p) s1.att.gsets
                                 ratios := del (fun r => r.part == p) s1.att.ratios } }

end Sys2Proof.Machine
end

