-- ==== Sys2Proof/Machine/Time.lean ====
section
/-! DEFINITION. Device time and its discipline (R65–R79, R779): PTP, PTM, the states of R78. -/

namespace Sys2Proof.Machine

/-- A transition of R78: the state is published and STATE_CHANGE raised; HOLDOVER is an alarm; a departure from LOCKED to
HOLDOVER is counted. -/
def State.timeGo (s : State) (st : Nat) : State :=
  let old := s.g F.TIME_STATE_STATE
  if old = st then s
  else
    let s1 := (s.w F.TIME_STATE_STATE st).raise Ev.TIME_STATE_CHANGE
    let s2 := if st = 5 then { s1 with time := { s1.time with good := 0 } }.raise Ev.HOLDOVER else s1
    if old = 4 ∧ st = 5 then s2.bump F.LOCK_LOSSES else s2

/-- The other time base becomes primary, without a step; a lost one never does (R68). It tracked the old one to within 5 ns, by how much is
measured: a free value. Where its value is behind the last one published, DEV_TIME holds there until it has passed. -/
def State.setPrimary (s : State) (b : Nat) : State :=
  if s.time.primary = b ∨ b ∈ s.time.tbLost then s
  else
    let c := s.choose
    let t : TimeSt := { s.time with primary := b, holdAt := s.now, holdNs := c.1 % 11 - 5 }
    ({ c.2 with time := t }.w F.TIME_STATE_PRIMARY b).raise Ev.PRIMARY_CHANGE

/-- One nanosecond passes on the primary time base: DEV_TIME counts it, unless it holds (R68). -/
def State.nanosecond (s : State) : State :=
  if s.time.holdNs ≠ 0 ∧ s.time.holdAt = s.now then { s with time := { s.time with holdNs := s.time.holdNs - 1 } }
  else { s with now := s.now + 1 }

/-- A fresh estimate of DEV_TIME minus source time (OFFSET_NS saturates) and, from TRACKING on (R78), a rate correction within
±500,000 ppb, whose value the chapters leave to the device: a free value. -/
def State.estimate (s : State) (off : Int) : State :=
  let o := max (-2147483648) (min 2147483647 off)
  let s1 := s.w F.OFFSET_NS (unsigned 32 o)
  let s2 := if o.natAbs > s1.g F.OFFSET_MAX then s1.w F.OFFSET_MAX o.natAbs else s1
  if s2.g F.TIME_STATE_STATE < 3 then s2
  else
  let c := s2.choose
  let ppb : Int := (c.1 % 1000001 : Nat)
  c.2.w F.RATE_PPB (unsigned 32 (ppb - 500000))

/-- The selected source is heard (R78): SET and HOLDOVER go to TRACKING. -/
def State.heard (s : State) : State :=
  let s1 := { s with time := { s.time with lastHeard := s.now } }
  if s.g F.TIME_STATE_STATE = 2 ∨ s.g F.TIME_STATE_STATE = 5 then s1.timeGo 3 else s1

/-- The first of two priority vectors is better: smaller at the first difference (the best master clock algorithm, R70). -/
def prioLt : List Nat → List Nat → Bool
  | [], [] => false
  | [], _ => true
  | _, [] => false
  | a :: as, b :: bs => if a < b then true else if b < a then false else prioLt as bs

/-- A PTP message of this domain and transport is the device's: those TIME_CTRL and PTP_CTRL set (R70). -/
def State.ptpTakes (s : State) (domain transport : Nat) : Bool :=
  domain == s.g F.TIME_CTRL_PTP_DOMAIN && (s.g F.PTP_CTRL_TRANSPORT == 0 || s.g F.PTP_CTRL_TRANSPORT == transport)

/-- Best port among the enabled Ethernet ports that hear an announce of the device's domain; the lower port on a tie. -/
def State.bestMaster (s : State) : Option Nat :=
  ((List.range 8).filter fun i =>
    let p := s.port (8 + i)
    p.annT.isSome && bit (s.g F.PTP_CTRL_PORTS) i && s.ptpTakes p.annDomain p.annTransport).foldl (fun best i =>
    match best with
    | none => some i
    | some j => if prioLt (s.port (8 + i)).annPrio (s.port (8 + j)).annPrio then some i else some j) none

/-- The port and grandmaster in use follow the best announce (R70, R71). -/
def State.choosePtp (s : State) : State :=
  match s.bestMaster with
  | none => if s.g F.TIME_STATE_PTP_PORT = 15 then s else (s.w F.TIME_STATE_PTP_PORT 15).raise Ev.PTP_PORT_CHANGE
  | some i =>
    let p := s.port (8 + i)
    let s1 := if s.g F.TIME_STATE_PTP_PORT = i then s else (s.w F.TIME_STATE_PTP_PORT i).raise Ev.PTP_PORT_CHANGE
    let s2 := s1.w F.PTP_STATUS_STEPS_REMOVED (p.annPrio.getD 6 0)
    if s2.g F.GM_ID = p.annGm then s2 else (s2.w F.GM_ID p.annGm).raise Ev.GM_CHANGE

/-- DEV_TIME may be set from this source: 1 PTP, where a grandmaster is heard; 2 PTM, where PTP is not available and the selected port has
completed a dialogue; 3 the board controller or 0 none, where neither is (R66). -/
def State.timeFrom (s : State) (source : Nat) : Bool :=
  let ptp := s.g F.TIME_CTRL_PTP_EN == 1 && s.bestMaster.isSome
  let x := s.port (s.g F.TIME_CTRL_PTM_PORT)
  let ptm := s.g F.TIME_CTRL_PTM_EN == 1 && x.st == .up && x.ptmT.isSome
  match source with
  | 1 => ptp
  | 2 => ptm && !ptp
  | 0 | 3 => !ptm && !ptp
  | _ => false

/-- PTP_ANNOUNCE (R70): an announce of a domain over a transport heard on port Ei: grandmaster identity, priority vector (priority 1, class, accuracy,
variance, priority 2, identity, steps removed), announce interval in ns. -/
def execPtpAnnounce (x : PtpSource) (gm : Nat) (prio : List Nat) (interval : Nat) (s : State) : Host.Outcome State Fault Refusal :=
  if x.port ≥ 8 ∨ s.g F.TIME_CTRL_PTP_EN = 0 ∨ !bit (s.g F.PTP_CTRL_PORTS) x.port ∨ !s.ptpTakes x.domain x.transport then .next s
  else
    .next (s.setPort (8 + x.port) fun p =>
      { p with annT := some s.now, annGm := gm, annPrio := prio, annInt := interval, annDomain := x.domain, annTransport := x.transport }).choosePtp

/-- ANNOUNCE_TIMEOUT (R71): the port hears its master no more; the next best port serves within two announce intervals. -/
def execAnnounceTimeout (port : Nat) (s : State) : Host.Outcome State Fault Refusal :=
  match (s.port (8 + port)).annT with
  | none => .next s
  | some t =>
    if port ≥ 8 then .next s
    else .next ((s.reach (t + 2 * (s.port (8 + port)).annInt)).setPort (8 + port) fun p => { p with annT := none }).choosePtp

/-- PTP_SYNC (R72, R78): a Sync on the port in use: master time at its sending, mean path delay, its log2 interval and whether
the master is two-step. It is the device's where its domain and transport are and the delay comes of the mechanism P2P selects (R70). -/
def execPtpSync (x : PtpSource) (t : Nat) (delay : PathDelay) (logSync : Nat) (twoStep : Bool) (s : State) : Host.Outcome State Fault Refusal :=
  if s.g F.TIME_CTRL_PTP_EN = 0 ∨ s.g F.TIME_STATE_PTP_PORT ≠ x.port ∨ x.port ≥ 8 ∨ !s.ptpTakes x.domain x.transport ∨
      delay.p2p ≠ decide (s.g F.PTP_CTRL_P2P = 1) then .next s
  else
    let s0 : State := { s with time := { s.time with lastSync := s.now } }
    let s1 := ((s0.w F.PATH_DELAY_NS delay.ns).w F.PTP_STATUS_LOG_SYNC logSync).w F.PTP_STATUS_TWO_STEP (if twoStep then 1 else 0)
    let off : Int := (s.now : Int) - ((t : Int) + (delay.ns : Int))
    let near := decide (off.natAbs ≤ 50)
    -- lock is left by the Sync messages even where PTM has become the selected source (R72)
    if s.g F.TIME_CTRL_DISCIPLINE ≠ 0 then .next (if s1.g F.TIME_STATE_STATE = 4 ∧ !near then s1.timeGo 3 else s1)
    else
      let s2 := s1.heard.estimate off
      let good := if near then s2.time.good + 1 else 0
      let s3 := { s2 with time := { s2.time with good := good } }
      if s3.g F.TIME_STATE_STATE = 3 ∧ good ≥ 16 then .next (s3.timeGo 4)
      else if s3.g F.TIME_STATE_STATE = 4 ∧ !near then .next (s3.timeGo 3)
      else .next s3

/-- PTM_DIALOGUE (R75, R76): host PTM time t on port Xi; offset and rate ratio are published, and discipline DEV_TIME where the
port is the selected source. -/
def execPtmDialogue (port t : Nat) (s : State) : Host.Outcome State Fault Refusal :=
  if port ≥ 8 ∨ s.g F.TIME_CTRL_PTM_EN = 0 ∨ (s.port port).st = .down then .next s
  else
    let p := s.port port
    let s1 := match p.ptmT with
      | some last => s.reach (last + s.g F.TIME_CTRL_PTM_MS * 1000000)
      | none => s
    let off : Int := (t : Int) - (s1.now : Int)
    let ppb : Int := match p.ptmT with
      | some last =>
        let dt : Int := (s1.now : Int) - (last : Int)
        if dt = 0 then 0 else (off - p.ptmOffset) * 1000000000 / dt
      | none => 0
    let s2 := (s1.emit (.ptm port)).setPort port fun x =>
      { x with ptmEn := true, ptmT := some s1.now, ptmOffset := off, ptmPpb := ppb }
    if s.g F.TIME_CTRL_DISCIPLINE = 1 ∧ s.g F.TIME_CTRL_PTM_PORT = port then .next (s2.heard.estimate (-off)) else .next s2

/-- SYNC_TIMEOUT (R72, R78, R779): 2 s without a Sync or PTM response of the selected source moves TRACKING to HOLDOVER, 2 s without a Sync
LOCKED; a port whose last dialogue is 2 s old loses VALID. -/
def execSyncTimeout (s : State) : Host.Outcome State Fault Refusal :=
  let st := s.g F.TIME_STATE_STATE
  let s1 := if st = 3 ∨ st = 4 then (s.reach ((if st = 4 then s.time.lastSync else s.time.lastHeard) + 2000000000)).timeGo 5 else s
  .next ((List.range 8).foldl (fun (acc : State) i =>
    let p := acc.port i
    match p.ptmT with
    | some t =>
      if p.ptmEn && t + 2000000000 ≤ acc.now then (acc.setPort i fun x => { x with ptmT := none }).raise Ev.PTM_LOST else acc
    | none => acc) s1)

/-- A time base is lost (R68). -/
def State.loseTimeBase (s : State) (bridge : Nat) : State :=
  if bridge ≥ 2 ∨ bridge ∈ s.time.tbLost ∨ s.g F.TIME_STATE_STATE = 0 then s
  else
    let s1 := { s with time := { s.time with tbLost := s.time.tbLost ++ [bridge] } }
    if s.time.primary = bridge ∧ 1 - bridge ∉ s.time.tbLost then s1.setPrimary (1 - bridge) else s1

/-- TIME_BASE_LOSS (R68): the state of R78 stays, and the other base takes over without a step. -/
def execTimeBaseLoss (bridge : Nat) (s : State) : Host.Outcome State Fault Refusal := .next (s.loseTimeBase bridge)

end Sys2Proof.Machine
end

