-- ==== Sys2Proof/Machine/Dlv.lean ====
section
/-! DEFINITION. Operations of delivery (chapter 11): destinations, page records, pushes, gates, the end of a delivery; port loss and hold
(R456, R497, R535). -/

namespace Sys2Proof.Machine

/-! ### Lookups -/

def State.dest (s : State) (p n : Nat) : Option Dest := s.dlv.dests.find? fun d => d.part == p && d.num == n

def State.setDest (s : State) (p n : Nat) (f : Dest → Dest) : State :=
  { s with dlv := { s.dlv with dests := upd (fun d => d.part == p && d.num == n) f s.dlv.dests } }

def State.deliv (s : State) (c : Nat) : Option Deliv := s.dlv.delivs.find? fun d => d.cmd == c

def State.setDeliv (s : State) (c : Nat) (f : Deliv → Deliv) : State :=
  { s with dlv := { s.dlv with delivs := upd (fun d => d.cmd == c) f s.dlv.delivs } }

/-- The port is enabled: its host role on X0–X7, its MAC on E0–E7 (R437, R466, R763). -/
def State.portEnabled (s : State) (i : Nat) : Bool :=
  if i < 8 then s.gu F.PORT_CTRL_HOST_EN i == 1 && s.cm (Fld.blkEnable 0x11 1) (i + 1) 255 == 1
  else s.gu F.NETP_CTRL_ENABLE (i - 8) == 1 && s.cm (Fld.blkEnable 0x12 1) (i - 7) 255 == 1

/-- Rate for gate fit, 10^6 bytes/s; 0 acts as the reset value. -/
def State.portRate (s : State) (i : Nat) : Nat :=
  let v := s.gu F.PORT_RATE i
  if v = 0 then (if i < 8 then 121000 else 100000) else v

/-- Counted length of n payload bytes (R449). -/
def DqCfg.counted (k : DqCfg) (n : Nat) : Nat := n + k.fixed + k.perUnit * ceilDiv n (2 ^ k.unitLog2)

/-- Counted length of n payload bytes in a delivery queue (R449). -/
def State.counted (s : State) (p dq n : Nat) : Nat := (s.dqCfg p dq).counted n

/-! ### Gates (R454, R455) -/

/-- Mask and length of each entry of a list that its cycle reaches. -/
def gateSpans : List GateEnt → Nat → List (Nat × Nat)
  | [], _ => []
  | [e], left => if left = 0 then [] else [(e.mask, left)]
  | e :: es, left =>
    if left = 0 then []
    else
      let d := min left (max 100 e.ns)
      (e.mask, d) :: gateSpans es (left - d)

def Port.spans (p : Port) : List (Nat × Nat) := gateSpans p.gate p.gateCycle

/-- Time left of the present open interval of a class; none when the class is always open. -/
def Port.gateLeft (p : Port) (now cls : Nat) : Option Nat :=
  let sp := p.spans
  let isOpen := fun (e : Nat × Nat) => bit e.1 cls
  if sp.all isOpen then none
  else match sp[p.gateCur]? with
    | none => some 0
    | some e =>
      if !isOpen e then some 0
      else
        let later := (sp.drop (p.gateCur + 1) ++ sp.take p.gateCur).takeWhile isOpen
        some (p.gateT + e.2 - now + sumBy (·.2) later)

/-- Time in a list until a class has been open for `need` ns; the length of the list where it never is. -/
def walkOpen (cls : Nat) : List (Nat × Nat) → Nat → Nat
  | [], _ => 0
  | e :: es, need =>
    if need = 0 then 0
    else if bit e.1 cls then (if need ≤ e.2 then need else e.2 + walkOpen cls es (need - e.2))
    else e.2 + walkOpen cls es need

/-- Time from now until a class of the port has been open for `need` ns in all; 2^64 where its list never opens it. -/
def Port.openAfter (p : Port) (now cls need : Nat) : Nat :=
  let sp := p.spans
  let open_ := fun (l : List (Nat × Nat)) => sumBy (·.2) (l.filter fun e => bit e.1 cls)
  let first := match sp[p.gateCur]? with
    | some e => (e.1, p.gateT + e.2 - now) :: sp.drop (p.gateCur + 1)
    | none => []
  if sp.all (fun e => bit e.1 cls) ∨ need = 0 then need
  else if need ≤ open_ first then walkOpen cls first need
  else if open_ sp = 0 then 2 ^ 64
  else
    let left := need - open_ first
    let k := (left - 1) / open_ sp
    sumBy (·.2) first + k * sumBy (·.2) sp + walkOpen cls sp (left - k * open_ sp)

/-- The longest open interval of a class in a cyclic list; none when it is always open. -/
def longestOpen (sp : List (Nat × Nat)) (cls : Nat) : Option Nat :=
  let isOpen := fun (e : Nat × Nat) => bit e.1 cls
  if sp.all isOpen then none
  else some (maxBy (fun i => sumBy (·.2) ((sp.drop i ++ sp.take i).takeWhile isOpen)) (List.range sp.length))

/-- A counted length at a rate of 10^6 bytes/s fits in a time (ns). -/
def fitsIn (len rate : Nat) (left : Option Nat) : Bool :=
  match left with
  | none => true
  | some ns => decide (len * 1000 ≤ ns * rate)

/-! ### Page records (R440, R441) -/

/-- A page record: the descriptor with SUMMARY_ADDR 0, then the coded page or the page image, padded to 64 bytes. -/
def Page.record (x : Page) (decoded : Bool) : Bytes :=
  let b := x.desc 0 ++ if decoded then x.image else storedBytes x.blocks
  b ++ List.replicate (roundUp b.length 64 - b.length) 0

/-- The page list of a DELIVER or FETCH: pages by partition and serial; a status where it is refused; none while its handles are read. -/
def State.pageList (s : State) (x : Cmd) : Option (Except Nat (List (Nat × Nat))) :=
  if bit (x.f 0x24 1) 0 then
    let n := x.f 0x18 4
    if n = 0 then some (.ok [])
    else match x.buffers [x.f 0x38 8] with
      | none => none
      | some false => some (.error St.poison)
      | some true =>
        match x.buf (x.f 0x38 8) (8 * n) with
        | none => some (.error St.badCmd)
        | some b =>
          let hs := u64s b n
          match hs.findSome? fun h => s.resolve x.part h (hOrder h) with
          | some st => some (.error st)
          | none => some (.ok (hs.map fun h => (hPart h, hSerial h)))
  else match s.seqFor x.part x.seq x.uid with
    | .error st => some (.error st)
    | .ok (q, ge) =>
      let span := max 1 (x.f 0x22 2)
      let lo := x.f 0x18 4
      let n := x.f 0x1C 4
      let layers := (List.range span).map (· + x.layer)
      let staged := s.sq.granules.any fun g => g.part == x.part && g.seq == x.seq && layers.contains g.layer &&
        !(q.leaves.any fun e => e.1 == g.first / orderT q.order) && (List.range g.rows.length).any fun i =>
          -- positions the view shows: completed, and not dropped by the ring (R107, R113)
          decide (lo ≤ g.first + i ∧ g.first + i < lo + n ∧ g.first + i < q.lens.getD g.layer 0) && !q.absent (g.first + i)
      if x.layer + span > ge.layers.length ∨ staged then some (.error St.badCmd)
      else some (.ok (layers.flatMap fun l => (q.leavesIn lo n).map fun h => (hPart h, hSerial h + l)))

/-! ### The end of a delivery (R445, R446) -/

/-- Something is still to be sent to a destination: pushes, deliveries, or commands accepted before it was disabled (R462). -/
def State.destBusy (s : State) (p n : Nat) : Bool :=
  (s.dlv.pushes.any fun x => x.part == p && x.dest == n) || (s.dlv.delivs.any fun d => d.part == p && d.dest == n) ||
  s.q.cmds.any fun c => c.live && c.part == p && (c.is .deliver || c.is .fetch) && c.f 0x28 4 == n

/-- A DRAINING destination with nothing left to send is DISABLED (R462). -/
def State.settleDest (s : State) (p n : Nat) : State :=
  if s.destBusy p n then s else s.setDest p n fun d => if d.st = 2 then { d with st := 3 } else d

/-- STATE of a destination: a DRAINING one whose last commands ended without it is DISABLED. -/
def State.destState (s : State) (p n : Nat) : Nat :=
  match s.dest p n with
  | some d => if d.st = 2 ∧ !s.destBusy p n then 3 else d.st
  | none => 0

/-- A destination's window can be written through a port now: the port is UP and, on Ethernet, the connection is open. -/
def State.destOpen (s : State) (port : Nat) (d : Dest) : Bool :=
  (s.port port).st == .up &&
  (port < 8 || s.net.conns.any fun c => c.num == d.conn && !c.malroth && c.part == d.part && c.st == .open_)

/-- A push of a delivery queue is queued. -/
def State.queuePush (s : State) (d : Deliv) (off : Nat) (data : Bytes) (landing : Bool) : State :=
  let x : Push := { id := s.dlv.nextPush, cmd := d.cmd, part := d.part, dq := d.dq, qg := d.cfg.qg, dest := d.dest
                    port := d.port, off := off, data := data, landing := landing, fetch := d.fetch, readyT := s.now
                    charge := d.cfg.counted data.length, cls := d.cfg.cls, quantum := d.cfg.quantum }
  { s with dlv := { s.dlv with pushes := s.dlv.pushes ++ [x], nextPush := s.dlv.nextPush + 1 } }

/-- A delivery ends: its completion (R446). -/
def State.closeDeliv (s : State) (d : Deliv) (st : Nat) : State :=
  let tells := [St.ok, St.deadlineMiss, St.cancelled, St.portLost].contains st
  let s1 := { s with dlv := { s.dlv with delivs := del (fun y => y.cmd == d.cmd) s.dlv.delivs } }
  let s2 := (s1.bumpP F.DELIVERED_KIB d.part (ceilDiv d.written 1024)).finish d.cmd st
    (if tells then d.written else 0) (if tells then (d.ends.filter (· ≤ d.written)).length else 0)
  let s3 := if st = St.portLost then (s2.bumpP F.HOLD_DROPS d.part).raise Ev.HOLD_DROP d.part else s2
  (s3.settleDest d.part d.dest).sweep

/-- A delivery whose payload pushes are done: its landing record, then its completion. A command that ends before its last payload byte while
its window cannot be written completes at once (R457, R462); its landing record, which names no command any more, is held with the rest. -/
def State.settleDeliv (s : State) (c : Nat) : State :=
  match s.deliv c with
  | none => s
  | some d =>
    let mine := s.dlv.pushes.filter fun x => x.cmd == c
    if (!d.cut && d.status.isNone) || mine.any (fun x => !x.landing) then s
    else
      let st := d.status.getD St.ok
      let land := (s.dest d.part d.dest).bind fun e => if e.landEn && d.written != 0 && st != St.portLost then some e.land else none
      match land, d.landSent with
      | some off, false =>
        let tag := ((s.cmd c).map (·.tag)).getD 0
        let record := leBytes 4 tag ++ leBytes 1 st ++ leBytes 3 0 ++ leBytes 8 d.lastT
        if d.status.isSome && !(s.dest d.part d.dest).any (s.destOpen d.port) then
          (s.queuePush { d with cmd := 0 } (off + 16 * d.dq) record true).closeDeliv d st
        else
          (s.queuePush d (off + 16 * d.dq) record true).setDeliv c fun y => { y with landSent := true, status := some st }
      | _, _ => if mine.isEmpty then s.closeDeliv d st else s

/-- The landing record of a delivery is held on its port (R462). -/
def State.landHeld (s : State) (d : Deliv) : Bool :=
  d.landSent && (s.port d.port).st == .holding && s.dlv.pushes.any fun x => x.cmd == d.cmd && x.landing && x.st == 0

/-- A delivery ends with a status: its queued payload pushes are dropped (R447, R448, R457); where only its landing record is left, and
held, that record is written with the new status. -/
def State.endDeliv (s : State) (c st : Nat) : State :=
  match s.deliv c with
  | none => s
  | some d =>
    if d.status.isSome && !s.landHeld d then s
    else
      let s1 : State := { s with
        dlv := { s.dlv with pushes := del (fun x => x.cmd == c && x.st == 0) s.dlv.pushes }
        att := { s.att with codecs := s.att.codecs.map fun k => { k with queue := del (fun j => j.owner == c) k.queue } } }
      (s1.setDeliv c fun y => { y with status := some st, landSent := false }).settleDeliv c

/-! ### Port loss and hold (R456, R457, R497, R535) -/

/-- The partner identity of a port (R468, R505), as one number. -/
def Port.identity (p : Port) : Option Nat := if p.num < 8 then p.partner.map (· * 256 + p.partnerPort) else p.lldp

/-- Requests whose messages the transport has not acknowledged are sent again on a connection (R509, R535). -/
def State.resend (s : State) (c : Conn) : State :=
  (s.net.waits.filter fun w => w.sent && c.unacked.contains w.msg.msgId).foldl (fun (a : State) w => a.emit (.malroth (s.stamped w.msg))) s

/-- The Malroth connections of a port that goes down move to another UP port, or are held; its destination connections are held. -/
def State.moveConns (s : State) (i : Nat) : State :=
  (s.net.conns.filter fun c => c.port == i && c.st == .open_).foldl (fun (a : State) c =>
    let set := fun (b : State) (f : Conn → Conn) => ({ b with net := { b.net with conns := upd (fun x => x.num == c.num) f b.net.conns } } : State)
    match (if c.malroth then a.malPort else (a, none)) with
    | (b, some j) => (set b fun x => { x with port := j }).resend c
    | (b, none) => set b fun x => { x with st := .held }) s

/-- Held connections of a port go on. -/
def State.releaseConns (s : State) (i : Nat) : State :=
  (s.net.conns.filter fun c => c.port == i && c.st == .held).foldl (fun (a : State) c =>
    ({ a with net := { a.net with conns := upd (fun x => x.num == c.num) (fun x => { x with st := .open_ }) a.net.conns } } : State).resend c) s

/-- What a port holds is discarded (R456, R457): the deliveries with pushes held end PORT_LOST, held completions are lost and their queues enter
ERROR with reason 3, also a draining one; requests on its Malroth connections fail, its host leases and unreachable extents are revoked. -/
def State.portGone (s : State) (i : Nat) : State :=
  let heldPush := fun (x : Push) => x.port == i && x.st == 0
  let s2 := (s.dlv.delivs.filter fun d => s.dlv.pushes.any fun x => heldPush x && x.cmd == d.cmd).foldl (fun (a : State) d =>
    (a.setDeliv d.cmd fun y => { y with status := some St.portLost }).settleDeliv d.cmd)
    { s with dlv := { s.dlv with pushes := del heldPush s.dlv.pushes } }
  let held := s2.q.cmds.filter fun c => !c.live && c.q < 65536 && (match s2.queue c.q with | some q => q.port == i | none => false)
  let s3 := held.foldl (fun (a : State) c =>
    (if (a.queue c.q).any fun q => q.st == .active || q.st == .draining then a.queueFails c.q 3 else a).unposted c) s2
  let peers := (s3.net.conns.filter fun c => c.port == i && c.st == .held && c.malroth).map (·.peer)
  let s4 := peers.foldl (fun (a : State) n =>
    (a.net.waits.filter fun w => w.msg.dst == n).foldl (fun (b : State) w => b.unanswered w) (a.closePeer n)) s3
  let s5 := (s4.cxl.leases.filter fun l => l.port == i).foldl (fun (a : State) l => a.revokeLease l.num true) s4
  (s5.cxl.extents.filter fun e => bit e.ports i && e.st != .revoking && (s5.trayPort e).isNone).foldl
    (fun (a : State) e => a.revokeExtent e.idx) s5

/-- A port's held items are discarded (R456). -/
def State.discardHeld (s : State) (i : Nat) : State := (s.portGone i).raiseU Ev.HOLD_DISCARD i

/-- Requests outstanding on a tray port go to another port (R497). -/
def State.reissue (s : State) (i : Nat) : State :=
  s.cxl.extents.foldl (fun (a : State) e =>
    if !bit e.ports i ∨ (a.trayPort e).isNone then a
    else a.cxl.jobs.foldl (fun (b : State) j =>
      match b.cmd j.cmd with
      | none => b
      | some x => j.out.foldl (fun (t : State) r =>
          match (x.nmOperands.filter fun v => nmExt v == e.idx) with
          | [] => t
          | v :: _ => t.emit (.trayRead e.tray e.idx (nmOff v / 64 + r.2))) b) a) s

/-- A port's link goes down (R456, R469, R535, R647). -/
def State.linkDown (s : State) (i : Nat) : State :=
  let p := s.port i
  if i ≥ 16 then s
  else if p.st != .up then
    -- an Ethernet link that came back and is lost again before its partner was known
    s.setPort i fun x => { x with trained := false }
  else
    let hold := s.gu F.HOLD_US i
    let s1 := s.setPort i fun x =>
      { x with st := if hold = 0 then .down else .holding, holdT := s.now, heldPartner := p.identity, trained := false, rate := 0
               width := 0, cxl := false, ideUp := false, ptmT := none, annT := none }
    let s2 := if p.ideUp then
        let a := if s.gu F.PORT_CTRL_IDE_REQ i = 1 then s1.raiseU Ev.IDE_DOWN i else s1
        a.tdiError fun t => t.port == i
      else s1
    let s3 := if i < 8 then s2.reissue i else ((s2.raiseU Ev.NET_LINK_DOWN (i - 8)).moveConns i).choosePtp
    if hold = 0 then s3.discardHeld i else s3.raiseU Ev.LINK_HOLD i

/-- A held port is UP again with the partner it had, or with another one (R456). -/
def State.endHold (s : State) (i : Nat) (same : Bool) : State :=
  let s1 := if same then s else s.discardHeld i
  let s2 := (s1.setPort i fun x => { x with st := .up, heldPartner := none }).releaseConns i
  if same then s2.raiseU Ev.HOLD_RELEASE i
  else s2.raiseU (if i < 8 then Ev.CXL_PARTNER_CHANGED else Ev.NET_PARTNER_CHANGED) (if i < 8 then i else i - 8)

end Sys2Proof.Machine
end

