-- ==== Sys2Proof/Machine/NmCmds.lean ====
section
/-! DEFINITION. Near-memory operations (R489–R494) and the responses of trays (R488). -/

namespace Sys2Proof.Machine

/-- The check of R489, in its order; none when the command may run. -/
def State.nmCheck (s : State) (x : Cmd) : Option Nat :=
  let vs := x.nmOperands
  let len := x.f 0x28 8
  let es := vs.map fun v => s.extent (nmExt v)
  if es.any (·.isNone) then some St.miss
  else if es.any fun e => e.any fun y => y.part != x.part then some St.perm
  else if es.any fun e => e.any fun y => y.kind == 1 then some St.badCmd
  else if es.any fun e => e.any fun y => y.st == .revoking || (y.st == .releasing && y.relUid ≤ x.uid) then some St.extentRevoked
  else if len = 0 ∨ len % 64 ≠ 0 ∨ vs.any (fun v => nmOff v % 64 != 0) ∨
      vs.any (fun v => (s.extent (nmExt v)).any fun y => decide (nmOff v + len > y.len)) then some St.badCmd
  else if x.is .nmReduce ∧ (x.f 0x38 1 > 2 ∨ x.f 0x39 1 > 2) then some St.badCmd
  else none

/-- Bridge dies whose ports reach an extent. -/
def Extent.diesOf (e : Extent) : List Nat := [0, 1].filter fun b => bits e.ports (4 * b + 3) (4 * b) != 0

/-- Bytes queued in the NM units of a bridge die. -/
def State.nmQueued (s : State) (b : Nat) : Nat :=
  sumBy (fun (j : NmJob) => 64 * (j.lines - j.next)) (s.cxl.jobs.filter fun j => j.die == b)

/-- The die a command runs on: that of DST, the one with fewer queued NM bytes where both reach it; a lost die's work goes to the other
(R38). -/
def State.nmDie (s : State) (x : Cmd) : Nat :=
  let v := if x.is .nmCompare then x.f 0x20 8 else x.f 0x18 8
  if s.bridgeLost 0 then 1
  else if s.bridgeLost 1 then 0
  else match (s.extent (nmExt v)).map (·.diesOf) with
  | some [b] => b
  | some (_ :: _) => if s.nmQueued 1 < s.nmQueued 0 then 1 else 0
  | _ => 0

/-- One element of NM_REDUCE (R491): format 0 FP32, 1 BF16, 2 FP16. -/
def reduceElem (fmt rop a b : Nat) : Nat :=
  let f := match fmt with | 0 => Fp.f32 | 1 => Fp.bf16 | _ => Fp.f16
  let nan := match fmt with | 0 => 0x7FC00000 | 1 => 0x7FC0 | _ => 0x7E00
  let x := Fp.dec f a
  let y := Fp.dec f b
  let top := 2 ^ (if fmt = 0 then 31 else 15)
  if x = .nan ∨ y = .nan then nan
  else match rop with
    | 0 => (match Fp.vadd x y with | .nan => nan | v => Fp.enc f .nearest v)
    -- −0 orders below +0
    | 1 => if Fp.vlt x y || (!Fp.vlt y x && a ≥ top) then b else a
    | _ => if Fp.vlt x y || (!Fp.vlt y x && a ≥ top) then a else b

/-- The result of NM_REDUCE over one line. -/
def reduceLine (fmt rop : Nat) (a b : Bytes) : Bytes :=
  let w := if fmt = 0 then 4 else 2
  (List.range (64 / w)).flatMap fun i => leBytes w (reduceElem fmt rop (rd a (w * i) w) (rd b (w * i) w))

def State.nmJob (s : State) (c : Nat) : Option NmJob := s.cxl.jobs.find? fun j => j.cmd == c

def State.setNm (s : State) (j : NmJob) : State := { s with cxl := { s.cxl with jobs := upd (fun k => k.cmd == j.cmd) (fun _ => j) s.cxl.jobs } }

/-- Operand o read by a command: 0 SRC, 1 SRC2; none where it reads none. -/
def Cmd.nmSrc (x : Cmd) (o : Nat) : Option Nat :=
  if o = 0 then (if x.is .nmFill then none else some (x.f 0x20 8))
  else if x.is .nmCompare || x.is .nmReduce then some (x.f 0x30 8) else none

/-- An NM command ends: the NM block counts it (R500, R502). -/
def State.nmClose (s : State) (x : Cmd) (status r0 r1 : Nat) : State :=
  let p := x.part
  let s1 := ((s.finish x.uid status r0 r1).bumpP F.NM_CMDS p).bumpP F.NM_KIB p (ceilDiv r0 1024)
  if status = St.poison then (s1.bumpP F.NM_POISON p).raise Ev.NM_POISON p
  else if status = St.extentRevoked then (s1.bumpP F.NM_REVOKED p).raise Ev.NM_REVOKED p
  else s1

/-- The command leaves its unit with a status; what it did is counted. -/
def State.nmEnd (s : State) (x : Cmd) (status r0 r1 : Nat) : State :=
  let s1 := match s.nmJob x.uid with
    | some j =>
      let reads := (if x.nmSrc 0 = none then 0 else 1) + (if x.nmSrc 1 = none then 0 else 1)
      let a := (s.bumpU F.NM_RD_KIB j.die (j.next * reads / 16)).bumpU F.NM_WR_KIB j.die (if x.is .nmCompare then 0 else j.next / 16)
      a.chargeCmd x.uid .nsNm (j.next * 2 * 16000 / max 1 (s.pace (8 + j.die))) true
    | none => s
  ({ s1 with cxl := { s1.cxl with jobs := del (fun j => j.cmd == x.uid) s1.cxl.jobs } } : State).nmClose x status r0 r1

/-- The device sends a request to the tray of an extent: none while its limit is reached or no port reaches it (R488, R497). -/
def State.traySend (s : State) (ext : Nat) : Option State :=
  (s.extent ext).bind fun e =>
    let t := s.tray e.tray
    if t.outstanding ≥ t.limit ∨ (s.trayPort e).isNone then none
    else some (s.setTray { t with outstanding := t.outstanding + 1 })

/-- Reads of an operand are sent, in line order, as far as the limit goes; `fuel` bounds them. -/
def State.nmRead (s : State) (x : Cmd) (o : Nat) : Nat → State
  | 0 => s
  | fuel + 1 =>
    match s.nmJob x.uid, x.nmSrc o with
    | some j, some v =>
      let k := if o = 0 then j.asked.1 else j.asked.2
      if k ≥ j.lines then s
      else match s.traySend (nmExt v) with
        | some s1 =>
          let j1 := { j with asked := if o = 0 then (k + 1, j.asked.2) else (j.asked.1, k + 1), out := j.out ++ [(o, k)] }
          let tray := ((s.extent (nmExt v)).map (·.tray)).getD 0
          ((s1.setNm j1).emit (.trayRead tray (nmExt v) (nmOff v / 64 + k))).nmRead x o fuel
        | none => s
    | _, _ => s

/-- NM_COPY may write line k of DST: no unread line of SRC stands there (R490). -/
def NmJob.clear (j : NmJob) (x : Cmd) (k : Nat) : Bool :=
  let d := x.f 0x18 8
  let s := x.f 0x20 8
  if nmExt d ≠ nmExt s ∨ nmOff d / 64 + k < nmOff s / 64 then true
  else
    let at_ := nmOff d / 64 + k - nmOff s / 64
    at_ ≥ j.lines || at_ < k || (j.got.any fun g => g.1 == (0, at_))

/-- The bytes of line k of DST, once they are known. -/
def NmJob.result (j : NmJob) (x : Cmd) (k : Nat) : Option Bytes :=
  if x.is .nmFill then some ((List.range 8).flatMap fun _ => leBytes 8 (x.f 0x20 8))
  else if x.is .nmCopy then (if j.clear x k then alGet (0, k) j.got else none)
  else match alGet (0, k) j.got, alGet (1, k) j.got with
    | some a, some b => if x.is .nmReduce then some (reduceLine (x.f 0x38 1) (x.f 0x39 1) a b) else some (xorBytes a b)
    | _, _ => none

/-- Lines are written (or compared) in ascending order while they are ready; the command stops at a line boundary for a poisoned
line (R492, R495). -/
def State.nmWrite (s : State) (x : Cmd) : Nat → State
  | 0 => s
  | fuel + 1 =>
    match s.nmJob x.uid with
    | none => s
    | some j =>
      if j.poison = some j.next then s.nmEnd x St.poison 0 0
      else if j.next ≥ j.lines then
        let r1 := if x.is .nmCompare then j.differ.getD (2 ^ 64 - 1) else 0
        let s1 := if j.differ.isSome then s.bumpP F.NM_DIFFER x.part else s
        s1.nmEnd x St.ok (64 * j.lines) r1
      else match j.result x j.next with
        | none => s
        | some b =>
          let step := { j with next := j.next + 1, got := del (fun g => g.1.2 == j.next && !(x.is .nmCopy)) j.got }
          if x.is .nmCompare then
            let d := b.findIdx? fun v => v != 0
            (s.setNm { step with differ := j.differ.orElse fun _ => d.map (64 * j.next + ·) }).nmWrite x fuel
          else match s.traySend (nmExt (x.f 0x18 8)) with
            | none => s
            | some s1 =>
              let v := x.f 0x18 8
              let tray := ((s.extent (nmExt v)).map (·.tray)).getD 0
              ((s1.setNm step).emit (.trayWrite tray (nmExt v) (nmOff v / 64 + j.next) b)).nmWrite x fuel

/-- Requests a job may make at once: no tray's limit is above 512 (R488). -/
def nmFuel (j : NmJob) : Nat := 2 * j.lines + 2

/-- An NM command goes on from where it stands: cancel and revocation at a line boundary (R483, R492), a free NM unit, reads, writes. -/
def State.nmGo (s : State) (x : Cmd) : State :=
  match s.nmJob x.uid with
  | none => s
  | some j =>
    let revoked := (x.nmOperands.map fun v => s.extent (nmExt v)).any fun e => match e with
      | some y => y.st == .revoking || (y.st == .releasing && y.relUid ≤ x.uid)
      | none => true
    let busy := (s.cxl.jobs.filter fun k => k.die == j.die && k.running).length
    if ((s.cmd x.uid).map (·.cancelled)).getD false then s.nmEnd x St.cancelled 0 0
    else if revoked then s.nmEnd x St.extentRevoked 0 0
    else if !j.running && (busy ≥ 4 || s.paused 0x16 (j.die + 1)) then s
    else
      let s1 := s.setNm { j with running := true }
      ((s1.nmRead x 0 (nmFuel j)).nmRead x 1 (nmFuel j)).nmWrite x (nmFuel j)

/-- An NM command: checked, given a bridge die, carried on. -/
def State.nmRun (s : State) (c : Nat) (o : Op) : State :=
  match s.running c o with
  | none => s
  | some x =>
    if (s.nmJob c).isSome then s.nmGo x
    else match s.nmCheck x with
      | some st =>
        (if st = St.perm then (s.bump F.TAG_FAULTS).raise Ev.TAG_FAULT x.part else s).nmClose x st 0 0
      | none =>
        if x.cancelled then s.nmClose x St.cancelled 0 0
        else
          let j : NmJob := { cmd := c, op := x.op, die := s.nmDie x, running := false, lines := x.f 0x28 8 / 64 }
          ({ s with cxl := { s.cxl with jobs := s.cxl.jobs ++ [j] } } : State).nmGo x

/-- NM_FILL (R490). -/
def execNmFill (c : Nat) (s : State) : Host.Outcome State Fault Refusal := .next (s.nmRun c .nmFill)

/-- NM_COPY (R490). -/
def execNmCopy (c : Nat) (s : State) : Host.Outcome State Fault Refusal := .next (s.nmRun c .nmCopy)

/-- NM_COMPARE (R490). -/
def execNmCompare (c : Nat) (s : State) : Host.Outcome State Fault Refusal := .next (s.nmRun c .nmCompare)

/-- NM_REDUCE (R490, R491). -/
def execNmReduce (c : Nat) (s : State) : Host.Outcome State Fault Refusal := .next (s.nmRun c .nmReduce)

/-- TRAY_RESPONSE (R488, R495): a tray answers a request for a line, with its DevLoad; a read brings the line's bytes, none for poison. A
line no read waits for answers a write. -/
def execTrayResponse (tray ext line load : Nat) (data : Option Bytes) (s : State) : Host.Outcome State Fault Refusal :=
  let t := s.tray tray
  let s1 := s.setTray { t.adjust load s.now with outstanding := t.outstanding - 1 }
  let hit := fun (j : NmJob) => (s.cmd j.cmd).bind fun x =>
    (j.out.find? fun r => (x.nmSrc r.1).any fun v => nmExt v == ext && nmOff v / 64 + r.2 == line).map fun r => (j, x, r)
  match s.cxl.jobs.findSome? hit with
  | none => .next s1
  | some (j, x, r) =>
    let left := { j with out := j.out.erase r }
    match data with
    | some b => .next ((s1.setNm { left with got := left.got ++ [(r, b)] }).nmGo x)
    | none =>
      let port := ((s.extent ext).bind s.trayPort).getD 0
      let k := min r.2 (left.poison.getD r.2)
      .next ((((s1.setNm { left with poison := some k }).bumpU F.POISON_RX port).raiseU Ev.POISON port).nmGo x)

end Sys2Proof.Machine
end

