-- ==== Sys2Proof/Machine/DlvCmds.lean ====
section
/-! DEFINITION. DELIVER and FETCH, destinations, shapers, gates, the port scheduler, links and holds (chapter 11), the stream codecs' lanes
(R352–R354), LLDP (R505), loss of IDE (R645), Viral (R496). -/

namespace Sys2Proof.Machine

/-! ### Stream codecs (R352–R354) -/

/-- A block leaves its lane: bytes and time are counted (R429), its decode steps enter the layer's mean (R351). -/
def State.blockDone (s : State) (b : Nat) (j : CodecJob) : State :=
  let k := s.codec b
  let io := if j.decode then (j.stored, j.bytes) else (j.bytes, j.stored)
  let s0 := s.setCodec { k with inBytes := k.inBytes + io.1, outBytes := k.outBytes + io.2 }
  let s1 := if j.decode then s0.sawSteps j.part j.layer j.steps else s0
  let ns := j.steps * 16000 / max 1 (s.pace (8 + b))
  let s2 := s1.act j.part j.qg (if j.decode then .decoded else .encoded) 1
  if j.owner = 0 then s2.charge j.part j.qg .nsCodec ns else s2.chargeCmd j.owner .nsCodec ns true

/-- A block to decode failed its CRC (R338): its page's copy is bad, and the block is read from another near copy; without one the delivery
fetches the page again, or ends. -/
def State.blockBad (s : State) (b : Nat) (j : CodecJob) : State :=
  match j.page with
  | none => s
  | some (p, serial) =>
    let s1 := s.crcSeen j.part none
    let s2 := match (s1.copiesOf p serial).find? fun c => c.good && decide (c.tier ≤ 1) with
      | some c => s1.badCopy p serial c.tier c.die
      | none => s1
    if s2.near p serial then s2.queueBlock b { j with first := false, endT := 0 }
    else
      let keep := fun (k : Codec) => { k with queue := del (fun y => y.owner == j.owner) k.queue }
      ({ s2 with att := { s2.att with codecs := s2.att.codecs.map keep } } : State).setCmd j.owner fun c => { c with phase := 0 }

/-- The lane CODEC_LANE_TAKE is about (R352): the one whose block is done first; else a free one while a block waits and the codec is not paused;
else the one whose block will be done first. -/
def State.laneNext (s : State) (bridge : Nat) : Option Nat :=
  let k := s.codec bridge
  let ready := (List.range k.lanes.length).filter fun i => k.okLanes.getD i false
  let first := argMin (fun (i : Nat) => ((k.lanes.getD i none).elim 0 fun j => (j.endT : Int))) (ready.filter fun i => (k.lanes.getD i none).isSome)
  let done := first.filter fun i => (k.lanes.getD i none).any fun j => decide (j.endT ≤ s.now)
  let free := if k.queue.isEmpty || s.paused 0x0D (bridge + 1) then none else ready.find? fun i => (k.lanes.getD i none).isNone
  (done.or free).or first

/-- CODEC_LANE_TAKE (R352): a lane whose block is done, or that is free, takes the next block by deficit round robin over the queue groups;
groups without a share are served when no other waits. The block that ends may have failed its CRC (R338). -/
def execCodecLaneTake (lane : LaneOf) (s : State) : Host.Outcome State Fault Refusal :=
  let bridge := lane.bridge
  match s.laneNext bridge with
  | none => .next s
  | some i =>
    let k := s.codec bridge
    let s1 := match k.lanes.getD i none with
      | some j =>
        let a := (s.reach j.endT).blockDone bridge j
        if lane.ok || !j.decode then a else a.blockBad bridge j
      | none => s
    let k1 := { s1.codec bridge with lanes := nthUpd i (fun _ => none) k.lanes }
    let share := fun (j : CodecJob) => s1.shareOf j.part j.qg
    let groups := (k1.queue.map fun j => (j.part, j.qg)).eraseDups
    let head := fun (g : Nat × Nat) => k1.queue.find? fun j => j.part == g.1 && j.qg == g.2
    let paid := groups.filter fun g => (head g).any fun j => share j != 0
    let unit := s1.gu F.SC_CTRL bridge * 4096
    let ms := (if s1.paused 0x0D (bridge + 1) then [] else if paid.isEmpty then groups else paid).filterMap fun g => (head g).map fun j =>
      (j.part * 256 + j.qg, j.bytes, if share j = 0 then 4096 else unit * share j)
    match (k1.drr.prune fun k => ms.any fun m => [m.1] == k).pick [] ms with
    | (d, none) => .next (s1.setCodec { k1 with drr := d })
    | (d, some n) =>
      match k1.queue.find? fun j => j.part == n / 256 && j.qg == n % 256 with
      | none => .next (s1.setCodec { k1 with drr := d })
      | some j =>
        let run := { j with endT := s1.now + j.steps * 16000 / max 1 (s1.pace (8 + bridge)) }
        let s2 := s1.setCodec { k1 with
          drr := d.spend [n] j.bytes, lanes := nthUpd i (fun _ => some run) k1.lanes, queue := k1.queue.erase j }
        let wait := s1.now - j.since
        .next (if j.first ∧ share j ≠ 0 ∧ wait > s2.gu F.SC_WAIT_MAX bridge then s2.wu F.SC_WAIT_MAX bridge wait else s2)

/-- CODEC_LANE_FAIL (R354): the lane is retired and its block restarts on another lane. -/
def execCodecLaneFail (bridge lane : Nat) (s : State) : Host.Outcome State Fault Refusal :=
  let k := s.codec bridge
  if !k.okLanes.getD lane false then .next s
  else
    let back := match k.lanes.getD lane none with | some j => [{ j with first := false }] | none => []
    let k1 := { k with okLanes := nthUpd lane (fun _ => false) k.okLanes, lanes := nthUpd lane (fun _ => none) k.lanes, queue := back ++ k.queue }
    let s1 := s.setCodec k1
    let s2 := if k1.okLanes.any id then s1
      else
        let o := s1.codec (1 - bridge)
        (s1.setCodec { k1 with queue := [] }).setCodec { o with queue := o.queue ++ k1.queue }
    .next (s2.raiseU Ev.LANE_FAIL bridge)

/-- Blocks of a page as decode jobs of a command (R348). -/
def State.decodeJobs (s : State) (x : Cmd) (qg : Nat) (y : Page) : List CodecJob :=
  match s.geom y.part with
  | none => []
  | some ge =>
    match ge.sets y.layer with
    | none => []
    | some t =>
      let steps := pageSteps ge y.layer (orderT y.order) y.image y.blocks (s.baseOf y) t
      (List.range y.blocks.length).map fun i =>
        { part := x.part, qg := qg, bytes := 4096, since := s.now, decode := true, owner := x.uid
          stored := ((y.blocks[i]?).map (·.size)).getD 0, steps := steps.getD i 0, layer := y.layer, page := some (y.part, y.serial) }

/-! ### DELIVER and FETCH (R439–R447) -/

/-- The pages of a delivery are read and cut into pushes, once each has a near copy and its blocks are decoded. -/
def State.carryDeliv (s : State) (x : Cmd) (d : Deliv) : State :=
  let need := if d.decoded then d.pages.flatMap fun e => s.decodeSet e.1 e.2 else d.pages
  let far := need.filter fun e => !s.near e.1 e.2
  -- the handle form names no sequence (R810)
  let f := if bit (x.f 0x24 1) 0 then 0 else x.seq % 256
  if d.pages.any fun e => !s.readable e.1 e.2 && !s.restoring e.1 e.2 then s.endDeliv x.uid St.lostData
  else if !far.isEmpty then far.foldl (fun (a : State) e => a.demandFetch e.1 e.2 f x.uid 0) s
  else
    let ys := d.pages.filterMap fun e => s.page e.1 e.2
    let owned := fun (j : CodecJob) => j.owner == x.uid
    let pending := s.att.codecs.any fun k => k.queue.any owned || k.lanes.any fun l => l.any owned
    if d.decoded ∧ x.phase = 0 ∧ !ys.isEmpty then
      let b := d.port / 4 % 2
      (ys.flatMap (s.decodeJobs x x.qg)).foldl (fun (a : State) j => a.queueBlock b j) (s.setCmd x.uid fun c => { c with phase := 1 })
    else if pending then s
    else
      let recs := ys.map fun y => y.record d.decoded
      let ends := recs.foldl (fun (a : List Nat × Nat) r => (a.1 ++ [a.2 + r.length], a.2 + r.length)) ([], 0)
      let s1 := ys.foldl (fun (a : State) y =>
        let t0 := (a.copiesOf y.part y.serial).any fun c => c.tier == 0 && c.good
        (a.chargeCmd x.uid (if t0 then .t0Rd else .t1Rd) y.stored false).addScore y.part y.serial
          (Fp.div Fp.one (Fp.ofInt ys.length)) x.seq) s
      let s2 := (chunks 4096 recs.flatten).foldl (fun (a : State × Nat) b =>
        (a.1.queuePush d (x.f 0x30 8 + a.2) b false, a.2 + b.length)) (s1, 0)
      (s2.1.setDeliv x.uid fun y => { y with cut := true, ends := ends.1 }).settleDeliv x.uid

/-- Bytes of the page records of some pages (R441). -/
def State.recordsBytes (s : State) (decoded : Bool) (ps : List (Nat × Nat)) : Nat :=
  sumBy (fun (q : Nat × Nat) => ((s.page q.1 q.2).map fun y => (y.record decoded).length).getD 0) ps

/-- Counted bytes of n payload bytes cut into pushes (R444, R449). -/
def DqCfg.countedAll (k : DqCfg) (n : Nat) : Nat :=
  n / 4096 * k.counted 4096 + if n % 4096 = 0 then 0 else k.counted (n % 4096)

/-- Time until the last of n payload bytes of a command accepted now may be sent (R447): the counted bytes ahead of them in their delivery queue
at the port and their own at the port rate, through the gates except for a FETCH; no sooner than the peak bucket lets the command's own
bytes go. The rule names what the prediction takes into account and no formula: this one is a DESIGN CHOICE (assumption 86). -/
def State.predictPush (s : State) (x : Cmd) (e : Dest) (n : Nat) : Nat :=
  let own := x.dqCfg.countedAll n
  let dq := x.f 0x20 2
  let ahead := sumBy (·.charge) (s.dlv.pushes.filter fun y => y.port == e.port && y.part == x.part && y.dq == dq && y.st == 0) +
    sumBy (fun (d : Deliv) => d.cfg.countedAll (s.recordsBytes d.decoded d.pages))
      (s.dlv.delivs.filter fun d => d.port == e.port && d.part == x.part && d.dq == dq && !d.cut && d.status.isNone)
  let wire := ceilDiv ((ahead + own) * 1000) (s.portRate e.port)
  let gate := if x.is .fetch then wire else (s.port e.port).openAfter s.now x.dqCfg.cls wire
  let shaper := if e.shp.2.1 = 0 then 0 else ceilDiv (((own * 1000 : Nat) : Int) - e.peak.tokens).toNat e.shp.2.1
  max gate shaper

/-- DELIVER or FETCH at its start: the checks of R440 and R469, and again those of R442 that the page list fixed now decides; then the
delivery. -/
def State.runDeliv (s : State) (c : Nat) (o : Op) : State :=
  match s.running c o with
  | none => s
  | some x =>
    match s.deliv c with
    | some d =>
      if x.cancelled then s.endDeliv c St.cancelled
      else if d.cut ∨ d.status.isSome then s.settleDeliv c
      else s.carryDeliv x d
    | none =>
      if x.cancelled then s.fail c St.cancelled
      else
        let p := x.part
        match s.dest p (x.f 0x28 4) with
        | none => s.fail c St.badCmd
        | some e =>
          if (s.port e.port).st = .down then
            ((s.bumpP F.HOLD_DROPS p).raise Ev.HOLD_DROP p).fail c St.portLost
          else if e.port < 8 ∧ (s.port e.port).st = .up ∧ !s.ideOk e.port then s.fail c St.perm
          else match s.pageList x with
            | none => s
            | some (.error st) => s.failNamed c st x.part
            | some (.ok ps) =>
              let decoded := bit (x.f 0x24 1) 1
              if x.f 0x30 8 + s.recordsBytes decoded ps > e.len then s.fail c St.badCmd
              else
                let d : Deliv := { cmd := c, part := p, fetch := o == .fetch, pages := ps, dq := x.f 0x20 2, dest := e.num, port := e.port
                                   decoded := decoded, cfg := x.dqCfg }
                let layers := if bit (x.f 0x24 1) 0 then [] else (List.range (max 1 (x.f 0x22 2))).map (· + x.layer)
                let s1 : State := { s with dlv := { s.dlv with delivs := s.dlv.delivs ++ [d] } }
                -- a FETCH is no step of a cadence group (R232)
                let s2 := if o == .deliver then layers.foldl (fun (a : State) l => a.cadenceSee p x.seq l) s1 else s1
                let s3 := match layers.getLast? with
                  | some l => s2.seqPrefetch p x.seq l (x.f 0x18 4) (x.f 0x1C 4) x.qg
                  | none => s2
                s3.carryDeliv x d

/-- DELIVER (R439–R448). -/
def execDeliver (c : Nat) (s : State) : Host.Outcome State Fault Refusal := .next (s.runDeliv c .deliver)

/-- FETCH (R439–R448). -/
def execFetch (c : Nat) (s : State) : Host.Outcome State Fault Refusal := .next (s.runDeliv c .fetch)

/-! ### Destinations and shapers (R437, R450, R451, R462) -/

/-- The shaper written for a destination: CIR, PIR, CBS, PBS in bytes. -/
def State.shaperRegs (s : State) (p d : Nat) : Nat × Nat × Nat × Nat :=
  (s.gps F.SHP_CIR p d, s.gps F.SHP_PIR p d, s.gps F.SHP_BURST_CBS_KIB p d * 1024, s.gps F.SHP_BURST_PBS_KIB p d * 1024)

def shaperOk (v : Nat × Nat × Nat × Nat) : Bool :=
  (v.2.1 == 0 || decide (v.1 ≤ v.2.1)) && decide (8192 ≤ v.2.2.2) && (v.1 == 0 || decide (8192 ≤ v.2.2.1))

/-- DEST_COMMIT (R437, R450, R470). A refused commit leaves the settings in force. -/
def execDestCommit (part dest : Nat) (s : State) : Host.Outcome State Fault Refusal :=
  if part ≥ 64 ∨ dest ≥ s.gp F.DEST_LIMIT part ∨ s.partFree part = true then .next s
  else
    let s0 := s.wps F.DEST_CTRL_COMMIT part dest 0
    let port := s.gps F.DEST_CTRL_PORT part dest
    let land := s.gps F.DEST_LAND part dest
    let landEn := s.gps F.DEST_CTRL_LAND_EN part dest == 1
    let base := s.gps F.DEST_BASE part dest
    let len := s.gps F.DEST_LEN part dest
    let shp := s.shaperRegs part dest
    let old := s.dest part dest
    let empty : Bucket := { tokens := 0, last := s.now }
    let blank : Dest := { part := part, num := dest, port := port, conn := 0, base := 0, len := 0, land := 0, landEn := false, st := 0
                          committed := empty, peak := empty }
    let keep := fun (a : State) (d : Dest) => ({ a with dlv := { a.dlv with
      dests := put (fun (x : Dest) => x.part == part && x.num == dest) d a.dlv.dests } } : State)
    let refuse := fun (a : State) (n : Nat) => (keep a { old.getD blank with reason := n }).raise Ev.DEST_REFUSED part
    if !bit (s.gp F.PORT_MASK part) port ∨ !s.portEnabled port then .next (refuse s0 1)
    else if s.tdiHolds port (part + 1) then
      -- R470: held by a locked interface; the chapters name no reason code
      .next (refuse s0.choose.2 (s0.choose.1 % 16))
    else if base % 64 ≠ 0 then .next (refuse s0 2)
    else if !shaperOk shp then .next (refuse s0 3)
    else if landEn ∧ land + 16 * s.gp F.DQ_LIMIT part > len then .next (refuse s0 4)
    else
      let o := old.getD { blank with shp := shp }
      -- without ENABLE it drains what names it (R462)
      let st := if s.gps F.DEST_CTRL_ENABLE part dest = 1 then 1 else if o.st = 1 then 2 else 3
      .next ((keep s0 { o with
        port := port, conn := s.gps F.DEST_REMOTE part dest, base := base, len := len, land := land, landEn := landEn
        st := st, reason := 0, shpNext := shp }).settleDest part dest)

/-- DEST_DISABLE (R462). -/
def execDestDisable (part dest : Nat) (s : State) : Host.Outcome State Fault Refusal :=
  if s.partFree part then .next s
  else .next (((s.wps F.DEST_CTRL_ENABLE part dest 0).setDest part dest fun d => if d.st = 1 then { d with st := 2 } else d).settleDest part dest)

/-- SHAPER_REFILL (R451): a refill uses the rates last committed and clips each bucket to its new size. -/
def execShaperRefill (part dest : Nat) (s : State) : Host.Outcome State Fault Refusal :=
  match s.dest part dest with
  | none => .next s
  | some d =>
    let ns := s.gu F.REFILL_NS d.port
    let s1 := s.reach (d.committed.last + ns)
    let (cir, pir, cbs, pbs) := d.shpNext
    .next (s1.setDest part dest fun x => { x with
      shp := x.shpNext
      committed := { tokens := min ((cbs * 1000 : Nat) : Int) (x.committed.tokens + ((cir * ns : Nat) : Int)), last := s1.now }
      peak := { tokens := min ((pbs * 1000 : Nat) : Int) (x.peak.tokens + ((pir * ns : Nat) : Int)), last := s1.now } })

/-! ### The port scheduler (R452, R453) -/

/-- The head push of a flow: the first of its earliest command, unless an earlier command of the queue for the port has still pushes to
come (R444). -/
def State.flowHead (s : State) (port p dq : Nat) : Option Push :=
  let mine := s.dlv.pushes.filter fun x => x.port == port && x.part == p && x.dq == dq && x.st == 0
  let earlier := fun (n : Nat) => s.q.cmds.any fun c =>
    c.live && c.part == p && decide (c.uid < n) && (c.is .deliver || c.is .fetch) && c.f 0x20 2 == dq &&
    (match s.dest p (c.f 0x28 4) with | some e => e.port == port | none => false) &&
    (match s.deliv c.uid with
     | none => true
     | some d => !d.cut || (match s.dest p d.dest with | some e => e.landEn && !d.landSent | none => false))
  match argMin (fun (x : Push) => ((x.cmd * 2 ^ 64 + x.id : Nat) : Int)) mine with
  | some x => if earlier x.cmd then none else some x
  | none => none

def Dest.peakOk (d : Dest) (len : Nat) : Bool := d.shp.2.1 == 0 || decide (((len * 1000 : Nat) : Int) ≤ d.peak.tokens)
def Dest.isCommitted (d : Dest) (len : Nat) : Bool := d.shp.1 != 0 && decide (((len * 1000 : Nat) : Int) ≤ d.committed.tokens)

/-- The push may go now (R452, R454); on an Ethernet port its connection is open. -/
def State.eligible (s : State) (x : Push) : Bool :=
  match s.dest x.part x.dest with
  | none => false
  | some d =>
    let p := s.port x.port
    let gate := x.fetch || fitsIn x.charge (s.portRate x.port) (p.gateLeft s.now x.cls)
    d.peakOk x.charge && gate && s.destOpen x.port d

/-- Step of R452 in which a push is chosen. -/
def State.pushStep (s : State) (x : Push) : Nat :=
  let c := (s.dest x.part x.dest).any fun d => d.isCommitted x.charge
  (if c then 0 else 2) + if x.fetch then 0 else 1

/-- The members that keep their deficit (R453): partitions, groups and flows with an eligible head. -/
def drrAlive (hs : List Push) (k : List Nat) : Bool := hs.any fun x => k.isPrefixOf [x.part, x.qg, x.dq]

/-- The deficit round robin of R453 over eligible heads of one step of R452. -/
def State.drrPush (s : State) (drr : Drr) (hs : List Push) : Drr × Option Push :=
  let share := fun (x : Push) => s.shareOf x.part x.qg
  let flows := fun (p g : Nat) => hs.filter fun x => x.part == p && x.qg == g
  let flowMs := fun (p g : Nat) => (flows p g).map fun x => (x.dq, x.charge, x.quantum)
  -- the head a group would send, and the one a partition would
  let ofGroup := fun (p g : Nat) => (drr.pick [p, g] (flowMs p g)).2.bind fun q => (flows p g).find? fun x => x.dq == q
  let groupMs := fun (p : Nat) =>
    let mine := hs.filter fun x => x.part == p
    let gs := (mine.map (·.qg)).eraseDups
    let paid := gs.filter fun g => mine.any fun x => x.qg == g && share x != 0
    (if paid.isEmpty then gs else paid).filterMap fun g => (ofGroup p g).map fun x => (g, x.charge, 16 * max 1 (share x))
  let ofPart := fun (p : Nat) => (drr.pick [p] (groupMs p)).2.bind (ofGroup p)
  let partMs := ((hs.map (·.part)).eraseDups).filterMap fun p => (ofPart p).map fun x => (p, x.charge, 16 * (s.partition p).desc.weight)
  match drr.pick [] partMs with
  | (d, none) => (d, none)
  | (d1, some p) =>
    match d1.pick [p] (groupMs p) with
    | (d, none) => (d, none)
    | (d2, some g) =>
      match d2.pick [p, g] (flowMs p g) with
      | (d, none) => (d, none)
      | (d3, some q) =>
        match (flows p g).find? fun x => x.dq == q with
        | some x => (((d3.spend [p] x.charge).spend [p, g] x.charge).spend [p, g, q] x.charge, some x)
        | none => (d3, none)

/-- The push leaves: buckets, charges, and on CXL its delivery goes on at once (R446, R451); there it carries the requester ID of the partition's
virtual function, on Ethernet it goes out on the destination's connection (R438). -/
def State.sendPush (s : State) (x : Push) : State :=
  match s.dest x.part x.dest with
  | none => s
  | some d =>
    let len := ((x.charge * 1000 : Nat) : Int)
    let s1 := s.setDest x.part x.dest fun e => { e with
      peak := { e.peak with tokens := e.peak.tokens - len }
      committed := if d.isCommitted x.charge then { e.committed with tokens := e.committed.tokens - len } else e.committed }
    let s2 := (s1.emit (.push x.port (if x.port < 8 then x.part + 1 else 0) (if x.port < 8 then 0 else d.conn) (d.base + x.off) x.data)).chargeCmd x.cmd
      (if x.port < 8 then .hostOut else .peerOut) x.data.length false
    if x.port < 8 then
      let s3 : State := { s2 with dlv := { s2.dlv with pushes := del (fun y => y.id == x.id) s2.dlv.pushes } }
      ((s3.setDeliv x.cmd fun y => if x.landing then y else { y with written := y.written + x.data.length, lastT := s3.now }).settleDeliv
        x.cmd).settleDest x.part x.dest
    else { s2 with dlv := { s2.dlv with pushes := upd (fun y => y.id == x.id) (fun y => { y with st := 1 }) s2.dlv.pushes } }

/-- The head's command would end after its deadline (R447). -/
def State.pushLate (s : State) (x : Push) : Bool :=
  let dl := ((s.cmd x.cmd).map (·.deadline)).getD 0
  !x.landing && dl != 0 && decide (s.now * s.portRate x.port + x.charge * 1000 > dl * s.portRate x.port)

/-- PUSH_SEND (R447, R452, R453). -/
def execPushSend (port : Nat) (s : State) : Host.Outcome State Fault Refusal :=
  let flows := fun (a : State) => ((a.dlv.pushes.filter fun x => x.port == port && x.st == 0).map fun x => (x.part, x.dq)).eraseDups
  let heads := fun (a : State) => (flows a).filterMap fun f => a.flowHead port f.1 f.2
  let s1 := (heads s).foldl (fun (a : State) x => if s.pushLate x then a.endDeliv x.cmd St.deadlineMiss else a) s
  let able := fun (a : State) => (heads a).filter fun x => a.eligible x && !a.pushLate x
  let es := able s1
  match argMin (fun (x : Push) => (s1.pushStep x : Int)) (if s.paused 0x10 (port + 1) then [] else es) with
  | none => .next (s1.setPort port fun p => { p with drr := p.drr.prune (drrAlive es) })
  | some b =>
    match s1.drrPush ((s1.port port).drr.prune (drrAlive es)) (es.filter fun x => s1.pushStep x == s1.pushStep b) with
    | (d, none) => .next (s1.setPort port fun p => { p with drr := d })
    | (d, some x) =>
      let s2 := (s1.setPort port fun p => { p with drr := d }).sendPush x
      .next (s2.setPort port fun p => { p with drr := p.drr.prune (drrAlive (able s2)) })

/-- PUSH_ACK (R446): the RoCEv2 acknowledgement of a write, or its failure once the transport's retries are exhausted, which puts the
connection into error; the chapters give the command no status for it: a free value. Its landing record is held until the connection is
open again. -/
def execPushAck (push : Nat) (ok : Bool) (s : State) : Host.Outcome State Fault Refusal :=
  match s.dlv.pushes.find? fun x => x.id == push && x.st == 1 with
  | none => .next s
  | some x =>
    let s1 : State := { s with dlv := { s.dlv with pushes := del (fun y => y.id == push) s.dlv.pushes } }
    if ok then
      .next (((s1.setDeliv x.cmd fun y => if x.landing then y else { y with written := y.written + x.data.length, lastT := s1.now }).settleDeliv
        x.cmd).settleDest x.part x.dest)
    else
      let conn := ((s.dest x.part x.dest).map (·.conn)).getD 0
      let cs := upd (fun (c : Conn) => c.num == conn && !c.malroth) (fun c => { c with st := .error, reason := 4 }) s1.net.conns
      let s2 := ({ s1 with net := { s1.net with conns := cs } } : State).raise Ev.CONN_ERROR x.part
      let k := s2.choose
      let s3 : State := { k.2 with dlv := { k.2.dlv with pushes := del (fun y => x.cmd != 0 && y.cmd == x.cmd && y.st == 0) k.2.dlv.pushes } }
      .next (((s3.setDeliv x.cmd fun y => { y with status := some (k.1 % 256) }).settleDeliv x.cmd).settleDest x.part x.dest)

/-! ### Gate lists (R454, R455) -/

/-- The admin list of a port. -/
def State.adminList (s : State) (i : Nat) : List GateEnt :=
  (List.range (s.gu F.GATE_CTRL_ENTRIES i)).map fun k =>
    { mask := s.reg F.GATE_ADMIN_MASK (i + 1) 255 0 k, ns := max 100 (s.reg F.GATE_ADMIN_INTERVAL_NS (i + 1) 255 0 k) }

/-- GATE_COMMIT (R455): refused when a class that a delivery queue of the port uses never opens long enough for a full push. The delivery
queues of a port are those of the partitions that may name it. -/
def execGateCommit (port : Nat) (s : State) : Host.Outcome State Fault Refusal :=
  if port ≥ 16 then .next s
  else
    let l := s.adminList port
    let cycle := s.gu F.GATE_CYCLE_NS port
    let base := s.gu F.GATE_BASE port
    let sp := gateSpans l cycle
    let bad := (s.part.parts.filter fun p => p.live && bit (s.gp F.PORT_MASK p.num) port).any fun p =>
      (List.range (s.gp F.DQ_LIMIT p.num)).any fun dq =>
        !fitsIn (s.counted p.num dq 4096) (s.portRate port) (longestOpen sp (s.gps F.DQ_CFG_GATE_CLASS p.num dq))
    if bad then .next (((s.wu F.GATE_CTRL_COMMIT port 0).wu F.GATE_CTRL_STATE port 2).raiseU Ev.GATE_REFUSED port)
    else
      let t := max (s.gu F.GATE_CHANGE_TIME port) s.now
      let at_ := if base ≤ t then base + ceilDiv (t - base) cycle * cycle else base - (base - t) / cycle * cycle
      .next (((s.wu F.GATE_CTRL_COMMIT port 1).wu F.GATE_CTRL_STATE port 1).setPort port fun p =>
        { p with pending := some l, pendingT := at_, pendBase := base, pendCycle := cycle })

/-- GATE_SWITCH (R455): the cycle start has come, the admin list becomes operational. -/
def execGateSwitch (port : Nat) (s : State) : Host.Outcome State Fault Refusal :=
  let p := s.port port
  match p.pending with
  | none => .next s
  | some l =>
    let s1 := s.reach p.pendingT
    let s2 := s1.setPort port fun x =>
      { x with gate := l, gateBase := p.pendBase, gateCycle := p.pendCycle, gateCur := 0, gateT := p.pendingT, pending := none }
    .next (((s2.wu F.GATE_CTRL_COMMIT port 0).wu F.GATE_CTRL_STATE port 0).raiseU Ev.GATE_SWITCH port)

/-- GATE_INTERVAL_END (R454): the next entry is in force; after the last one the cycle begins again. -/
def execGateIntervalEnd (port : Nat) (s : State) : Host.Outcome State Fault Refusal :=
  let p := s.port port
  match p.spans[p.gateCur]? with
  | none => .next s
  | some e =>
    let t := p.gateT + e.2
    .next ((s.reach t).setPort port fun x => { x with gateCur := if p.gateCur + 1 < p.spans.length then p.gateCur + 1 else 0, gateT := t })

/-! ### Links and holds (R456, R468, R497, R505, R706) -/

/-- LINK_DOWN (R456). -/
def execLinkDown (port : Nat) (s : State) : Host.Outcome State Fault Refusal := .next (s.linkDown port)

/-- LINK_UP (R456, R468, R706): the link has trained at a rate code and width, with its partner's serial and port number, whether its IDE
streams are established, and the loss of each lane in 0.1 dB. An Ethernet port learns its partner from LLDP (R505). -/
def execLinkUp (port rate width : Nat) (cxl ide : Bool) (partner : Option Nat) (partnerPort : Nat) (loss : List Nat) (s : State) :
    Host.Outcome State Fault Refusal :=
  let p := s.port port
  if port ≥ 16 ∨ p.st = .up ∨ p.trained ∨ s.hw.stopped ∨ s.boot.halted ∨ !s.stepDone 2 ∨ !s.bridgeUp (port / 4 % 2) then .next s
  else
    let s1 := s.setPort port fun x =>
      { x with trained := true, rate := rate, width := width, linkT := s.now, loss := loss
               cxl := cxl && port < 8, ideUp := ide && port < 8
               partner := if port < 8 then partner else none, partnerPort := if port < 8 then partnerPort else 0
               lldp := none, lldpT := s.now }
    let s2 := if port < 8 ∧ p.linkT ≠ 0 then s1.bumpU F.RETRAINS port else s1
    let s3 := match p.st with
      | .down =>
        let a := (s2.setPort port fun x => { x with st := .up, heldPartner := none }).releaseConns port
        if port < 8 ∧ p.linkT ≠ 0 ∧ (p.identity ≠ (s2.port port).identity ∨ partner.isNone) then a.raiseU Ev.CXL_PARTNER_CHANGED port else a
      | _ => if port < 8 then s2.endHold port (partner.isSome && (s2.port port).identity == p.heldPartner) else s2
    .next (if port < 8 then s3.cxl.jobs.foldl (fun (a : State) j => match a.cmd j.cmd with | some x => a.nmGo x | none => a) s3 else s3)

/-- HOLD_EXPIRE (R456). -/
def execHoldExpire (port : Nat) (s : State) : Host.Outcome State Fault Refusal :=
  let p := s.port port
  if p.st = .holding ∧ !p.trained then
    let s1 := s.reach (p.holdT + s.gu F.HOLD_US port * 1000)
    .next ((s1.setPort port fun x => { x with st := .down }).discardHeld port)
  else .next s

/-- Values of the chassis ID and port ID TLVs of an LLDP frame, one after the other; `fuel` bounds the TLVs. -/
def lldpIds : Nat → Bytes → Bytes
  | 0, _ => []
  | n + 1, b =>
    if b.length < 2 then []
    else
      let h := rd b 0 1 * 256 + rd b 1 1
      let typ := h / 512
      let len := h % 512
      let rest := lldpIds n (b.drop (2 + len))
      if typ = 1 ∨ typ = 2 then slice b 2 len ++ rest else if typ = 0 then [] else rest

/-- LLDP_RECEIVE (R505): the port's partner identity follows the frame; a held port learns whether its partner is the one it had. -/
def execLldpReceive (port : Nat) (tlv : Bytes) (s : State) : Host.Outcome State Fault Refusal :=
  let i := 8 + port
  let p := s.port i
  if port ≥ 8 ∨ !p.trained then .next s
  else
    let id := leNat ((Blake.hash 32 [] (lldpIds 128 tlv)).take 8)
    let s1 := s.setPort i fun x => { x with lldp := some id, lldpT := s.now }
    if p.st = .holding then .next (s1.endHold i (p.heldPartner == some id))
    else .next s1

/-- LLDP_TIMEOUT (R505): no frame within 1 s of link-up: the partner has no identity. -/
def execLldpTimeout (port : Nat) (s : State) : Host.Outcome State Fault Refusal :=
  let i := 8 + port
  let p := s.port i
  if port ≥ 8 ∨ !p.trained ∨ p.lldp.isSome then .next s
  else
    let s1 := s.reach (p.linkT + 1000000000)
    .next (if p.st = .holding then s1.endHold i false else s1)

/-- Depth and delay of a delivery queue are taken (R461); pushes held count. -/
def State.sampleDq (s : State) (part dq : Nat) : State :=
  let mine := s.dlv.pushes.filter fun x => x.part == part && x.dq == dq && x.st == 0
  let top := 0xFFFFFFFF
  let depth := min top (sumBy (·.charge) mine)
  let delay := min top (maxBy (fun (x : Push) => s.now - x.readyT) mine)
  let s1 := (s.wps F.DQ_DEPTH part dq depth).wps F.DQ_DELAY part dq delay
  let s2 := s1.wps F.DQ_DEPTH_MAX part dq (max depth (s.gps F.DQ_DEPTH_MAX part dq))
  s2.wps F.DQ_DELAY_MAX part dq (max delay (s.gps F.DQ_DELAY_MAX part dq))

/-- DLV_SAMPLE (R461): every 2^SAMPLE_LOG2 µs all delivery queues of a partition are sampled. -/
def execDlvSample (part : Nat) (_which : Sampled) (s : State) : Host.Outcome State Fault Refusal :=
  let s1 := s.reach (alGetD part 0 s.dlv.sampleT + 2 ^ s.gp F.DLV_CTRL part * 1000)
  let s2 := (List.range (s.gp F.DQ_LIMIT part)).foldl (fun (a : State) dq => a.sampleDq part dq) s1
  .next { s2 with dlv := { s2.dlv with sampleT := alSet part s1.now s2.dlv.sampleT } }

/-- VIRAL_RECEIVED (R496). -/
def execViralReceived (port : Nat) (s : State) : Host.Outcome State Fault Refusal :=
  if port ≥ 8 ∨ (s.port port).st ≠ .up then .next s
  else .next ((s.raiseU Ev.VIRAL port).linkDown port)

/-- IDE_FAILURE (R469, R645): the port's link goes down. -/
def execIdeFailure (port : Nat) (s : State) : Host.Outcome State Fault Refusal :=
  if port < 8 ∧ (s.port port).ideUp then .next (s.linkDown port) else .next s

end Sys2Proof.Machine
end

