-- ==== Sys2Proof/Machine/FlashOps.lean ====
section
/-! DEFINITION. Flash: relocation, loss of positions, die failure and retirement (R558, R565, R571–R581). -/

namespace Sys2Proof.Machine

def State.sbOf (s : State) (b k n : Nat) : Option SuperBlk := s.ftl.sbs.find? fun x => x.bridge == b && x.set == k && x.num == n

/-- The member block that holds a unit; the one a relocation programs it into. -/
def State.unitAt (s : State) (u : NUnit) : Option (Nat × Nat × Nat) :=
  u.sb.bind fun n => (s.sbOf u.bridge u.set n).map fun x => x.memberOf u.group

def State.unitTo (s : State) (u : NUnit) : Option (Nat × Nat × Nat) :=
  u.to_.bind fun d => (s.sbOf u.bridge d.1 d.2.1).map fun x => x.memberOf d.2.2.1

/-- A block lies on a die. -/
def onDie (c t : Nat) (m : Option (Nat × Nat × Nat)) : Bool := match m with | some m => m.1 == c && m.2.1 == t | none => false

/-- Bytes programmed by garbage collection, refresh and static levelling (W_A, R582). -/
def State.background (s : State) (bytes : Nat) : State :=
  { s with ftl := { s.ftl with writes := s.ftl.writes ++ [(s.now, 0, bytes)] } }

/-- A unit is relocated to a TLC row of its set, or of another set of its bridge die where its own takes nothing (R562, R576, R580). -/
def State.relocate (s : State) (u : NUnit) : Option State :=
  let good := s.goodSets u.bridge
  let go := fun (a : State) (k : Nat) => (a.takeSlot u.bridge k false u.big).map fun (t, n, g, sl) =>
    t.setUnit u.lua fun v => { v with to_ := some (k, n, g, sl) }
  let s1 := match s.unitAt u with | some m => s.emit (.nand m.1 m.2.1 0 m.2.2) | none => s
  if good.contains u.set then go s1 u.set
  else if good.isEmpty then none
  else let c := s1.choose; go c.2 (good.getD (c.1 % good.length) 0)

/-- The units that can be are relocated, as background work of its kind: `counted` in W_A, `re` under REBUILD_PM (R566). -/
def State.relocateAll (s : State) (us : List NUnit) (counted re : Bool) : State :=
  us.foldl (fun (a : State) u =>
    match a.relocate u with
    | some t =>
      let t1 := t.bgTook u.bridge (unitBytes u) (unitBytes u) re
      if counted then t1.background (unitBytes u) else t1
    | none => a) s

/-- Valid units of a superblock not on their way yet. -/
def State.validIn (s : State) (x : SuperBlk) : List NUnit := s.ftl.units.filter fun u => u.inSb x && u.mapped && u.to_.isNone

/-- A superblock takes nothing more. -/
def SuperBlk.close (x : SuperBlk) : SuperBlk := { x with open_ := false, small := none }

/-- The erase of closed superblocks without units is asked for (R565). -/
def State.eraseDue (s : State) : State :=
  (s.ftl.sbs.filter fun x => !x.open_ && x.erasing.isNone && !s.ftl.units.any fun u => u.inSb x || u.toSb x).foldl
    (fun (a : State) x =>
      let a1 := a.setSb x.bridge x.set x.num fun y => { y with erasing := some a.now, small := none }
      x.members.foldl (fun (b : State) m => b.emit (.nand m.1 m.2.1 2 m.2.2)) a1) s

/-- Programs that can no longer succeed on a member are made again elsewhere (R560, R585). -/
def State.reprogram (s : State) (dead : Option (Nat × Nat × Nat) → Bool) : State :=
  let again := s.ftl.units.filter fun u => !u.mapped && dead (s.unitAt u)
  let moved := s.ftl.units.filter fun u => dead (s.unitTo u)
  let s1 := again.foldl (fun (a : State) u => a.setUnit u.lua fun v => { v with sb := none }) s
  let s2 := moved.foldl (fun (a : State) u =>
    let a1 := a.setUnit u.lua fun v => { v with to_ := none }
    (a1.relocate { u with to_ := none }).getD a1) s1
  s2.placeWaiting

/-! ### Loss (R577, R578) -/

/-- Leaves lost are added to a fault record. -/
def State.addLost (s : State) (num n : Nat) : State :=
  { s with tel := { s.tel with faults := upd (fun f => f.number == num) (fun f => { f with leavesLost := f.leavesLost + n }) s.tel.faults } }

/-- FETCH of the pages of a class P leaf from its replica peer (R577, R613), once at a time for a leaf. -/
def State.fetchReplica (s : State) (l : Leaf) : State :=
  let ctx := leafCtx l.part l.serial
  if s.malWaiting 0x0020 ctx then s
  else s.malSend 0x0020 l.replica (fetchBody l.handle (l.chain.getD []) l.ns l.order 1 0 0 0) ctx 5

/-- A page has a lost unit in its T3 copy (R577), or its T3 copy stood on a lost bridge die (R40): answers whether the page itself is lost. -/
def State.t3Loss (s : State) (p serial : Nat) : State × Bool :=
  match s.page p serial, (s.copiesOf p serial).find? (fun c => c.tier == 3) with
  | some x, some c =>
    let s1 := s.t3Drop p serial 0
    let others := (s.copiesOf p serial).filter fun k => k.tier < 3 && k.good
    let bare := s1.killCopies fun k => k.part == p && k.serial == serial && k.tier == 3
    match argMin (fun (k : Copy) => -(k.tier : Int)) others with
    | some o =>
      if x.cls = 0 then (if c.backing then bare.setCopy p serial o.tier o.die fun k => { k with backing := true } else bare, false)
      else ((s1.setCopy p serial 3 15 fun k => { k with good := true }).t3Write p serial 0 c.bytes, false)
    | none =>
      match (if x.cls = 2 then (s.leafAt p serial).filter fun l => l.replica != 0 else none) with
      | some l => ((s1.setCopy p serial 3 15 fun k => { k with good := false }).fetchReplica l, false)
      | none => (bare, true)
  | _, _ => (s.t3Drop p serial 0, false)

/-- A demand fetch of the page waits or is under way. -/
def State.demanded (s : State) (k : Nat × Nat) : Bool :=
  (s.tier.moves.any fun m => m.why == 0 && m.part == k.1 && m.serial == k.2) ||
  s.tier.waits.any fun w => w.why == 6 && w.part == k.1 && w.serial == k.2

/-- The pages whose T3 copies one event took (R40, R577): those lost with them are one loss, with one record for each partition (R688).
Pages with a waiting demand fetch come first. -/
def State.t3Lost (s : State) (ks : List (Nat × Nat)) (cause fault : Nat) : State :=
  let r := (ks.filter s.demanded ++ ks.filter fun k => !s.demanded k).foldl (fun (a : State × List (Nat × Nat)) k =>
    match a.1.t3Loss k.1 k.2 with
    | (b, true) => (b, a.2 ++ [k])
    | (b, false) => (b, a.2)) (s, [])
  let lost := r.1.losePages r.2 cause fault
  lost.1.addLost fault lost.2

/-- Units are lost, in one row: the position is counted, and each object treated as R577 says. -/
def State.loseUnits (s : State) (us : List NUnit) (fault : Nat) : State :=
  if us.isEmpty then s
  else
    let s1 := (s.bump F.LOST_ROWS).raise Ev.POSITION_LOST
    let os := (us.map fun u => (u.what, u.part, u.serial)).eraseDups
    let s2 := (os.filter fun o => o.1 != 0).foldl (fun (a : State) (o : Nat × Nat × Nat) =>
      if o.1 = 1 then a.dropReplica o.2.2 else a.t3Drop o.2.1 o.2.2 o.1) s1
    s2.t3Lost ((os.filter fun o => o.1 == 0).map (·.2)) 1 fault

/-! ### Die states (R573–R581) -/

/-- CAPACITY_SHORT when USER_GIB falls below ASSIGNED_GIB (R581). -/
def State.capCheck (s : State) : State :=
  let short := decide (s.userGib 0 + s.userGib 1 < s.assignedGib)
  let s1 : State := { s with ftl := { s.ftl with capShort := short } }
  if short && !s.ftl.capShort then s1.raise Ev.CAPACITY_SHORT else s1

/-- Rows of a set with units on failed or draining dies: superblock (by order of opening) and row. -/
def State.rowsLeft (s : State) (b k : Nat) : List (Nat × Nat × Nat) :=
  let bad := s.ftl.dies.filter fun d => d.bridge == b && d.set == k && (d.st == .failed || d.st == .draining)
  let us := s.ftl.units.filter fun u => u.bridge == b && u.set == k && u.mapped && u.to_.isNone &&
    bad.any fun d => onDie d.chan d.target (s.unitAt u)
  (us.filterMap fun u => u.sb.bind fun n => (s.sbOf b k n).map fun x => (x.seqNo, n, u.group / x.rowGroups)).eraseDups

/-- The state of a set follows its dies (SET_INFO.STATE); a set without four dies to keep is dissolved, and its remaining dies drain (R580). -/
def State.settleSet (s : State) (b k : Nat) : State :=
  let ms := s.members b k
  let has := fun (st : NDieSt) => ms.any fun d => d.st == st
  match s.sset b k with
  | none => s
  | some x =>
    let act := (ms.filter fun d => d.st == .active).length
    if x.st = 3 then s
    else if act < 4 ∧ act < ms.length then
      let ds := upd (fun d => d.bridge == b && d.set == k && d.st == .active) (fun d => { d with st := .draining }) s.ftl.dies
      let s1 : State := { s with ftl := { s.ftl with dies := ds } }
      let left := (s1.rowsLeft b k).length
      s1.setSset b k fun y => { y with st := 3, rowsTotal := left }
    else
      let st := if has .failed then 1 else if has .draining then 2 else 0
      let left := (s.rowsLeft b k).length
      s.setSset b k fun y => { y with st := st, rowsTotal := if st = 0 then 0 else if x.st = 0 then left else max y.rowsTotal left }

/-- UNIT of a fault record: the die as in BLK_ID, and the unit's index (R659). -/
def faultUnit (die idx : Nat) : Nat := die * 2 ^ 24 + idx

/-- A NAND die enters FAILED (R573): its superblocks close, programs in flight on it are made again, rebuild starts. -/
def State.failNand (s : State) (c t num : Nat) : State :=
  match s.ndie c t with
  | none => s
  | some d =>
    if !d.serves then s
    else
      let s1 := s.setNdie c t fun y => { y with st := .failed }
      let sbs := upd (fun (x : SuperBlk) => x.members.any fun m => m.1 == c && m.2.1 == t) SuperBlk.close s1.ftl.sbs
      let s2 : State := { s1 with ftl := { s1.ftl with sbs := sbs } }
      let s3 := (s2.setSset d.bridge d.set fun y => { y with fault := num }).reprogram (onDie c t)
      (((s3.settleSet d.bridge d.set).raise Ev.DIE_FAILED).raise Ev.REBUILD_START).capCheck

/-- A NAND die leaves its set (R573): RETIRED. -/
def State.retireNand (s : State) (d : NDie) : State :=
  let s1 := (s.setNdie d.chan d.target fun y => { y with st := .retired }).raise Ev.NDIE_RETIRED
  let s2 := if d.st == .failed then s1.raise Ev.REBUILD_DONE else s1
  (s2.settleSet d.bridge d.set).capCheck

/-- Distinct blocks whose soft decode failed in the last d ns (R574). -/
def State.softBlocks (s : State) (d : NDie) (ns : Nat) : Nat :=
  (((d.soft.filter fun e => s.now < e.2 + ns).map (·.1)).eraseDups).length

/-- Mean wear of a die's blocks (DIE_WEAR_AVG). -/
def State.meanWear (s : State) (d : NDie) : Nat :=
  sumBy (·.wear) (s.ftl.blocks.filter fun b => b.chan == d.chan && b.target == d.target) / max 1 d.blocks

/-- A retirement criterion of R574 holds. -/
def State.wornOut (s : State) (d : NDie) : Bool :=
  decide (d.bad.length > d.badMax) || decide ((d.peFails.filter fun t => s.now < t + 86400000000000).length ≥ 8) ||
  decide (s.softBlocks d 86400000000000 ≥ 3) || decide (s.meanWear d ≥ ratedWear)

end Sys2Proof.Machine
end

