-- ==== Sys2Proof/Machine/HookDone.lean ====
section
/-! DEFINITION. What a policy event decides (R727, R728, R733, R738–R743): the fallback action, a shipped variant's, and the result of
END; how an event leaves its sequencer, and how the events of a die move to another. -/

namespace Sys2Proof.Machine

/-! ### The action of each hook -/

/-- The seal job a SEAL_PLACE event is about, while it waits for its placement (R740). -/
def State.eventJob (s : State) (e : PolEvent) : Option SealJob :=
  (s.job e.part e.excl e.ctx).bind fun j => if j.step = 2 ∧ hSerial (e.args.getD 0 0) = j.serial then some j else none

/-- SEAL_PLACE by the shipped variant v (R212, R213, R743). -/
def State.placeBy (s : State) (e : PolEvent) (v : Nat) : State :=
  match s.eventJob e with
  | some j =>
    let pl := s.defaultPlace j v
    let k : SealJob := { j with want := pl.1, cached := pl.2, step := 3 }
    (s.setJob j.part j.seq j.leafNo fun _ => k).tryPlace k
  | none => s

/-- The move an ADMIT event decides: put through, or declined. -/
def State.admitBy (s : State) (e : PolEvent) (ok : Move → Bool) : State :=
  match s.tier.asks.find? fun m => m.id == e.ctx with
  | some m =>
    let s1 : State := { s with tier := { s.tier with asks := del (fun x => x.id == m.id) s.tier.asks } }
    if ok m then (s1.admitAsked m).1 else s1
  | none => s

/-- Tier and die of the pool a DEMOTE event names. -/
def PolEvent.pool (e : PolEvent) : Nat × Nat := let l := e.args.getD 0 0; (l % 4, l / 4 % 16)

/-- A victim leaves the pool of a DEMOTE event while the pool is DEMOTING (R220, R738). -/
def State.demoteBy (s : State) (e : PolEvent) (pick : List Copy → Option State) : State :=
  let t := e.pool.1
  let d := e.pool.2
  if (s.pool e.part t d).st != .demoting then s
  else match pick (s.candidates e.part t d) with
    | some s1 => s1.pump
    | none => s.poolBlocked e.part t d

/-- The prefetch a PREFETCH event stands for, under the queue group it was due under (R230, R233). -/
def State.prefetchBy (s : State) (e : PolEvent) (t0 : Bool) : State :=
  let a := fun i => e.args.getD i 0
  match s.seq e.part (a 1) with
  | some x =>
    s.fetchAhead x (a 2) (a 3) (a 4) (a 5) e.ctx (t0 || bit (a 6) 0)
  | none => s

/-- A TELEMETRY event's record is posted on its path, or dropped and counted (R741). -/
def State.recordBy (s : State) (e : PolEvent) (post : PolRec → Bool) : State :=
  match s.tel.waiting.find? fun r => r.ctx == e.ctx with
  | some r =>
    let s1 : State := { s with tel := { s.tel with waiting := del (fun x => x.ctx == r.ctx) s.tel.waiting } }
    if post r then
      let t : TRec :=
        { code := r.code, cls := r.cls, source := r.source, count := r.count, part := r.part, first := r.first, last := r.last
          ext := r.ext }
      let p := s1.path r.path
      s1.setPath { p with logq := p.logq ++ [t] }
    else s1.bumpPS F.HOOK_FILTERED e.part 7
  | none => s

/-- The fallback action of an event (R738). -/
def State.fallbackAct (s : State) (e : PolEvent) : State :=
  match e.hook with
  | 0 => s.placeBy e 0
  | 2 => s.admitBy e fun _ => true
  | 3 => s.demoteBy e s.firstVictim
  | 5 => s.prefetchBy e false
  | 6 => match s.destageNext e.part 0 with | some l => s.destage l | none => s
  | 7 => s.recordBy e fun _ => true
  | _ => s

/-- The action of shipped variant v on an event that a program unbound since was to decide (R743). -/
def State.shippedAct (s : State) (e : PolEvent) (v : Nat) : State :=
  let a := fun i => e.args.getD i 0
  match e.hook with
  | 0 => s.placeBy e v
  | 1 =>
    if v = 0 ∧ !Fp.lt (a 2) (Fp.round (.fin false (s.hookParam e.part 1 0) (-8))) then
      s.softMove e.part e.ctx 0 (a 1 / 4 % 16) false 3 0 0 none
    else s
  | 2 => s.admitBy e fun m => v == 1 || s.admitDefault m.part m.serial m.dstTier m.dstDie
  | 3 => s.demoteBy e fun cs => s.firstVictim (s.demoteOrder e.part v cs)
  | 5 => s.prefetchBy e (v == 1)
  | 6 => match s.destageNext e.part v with | some l => s.destage l | none => s
  | 7 =>
    let par := fun (k : Nat) => s.hookParam e.part 7 k % 65536
    s.recordBy e fun r => !(v == 1 && (r.code == par 0 || r.code == par 1))
  | _ => s

/-- The fallback action, counted (R727, R733, R738). -/
def State.fallback (s : State) (e : PolEvent) : State := (s.bumpPS F.HOOK_FALLBACKS e.part e.hook).fallbackAct e

/-- What END decides with results ra and rb (R738–R740): none where the fallback action is due. -/
def State.endResult (s : State) (e : PolEvent) (placed : Bool) (ra rb : Nat) : Option State :=
  match e.hook with
  | 0 => if placed then some s else none
  | 2 => if ra = 1 then some (s.admitBy e fun _ => true) else if ra = 0 then some (s.admitBy e fun _ => false) else none
  | 3 =>
    let named := (s.candidates e.part e.pool.1 e.pool.2).find? fun c => locator c.tier c.die == rb &&
      (match s.page e.part c.serial with | some x => x.handle == ra | none => false)
    if (s.pool e.part e.pool.1 e.pool.2).st != .demoting then some s
    else (named.bind s.takeVictim).map fun s1 => s1.pump
  | 6 => ((s.countedLeaves e.part).find? fun l => l.handle == ra).map s.destage
  | 7 => if ra = 1 then some (s.recordBy e fun _ => true) else if ra = 0 then some (s.recordBy e fun _ => false) else none
  | _ => some s

/-! ### Leaving a sequencer -/

def State.seqr (s : State) (die n : Nat) : Option Sequencer := s.pol.seqrs.find? fun q => q.die == die && q.num == n

def State.setSeqr (s : State) (die n : Nat) (f : Sequencer → Sequencer) : State :=
  { s with pol := { s.pol with seqrs := upd (fun q => q.die == die && q.num == n) f s.pol.seqrs } }

/-- Data segments of loads that are neither bound nor at work go (R747). -/
def State.trimSegs (s : State) : State :=
  let live := fun (g : DataSeg) =>
    (s.pol.programs.any fun x => x.load == g.load) ||
    s.pol.seqrs.any fun q => (q.inst.map fun (i : PolInst) => i.prog.load) == some g.load
  { s with pol := { s.pol with segs := s.pol.segs.filter live } }

/-- The event of a sequencer has ended at the present time. -/
def State.freeSeqr (s : State) (die n : Nat) : State :=
  (s.setSeqr die n fun q =>
    { q with running := none, inst := none, events := (q.events + 1) % 2 ^ 64, busyNs := (q.busyNs + (s.now - q.startT)) % 2 ^ 64 }).trimSegs

/-- The event on a sequencer, if any, ends with the fallback action (R728, R733). -/
def State.endByFallback (s : State) (die n : Nat) : State :=
  match (s.seqr die n).bind (·.running) with
  | some e =>
    let placed := ((s.seqr die n).bind fun (q : Sequencer) => q.inst.map fun (i : PolInst) => i.placed).getD false
    let s1 := s.freeSeqr die n
    if placed then s1 else s1.fallback e
  | none => s

/-! ### A die without sequencers (R728) -/

/-- A program's segment on a die begins from its image (R729). -/
def Program.seg (g : Program) (die : Nat) : DataSeg :=
  { part := g.part, hook := g.hook, die := die, load := g.load
    words := g.init ++ List.replicate (g.dataWords - g.init.length) 0 }

/-- The data segment of a program on a die; its initial one where none is kept (R729). -/
def State.segOf (s : State) (g : Program) (die : Nat) : DataSeg :=
  (s.pol.segs.find? fun x => x.load == g.load && x.die == die).getD (g.seg die)

/-- Dies on which a hook of an owner runs (R728, R738). -/
def State.hookDies (s : State) (owner h : Nat) : List Nat :=
  let near := if h ≤ 4 then s.enabledDies.map fun d => s.hookDie owner d else []
  let far := if h = 2 ∨ h = 3 ∨ h ≥ 5 then [s.hookBridge owner] else []
  (near ++ far).eraseDups

/-- The die's queued events go to the dies that take its hooks over, and their programs are installed there as a new load (R728). -/
def State.moveHooks (s : State) (die : Nat) : State :=
  let evs := s.pol.events.map fun (e : PolEvent) => if e.die = die then { e with die := s.hookDie e.part die } else e
  let s1 : State := { s with pol := { s.pol with events := evs } }
  s1.pol.programs.foldl (fun (a : State) g =>
    let gone := a.pol.segs.filter fun x => !(x.load == g.load && x.die == die)
    let new := ((s1.hookDies g.part g.hook).filter fun d => !gone.any fun x => x.load == g.load && x.die == d).map g.seg
    { a with pol := { a.pol with segs := gone ++ new } }) s1

/-- The sequencers of a die are retired with it (R682, R728): their events end with the fallback action, its hooks move. -/
def State.retireSeqrs (s : State) (die : Nat) : State :=
  let mine := s.pol.seqrs.filter fun q => q.die == die
  let s1 := mine.foldl (fun (a : State) q => (a.endByFallback die q.num).setSeqr die q.num fun x => { x with retired := true }) s
  s1.moveHooks die

end Sys2Proof.Machine
end

