-- ==== Sys2Proof/Machine/TrainCmds.lean ====
section
/-! DEFINITION. ATTEND_BWD (R300–R324): its plan and work area, the end of a column's run, the gradient commit, gradient records and
sets. -/

namespace Sys2Proof.Machine

/-! ### Operands (R300, R386) -/

/-- The buffer descriptor's fields: QADDR, DOADDR, RSADDR, DQADDR, DKVADDR, DKV_BYTES. -/
def bwdBufs (b : Bytes) : List Nat := (List.range 6).map fun i => rd b (8 * i) 8

def Cmd.statsSrc (x : Cmd) : Bool := bit (x.f 0x1D 1) 0
def Cmd.dkvDest (x : Cmd) : Nat := bits (x.f 0x1D 1) 2 1
def Cmd.exportFmt (x : Cmd) : Nat := if bit (x.f 0x1D 1) 3 then 1 else 0
def Cmd.releases (x : Cmd) : Bool := bit (x.f 0x1D 1) 4

/-- The buffer descriptor: none while it is read, false on poison. -/
def Cmd.bwdDesc (x : Cmd) : Option (Option (List Nat)) :=
  match x.buffers [x.f 0x20 8] with
  | none => none
  | some false => some none
  | some true => (x.buf (x.f 0x20 8) 64).map fun b => some (bwdBufs b)

/-! ### Gradient records (R313, R314) -/

/-- Bytes of a gradient record of n positions. -/
def recordBytes (g : Geom) (fmt n : Nat) : Nat :=
  32 + g.kvHeads * n * (if g.vDim = 0 then g.headDim + g.dv else g.headDim) * (if fmt = 0 then 4 else 2)

/-- dK plus dV of one position under shared-KV, dV in the first V_DIM channels. -/
def sharedSum (k v : List Nat) : List Nat := (k.zipIdx).map fun c => match v[c.2]? with | some y => Fp.add c.1 y | none => c.1

/-- A gradient record: for each head dK and dV rows of its positions. -/
def gradRecord (g : Geom) (fmt ph layer first contrib : Nat) (dk dv : List (List (List Nat))) : Bytes :=
  let n := (dk.headD []).length
  let shared := g.vDim != 0
  let sections := (List.zip dk dv).map fun h => if shared then List.zipWith sharedSum h.1 h.2 else h.1 ++ h.2
  let nan := sections.any fun sec => sec.any fun r => r.any Fp.isNan
  let flags := (if nan then 1 else 0) + (if fmt = 1 then 2 else 0) + (if shared then 4 else 0)
  leBytes 8 ph ++ leBytes 2 layer ++ leBytes 2 g.kvHeads ++ leBytes 2 g.headDim ++ leBytes 2 (if shared then 0 else g.dv) ++
    leBytes 4 first ++ leBytes 4 n ++ leBytes 4 contrib ++ leBytes 1 flags ++ leBytes 3 0 ++
    sections.flatMap fun sec => sec.flatMap fun r => r.flatMap (fpOut fmt)

/-! ### The plan (R302, R307, R311) -/

/-- Row ranges of one KV head: first row and rows (R307). -/
def rowRanges (n : Nat) : List (Nat × Nat) :=
  (List.range (ceilDiv n 1024)).map fun i => (1024 * i, min 1024 (n - 1024 * i))

/-- Columns of a backward command: head, row range, span, in that order (R307). -/
def Attn.columns (a : Attn) (g : Geom) : List Item :=
  match a.seqs with
  | q :: _ =>
    let spans := q.segs.flatMap fun sg =>
      (tileSpans (g.bwdShape a.layer (orderT (hOrder sg.2.2))).1 sg.2.1 sg.1 sg.2.1).map fun t => (t.1, t.2, sg.2.2)
    (List.range g.kvHeads).flatMap fun k => (rowRanges (a.headRows g)).flatMap fun r =>
      spans.map fun t => { seq := 0, head := k, rowLo := r.1, rows := r.2, tiles := [t] }
  | [] => []

/-- The work area (R311): bytes on each stack that homes columns. -/
def State.workArea (s : State) (g : Geom) (a : Attn) (doFmt : Nat) : List (Nat × Nat) :=
  let all := a.qtok * g.qHeads
  let segs := (a.seqs.head?.map (·.segs)).getD []
  let at_ := segs.map fun sg => (s.homeOf a 0 sg.2.2, sg.2.1)
  ((at_.map (·.1)).eraseDups).map fun d =>
    let n := sumBy (fun e => if e.1 = d then e.2 else 0) at_
    (d, all * (g.headDim * elemBytes g.qFmt + g.dv * elemBytes doFmt + 12) + 8 * all * g.headDim + 8 * n * g.kvHeads * (g.headDim + g.dv))

/-- The set named has taken a commit of another queue since its creation or last export (R320). -/
def State.setMixed (s : State) (p n q : Nat) : Bool :=
  s.att.gsets.any fun t => t.part == p && t.num == n && t.queues.any (· != q)

/-- What a compute-mode command fixes when it starts; a status where it is refused. -/
def State.planBwd (s : State) (x : Cmd) (g : Geom) (d : List Nat) : Except Nat Attn :=
  let p := x.part
  match s.viewMade p (x.f 0x18 4) with
  | none => .error St.miss
  | some v =>
    if x.layer ≥ g.layers.length ∨ (x.statsSrc && (alGet x.layer v.stats).isNone) = true then .error St.badCmd
    else
      let T := match v.leaves with | e :: _ => orderT (hOrder e.2) | [] => 1
      let q : AttSeq := { seq := v.seq, lo := v.keyLo, count := v.keyCount, qpos := v.qpos, window := v.window
                          segs := segments v.leaves T v.keyLo v.keyCount fun _ => false }
      let a : Attn := { cmd := x.uid, part := p, kind := 4, layer := x.layer, seqs := [q], qtok := v.qtok, det := s.detOf x
                        pages := (q.pages x.layer).eraseDups, grans := [], view := v.num }
      let need := sumBy (fun sg => recordBytes g x.exportFmt sg.2.1) q.segs
      if x.dkvDest = 1 ∧ need > d.getD 5 0 then .error St.badCmd
      else if (x.dkvDest == 2 && a.det && s.setMixed p (x.f 0x1F 1) x.q) = true then .error St.badCmd
      else if (s.coresOf p).isEmpty then .error St.noSpace
      else
        let w := s.workArea g a (x.f 0x1E 1)
        if w.all fun e => s.fits p 1 e.1 e.2 then .ok { a with work := w, items := a.columns g } else .error St.noSpace

/-! ### The rows a command reads (R248, R300, R301) -/

/-- Bytes of dO and of the row records. -/
def Attn.doBytes (a : Attn) (g : Geom) (fmt : Nat) : Nat := a.qtok * g.qHeads * g.dv * elemBytes fmt
def Attn.recBytes (a : Attn) (g : Geom) (x : Cmd) : Nat := a.qtok * g.qHeads * if x.statsSrc then 4 else 12

/-- Rows [lo, lo + n) of a KV head with dO and their records. -/
def State.bwdRows (s : State) (g : Geom) (x : Cmd) (a : Attn) (d : List Nat) (head lo n : Nat) : List BRow :=
  let q := (x.buf (d.getD 0 0) (a.queryBytes g)).getD []
  let f := x.f 0x1E 1
  let dos := (x.buf (d.getD 1 0) (a.doBytes g f)).getD []
  let recs := (x.buf (d.getD 2 0) (a.recBytes g x)).getD []
  let saved := ((s.view a.part a.view).bind fun v => alGet a.layer v.stats).getD []
  let per := g.dv * elemBytes f
  (g.queryRows q 0 ((a.seqs.head?.map (·.qpos)).getD 0) head lo n).zipIdx.map fun (r : QRow × Nat) =>
    let i := g.rowIndex 0 head (lo + r.2)
    let st := saved.getD i (0, 0)
    { r := r.1, do_ := Fp.rowVals f g.dv (slice dos (i * per) per) []
      mf := if x.statsSrc then st.1 else rd recs (12 * i) 4
      lf := if x.statsSrc then st.2 else rd recs (12 * i + 4) 4
      delta := if x.statsSrc then rd recs (4 * i) 4 else rd recs (12 * i + 8) 4 }

/-- Every key of the range for a head (R305). -/
def State.rangeKeys (s : State) (g : Geom) (a : Attn) (head : Nat) : List KeyVal :=
  match a.seqs with
  | q :: _ => q.segs.flatMap fun sg => (s.tileKeys g a q.seq head sg.1 sg.2.1 sg.2.2).getD []
  | [] => []

/-! ### A column (R304, R308–R310) -/

/-- Steps of tile i of a column (R308). -/
def bwdSteps (g : Geom) (layer : Nat) (it : Item) (doFmt i : Nat) : Nat :=
  let t := bwdTiles g layer it
  let C := (it.tiles.headD (0, 0, 0)).2.1
  let rb := (g.bwdShape layer (orderT (hOrder (it.tiles.headD (0, 0, 0)).2.2))).2
  let part := fun (total k : Nat) => 64 + ceilDiv (min 12288 (total - 12288 * k)) 8
  if i < t.1 then part (C * g.streamBytes layer) i
  else if i < t.1 + t.2.1 then
    let n := min rb (it.rows - (i - t.1) * rb)
    let B := n * (g.headDim * elemBytes g.qFmt + g.dv * elemBytes doFmt + 12)
    64 + max (ceilDiv (n * C * (3 * g.headDim + 2 * g.dv)) (g.macs layer)) (ceilDiv B 8)
  else part (C * 4 * (g.headDim + g.dv)) (i - t.1 - t.2.1)

/-- The column after the backward tiles among its tiles [first, first + n). Where dK and dV are not delivered their terms are not computed
(R312). -/
def State.runColumn (s : State) (g : Geom) (x : Cmd) (a : Attn) (d : List Nat) (it : Item) (col : Col) (first n : Nat) : Col :=
  let t := bwdTiles g a.layer it
  let q := a.seqs.headD { seq := 0, lo := 0, count := 0, qpos := 0, window := none, segs := [] }
  let rb := (g.bwdShape a.layer (orderT (hOrder (it.tiles.headD (0, 0, 0)).2.2))).2
  let sp := it.tiles.headD (0, 0, 0)
  let keys := (s.tileKeys g a q.seq it.head sp.1 sp.2.1 sp.2.2).getD []
  let all := s.rangeKeys g a it.head
  let m := g.mods a.layer
  let lo := max first t.1 - t.1
  let hi := min (first + n) (t.1 + t.2.1) - t.1
  let col1 := ((List.range (hi - lo)).map (· + lo)).foldl (fun (k : Col) i =>
    let rows := (s.bwdRows g x a d it.head (it.rowLo + i * rb) (min rb (it.rows - i * rb))).map fun r => (r, g.bwdNan m q.window all r)
    let z := g.bwdTile m q.window keys rows (if x.dkvDest = 0 then [] else k.accK) (if x.dkvDest = 0 then [] else k.accV)
    { k with dq := k.dq ++ z.1, accK := z.2.1, accV := z.2.2, done := i + 1 }) col
  { col1 with complete := first + n = t.1 + t.2.1 + t.2.2 }

/-- A column before its first backward tile. -/
def newCol (g : Geom) (item : Nat) (it : Item) : Col :=
  let C := (it.tiles.headD (0, 0, 0)).2.1
  { item := item, accK := List.replicate C (List.replicate g.headDim 0), accV := List.replicate C (List.replicate g.dv 0) }

/-- The end of a backward run after n tiles (R308–R310). A cut column keeps its accumulators for the run that continues it. Where dK and dV are
not computed (R312) the tiles last as R308 says all the same (DEDUCED, assumption 86). -/
def State.endRunBwd (s : State) (x : Cmd) (a : Attn) (g : Geom) (it : Item) (r : Run) (n : Nat) : State :=
  let f := x.f 0x1E 1
  let steps := sumBy (fun i => bwdSteps g a.layer it f (r.first + i)) (List.range n)
  let s1 := s.reach (r.startT + ceilDiv (steps * 16000) (max 1 (s.pace r.die)))
  let fromT0 := r.fromT0
  let t := bwdTiles g a.layer it
  let sp := it.tiles.headD (0, 0, 0)
  let nb := min (r.first + n) (t.1 + t.2.1) - max r.first t.1
  let rowB := g.headDim * elemBytes g.qFmt + g.dv * elemBytes f + 12
  let rb := (g.bwdShape a.layer (orderT (hOrder sp.2.2))).2
  let rows := min (nb * rb) it.rows
  let load := if r.first = 0 then
    match s.page (hPart sp.2.2) (hSerial sp.2.2 + a.layer) with
    | some pg => s.readCost g pg (blocksRead g pg it.head sp.1 sp.2.1)
    | none => (0, [])
    else (0, [])
  let ends := r.first + n = t.1 + t.2.1 + t.2.2
  let store := if ends ∧ x.dkvDest ≠ 0 then sp.2.1 * 4 * (g.headDim + g.dv) else 0
  let fma := rows * sp.2.1 * (if x.dkvDest = 0 then 2 * g.headDim + g.dv else 3 * g.headDim + 2 * g.dv)
  let back := rows * g.headDim * 4 + store
  let s2 : State := { s1 with part := { s1.part with runs := del (fun (y : Run) => y.id == r.id) s1.part.runs } }
  let s3 := (s2.creditRun r steps n fma).chargeRun r fromT0 load.1 load.2 fma (rows * sp.2.1)
  let s4 := (s3.chargeCmd x.uid .t1Rd (rows * rowB + back) false).chargeCmd x.uid .t1Wr back false
  match s4.attnStop x with
  | some st => s4.stopAttn x.uid st
  | none =>
    if s4.attnLost a then s4.stopAttn x.uid St.lostData
    else match x.bwdDesc with
      | some (some d) =>
        let same := fun (k : Col) => k.item == r.item
        let old := (a.cols.find? same).getD (newCol g r.item it)
        let col := s4.runColumn g x a d it old r.first n
        ((s4.setAttn x.uid fun y => { y with cols := del same y.cols ++ [col] })).requeueRest a r n
      | _ => s4

/-- The end of a run of seal tiles (R327, R349): its blocks are coded, on the expander, and charged to the seal (R430). -/
def State.endRunSeal (s : State) (r : Run) : State :=
  let ns := r.steps.sum * 16000 / max 1 (s.pace r.die)
  let s1 := (s.reach (r.startT + ns)).ranUntilNow r
  let s2 : State := { s1 with part := { s1.part with runs := del (fun (y : Run) => y.id == r.id) s1.part.runs } }
  let s3 := s2.act r.part r.qg .encoded r.count
  match r.leaf.bind fun l => s.job l.1 l.2.1 l.2.2 with
  | some j => s3.chargeSeal j .nsExpander ns true
  | none => s3

/-- A run that is killed is charged what its core held and read (R429): the time, and the tiles begun, of which it has run those ended and the
one under way in part (DEDUCED, assumption 77). -/
def State.chargeKilled (s : State) (x : Cmd) (a : Attn) (g : Geom) (r : Run) : State :=
  match a.items[r.item]? with
  | none => s
  | some it =>
    let ran := (s.now - r.startT) * s.pace r.die / 16000
    let before := fun (n : Nat) => if a.kind = 4 then sumBy (fun i => bwdSteps g a.layer it (x.f 0x1E 1) (r.first + i)) (List.range n)
      else sumBy (fun t => g.tileSteps a.layer it.rows t.2.1) ((it.tiles.drop r.first).take n)
    let begun := ((List.range r.count).filter fun n => decide (before n < ran)).length
    let ended := ((List.range r.count).filter fun n => decide (before (n + 1) ≤ ran)).length
    let cost := if a.kind = 4 then
        match it.tiles.head? with
        | some sp => if r.first = 0 ∧ begun ≠ 0 then
            match s.page (hPart sp.2.2) (hSerial sp.2.2 + a.layer) with
            | some pg => (0, 0, s.readCost g pg (blocksRead g pg it.head sp.1 sp.2.1))
            | none => (0, 0, 0, [])
          else (0, 0, 0, [])
        | none => (0, 0, 0, [])
      else s.runCost g a it r.first begun
    (s.creditRun r (min ran (before r.count)) ended 0).chargeRun r r.fromT0 cost.2.2.1 cost.2.2.2 cost.2.1 (cost.2.1 / max 1 (g.headDim + g.dv))

/-- A block that a run read failed its CRC (R338): of its page's copy, or of the copy of its base page that is read with it. The run starts again on
another copy; without one the page is unreadable (R287, R322). -/
def State.runCrc (s : State) (x : Cmd) (a : Attn) (g : Geom) (r : Run) (ofBase : Bool) : State :=
  match r.src with
  | none => s
  | some (p, serial, t, d) =>
    let s1 := (s.crcSeen r.part none).chargeKilled x a g r
    let s2 := if ofBase then
        match (s1.page p serial).bind fun y => (s1.copiesOf (hPart y.base) (hSerial y.base)).find? fun c => y.base != 0 && c.good && decide (c.tier ≤ 1) with
        | some c => s1.badCopy c.part c.serial c.tier c.die
        | none => s1
      else s1.badCopy p serial t d
    let s3 : State := { s2 with part := { s2.part with
      runs := upd (fun y => y.id == r.id) (fun y => { y with stage := 1, src := none, die := y.home, cut := false }) s2.part.runs } }
    match s3.attn x.uid with
    | some b => if s3.attnLost b then s3.stopAttn x.uid St.lostData else s3.fetchFor x.uid
    | none => s3

/-- RUN_END (R267, R268, R274, R277, R310): a core has run tiles of a run: all of them, or fewer, at least one, when the run is cut or its
command stops. A remote read without a path waits. A run of seal tiles is never cut (R413). A block of its page, or of the base page, may have
failed its CRC (R338). -/
def execRunEnd (run : Nat) (stop : RunStop) (s : State) : Host.Outcome State Fault Refusal :=
  match s.part.runs.find? fun r => r.id == run && r.stage == 2 with
  | none => .next s
  | some r =>
    if r.leaf.isSome then .next (if stop.tiles = r.count then (s.endRunSeal r).reclaim else s) else
    match s.cmd r.cmd, s.attn r.cmd, s.geom r.part with
    | some x, some a, some g =>
      let early := r.cut || (s.attnStop x).isSome
      if stop.tiles = 0 ∨ stop.tiles > r.count ∨ (stop.tiles < r.count ∧ !early) ∨ !s.diesJoined r.srcDie r.die then .next s
      else match a.items[r.item]? with
        | none => .next s
        | some it => .next (if stop.bad ≠ 0 ∧ r.src.isSome then s.runCrc x a g r (stop.bad != 1)
            else if a.kind = 4 then s.endRunBwd x a g it r stop.tiles else s.endRunFwd x a g it r stop.tiles).reclaim
    | _, _, _ => .next { s with part := { s.part with runs := del (fun (y : Run) => y.id == run) s.part.runs } }

/-! ### The commit (R309, R312, R315–R317) -/

/-- Vectors of positions added element by element. -/
def matAdd (a b : List (List Nat)) : List (List Nat) := List.zipWith vecAdd a b

/-- Contributions combined: along the canonical tree under DET, else in the order they were completed. -/
def combine (det : Bool) (l : List (List (List Nat))) : Option (List (List Nat)) :=
  if det then canonical matAdd l else match l with | [] => none | a :: r => some (r.foldl matAdd a)

/-- Columns that satisfy p: in tile-list order under DET, else in the order they were completed. -/
def Attn.colsWhere (a : Attn) (p : Item → Bool) : List Col :=
  let mine := a.cols.filter fun k => match a.items[k.item]? with | some it => p it | none => false
  if a.det then sortBy (fun (k : Col) => ((k.item : Nat) : Int)) mine else mine

/-- dQ of every row in buffer order (R309). -/
def Attn.dqRows (a : Attn) (g : Geom) : List (Nat × List Nat) :=
  sortBy (fun (e : Nat × List Nat) => ((e.1 : Nat) : Int)) ((List.range g.kvHeads).flatMap fun k =>
    (rowRanges (a.headRows g)).flatMap fun r =>
      let cols := a.colsWhere fun it => it.head == k && it.rowLo == r.1
      let v := (combine a.det (cols.map (·.dq))).getD (List.replicate r.2 (List.replicate g.headDim 0))
      v.zipIdx.map fun (e : List Nat × Nat) => (g.rowIndex 0 k (r.1 + e.2), e.1))

/-- dK and dV of a span of positions of a head across the row ranges (R309). -/
def Attn.spanGrad (a : Attn) (head first : Nat) : Option (List (List Nat) × List (List Nat)) :=
  let cols := a.colsWhere fun it => it.head == head && (it.tiles.headD (0, 0, 0)).1 == first
  match combine a.det (cols.map (·.accK)), combine a.det (cols.map (·.accV)) with
  | some k, some v => some (k, v)
  | _, _ => none

/-- dK and dV of the positions of one leaf's page within the range, for each head. -/
def Attn.pageGrad (a : Attn) (g : Geom) (h : Nat) : List (List (List Nat) × List (List Nat)) :=
  (List.range g.kvHeads).map fun k =>
    let firsts := ((a.items.filter fun it => it.head == k && (it.tiles.headD (0, 0, 0)).2.2 == h).map fun it =>
      (it.tiles.headD (0, 0, 0)).1).eraseDups
    firsts.foldl (fun (acc : List (List Nat) × List (List Nat)) f => match a.spanGrad k f with
      | some z => (acc.1 ++ z.1, acc.2 ++ z.2)
      | none => acc) ([], [])

/-- Segments of a command in ascending order of page handle. -/
def State.gradSegs (s : State) (a : Attn) : List (Nat × Nat × (Nat × Nat × Nat)) :=
  let segs := (a.seqs.head?.map (·.segs)).getD []
  sortBy (fun (e : Nat × Nat × (Nat × Nat × Nat)) => ((e.1 : Nat) : Int)) (segs.filterMap fun sg =>
    (s.page (hPart sg.2.2) (hSerial sg.2.2 + a.layer)).map fun pg => (pg.handle, pg.sumStack, sg))

/-- Elements of a span added into rows of a page's accumulator, from row `at_` (R317). -/
def addAt (acc : List (List Nat)) (at_ : Nat) (v : List (List Nat)) : List (List Nat) :=
  acc.zipIdx.map fun (r : List Nat × Nat) => if r.2 < at_ then r.1 else match v[r.2 - at_]? with
    | some y => vecAdd r.1 y
    | none => r.1

/-- A set after a commit (R316, R317), with the accumulators it had to allocate. Under shared-KV an accumulator keeps dK and dV apart, takes the
bytes of both, and the sum of R314 is formed at each export: the spec does not say which of the two it holds (DESIGN CHOICE, assumption 86). -/
def State.commitSet (s : State) (x : Cmd) (a : Attn) (g : Geom) : GSet × List GAcc :=
  let n := x.f 0x1F 1
  let set0 := (s.att.gsets.find? fun t => t.part == a.part && t.num == n).getD { part := a.part, num := n, geom := g.id }
  let r := (s.gradSegs a).foldl (fun (acc : List GAcc × List GAcc) e =>
    let T := orderT (hOrder e.2.2.2.2)
    let first := e.2.2.1 / T * T
    let fresh : GAcc := { ph := e.1, layer := a.layer, first := first, contrib := 0, stack := e.2.1
                          bytes := T * g.kvHeads * (g.headDim + g.dv) * 4
                          dk := List.replicate g.kvHeads (List.replicate T (List.replicate g.headDim 0))
                          dv := List.replicate g.kvHeads (List.replicate T (List.replicate g.dv 0)) }
    let old := acc.1.find? fun y => y.ph == e.1
    let base := old.getD fresh
    let gr := a.pageGrad g e.2.2.2.2
    let new : GAcc := { base with
      contrib := base.contrib + 1
      dk := List.zipWith (fun y (z : List (List Nat) × List (List Nat)) => addAt y (e.2.2.1 - first) z.1) base.dk gr
      dv := List.zipWith (fun y (z : List (List Nat) × List (List Nat)) => addAt y (e.2.2.1 - first) z.2) base.dv gr }
    (put (fun y => y.ph == e.1) new acc.1, if old.isNone then acc.2 ++ [fresh] else acc.2)) (set0.acc, [])
  let nan := r.1.any fun y => (y.dk ++ y.dv).any fun h => h.any fun row => row.any Fp.isNan
  ({ set0 with acc := r.1, nan := nan, queues := if set0.queues.contains x.q then set0.queues else set0.queues ++ [x.q] }, r.2)

/-- New accumulators are admitted from the T1 quota (R316). -/
def State.accFits (s : State) (p : Nat) (l : List GAcc) : Bool :=
  ((l.map (·.stack)).eraseDups).all fun d => s.fits p 1 d (sumBy (fun (y : GAcc) => if y.stack = d then y.bytes else 0) l)

def State.putSet (s : State) (t : GSet) : State :=
  { s with att := { s.att with gsets := put (fun y => y.part == t.part && y.num == t.num) t s.att.gsets } }

/-- A view is released with its references (R298). -/
def State.releaseView (s : State) (p n : Nat) : State :=
  { s with att := { s.att with views := del (fun v => v.part == p && v.num == n) s.att.views } }

/-- The gradient commit (R315). -/
def State.commitBwd (s : State) (x : Cmd) (a : Attn) (g : Geom) (d : List Nat) : State :=
  let p := a.part
  let r := s.commitSet x a g
  let dest := x.dkvDest
  if (dest == 2 && a.det && s.setMixed p (x.f 0x1F 1) x.q) = true then s.endAttn x.uid St.badCmd 0 0
  else if dest = 2 ∧ !s.accFits p r.2 then s.endAttn x.uid St.noSpace 0 0
  else
    let s1 := if dest = 2 then
      let first := r.1.nan && !(s.att.gsets.any fun t => t.part == p && t.num == r.1.num && t.nan)
      let b := s.putSet r.1
      if first then b.raise Ev.GSET_NAN p else b
      else s
    let rows := a.dqRows g
    let s2 := s1.output x.uid (d.getD 3 0) (rows.flatMap fun e => e.2.flatMap (leBytes 4))
    let recs := if dest = 1 then (s.gradSegs a).map fun e =>
        let gr := a.pageGrad g e.2.2.2.2
        gradRecord g x.exportFmt e.1 a.layer e.2.2.1 1 (gr.map (·.1)) (gr.map (·.2))
      else []
    let s3 := if dest = 1 then s2.output x.uid (d.getD 4 0) recs.flatten else s2
    let m := g.mods a.layer
    let win := (a.seqs.head?.map (·.window)).getD none
    let nan := sumBy (fun k => ((s.bwdRows g x a d k 0 (a.headRows g)).filter (g.bwdNan m win (s.rangeKeys g a k))).length) (List.range g.kvHeads)
    let s4 := (if x.releases then s3.releaseView p a.view else s3).bumpP F.BWD_COMMANDS p
    s4.endAttn x.uid St.ok (rows.length % 2 ^ 32 + recs.length * 2 ^ 32)
      (a.tiles % 2 ^ 32 + min nan 0xFFFF * 2 ^ 32 + (if dest = 2 then min r.2.length 0xFFFF else 0) * 2 ^ 48)

/-- An earlier command of the queue has still to commit into the set (R320). -/
def State.setTurn (s : State) (x : Cmd) : Bool :=
  !s.q.cmds.any fun y => y.live && y.q == x.q && y.uid < x.uid && y.is .bwd && y.f 0x1C 1 == 0 && y.dkvDest == 2 && y.f 0x1F 1 == x.f 0x1F 1

/-- A planned backward command goes on: stops, builds its runs, or commits. -/
def State.goBwd (s : State) (x : Cmd) (a : Attn) (g : Geom) (d : List Nat) : State :=
  match s.attnStop x with
  | some st => s.stopAttn x.uid st
  | none =>
    if (s.view a.part a.view).isNone then s.stopAttn x.uid St.miss
    else if s.attnLost a then s.stopAttn x.uid St.lostData
    else if !a.built then
      match x.buffers [d.getD 0 0, d.getD 1 0, d.getD 2 0] with
      | none => s
      | some false => s.endAttn x.uid St.poison 0 0
      | some true =>
        if (x.buf (d.getD 0 0) (a.queryBytes g)).isNone ∨ (x.buf (d.getD 1 0) (a.doBytes g (x.f 0x1E 1))).isNone ∨
          (x.buf (d.getD 2 0) (a.recBytes g x)).isNone then s
        else
          let a1 := { a with built := true, root := s.rootOf a }
          (((s.setAttn x.uid fun _ => a1).makeRuns x a1 g)).fetchFor x.uid
    else if (a.cols.filter (·.complete)).length < a.items.length then s.fetchFor x.uid
    else if (x.dkvDest == 2 && a.det && !s.setTurn x) = true then s
    else s.commitBwd x a g d

/-- ATTEND_BWD with MODE 0 (R300–R322). -/
def execAttendBwdCompute (c : Nat) (s : State) : Host.Outcome State Fault Refusal :=
  match s.running c .bwd with
  | none => .next s
  | some x =>
    if x.f 0x1C 1 ≠ 0 then .next s
    else match s.geom x.part, x.bwdDesc with
      | none, _ => .next (s.endAttn c St.badCmd 0 0)
      | _, none => .next (if x.cancelled then s.endAttn c St.cancelled 0 0 else s)
      | _, some none => .next (s.endAttn c St.poison 0 0)
      | some g, some (some d) =>
        match s.attn c with
        | some a => .next (s.goBwd x a g d)
        | none =>
          if x.cancelled then .next (s.endAttn c St.cancelled 0 0)
          else match s.planBwd x g d with
            | .error st => .next (s.endAttn c st 0 0)
            | .ok a =>
              let s1 : State := { s with att := { s.att with attns := s.att.attns ++ [a] } }
              .next (s1.goBwd x a g d)

/-- The set a MODE 1 or MODE 2 command names. -/
def State.gset (s : State) (x : Cmd) : Option GSet := s.att.gsets.find? fun t => t.part == x.part && t.num == x.f 0x1F 1

def State.freeSet (s : State) (p n : Nat) : State :=
  { s with att := { s.att with gsets := del (fun t => t.part == p && t.num == n) s.att.gsets } }

/-- ATTEND_BWD with MODE 1 (R313, R318, R320, R322). -/
def execAttendBwdExport (c : Nat) (s : State) : Host.Outcome State Fault Refusal :=
  match s.running c .bwd with
  | none => .next s
  | some x =>
    if x.f 0x1C 1 ≠ 1 then .next s
    else if x.cancelled then .next (s.fail c St.cancelled)
    else match s.gset x, s.geom x.part, x.bwdDesc with
      | none, _, _ => .next (s.fail c St.miss)
      | _, _, none => .next s
      | _, _, some none => .next (s.fail c St.poison)
      | _, none, _ => .next (s.fail c St.miss)
      | some t, some g, some (some d) =>
        if (s.detOf x && s.setMixed x.part t.num x.q) = true then .next (s.fail c St.badCmd)
        else
        let accs := sortBy (fun (y : GAcc) => ((y.ph : Nat) : Int)) t.acc
        let recs := accs.map fun y => gradRecord g x.exportFmt y.ph y.layer y.first y.contrib y.dk y.dv
        if sumBy (·.length) recs > d.getD 5 0 then .next (s.fail c St.badCmd)
        else
          let s1 := s.output c (d.getD 4 0) recs.flatten
          let s2 := if x.releases then s1.freeSet x.part t.num else s1.putSet { t with queues := [] }
          .next (s2.finish c St.ok (recs.length * 2 ^ 32) 0)

/-- ATTEND_BWD with MODE 2 (R318, R320, R322). -/
def execAttendBwdDiscard (c : Nat) (s : State) : Host.Outcome State Fault Refusal :=
  match s.running c .bwd with
  | none => .next s
  | some x =>
    if x.f 0x1C 1 ≠ 2 then .next s
    else if x.cancelled then .next (s.fail c St.cancelled)
    else match s.gset x with
      | none => .next (s.fail c St.miss)
      | some t => .next (if (s.detOf x && s.setMixed x.part t.num x.q) = true then s.fail c St.badCmd
        else (s.freeSet x.part t.num).finish c St.ok 0 0)

end Sys2Proof.Machine
end

