-- ==== Sys2Proof/Machine/Repair.lean ====
section
/-! DEFINITION. Faults of cores, memories, links and bridge dies, and their repair in service (R18–R20, R38–R41, R659–R663,
R678–R684). -/

namespace Sys2Proof.Machine

/-- DEGRADED or FAULT of an instance (R764). -/
def State.degrade (s : State) (b page : Nat) : State := s.wcm (Fld.blkDegraded b (pageUnit page)) page 255 1
def State.faulty (s : State) (b page : Nat) : State := s.wcm (Fld.blkFault b (pageUnit page)) page 255 1

/-- Commands whose work is lost complete POISON with both results zero (R660). Answers how many. -/
def State.poisonCmds (s : State) (cs : List Nat) : State × Nat :=
  let live := (cs.eraseDups).filter fun c => match s.cmd c with | some x => x.st == .started | none => false
  (live.foldl (fun (a : State) c => a.endAttn c St.poison 0 0) s, live.length)

/-- Links with flows on them are gone (R29, R660): of the commands with a partial, or a remote read, under way over them some lose it and
complete POISON, and which they are is free; every flow goes on over the other bridge die. Answers how many commands. -/
def State.flowsLost (s : State) (onLink : Flow → Bool) : State × Nat :=
  let root := fun (c : Nat) => ((s.attn c).map fun a => a.root / 10).getD 0
  let held := fun (f : Flow) => s.att.helds.any fun h =>
    h.cmd == f.cmd && h.place == 3 && !h.stalled && h.cluster / 10 == f.src && f.dst == root h.cmd
  let read := fun (f : Flow) => s.part.runs.any fun r => r.cmd == f.cmd && r.stage == 2 && r.srcDie == f.src && r.die == f.dst
  let cs := ((s.att.flows.filter fun f => onLink f && f.move == 0 && (held f || read f)).map (·.cmd)).eraseDups
  let r := cs.foldl (fun (a : State × List Nat) c =>
    let x := a.1.choose
    (x.2, if x.1 % 2 = 1 then a.2 ++ [c] else a.2)) (s, [])
  r.1.reroute.poisonCmds r.2

/-! ### Cores and merge units -/

def State.setCluster (s : State) (cl : Nat) (f : Cluster → Cluster) : State :=
  { s with hw := { s.hw with clusters := nthUpd cl f s.hw.clusters } }

/-- The partition holds commands that name cores. -/
def State.holdsCores (s : State) (p : Nat) : Bool := s.q.cmds.any fun c => c.part == p && c.live && c.attn

/-- A partition without a core left that held commands which name cores, as it does in the state `old` of the failure, is faulted
(R661). -/
def State.coresGone (s old : State) (p : Nat) : State :=
  if (s.coresOf p).isEmpty && old.holdsCores p then s.partFault p 4 else s

/-- A logical core is retired for good (R20): it leaves every partition bitmap. -/
def State.retireCore (s old : State) (c : Nat) : State :=
  let ps := s.part.parts.filter fun p => bit p.desc.cores c
  let s1 := s.setCluster (c / 32) fun k => { k with map := nthUpd (c % 32) (fun _ => none) k.map }
  let s2 := ps.foldl (fun (a : State) p => (a.setPart p.num fun y =>
    { y with desc := { y.desc with cores := setBit y.desc.cores c false, lane := setBit y.desc.lane c false } }).coresGone old p.num) s1
  (s2.degrade 0x0C (c / 320 + 1)).raiseBoth Ev.CORE_RETIRED (c / 320)

/-- The command whose run is on a logical core, or whose partial the core still keeps. -/
def State.workOn (s : State) (c : Nat) : List Nat :=
  ((s.part.runs.filter fun r => r.stage == 2 && r.core == c).map (·.cmd)) ++
  ((s.att.helds.filter fun h => (h.place == 0 || h.place == 2) && h.core == c).map (·.cmd))

/-- The core that coded seal tiles failed (R19): a SEAL command that waits for the leaf ends, the tiles of any other seal are coded anew. -/
def State.sealsOff (s : State) (c : Nat) : State :=
  let on := fun (y : Run) => y.leaf.isSome && y.stage == 2 && y.core == c
  let again : State := { s with part := { s.part with runs := upd on (fun y => { y with stage := 0 }) s.part.runs } }
  ((s.part.runs.filter on).filterMap fun y => y.leaf.bind fun l => s.job l.1 l.2.1 l.2.2).foldl (fun (a : State) j =>
    if j.cmd = 0 then a else a.failSeal j St.poison) again

/-- A physical core fails (R18–R20): a spare of its cluster takes the logical core, or the logical core is retired. -/
def State.failCore (s : State) (cl phys : Nat) : State :=
  let k := s.hw.clusters.getD cl { num := cl, physOk := 0 }
  if !bit k.physOk phys ∨ !s.dieOk (cl / 10) then s
  else
    let s1 := s.setCluster cl fun x => { x with physOk := setBit x.physOk phys false }
    match (List.range 32).find? fun j => k.map.getD j none == some phys with
    | none => s1.fault 1 6 255 (faultUnit (cl / 10) (cl * 32)) 0 0
    | some j =>
      let c := 32 * cl + j
      let owner := ((s.part.parts.find? fun p => bit p.desc.cores c).map (·.num)).getD 255
      let lost := s1.workOn c
      let spare := (List.range 34).find? fun i => bit k.physOk i && i != phys && !k.map.contains (some i)
      let s2 := match spare with
        | some i => (s1.setCluster cl fun x => { x with map := nthUpd j (fun _ => some i) x.map }).raiseU Ev.SPARE_USED (cl / 10)
        | none => s1
      let r := (s2.sealsOff c).poisonCmds lost
      let s3 := if lost.isEmpty then r.1 else r.1.raiseU Ev.CORE_FAIL (cl / 10) owner
      let s4 := s3.fault 1 (if spare.isSome then 1 else 2) owner (faultUnit (cl / 10) c) r.2 0
      if spare.isSome then s4 else s4.retireCore s c

/-- A merge unit fails (R663): the partials it holds are lost, the next unit of the die serves its cluster. -/
def State.failMerge (s : State) (cl : Nat) : State :=
  if !(s.hw.clusters.getD cl { num := cl, mergeOk := false }).mergeOk then s
  else
    let hit := fun (h : Held) => (h.place == 1 && h.cluster == cl) || (h.place == 4 && (s.attn h.cmd).any fun a => a.root == cl)
    let r := (s.setCluster cl fun x => { x with mergeOk := false }).poisonCmds ((s.att.helds.filter hit).map (·.cmd))
    (r.1.fault 2 2 255 (faultUnit (cl / 10) cl) r.2 0).degrade 0x0C (cl / 10 + 1)

/-- A cluster SRAM unit fails (R663): a T0 unit is retired, and T0 copies without room are discarded. -/
def State.failT0Unit (s : State) (cl : Nat) : State :=
  let s1 := (s.setCluster cl fun x => { x with t0Units := x.t0Units - 1 }).allotT0
  let s2 := (List.range 64).foldl (fun (a : State) p => a.trimT0 p cl) s1
  s2.fault 3 2 255 (faultUnit (cl / 10) cl) 0 0

/-! ### Staging that is lost (R680) -/

/-- End of the run of positions that a layer of a sequence holds from its start: leaves and granules without a gap, but for the leaves
that a ring dropped (R107). -/
def State.heldRun (s : State) (x : Seq) (l : Nat) : Nat :=
  let T := orderT x.order
  let spans := (x.leaves.map fun e => (e.1 * T, T)) ++ (x.gone.map fun e => (e.1, e.2 - e.1)) ++ (s.gransOf x.part x.id l).map fun g => (g.first, g.rows.length)
  (sortBy (fun (e : Nat × Nat) => (e.1 : Int)) spans).foldl (fun n e => if e.1 ≤ n then max n (e.1 + e.2) else n) 0

/-- A layer of a sequence rolls back to its held run: staging above it goes, its length follows, ROLLBACK is raised. -/
def State.rollLayer (s : State) (p id l : Nat) : State :=
  match s.seq p id with
  | none => s
  | some x =>
    let e := s.heldRun x l
    if x.lens.getD l 0 ≤ e then s
    else
      let s1 := s.dropGrans p id fun g => g.layer == l && decide (g.first ≥ e)
      (((s1.setSeq p id fun y => { y with lens := nthUpd l (fun _ => e) y.lens }).setSeq p id fun y =>
        { s1.setK y (min y.k y.length) with lens := y.lens, durable := nthUpd l (min e) y.durable }).endSeals p id e).raise Ev.ROLLBACK p

/-- Staging granules that satisfy `dead` are lost, but for those with a current flash image, which return in a slot on the staging home
chosen anew; of each, `kept` rows stay (R663); affected layers roll back (R680). Commands that read a granule lost end LOST_DATA (R287). -/
def State.loseGrans (s : State) (dead : Granule → Bool) (kept : Granule → Nat := fun _ => 0) : State :=
  let hit := s.sq.granules.filter dead
  let seqs := (hit.map fun g => (g.part, g.seq)).eraseDups
  let same := fun (a b : Granule) => a.part == b.part && a.seq == b.seq && a.layer == b.layer && a.first == b.first
  let gone := hit.filter fun g => !g.flash
  let readers := (s.att.attns.filter fun a => a.grans.any fun g => gone.any (same g)).map (·.cmd)
  let s0 := readers.foldl (fun (a : State) c => a.stopAttn c St.lostData) s
  let s1 := seqs.foldl (fun (a : State) k =>
    let h := a.homeDie k.1 255
    let d := h.2.getD 0
    (h.1.setSeq k.1 k.2 fun y => { y with home := d })) s0
  let keep := (s1.sq.granules.filter fun g => !(dead g && !g.flash && kept g == 0)).map fun g =>
    if dead g && !g.flash then { g with rows := g.rows.take (kept g), dirty := false }
    else if dead g then { g with home := ((s1.seq g.part g.seq).map (·.home)).getD g.home, dirty := false } else g
  let s2 : State := { s1 with sq := { s1.sq with granules := keep } }
  seqs.foldl (fun (a : State) k =>
    (List.range ((a.seq k.1 k.2).map (·.lens.length)|>.getD 0)).foldl (fun (b : State) l => b.rollLayer k.1 k.2 l) a) s2

/-! ### HBM (R678–R682) -/

/-- The content of a stack is lost (R680): T0 and T1 copies, fret summaries, staging; training objects on it are released. -/
def State.loseStack (s : State) (n fault : Nat) : State × Nat :=
  let ms := del (fun (m : Move) => (m.srcTier ≤ 1 && m.srcDie == n) || (m.dstTier ≤ 1 && m.dstDie == n)) s.tier.moves
  let s0 : State := { s with tier := { s.tier with moves := ms } }
  -- what a flush can no longer read is a loss of the power failure (R694)
  let r := s0.loseCopies (fun c => c.tier ≤ 1 && c.die == n) (if s.plp.flush.active then 6 else 5) fault
  let vs := (r.1.att.views.filter fun v => v.stack == n).map fun v => (v.part, v.num)
  let s1 := vs.foldl (fun (a : State) v => a.releaseView v.1 v.2) r.1
  let ws := (s1.att.attns.filter fun a => a.work.any fun w => w.1 == n).map (·.cmd)
  let s2 := (s1.poisonCmds ws).1
  let gs := (s2.att.gsets.filter fun g => g.acc.any fun a => a.stack == n).map fun g => (g.part, g.num)
  let s3 := gs.foldl (fun (a : State) g => a.freeSet g.1 g.2) s2
  let s4 := s3.loseGrans fun g => g.home == n
  let ps := s4.sq.pages.map fun x =>
    if x.sumStack = n then
      let l := s4.leafAt x.part x.serial
      { x with summary := none, sumStack := ((s4.t1Stack x.part ((l.map (·.leafNo)).getD 0) (x.serial - (l.map (·.serial)).getD x.serial) 0)).getD n }
    else x
  ({ s4 with sq := { s4.sq with pages := ps } }, r.2)

/-- GiB of a stack that a partition still has is cut while the assignments exceed the capacity (R681), largest quota first. -/
def State.cutQuotas (n : Nat) : Nat → State → State
  | 0, s => s
  | fuel + 1, s =>
    let quota := fun (p : Partition) => p.t1.getD n 0
    let assigned := s.stackReserve + sumBy (fun (p : Partition) => quota p + p.scrubGib.getD n 0) s.part.parts
    if assigned ≤ (s.stack n).capGib then s
    else match argMin (fun (p : Partition) => -(quota p : Int)) (s.part.parts.filter fun p => quota p > 0) with
      | none => s
      | some p =>
        State.cutQuotas n fuel ((s.setPart p.num fun y => { y with t1 := nthUpd n (· - 1) y.t1 }).raise Ev.QUOTA_CUT p.num)

/-- A stack's capacity follows its pseudo-channels and retired regions (R679–R681). -/
def State.stackCap (s : State) (n : Nat) : State :=
  let k := s.stack n
  let pcs := popCount 32 k.pcOk
  let cap := if k.st == .retired || k.st == .absent then 0 else 36 * pcs / 32 - ceilDiv k.regions.length 1024
  State.cutQuotas n 64 (s.setStack n fun x => { x with capGib := cap, mbps := 1200000 * pcs / 32 })

/-- Spare rows left in a bank: what is left of the stack's own number (R679), which the chapters do not give. -/
def State.spareRows (s : State) (n bank : Nat) : Nat := alGetD bank (Config.spareRows n) (s.stack n).spares

/-- A row is spared (R679), or its 1 MiB region retired when the bank has no spare row left. -/
def State.spareRow (s : State) (n bank row addr : Nat) : State :=
  let left := s.spareRows n bank
  if (s.stack n).rows.any fun r => r.bank == bank && r.row == row && r.spared then s
  else
    let mark := fun (x : Stack) => { x with rows := put (fun r => r.bank == bank && r.row == row) { bank := bank, row := row, spared := true } x.rows }
    if left = 0 then
      let s1 := s.setStack n fun x => { mark x with regions := x.regions ++ [addr / 2 ^ 20] }
      (((s1.bump F.REGIONS_RETIRED).degrade 0x08 (n + 1)).raiseU Ev.REGION_RETIRED n).stackCap n
    else
      let s1 := s.setStack n fun x =>
        { mark x with spares := alSet bank (left - 1) x.spares, pendingRepair := x.pendingRepair ++ [(bank, row)] }
      let s2 : State := { s1 with boot := { s1.boot with repairLog := s1.boot.repairLog ++ [(n, bank, row)] } }
      (s2.bump F.ROWS_SPARED).raiseU Ev.ROW_SPARED n

/-- A pseudo-channel fails (R680). -/
def State.failPc (s : State) (n pc fault : Nat) : State :=
  let s1 := s.setStack n fun x => { x with pcOk := setBit x.pcOk pc false, st := .degraded, reason := 3 }
  let r := s1.loseStack n fault
  ((r.1.addLost fault r.2).degrade 0x08 (n + 1)).stackCap n

/-- A whole stack is retired (R682). -/
def State.retireStack (s : State) (n reason fault : Nat) : State :=
  let s1 := s.setStack n fun x => { x with st := .retired, reason := reason, pcOk := 0 }
  let r := s1.loseStack n fault
  let cut := r.1.part.parts.filter fun p => p.t1.getD n 0 > 0
  let s2 := (r.1.addLost fault r.2).stackCap n
  let s3 := cut.foldl (fun (a : State) p =>
    let more := (a.partition p.num).t1.getD n 0 > 0
    let a1 := a.setPart p.num fun y => { y with t1 := nthUpd n (fun _ => 0) y.t1 }
    if more then a1.raise Ev.QUOTA_CUT p.num else a1) s2
  (s3.faulty 0x08 (n + 1)).raiseU Ev.STACK_RETIRED n

/-- A whole attention die fails (R682): with its stack go its logical cores, its arbiter and its sequencers. -/
def State.retireDie (s : State) (d fault : Nat) : State :=
  if !s.dieOk d then s
  else
    let lost := (List.range 320).flatMap fun c => s.workOn (320 * d + c)
    let held := (s.att.helds.filter fun h => h.cluster / 10 == d && (h.place == 1 || h.place == 3)).map (·.cmd)
    let r := s.poisonCmds (lost ++ held)
    let cores := (List.range 320).filter fun c => r.1.coreOk (320 * d + c)
    let s1 := r.1.retireStack d 5 fault
    let s2 := cores.foldl (fun (a : State) c => a.retireCore s (320 * d + c)) s1
    let arbs := nthUpd d (fun (a : Arbiter) => { a with holder := none }) s2.course.arbs
    let s3 : State := { s2 with course := { s2.course with arbs := arbs }, dev := { s2.dev with retired := setBit s2.dev.retired d true } }
    (s3.retireSeqrs d).raise Ev.DIE_RETIRED

/-! ### Bridge dies (R38–R41, R683, R684) -/

/-- The stream codec of a lost bridge die stops; its blocks go to the survivor's (R38). -/
def State.codecsMove (s : State) (b : Nat) : State :=
  let k := s.codec b
  let o := s.codec (1 - b)
  let back := k.lanes.filterMap id
  (s.setCodec { k with lanes := k.lanes.map fun _ => none, okLanes := k.okLanes.map fun _ => false, queue := [] }).setCodec
    { o with queue := o.queue ++ back ++ k.queue }

/-- A bridge die is declared lost (R38–R41): the pages held only on its channels are lost or restored, its sequencers, codec lanes and
NM units stop, its time base is gone. -/
def State.loseBridge (s : State) (b : Nat) : State :=
  if s.bridgeLost b then s
  else
    let num := s.tel.nextFault
    let s1 := ((s.setBridge b fun x => { x with st := .lost }).reroute.fault 10 2 255 (faultUnit (8 + b) b) 0 0).raise Ev.BRIDGE_LOST
    let us := s1.ftl.units.filter fun u => u.bridge == b
    let ks := ((us.filter fun u => u.what == 0).map fun u => (u.part, u.serial)).eraseDups
    let rs := ((us.filter fun u => u.what == 1).map (·.serial)).eraseDups
    let s2 := s1.codecsMove b |>.t3Lost ks 2 num
    let s3 := rs.foldl (fun (a : State) r => a.dropReplica r) s2
    let s4 : State := { s3.retireSeqrs (8 + b) with cxl := { s3.cxl with sf := del (fun l => l.bridge == b) s3.cxl.sf } }
    let s5 : State := { s4 with sec := { s4.sec with sessions := del (fun x => x.port / 4 % 2 == b) s4.sec.sessions } }
    let s6 := ((s5.cxl.jobs.filter fun j => j.running && j.die == b).map (·.cmd)).foldl (fun (a : State) c =>
      match a.cmd c with | some x => a.nmEnd x St.poison 0 0 | none => a) s5
    let moved := upd (fun (j : NmJob) => j.die == b) (fun j => { j with die := 1 - b }) s6.cxl.jobs
    let s6 : State := { s6 with cxl := { s6.cxl with jobs := moved } }
    let s7 := if s6.time.primary = b then s6.setPrimary (1 - b) else s6
    let pages := (List.range 16).filter fun u => u / 4 % 2 == b
    let s8 := pages.foldl (fun (a : State) u => if u < 8 then a.faulty 0x11 (u + 1) else a.faulty 0x12 (u - 7)) s7
    ((((s8.faulty 0x13 (b + 1)).faulty 0x0E (b + 1)).faulty 0x0D (b + 1)).degrade 0x01 0).capCheck

/-- A restart of a fenced bridge die is attempted, or the die declared lost when RESTART_MAX restarts have been made within 24 h (R683). -/
def State.restartBridge (s : State) (b : Nat) : State :=
  let x := s.bridge b
  let recent := x.restarts.filter fun t => s.now < t + 86400000000000
  if x.st != .fenced then s
  else if recent.length ≥ s.g F.BRIDGE_CFG_RESTART_MAX then s.loseBridge b
  else s.setBridge b fun y => { y with st := .restarting, fencedAt := s.now, restarts := recent ++ [s.now] }

/-- The lead is lost or may be (R673): the device is headless from now on. -/
def State.checkHeadless (s : State) : State :=
  if s.leadHalf.isSome ∨ s.course.headlessSince.isSome then s
  else { s with course := { s.course with headlessSince := some s.now, headlessRaised := false } }

/-- A half enters DOWN (R664). -/
def State.halfDown (s : State) (h : Nat) : State :=
  let was := (s.half h).st
  let s1 := (s.setHalf h fun x => { x with st := .down, synced := false, loaded := x.loaded }).checkHeadless
  if was == .standby then s1.raise Ev.STANDBY_LOST else s1

/-- Repair decisions need a lead; without one they wait (R673). -/
def State.repair (s : State) (r : Repair) (now : State → State) : State :=
  if s.leadHalf.isSome then now s
  else { s with hw := { s.hw with deferred := s.hw.deferred ++ [r] } }

/-- A bridge die is fenced (R683). -/
def State.fenceBridge (s : State) (b : Nat) : State :=
  if b ≥ 2 ∨ (s.bridge b).st != .up then s
  else
    let s1 := s.setBridge b fun x => { x with st := .fenced, fencedAt := s.now }
    let r := s1.flowsLost fun f => f.bridge == b
    let s2 := (r.1.fault 10 3 255 (faultUnit (8 + b) b) r.2 0).raise Ev.BRIDGE_FENCED
    let s3 := ((List.range 16).filter fun i => i / 4 % 2 == b).foldl (fun (a : State) i => a.linkDown i) s2
    let s4 := (s3.halfDown b).frontEndLost b
    s4.repair (.bridgeRestart b) fun a => a.restartBridge b

/-- A repair that waited for a lead is made. -/
def State.applyRepair (s : State) (r : Repair) : State :=
  match r with
  | .row n bank row addr => if s.stackOk n then s.spareRow n bank row addr else s
  | .pseudoChannel n pc => if s.stackOk n then s.failPc n pc 0 else s
  | .stack n reason die => if die then s.retireDie n 0 else if s.stackOk n then s.retireStack n reason 0 else s
  | .bridgeRestart b => s.restartBridge b

end Sys2Proof.Machine
end

