-- ==== Sys2Proof/Machine/CourseCmds.lean ====
section
/-! DEFINITION. The course (R664–R673, R701): its halves, the lead-lease arbiters, claim rounds, the lead, the mirrored journal. -/

namespace Sys2Proof.Machine

def State.arb (s : State) (d : Nat) : Arbiter := s.course.arbs.getD d {}

def State.setArb (s : State) (d : Nat) (f : Arbiter → Arbiter) : State :=
  { s with course := { s.course with arbs := nthUpd d f s.course.arbs } }

/-- An arbiter's lease is expired or released (R666). -/
def State.arbFree (s : State) (d : Nat) : Bool :=
  let a := s.arb d
  a.holder.isNone || decide (a.expiry ≤ s.now)

/-- The leases of a majority are expired or released (R668); a retired die's arbiter counts as unheld. -/
def State.leadOpen (s : State) : Bool := s.majority (s.enabledDies.filter fun d => bit s.dev.retired d || s.arbFree d).length

/-- Arbiters a claim reaches. -/
def State.arbDies (s : State) : List Nat := s.enabledDies.filter fun d => !bit s.dev.retired d

/-- The highest epoch of any arbiter. -/
def State.topEpoch (s : State) : Nat := maxBy (fun d => (s.arb d).epoch) s.arbDies

/-- The halves may claim at start-up once both have reached RESYNC, or 50 ms after the first one did (R701). -/
def State.startDone (s : State) (h : Nat) : Bool :=
  let there := fun (x : Half) => x.st == .resync || x.st == .standby
  s.course.everLed || there (s.half (1 - h)) || decide ((s.half h).resyncT + 50000000 ≤ s.now)

/-- A half may begin a claim round. -/
def State.mayClaim (s : State) (h : Nat) : Bool :=
  let x := s.half h
  h < 2 && (x.st == .resync || x.st == .standby) && s.leadOpen && decide (x.backoffEnd ≤ s.now) && s.startDone h && !s.hw.stopped

/-- A claim round begins (R666): E is the highest epoch read plus 1. No epoch exceeds 2^32 − 1: that round fails (R677). -/
def State.startClaim (s : State) (h : Nat) : State :=
  let e := s.topEpoch
  let s1 := s.bumpU F.CLAIMS h
  if e ≥ 2 ^ 32 - 1 then
    let wait := if h = 0 then 5000 else 15000
    (s1.setHalf h fun x => { x with epoch := e, backoffEnd := s.now + wait }).raise Ev.HEADLESS
  else s1.setHalf h fun x => { x with st := .claiming, epoch := max x.epoch e, claimE := e + 1, claimT := s.now, backoffEnd := 0 }

/-- A half releases the arbiters it holds. -/
def State.releaseArbs (s : State) (h : Nat) : State :=
  let free := upd (fun (a : Arbiter) => a.holder == some h) (fun (a : Arbiter) => { a with holder := none }) s.course.arbs
  { s with course := { s.course with arbs := free } }

/-- SHUARN_START (R664, R700, R701): a verified Shuarn starts and its half enters RESYNC; step 0 ends when every half that can has. -/
def execShuarnStart (half : Nat) (s : State) : Host.Outcome State Fault Refusal :=
  let x := s.half half
  let compared := s.boot.settled.contains (0, 0) && s.boot.settled.contains (0, 1)
  if half ≥ 2 ∨ x.st != .down ∨ !x.loaded ∨ !s.bridgeUp half ∨ !s.boot.begun ∨ s.boot.halted ∨ !compared ∨ s.hw.stopped then .next s
  else
    let s1 := s.setHalf half fun y => { y with st := .resync, resyncT := s.now, epoch := max y.epoch s.topEpoch, synced := false, stale := false }
    let all := [0, 1].all fun h => !(s1.half h).loaded || (s1.half h).st != .down
    .next (if all && s1.mayStep 0 then s1.endStep 0 stepOk else s1)

/-- JOURNAL_CAUGHT_UP (R664). -/
def execJournalCaughtUp (half : Nat) (s : State) : Host.Outcome State Fault Refusal :=
  if half ≥ 2 ∨ (s.half half).st != .resync ∨ !s.holdsLead (1 - half) then .next s
  else .next (s.setHalf half fun x => { x with st := .standby, synced := true, lag := 0, seq := s.course.nextRec - 1 })

/-- STANDBY_POLL (R668, R664): a half that does not lead reads every arbiter. -/
def execStandbyPoll (half : Nat) (s : State) : Host.Outcome State Fault Refusal :=
  if s.mayClaim half then .next (s.startClaim half)
  else if half < 2 ∧ (s.half half).st == .fenced ∧ s.holdsLead (1 - half) ∧ (s.half (1 - half)).epoch > (s.half half).epoch then
    .next (s.setHalf half fun x => { x with st := .resync, synced := false, stale := false, resyncT := s.now,
                                            epoch := (s.half (1 - half)).epoch })
  else .next s

/-- CLAIM_ROUND (R666). -/
def execClaimRound (half : Nat) (s : State) : Host.Outcome State Fault Refusal :=
  if s.mayClaim half then .next (s.startClaim half) else .next s

/-- CLAIM_START_TIMEOUT (R701): 50 ms after the first half reached RESYNC. -/
def execClaimStartTimeout (s : State) : Host.Outcome State Fault Refusal :=
  let waiting := [0, 1].filter fun h => (s.half h).st == .resync
  if s.course.everLed then .next s
  else match argMin (fun h => (((s.half h).resyncT : Nat) : Int)) waiting with
    | none => .next s
    | some h =>
      let s1 := s.reach ((s.half h).resyncT + 50000000)
      .next (if s1.mayClaim h then s1.startClaim h else s1)

/-- ARBITER_CLAIM (R666): a claim reaches an arbiter, which grants it or does not. -/
def execArbiterClaim (die half epoch : Nat) (s : State) : Host.Outcome State Fault Refusal :=
  let x := s.half half
  if half ≥ 2 ∨ !s.arbDies.contains die ∨ x.st != .claiming ∨ x.claimE ≠ epoch then .next s
  else if s.arbFree die && decide ((s.arb die).epoch < epoch) then
    .next (s.setArb die fun a => { a with holder := some half, epoch := epoch, expiry := s.now + 100000 })
  else .next s

/-- Commands of the supervisor queues at a takeover (R671): those begun and not committed are issued again on the new lead's queue, the
others of the old lead's queue are held as never submitted. -/
def State.reissueBegun (s : State) (h : Nat) : State :=
  let begun := (s.course.journal.filter fun r => r.begun && !r.committed).map (·.cmd)
  let cs := upd (fun (c : Cmd) => begun.contains c.uid && c.q ≥ 65536) (fun (c : Cmd) => { c with q := 65536 + h, st := .waiting, phase := 0 })
    s.q.cmds
  let s1 : State := { s with
    q := { s.q with cmds := cs }
    course := { s.course with journal := s.course.journal.filter fun r => r.committed, mirror := [] } }
  ((s1.q.cmds.filter fun c => c.q == 65537 - h).map (·.uid)).foldl (fun (a : State) c => a.discard c) s1

/-- CLAIM_GRANTED (R666, R671, R68, R805): a half holds a majority within 2 µs of sending and takes the lead. -/
def execClaimGranted (half : Nat) (s : State) : Host.Outcome State Fault Refusal :=
  let x := s.half half
  if half ≥ 2 ∨ x.st != .claiming ∨ !s.majority (s.heldBy half x.claimE).length ∨ s.now > x.claimT + 2000 then .next s
  else
    let last := max (s.half 0).lastRenew (s.half 1).lastRenew
    let s1 := s.setHalf half fun y => { y with st := .lead, epoch := y.claimE, lastRenew := s.now, synced := true, stale := false, lag := 0 }
    let s2 : State := { s1 with course := { s1.course with pubEpoch := x.claimE, headlessSince := none, headlessRaised := false, everLed := true } }
    let s3 := if s.course.everLed then
        (s2.bump F.FAILOVERS).w F.LAST_TAKEOVER_NS (min (s.now - last) (2 ^ 32 - 1))
      else s2
    let s4 := ((s3.raise Ev.FAILOVER).reissueBegun half).setPrimary half
    let rails := s4.hw.rails.zipIdx.map fun (e : Rail × Nat) => if e.2 < 10 then { e.1 with readPending := true } else e.1
    let owed := s4.hw.deferred
    let s5 : State := { s4 with hw := { s4.hw with rails := rails, deferred := [] } }
    .next (owed.foldl (fun (a : State) r => a.applyRepair r) s5)

/-- CLAIM_TIMEOUT (R664, R666): no majority within 2 µs of sending; what was won is released, and the back-off begins. -/
def execClaimTimeout (half : Nat) (s : State) : Host.Outcome State Fault Refusal :=
  let x := s.half half
  if half ≥ 2 ∨ x.st != .claiming then .next s
  else
    let s1 := s.reach (x.claimT + 2000)
    let s2 := s1.releaseArbs half
    let wait := if half = 0 then 5000 else 15000
    .next (s2.setHalf half fun y => { y with st := if y.synced then .standby else .resync, backoffEnd := s1.now + wait })

/-- CLAIM_BACKOFF (R666). -/
def execClaimBackoff (half : Nat) (s : State) : Host.Outcome State Fault Refusal :=
  let x := s.half half
  if half ≥ 2 ∨ x.backoffEnd = 0 ∨ !(x.st == .resync || x.st == .standby) then .next s
  else
    let s1 := s.reach x.backoffEnd
    .next (if s1.mayClaim half then s1.startClaim half else s1.setHalf half fun y => { y with backoffEnd := 0 })

/-- LEASE_RENEW (R666): every 25 µs, the arbiters the lead holds, under its own epoch. -/
def execLeaseRenew (half : Nat) (s : State) : Host.Outcome State Fault Refusal :=
  let x := s.half half
  if half ≥ 2 ∨ x.st != .lead then .next s
  else
    let s1 := s.reach (x.lastRenew + 25000)
    let ds := s1.heldBy half x.epoch
    let s2 := ds.foldl (fun (a : State) d => a.setArb d fun y => { y with expiry := s1.now + 100000 }) s1
    .next (if s1.majority ds.length then s2.setHalf half fun y => { y with lastRenew := s1.now } else s2)

/-- ARBITER_EXPIRE (R665). -/
def execArbiterExpire (die : Nat) (s : State) : Host.Outcome State Fault Refusal :=
  if die ≥ 8 ∨ (s.arb die).holder.isNone then .next s
  else .next ((s.reach (s.arb die).expiry).setArb die fun a => { a with holder := none }).checkHeadless

/-- LEAD_FENCE (R664): fewer than a majority renewed for 75 µs, or a write of the lead refused for a stale epoch. -/
def execLeadFence (half : Nat) (s : State) : Host.Outcome State Fault Refusal :=
  let x := s.half half
  if half ≥ 2 ∨ x.st != .lead then .next s
  else
    let s1 := if x.stale then s else s.reach (x.lastRenew + 75000)
    let s2 := (s1.setHalf half fun y => { y with st := .fenced, stale := false }).releaseArbs half
    .next (s2.fault 9 3 255 (faultUnit (8 + half) half) 0 0).checkHeadless

/-- HALF_WATCHDOG (R664, R663): no Shuarn heartbeat for HALF_WD_US; the half is reset, and its verified copy restarts. -/
def execHalfWatchdog (half : Nat) (s : State) : Host.Outcome State Fault Refusal :=
  if half ≥ 2 ∨ (s.half half).st == .down then .next s
  else .next (((s.bumpU F.WD_RESETS half).fault 9 4 255 (faultUnit (8 + half) half) 0 0).halfDown half)

/-- MIRROR_RECORD (R669): the standby acknowledges a record, which is then committed. -/
def execMirrorRecord (num : Nat) (s : State) : Host.Outcome State Fault Refusal :=
  match s.leadHalf, s.course.mirror.find? fun m => m.num == num with
  | some h, some _ =>
    let j := upd (fun (r : JRec) => r.num == num) (fun (r : JRec) => { r with committed := true }) s.course.journal
    let s1 : State := { s with course := { s.course with journal := j, mirror := del (fun (m : MirrorWait) => m.num == num) s.course.mirror } }
    .next ((s1.setHalf (1 - h) fun x => { x with lag := x.lag - 1, seq := max x.seq num }).setHalf h fun x => { x with seq := max x.seq num })
  | _, _ => .next s

/-- MIRROR_TIMEOUT (R670): a record is not acknowledged within 20 µs; the standby is set to RESYNC, the lead commits with its own and
the flash copy. -/
def execMirrorTimeout (s : State) : Host.Outcome State Fault Refusal :=
  match s.leadHalf, argMin (fun (m : MirrorWait) => ((m.sent : Nat) : Int)) s.course.mirror with
  | some h, some m =>
    let s1 := s.reach (m.sent + 20000)
    let waiting := s1.course.mirror.map (·.num)
    let j := upd (fun (r : JRec) => waiting.contains r.num) (fun (r : JRec) => { r with committed := true }) s1.course.journal
    let s2 : State := { s1 with course := { s1.course with journal := j, mirror := [] } }
    let s3 := (s2.setHalf (1 - h) fun x => { x with st := .resync, synced := false, resyncT := s1.now }).raise Ev.STANDBY_LOST
    .next (s3.setHalf h fun x => { x with seq := maxBy (fun n => n) (x.seq :: waiting) })
  | _, _ => .next s

/-- HEADLESS_TIMEOUT (R673): headless for 1 ms. -/
def execHeadlessTimeout (s : State) : Host.Outcome State Fault Refusal :=
  match s.course.headlessSince with
  | none => .next s
  | some t =>
    let s1 := s.reach (t + 1000000)
    if s1.leadHalf.isSome ∨ s.course.headlessRaised then .next s
    else .next (({ s1 with course := { s1.course with headlessRaised := true } } : State).raise Ev.HEADLESS)

end Sys2Proof.Machine
end

