-- ==== Sys2Proof/Machine/FlashCmds.lean ====
section
/-! DEFINITION. The flash media's events (R544, R555–R581). -/

namespace Sys2Proof.Machine

/-! ### Programs, reads and erases -/

/-- A block that failed a program or an erase is bad (R560). -/
def State.badBlock (s : State) (c t n : Nat) : State :=
  (s.setNdie c t fun d => { d with bad := if d.bad.contains n then d.bad else d.bad ++ [n], peFails := d.peFails ++ [s.now] }).bumpUS
    F.DIE_PE_FAIL c t

/-- NAND_PROGRAM_DONE (R553, R559, R560): the programs issued to a block end. -/
def execNandProgramDone (chan target block : Nat) (ok : Bool) (s : State) : Host.Outcome State Fault Refusal :=
  match s.ndie chan target, s.ftl.sbs.find? (fun x => x.members.contains (chan, target, block)) with
  | some d, some x =>
    let here := fun (m : Option (Nat × Nat × Nat)) => m == some (chan, target, block)
    let s0 := s.setNdie chan target fun y => { y with noStatus := 0 }
    if ok then
      let new := s.ftl.units.filter fun u => !u.mapped && here (s.unitAt u)
      let moved := s.ftl.units.filter fun u => here (s.unitTo u)
      let s1 := new.foldl (fun (a : State) u => a.setUnit u.lua fun v => { v with mapped := true }) s0
      let s2 := moved.foldl (fun (a : State) u => a.setUnit u.lua fun v => match v.to_ with
        | some (k, n, g, sl) => { v with set := k, sb := some n, group := g, slot := sl, mapped := true, to_ := none }
        | none => v) s1
      let par := x.members[x.parity]? == some (chan, target, block)
      let bytes := if par then rowPageBytes d x.pslc else sumBy unitBytes (new ++ moved)
      let s3 := (s2.bumpU F.CH_WR_KIB chan (ceilDiv bytes 1024)).bump F.NAND_WR_KIB (ceilDiv bytes 1024)
      -- the parity pages asked for are programmed with their member's block; the data ones may make others due (R547)
      let s4 := if par then s3.setSb x.bridge x.set x.num fun y => { y with parDone := y.parAsked } else s3
      let s5 := s4.tookNand x.bridge fun y => { y with host := y.host + sumBy unitBytes new }
      .next ((s5.parityDue.placeWaiting.eraseDue).ackReplicas)
    else
      let s1 := (s0.badBlock chan target block).setSb x.bridge x.set x.num SuperBlk.close
      let s2 := s1.setNblock chan target block fun b => { b with refresh := true }
      .next (s2.reprogram here)
  | _, _ => .next s

/-- A reconstruction reads the codeword slot in every other member of the row (step 4 of R567); reads disturb their blocks too (R571). -/
def State.readOthers (s : State) (chan target block : Nat) : State :=
  match s.ftl.sbs.find? (fun x => x.members.contains (chan, target, block)) with
  | none => s
  | some x => (x.members.filter fun m => m != (chan, target, block)).foldl (fun (a : State) m =>
      match a.ndie m.1 m.2.1 with
      | some d => if d.serves then (a.setNblock m.1 m.2.1 m.2.2 fun b => { b with reads := b.reads + 1 }).bumpU F.CH_RD_KIB m.1 4 else a
      | none => a) s

/-- The FTL reports a unit unreadable (step 5 of R567, R577). -/
def State.unreadable (s : State) (chan lua : Nat) : State :=
  let us := s.ftl.units.filter fun u => u.lua == lua
  ((s.setUnit lua fun u => { u with readable := false }).raiseU Ev.UNREADABLE chan).loseUnits us 0

/-- What every read of a codeword does (R567, R571, R574). -/
def State.readBlock (s : State) (chan target block step bits lua : Nat) : State :=
  match s.ndie chan target with
  | none => s
  | some d =>
    let pct := s.g F.REFRESH_PCT
    let s1 := (s.setNdie chan target fun y => { y with noStatus := 0 }).setNblock chan target block fun b =>
      { b with reads := b.reads + 1
               refresh := b.refresh || decide (step ≥ 2) || decide (bits * 100 ≥ pct * profHard d.profile) ||
                          decide (b.reads + 1 > Config.readLimit d.profile) }
    let s2 := s1.bumpU F.CH_RD_KIB chan 4
    let s3 := if step = 2 then s2.bumpUS F.DIE_RETRIES chan target
      else if step = 3 then s2.bumpUS F.DIE_SOFT chan target
      else if step = 4 then s2.bumpUS F.DIE_PARITY_RD chan target else s2
    let s4 := if step ≥ 4 then (s3.setNdie chan target fun y => { y with soft := y.soft ++ [(block, s.now)] }).readOthers chan target block
      else s3
    if step ≥ 5 then s4.unreadable chan lua else s4

/-- A read of a unit on a FAILED die goes to step 4 at once: the other members serve it, or the unit is unreadable (R575). -/
def State.readFailed (s : State) (chan target block step lua : Nat) : State :=
  let gone := s.ftl.units.any fun u => u.lua == lua && s.unitGone3 u
  let s1 := s.readOthers chan target block
  if step = 5 ∨ gone then s1.unreadable chan lua else s1.bumpUS F.DIE_PARITY_RD chan target

/-- A unit of a page was decoded, but a coded block in it failed its CRC at the channel's block checker (R325, R338): the unit
cannot serve its page. -/
def State.nandCrc (s : State) (bridge lua : Nat) : State :=
  let us := s.ftl.units.filter fun u => u.lua == lua
  let s1 := (us.filter fun u => u.what == 0).foldl (fun (a : State) u => a.crcSeen u.part (some bridge)) s
  (s1.setUnit lua fun u => { u with readable := false }).loseUnits us 0

/-- NAND_READ_DONE (R567, R571, R575): a codeword read ends at a step, with the bits it corrected; step 6 is a read whose codeword decodes and
whose coded block does not check (R338). -/
def execNandReadDone (chan target block step bits lua : Nat) (s : State) : Host.Outcome State Fault Refusal :=
  match s.ndie chan target with
  | some d =>
    let s1 := s.tookNand d.bridge fun y => { y with host := y.host + 4096 }
    if d.serves ∧ step = 6 then .next ((s1.readBlock chan target block 1 bits lua).nandCrc d.bridge lua)
    else if d.serves ∧ 1 ≤ step ∧ step ≤ 5 then .next (s1.readBlock chan target block step bits lua)
    else if d.st = .failed ∧ (step = 4 ∨ step = 5) then .next (s1.readFailed chan target block step lua)
    else .next s
  | none => .next s

/-- Three full rows of a pSLC superblock, or what is left of a closed one, can be folded next (R557). -/
def SuperBlk.foldable (x : SuperBlk) : Nat :=
  let full := if x.open_ then x.next / x.rowGroups else ceilDiv x.next x.rowGroups
  if x.folded + 3 ≤ full then 3 else if x.open_ then 0 else full - x.folded

/-- A TLC superblock of a set with the parity member and width of the source and a free wordline row (R557); superblock numbers are
passed over until the parity member is right. -/
def State.foldTarget (s : State) (x : SuperBlk) : Option (State × SuperBlk) :=
  let w := x.members.length
  let find := fun (t : State) => t.ftl.sbs.find? fun y =>
    y.bridge == x.bridge && y.set == x.set && !y.pslc && y.open_ && y.parity == x.parity && y.members.length == w &&
    decide (roundUp y.next (3 * x.rowGroups) + 3 * x.rowGroups ≤ y.groups)
  match find s with
  | some y => some (s, y)
  | none =>
    let s1 := s.setSset x.bridge x.set fun k => { k with nextSb := k.nextSb + (x.parity + w - k.nextSb % w) % w }
    (s1.openSb x.bridge x.set false).bind fun t => (find t).map fun y => (t, y)

/-- The units the next fold of a superblock takes. -/
def State.foldUnits (s : State) (x : SuperBlk) : List NUnit :=
  s.ftl.units.filter fun u => u.inSb x && decide (x.folded ≤ u.group / x.rowGroups ∧ u.group / x.rowGroups < x.folded + x.foldable)

/-- A fold that can be made takes precedence over every other background task of its bridge die while PSLC_USED is at or above the target
(R557). -/
def State.foldFirst (s : State) (b : Nat) : Bool :=
  s.foldUrgent && !s.paused 0x13 (b + 1) &&
  s.ftl.sbs.any fun x => x.bridge == b && x.pslc && decide (x.foldable > 0) && (s.foldUnits x).all (·.mapped) && (s.foldTarget x).isSome

/-- Another background task than folding may go on. -/
def State.bgTurn (s : State) (b : Nat) (re : Bool) : Bool := s.bgMay b re && !s.foldFirst b

/-- PATROL_READ (R570, R571): the drone reads and decodes a written page of an active or draining die. -/
def execPatrolRead (chan target block step bits lua : Nat) (s : State) : Host.Outcome State Fault Refusal :=
  match s.ndie chan target with
  | some d =>
    if s.g F.FTL_CTRL_DRONE_EN = 0 ∨ s.paused 0x14 (chan + 1) ∨ !d.serves ∨ step = 0 ∨ step > 5 ∨ !(s.nblock chan target block).inUse ∨
        !s.bgTurn d.bridge false then .next s
    else .next (((s.bgTook d.bridge 4096 0 false).readBlock chan target block step bits lua).setNblock chan target block fun b => { b with patrolT := s.now })
  | none => .next s

/-- NAND_ERASE_DONE (R560, R563, R565): an erase of a member block ends. The superblock is free when all of its blocks have been erased,
those on failed dies apart. -/
def execNandEraseDone (chan target block : Nat) (ok : Bool) (s : State) : Host.Outcome State Fault Refusal :=
  match s.ftl.sbs.find? (fun x => x.members.contains (chan, target, block)) with
  | some x =>
    match x.erasing with
    | none => .next s
    | some t0 =>
      if s.tier.moves.any fun m => m.srcTier == 3 && decide (m.startT ≤ t0) then .next s
      else
        let add := if x.pslc then 1 else 10
        let s0 := s.setNdie chan target fun y => { y with noStatus := 0 }
        let s1 := s0.setNblock chan target block fun b =>
          { b with inUse := false, wear := if ok then b.wear + add else b.wear, reads := 0, refresh := false }
        let s2 := if ok then s1 else s1.badBlock chan target block
        let left := x.members.any fun m =>
          (match s2.ndie m.1 m.2.1 with | some d => d.serves | none => false) && (s2.nblock m.1 m.2.1 m.2.2).inUse
        let s3 : State := if left then s2 else { s2 with ftl := { s2.ftl with
          sbs := del (fun y => y.bridge == x.bridge && y.set == x.set && y.num == x.num) s2.ftl.sbs } }
        .next s3.placeWaiting
  | none => .next s

/-- NAND_STATUS_TIMEOUT (R574): a die returned no status in time. -/
def execNandStatusTimeout (chan target : Nat) (s : State) : Host.Outcome State Fault Refusal :=
  match s.ndie chan target with
  | some d => if d.serves then .next (s.setNdie chan target fun y => { y with noStatus := y.noStatus + 1 }) else .next s
  | none => .next s

/-! ### Background work -/

/-- FOLD (R557, R558, R566): the oldest foldable rows of a set are written as one TLC row, whose parity follows its data members; the sources
stay until their programs are done. -/
def execFold (bridge set : Nat) (s : State) : Host.Outcome State Fault Refusal :=
  let srcs := s.ftl.sbs.filter fun x =>
    x.bridge == bridge && x.set == set && x.pslc && decide (x.foldable > 0) && !s.paused 0x13 (bridge + 1) &&
      s.bgMay bridge s.foldUrgent
  match argMin (fun (x : SuperBlk) => (x.seqNo : Int)) srcs with
  | none => .next s
  | some x =>
    let n := x.foldable
    let us := s.foldUnits x
    if us.any fun u => !u.mapped then .next s
    else
      let vs := us.filter fun u => u.to_.isNone
      let s1 := s.setSb x.bridge x.set x.num fun y => { y with folded := y.folded + n }
      if vs.isEmpty then .next s1.eraseDue
      else match s1.foldTarget x with
        | some (t, y) =>
          let base := roundUp y.next (3 * x.rowGroups)
          let t1 := vs.foldl (fun (a : State) u => a.setUnit u.lua fun v =>
            { v with to_ := some (y.set, y.num, base + (u.group - x.folded * x.rowGroups), u.slot) }) t
          let t2 := t1.setSb y.bridge y.set y.num fun z =>
            { z with next := base + 3 * x.rowGroups, open_ := decide (base + 3 * x.rowGroups < z.groups) }
          let t3 := x.members.foldl (fun (a : State) m => a.emit (.nand m.1 m.2.1 0 m.2.2)) t2
          let n := sumBy unitBytes vs
          .next ((y.members.eraseIdx y.parity).foldl (fun (a : State) m => a.emit (.nand m.1 m.2.1 1 m.2.2))
            (t3.bgTook bridge n n s.foldUrgent))
        | none => if (s.goodSets bridge).isEmpty then .next s else .next (s1.relocateAll vs false s.foldUrgent)

/-- GC_LOW and GC_HIGH as the device acts on them (R562). -/
def State.gcMarks (s : State) : Nat × Nat :=
  let lo := s.g F.GC_CFG_GC_LOW
  let hi := s.g F.GC_CFG_GC_HIGH
  (lo, if hi ≤ lo then lo + 1 else hi)

/-- GC_RUN (R562): below GC_LOW, until GC_HIGH, the TLC superblock with the fewest valid units is relocated. -/
def execGcRun (bridge set : Nat) (s : State) : Host.Outcome State Fault Refusal :=
  match s.sset bridge set with
  | none => .next s
  | some k =>
    let free := s.freeSb bridge set
    let on := k.st != 3 && (decide (free < s.gcMarks.1) || (k.gc && decide (free < s.gcMarks.2)))
    let s1 := s.setSset bridge set fun y => { y with gc := on }
    if !on || s.paused 0x13 (bridge + 1) || !s.bgTurn bridge false then .next s1
    else
      let vs := s.ftl.sbs.filter fun x =>
        x.bridge == bridge && x.set == set && !x.pslc && !x.open_ && x.erasing.isNone && !s.ftl.units.any fun u => u.inSb x && u.to_.isSome
      let wear := fun (x : SuperBlk) => sumBy (fun (m : Nat × Nat × Nat) => (s.nblock m.1 m.2.1 m.2.2).wear) x.members
      match argMin (fun (x : SuperBlk) => (((s.validIn x).length * 2 ^ 40 + wear x : Nat) : Int)) vs with
      | none => .next s1
      | some x => .next (s1.relocateAll (s1.validIn x) true false).eraseDue

/-- A superblock is emptied: closed, its valid units relocated, erased when the last has moved (R564, R572). -/
def State.emptySb (s : State) (x : SuperBlk) : State :=
  ((s.setSb x.bridge x.set x.num SuperBlk.close).relocateAll (s.validIn x) true false).eraseDue

/-- STATIC_LEVEL (R564). -/
def execStaticLevel (bridge set : Nat) (s : State) : Host.Outcome State Fault Refusal :=
  if s.g F.FTL_CTRL_STATIC_WL_EN = 0 then .next s
  else
    let ds := (s.members bridge set).filter (·.serves)
    let blocks := fun (d : NDie) => s.ftl.blocks.filter fun b => b.chan == d.chan && b.target == d.target && !d.bad.contains b.num
    let least := fun (d : NDie) =>
      if (blocks d).length + d.bad.length < d.blocks then 0 else ((blocks d).map (·.wear)).min?.getD 0
    match ds.find? fun d => decide (maxBy (·.wear) (blocks d) > least d + s.g F.WEAR_SPREAD) with
    | none => .next s
    | some d =>
      match argMin (fun (b : NBlock) => (b.wear : Int)) ((blocks d).filter (·.inUse)) with
      | none => .next s
      | some b =>
        match s.ftl.sbs.find? (fun x => x.members.contains (b.chan, b.target, b.num)) with
        | some x => if x.erasing.isSome || !s.bgTurn bridge false then .next s else .next (s.emptySb x)
        | none => .next s

/-- REFRESH (R571, R572): a block queued for refresh has its superblock's valid units relocated. -/
def execRefresh (chan target block : Nat) (s : State) : Host.Outcome State Fault Refusal :=
  if !(s.nblock chan target block).refresh ∨ s.paused 0x13 (chan / 16 + 1) then .next s
  else match s.ftl.sbs.find? (fun x => x.members.contains (chan, target, block)) with
    | some x =>
      if x.erasing.isSome || !s.bgTurn x.bridge false then .next s
      else
        let s1 := x.members.foldl (fun (a : State) m => a.setNblock m.1 m.2.1 m.2.2 fun b => { b with refresh := false }) s
        .next ((s1.bump F.REFRESHES).emptySb x)
    | none => .next s

/-- PSLC_TARGET_RECOMPUTE (R555), each second; the projected life is looked at with it (R582). -/
def execPslcTargetRecompute (bridge : Nat) (s : State) : Host.Outcome State Fault Refusal :=
  if bridge ≥ 2 then .next s
  else
    let s1 := s.reach (s.ftl.targetT.getD bridge 0 + 1000000000)
    let v := s1.pslcTarget bridge
    let low := decide (s1.lifeDays < 0xFFFF ∧ s1.lifeDays < (designLife - (s1.now - s1.ftl.firstOn)) / 86400000000000)
    let s2 : State := { s1 with ftl := { s1.ftl with
      targets := nthUpd bridge (fun _ => v) s1.ftl.targets, targetT := nthUpd bridge (fun _ => s1.now) s1.ftl.targetT, lifeLow := low } }
    .next (if low && !s1.ftl.lifeLow then s2.raise Ev.LIFE_LOW else s2).placeWaiting

/-! ### Failures (R544, R573–R580) -/

/-- A channel the spare cannot cure: every die on it fails (R579). -/
def State.failChannel (s : State) (chan : Nat) : State :=
  let num := s.tel.nextFault
  let cs := upd (fun (c : NChan) => c.num == chan) (fun c => { c with st := 2 }) s.ftl.chans
  let s1 : State := { s with ftl := { s.ftl with chans := cs } }
  let s2 := (s1.fault 12 2 255 (faultUnit (8 + chan / 16) chan) 0 0).raiseU Ev.CH_FAILED chan
  (s2.ftl.dies.filter fun d => d.chan == chan && d.serves).foldl (fun (a : State) d => a.failNand d.chan d.target num) s2

/-- A channel engine fails: the spare of its bridge die takes over the channel's pins, or the channel fails (R544, R579). -/
def State.failEngine (s : State) (chan : Nat) : State :=
  let b := chan / 16
  if chan ≥ 32 ∨ (s.ftl.chans.any fun c => c.num == chan && c.st == 2) then s
  else if s.ftl.spareUsed.contains b then s.failChannel chan
  else
    let cs := upd (fun (c : NChan) => c.num == chan) (fun c => { c with st := 1 }) s.ftl.chans
    let s1 : State := { s with ftl := { s.ftl with chans := cs, spareUsed := s.ftl.spareUsed ++ [b] } }
    (s1.fault 12 1 255 (faultUnit (8 + b) chan) 0 0).raiseU Ev.SPARE_ENGINE chan

/-- CHANNEL_ENGINE_FAIL (R544). -/
def execChannelEngineFail (chan : Nat) (s : State) : Host.Outcome State Fault Refusal := .next (s.failEngine chan)

/-- CHANNEL_FAIL (R579). -/
def execChannelFail (chan : Nat) (s : State) : Host.Outcome State Fault Refusal :=
  if chan ≥ 32 ∨ (s.ftl.chans.any fun c => c.num == chan && c.st == 2) then .next s else .next (s.failChannel chan)

/-- DIE_FAIL (R573, R574): 1 no status twice in succession, 2 ID or parameter page differs after a reset, 3 soft decode failed in 16 or
more blocks within 1 s. -/
def execDieFail (chan target reason : Nat) (s : State) : Host.Outcome State Fault Refusal :=
  match s.ndie chan target with
  | none => .next s
  | some d =>
    let meets := reason = 2 ∨ (reason = 1 ∧ d.noStatus ≥ 2) ∨ (reason = 3 ∧ s.softBlocks d 1000000000 ≥ 16)
    if !d.serves ∨ ¬ meets then .next s
    else
      let num := s.tel.nextFault
      .next ((s.fault 12 2 255 (faultUnit (8 + d.bridge) (chan * 16 + target)) 0 0).failNand chan target num)

/-- DIE_RETIRE_START (R573, R574). -/
def execDieRetireStart (chan target : Nat) (s : State) : Host.Outcome State Fault Refusal :=
  match s.ndie chan target with
  | none => .next s
  | some d =>
    if d.st == .active && s.wornOut d then
      .next (((s.setNdie chan target fun y => { y with st := .draining }).settleSet d.bridge d.set).capCheck)
    else .next s

/-- REBUILD_ROW (R573, R575–R578, R580): the next row with units on failed or draining dies of a set. `ok` says that every other member
supplies its part of the row. -/
def execRebuildRow (bridge set : Nat) (ok : Bool) (s : State) : Host.Outcome State Fault Refusal :=
  match argMin (fun (r : Nat × Nat × Nat) => ((r.1 * 2 ^ 20 + r.2.2 : Nat) : Int)) (s.rowsLeft bridge set),
      s.sset bridge set with
  | some r, some k =>
    match s.sbOf bridge set r.2.1 with
    | none => .next s
    | some x =>
      let us := s.ftl.units.filter fun u =>
        u.inSb x && u.mapped && u.to_.isNone && u.group / x.rowGroups == r.2.2
      let st := fun (u : NUnit) => (s.unitAt u).bind fun m => (s.ndie m.1 m.2.1).map (·.st)
      let dead := us.filter fun u => st u == some .failed
      let drain := us.filter fun u => st u == some .draining
      let lost := !ok || decide (s.cannotSupply x (if x.pslc then r.2.2 else r.2.2 / 3) ≥ 2)
      let s1 := s.relocateAll (drain ++ if lost then [] else dead) false true
      let stuck := (drain ++ dead).filter fun u => s1.ftl.units.any fun v => v.lua == u.lua && v.to_.isNone
      if !s.bgTurn bridge true then .next s
      else if lost then .next (s1.loseUnits dead k.fault)
      else if k.st = 3 then .next (s1.loseUnits stuck k.fault)
      else .next s1
  | _, _ => .next s

/-- DRAIN_DONE (R573): the last unit of a draining or failed die has been relocated. -/
def execDrainDone (chan target : Nat) (s : State) : Host.Outcome State Fault Refusal :=
  match s.ndie chan target with
  | none => .next s
  | some d =>
    let left := s.ftl.units.any fun u => onDie chan target (s.unitAt u) || onDie chan target (s.unitTo u)
    if (d.st == .draining || d.st == .failed) && !left then .next (s.retireNand d) else .next s

/-- CLASS_P_RESTORE (R577, R578): the FETCH of a class P page from its replica has ended. Commands that waited for the page go on. -/
def execClassPRestore (part serial : Nat) (ok : Bool) (s : State) : Host.Outcome State Fault Refusal :=
  match s.page part serial, s.leafAt part serial with
  | some x, some l =>
    if !s.restoring part serial ∨ s.malWaiting 0x0020 (leafCtx l.part l.serial) then .next s
    else if ok then
      let s1 := ((s.setCopy part serial 3 15 fun c => { c with good := true }).t3Write part serial 0 x.stored).bump F.RESTORES
      .next ((s1.att.attns.filter fun (a : Attn) => a.pages.contains (part, serial)).foldl (fun (t : State) a => t.fetchFor a.cmd) s1)
    else
      let s1 := s.raise Ev.RESTORE_FAIL
      .next ((s1.killCopies fun c => c.part == part && c.serial == serial && c.tier == 3).losePages [(part, serial)] 1 0).1
  | _, _ => .next s

end Sys2Proof.Machine
end

