-- ==== Sys2Proof/Machine/Pace.lean ====
section
/-! DEFINITION. Core rails and temperatures (R58–R61, R705, R776, R781, R787, R793, R794, R797). Rail i for i = 0–9 feeds die i. -/

namespace Sys2Proof.Machine

def State.rail (s : State) (i : Nat) : Rail := s.hw.rails.getD i {}

def State.setRail (s : State) (i : Nat) (f : Rail → Rail) : State :=
  { s with hw := { s.hw with rails := nthUpd i f s.hw.rails } }

/-- The die has a PACE page in service: an attention die enabled and not retired, or a bridge die not lost (R44, R811). -/
def State.paceDie (s : State) (d : Nat) : Bool := if d < 8 then s.dieOk d else d < 10 && !s.bridgeLost (d - 8)

/-- A VSET write (R776, R805): clamped to VCORE_RANGE, it replaces the pending target, clears HALTED and resumes stepping. While
the reduction of R797 is in force the lower target applies, and the written value afterwards. -/
def State.vset (s : State) (die mv : Nat) : State :=
  if !s.paceDie die then s
  else
    let v := min (s.g F.VCORE_RANGE_MAX_MV) (max (s.g F.VCORE_RANGE_MIN_MV) mv)
    let r := s.rail die
    let t := match r.thermal with | some _ => min r.target v | none => v
    (s.wu F.VSET die t).setRail die fun x =>
      { x with target := t, halted := false, mismatchSince := none, thermal := x.thermal.map fun _ => v }

/-- The operating range of rail i (R787), mV: a core rail within 15 mV of its request. -/
def State.railRange (s : State) (i : Nat) : Nat × Nat :=
  if i < 10 then ((s.rail i).mv - 15, (s.rail i).mv + 15)
  else match i with
    | 10 => (825, 875) | 11 => (825, 875) | 12 => (1067, 1133) | 13 => (1067, 1133) | 14 => (388, 412) | 15 => (388, 412)
    | 16 => (1710, 1890) | 17 => (728, 772) | 18 => (728, 772) | 19 => (728, 772) | 20 => (1164, 1236) | 21 => (1140, 1260)
    | _ => (1710, 1890)

/-- The RAIL_MISMATCH alarm of the die concerned, or of the package for rails 10–23 (R794). -/
def State.railAlarm (s : State) (i : Nat) : State :=
  if i < 10 then s.raiseU Ev.RAIL_MISMATCH i else s.raise Ev.PKG_RAIL_MISMATCH

/-- VCORE_STEP (R60): one step of at most 10 mV towards the target, at least 20 µs after the last and after its read-back. No
step after a power-fail point (R805). -/
def execVcoreStep (die : Nat) (s : State) : Host.Outcome State Fault Refusal :=
  let r := s.rail die
  if die ≥ 10 ∨ r.halted ∨ r.readPending ∨ r.mv = r.target ∨ s.hw.stopped ∨ !s.paceDie die then .next s
  else
    let s1 := s.reach (r.lastStep + 20000)
    let mv := if r.mv < r.target then min (r.mv + 10) r.target else max (r.mv - 10) r.target
    .next ((s1.setRail die fun x => { x with mv := mv, lastStep := s1.now, readPending := true }).emit (.pmbus die mv))

/-- PMBUS_POLL (R60, R61, R794): a reading of READ_VOUT and READ_IOUT of one regulator, or no answer. -/
def execPmbusPoll (rail mv ma : Nat) (answered : Bool) (s : State) : Host.Outcome State Fault Refusal :=
  if rail ≥ 24 then .next s
  else
    let r := s.rail rail
    if !answered then .next (s.setRail rail fun x => { x with mismatchSince := some (x.mismatchSince.getD s.now) })
    else
      let s1 := { s with hw := { s.hw with meas := nthUpd rail (fun m => { m with amps := ma, answered := s.now }) s.hw.meas } }
      if rail ≥ 10 then .next (s1.setRail rail fun x => { x with mismatchSince := none, halted := false })
      else
        let s2 := s1.wu F.VREAD_MV rail mv
        let good := mv ≤ r.mv + 15 && r.mv ≤ mv + 15
        let s3 := s2.setRail rail fun x =>
          { x with readPending := false,
                   mismatchSince := if good then none else some (x.mismatchSince.getD s.now) }
        .next (if r.readPending && r.mv == r.target && good then s3.raiseU Ev.VSET_REACHED rail else s3)

/-- RAIL_MISMATCH (R61, R794): a read-back more than 15 mV from the request for 1 ms, or no answer for 1 ms. -/
def execRailMismatch (die : Nat) (s : State) : Host.Outcome State Fault Refusal :=
  match (s.rail die).mismatchSince with
  | none => .next s
  | some t =>
    if die ≥ 24 ∨ (s.rail die).halted then .next s
    else .next (((s.reach (t + 1000000)).setRail die fun x => { x with halted := true }).railAlarm die)

/-- RAIL_SAMPLE (R705, R794): the 1 ms samples of the 24 rails in mV. A rail that leaves its operating range raises the alarm of
R61; VFUSE outside its range blocks the fuse block (R788), VIO_1V8 outside its range releases FLUSH_BUSY_N (R792). -/
def execRailSample (samples : List Nat) (s : State) : Host.Outcome State Fault Refusal :=
  let s1 := s.reach (s.hw.sampleT + 1000000)
  let s2 := { s1 with hw := { s1.hw with sampleT := s1.now } }
  .next ((samples.take 24).zipIdx.foldl (fun (acc : State) (vi : Nat × Nat) =>
    let v := vi.1
    let i := vi.2
    let rg := acc.railRange i
    let bad := decide (v < rg.1 ∨ rg.2 < v)
    let was := (acc.hw.meas.getD i {}).out
    let a1 := { acc with hw := { acc.hw with meas := nthUpd i (fun m => { m with value := v, out := bad }) acc.hw.meas } }
    let a2 := if i = 23 then a1.setPins fun p => { p with vfuseOk := !bad }
      else if i = 22 && bad then a1.setPins fun p => { p with flushBusy := false } else a1
    if bad && !was then a2.railAlarm i else a2) s2)

/-- ALERT_N (R794): the STATUS_WORD of every regulator is read; each fault found is reported. -/
def execAlertN (words : List Nat) (s : State) : Host.Outcome State Fault Refusal :=
  .next ((words.take 24).zipIdx.foldl (fun (acc : State) (wi : Nat × Nat) => if wi.1 = 0 then acc else acc.railAlarm wi.2) s)

/-- THERMAL_STEP (R797): a junction sample in 0.1 °C. Above 95 °C the die's VSET falls by 10 mV every 1 ms, down to the lower
end of VCORE_RANGE; once the junction has fallen to 93 °C the setpoint is restored in the same steps. -/
def execThermalStep (die : Nat) (temp : Int) (s : State) : Host.Outcome State Fault Refusal :=
  if die ≥ 10 ∨ !s.paceDie die then .next s
  else
    let r := s.rail die
    let s1 := s.reach (if r.thermal.isSome then r.thermT + 1000000 else 0)
    let s2 := { s1 with hw := { s1.hw with temps := nthUpd die (fun _ => temp) s1.hw.temps } }.wu F.JUNCTION die (unsigned 16 temp)
    if temp > 950 then
      let lo := s.g F.VCORE_RANGE_MIN_MV
      let t := max lo (r.target - 10)
      let s3 := (s2.wu F.VSET die t).setRail die fun x =>
        { x with target := t, thermal := some (x.thermal.getD r.target), restoring := false, thermT := s2.now }
      .next (if t < r.target then s3.raiseU Ev.RAIL_MISMATCH die else s3)
    else
      match r.thermal with
      | none => .next s2
      | some goal =>
        if temp ≤ 930 ∨ r.restoring then
          let t := min goal (r.target + 10)
          .next ((s2.wu F.VSET die t).setRail die fun x =>
            { x with target := t, restoring := t < goal, thermal := if t < goal then some goal else none, thermT := s2.now })
        else .next s2

/-- HBM_TEMP (R781): a stack's temperature in 0.1 °C. -/
def execHbmTemp (stack : Nat) (temp : Int) (s : State) : Host.Outcome State Fault Refusal :=
  if stack ≥ 8 then .next s
  else
    let old := s.hw.hbmTemps.getD stack 0
    let s1 := { s with hw := { s.hw with hbmTemps := nthUpd stack (fun _ => temp) s.hw.hbmTemps } }
    let s2 := s1.wu F.TEMP stack (unsigned 16 temp)
    let s3 := if old ≤ 850 ∧ temp > 850 then s2.raiseU Ev.TEMP_HIGH stack else s2
    .next (if old ≤ 1050 ∧ temp > 1050 then s3.raiseU Ev.TEMP_LIMIT stack else s3)

end Sys2Proof.Machine
end

