-- ==== Sys2Proof/Machine/PowerOps.lean ====
section
/-! DEFINITION. What stops the device and what a restart leaves: the end of all work (R600, R797), what the flush covers (R601, R602),
the state that survives a reset (R127, R208, R605, R636, R677, R697, R698, R712). -/

namespace Sys2Proof.Machine

/-- All work ends as at a power-fail point (R600, R797): no command is accepted and no completion written, every port goes down, cores,
NM units, stream codec lanes and sequencers stop. -/
def State.stopAll (s : State) : State :=
  let cs := s.att.codecs.map fun (c : Codec) => { c with lanes := List.replicate 8 none, queue := [], drr := {} }
  let qs := s.q.queues.map fun (x : Queue) => { x with st := .disabled }
  let sq := s.pol.seqrs.map fun (x : Sequencer) => { x with running := none, inst := none }
  let ps := s.dlv.ports.map fun (p : Port) => { p with st := .down, trained := false, ideUp := false, heldPartner := none }
  { s with
    hw := { s.hw with stopped := true }
    boot := { s.boot with begun := false, ended := [] }
    q := { s.q with queues := qs, cmds := [] }
    part := { s.part with runs := [] }
    sq := { s.sq with seals := [], forks := [] }
    pdir := { s.pdir with lookups := [], pubs := [], capos := s.pdir.capos.filter fun (k : Capo) => k.cmd == 0 }
    tier := { s.tier with moves := [], asks := [], behind := [], waits := [], prefetches := [] }
    att := { s.att with attns := [], helds := [], codecs := cs }
    dlv := { s.dlv with pushes := [], delivs := [], ports := ps }
    cxl := { s.cxl with jobs := [], reads := [], sf := [] }
    net := { s.net with conns := [], waits := [], later := [], relays := [] }
    plp := { s.plp with meas := { s.plp.meas with phase := 0 } }
    pol := { s.pol with events := [], seqrs := sq } }

/-! ### What the flush covers -/

/-- Rows of a granule below the length its layer reached by the last completed APPEND of class D or P (R600). -/
def State.durableRows (s : State) (g : Granule) : Nat :=
  min g.rows.length (((s.seq g.part g.seq).map fun (x : Seq) => x.durable.getD g.layer 0).getD 0 - g.first)

/-- Counted granules, oldest COMMIT_TIME first; counted pages, oldest seal commit point first (R601). -/
def State.flushGrans (s : State) : List Granule :=
  sortBy (fun (g : Granule) => ((g.time : Nat) : Int)) (s.sq.granules.filter fun g => g.counted)

def State.flushPages (s : State) : List Page :=
  sortBy (fun (x : Page) => ((x.sealT : Nat) : Int)) (s.sq.pages.filter fun x =>
    x.cls == 1 && s.tier.copies.any fun c => c.part == x.part && c.serial == x.serial && c.tier == 1 && c.backing && !c.leaving)

/-- A granule's flash image is committed, with VALID set to the recorded length. -/
def State.coverGran (s : State) (g : Granule) : State :=
  let n := s.durableRows g
  let same := fun (x : Granule) => x.part == g.part && x.seq == g.seq && x.layer == g.layer && x.first == g.first
  { s with sq := { s.sq with granules := upd same (fun (x : Granule) => { x with flash := true, savedRows := n }) s.sq.granules } }

/-- A page's T3 copy is committed: it is the backing copy (R605). -/
def State.coverPage (s : State) (x : Page) : State :=
  let s1 := s.t3Write x.part x.serial 0 x.stored
  let us := upd (fun (u : NUnit) => u.part == x.part && u.serial == x.serial && u.what == 0) (fun (u : NUnit) => { u with mapped := true })
    s1.ftl.units
  let cs := upd (fun (c : Copy) => c.part == x.part && c.serial == x.serial) (fun (c : Copy) => { c with backing := false }) s1.tier.copies
  { s1 with ftl := { s1.ftl with units := us }
            tier := { s1.tier with copies := cs ++ [{ part := x.part, serial := x.serial, tier := 3, die := 15, bytes := x.stored
                                                      backing := true }] } }

/-- The items of the first `limit` bytes of the flush are covered by committed records (R602). -/
def State.coverItems (s : State) (limit : Nat) : State :=
  let r := s.flushGrans.foldl (fun (a : State × Nat) g =>
    if a.2 + g.slot ≤ limit then (a.1.coverGran g, a.2 + g.slot) else (a.1, limit + 1)) (s, 0)
  (s.flushPages.foldl (fun (a : State × Nat) x =>
    if a.2 + x.stored ≤ limit then (a.1.coverPage x, a.2 + x.stored) else (a.1, limit + 1)) r).1

/-- The flush ends, complete or cut short after some of its groups of 256 MiB (R602, R791); which is free. -/
def State.cutFlush (s : State) : State :=
  if !s.plp.flush.active then s
  else
    let c := s.choose
    let groups := s.plp.flush.bytes / 2 ^ 28
    let s1 := c.2.coverItems (c.1 % (groups + 1) * 2 ^ 28)
    -- cut within step 1, the partial parity pages may not have been programmed
    let sbs := if c.1 % (groups + 1) = 0 ∧ c.1 / (groups + 1) % 2 = 0 then s1.ftl.sbs.map fun (x : SuperBlk) => { x with partials := [] }
      else s1.ftl.sbs
    { s1 with
      ftl := { s1.ftl with sbs := sbs }
      plp := { s1.plp with flush := { s1.plp.flush with active := false } } }

/-! ### What a restart leaves -/

/-- A register field that keeps its value at a warm reset (R758). -/
def RegKey.rws (k : RegKey) : Bool := (F.table k.blk).any fun f => f.acc == .rws && f.off == k.off && f.lo == k.lo && f.unit == (k.page != 0)

/-- The boot epoch is journalled (R715). -/
def RegKey.kept (k : RegKey) : Bool := k.blk == F.BOOT_EPOCH.blk && k.off == F.BOOT_EPOCH.off

/-- A stack before its training: its repairs and what it has lost stay. -/
def Stack.off (k : Stack) : Stack :=
  { k with st := if k.st == .retired then .retired else .absent, rows := k.rows.filter fun r => r.spared, poisoned := [] }

/-- A page before a restart's recovery: its summary is to be rebuilt, hints and promotions are gone. -/
def Page.off (x : Page) : Page := { x with summary := none, coldUntil := 0, promoted := [] }

/-- A granule that returns from its flash image (R605): its rows below the recorded length. -/
def State.granOff (s : State) (g : Granule) : Option Granule :=
  let n := if (s.partition g.part).shut then 0 else min g.savedRows (s.durableRows g)
  if g.flash && n != 0 then some { g with rows := g.rows.take n, savedRows := n, dirty := false, epoch := g.epoch } else none

/-- Superblocks after recovery: open rows are closed with filler and parity, or from their partial parity page, no erase is under way
(R584). The parity of a row closed without one while a data member was FAILED cannot take that member in. -/
def State.sbOff (s : State) (x : SuperBlk) : SuperBlk :=
  let next := min x.groups (roundUp x.next (max 1 x.rowGroups))
  let rows := ceilDiv next (max 1 x.rowSize)
  let down := x.members.any fun m => match s.ndie m.1 m.2.1 with | some d => d.st == .failed | none => false
  { x with small := none, next := next, erasing := none, parAsked := rows, parDone := rows, partials := []
           noPar := x.noPar ++ if down then x.running.filter fun r => !x.partials.contains r else [] }

/-- The device as a reset finds it (R698): what lies in flash, fuses, xSPI and the hardware stays; registers, queues, connections, keys
and every copy in HBM, SRAM and trays are gone. `cold` says which registers, DICE outputs and fault numbers go too. Over a warm reset a
core rail keeps its voltage and steps to the default setpoint as after any other change of it (R60 does not say: assumption 78). -/
def State.restart (s : State) (cold : Bool) : State :=
  let passed := s.plp.flush.passed
  let f := s.plp.flush
  let fs : Fuses := { s.sec.fuses with debug := if cold then .none else s.sec.fuses.debug, fmBound := false, fmPort := 0 }
  -- content wrapped in another lifecycle or debug state cannot be read (R627)
  let was := fun (p : Nat) => (s.partition p).shut
  let s0 := ({ s with part := { s.part with parts := s.part.parts.map fun (p : Partition) => { p with shut := p.st != .free && p.wrap != fs.state } } } :
    State).cutFlush
  let owed := s0.sq.granules.any (fun g => g.counted) || !s0.flushPages.isEmpty || s.boot.counted
  let t3 := s0.tier.copies.filter fun c => c.tier == 3 && (c.good || was c.part) && !c.leaving && s0.t3Done c.part c.serial 0
  let held := fun (p serial : Nat) => t3.any fun c => c.part == p && c.serial == serial
  let units := (s0.ftl.units.filter fun u => u.mapped && (if u.what = 1 then s0.plp.replicas.any fun r => r.id == u.serial && r.ask.isNone
    else held u.part u.serial)).map fun (u : NUnit) => { u with to_ := none }
  let halves := if cold then [{}, {}] else s0.course.halves.map fun (h : Half) => { bl1 := h.bl1, shuarn := h.shuarn }
  let slots := s0.pdir.slots.map fun (g : GrpSlot) =>
    if g.declared then { g with st := .refused, reason := 4, kcv := 0 } else g
  let parts := s0.part.parts.map fun (p : Partition) =>
    let st : PSt := match p.st with | .switching => .active | .clearing => .scrubbing | x => x
    { num := p.num, st := st, nsKey := p.nsKey, desc := p.desc, mediaKey := p.mediaKey, t0 := p.t0, t1 := p.t1, geom := p.geom, wrap := p.wrap, shut := p.shut
      descDigest := p.descDigest, epochOk := p.epochOk : Partition }
  let keys := s0.sec.keys.map fun (k : KeySlot) => { k with st := .empty, typ := 0, key := [], old := [] }
  let ge : State :=
    { pending := s0.pending, now := if cold then 0 else s0.now, free := s0.free, dev := s0.dev, out := s0.out
      regs := s0.regs.filter fun e => e.1.kept || (!cold && e.1.rws)
      tel := if cold then {} else { faults := s0.tel.faults, nextFault := s0.tel.nextFault }
      course := { halves := halves, nextRec := s0.course.nextRec }
      hw := { hbm := s0.hw.hbm.map Stack.off, clusters := s0.hw.clusters, deferred := s0.hw.deferred, bufRetired := s0.hw.bufRetired
              rails := if cold then List.replicate 24 {} else s0.hw.rails.map fun (r : Rail) => { mv := r.mv, lastStep := r.lastStep, readPending := r.readPending }
              bankUv := s0.hw.bankUv, pins := { s0.hw.pins with thermtrip := false, flushBusy := false, huCharge := true, alertN := true } }
      boot := { cold := cold, slots := s0.boot.slots, dice := if cold then [] else s0.boot.dice, map := s0.boot.map
                passedPfail := passed, pfailT := f.startT, counted := owed, repairLog := s0.boot.repairLog
                powerGoodT := if cold then 0 else s0.boot.powerGoodT }
      q := { nextUid := s0.q.nextUid }
      part := { parts := parts, setLead := s0.part.setLead, setBoot := s0.part.setBoot, nextRun := s0.part.nextRun }
      sq := { seqs := s0.sq.seqs.map fun (x : Seq) => { x with holder := none, expiry := 0, closing := false, closeCmd := 0, retryT := 0, retryN := 0 }
              granules := s0.sq.granules.filterMap s0.granOff, pages := s0.sq.pages.map Page.off, leaves := s0.sq.leaves
              freed := s0.sq.freed, nextSerial := s0.sq.nextSerial }
      pdir := { slots := slots, journalled := s0.pdir.journalled, journalRing := s0.pdir.journalRing, ringEpoch := s0.pdir.ringEpoch
                capos := s0.pdir.capos.filter fun (k : Capo) => k.cmd == 0 }
      tier := { copies := t3.map fun (c : Copy) => { c with backing := true, pinUntil := 0, protUntil := 0, good := !(s0.partition c.part).shut }
                nextMove := s0.tier.nextMove, nextWait := s0.tier.nextWait }
      att := { nextView := s0.att.nextView }
      net := { nextMsg := s0.net.nextMsg, nextInc := s0.net.nextInc }
      ftl := { s0.ftl with units := units, sbs := s0.ftl.sbs.map s0.sbOff, shares := [{}, {}] }
      plp := { flush := { f with active := false }, replicas := s0.plp.replicas.filter fun r => r.ask.isNone, nextReplica := s0.plp.nextReplica
               lastAudit := 0 }
      sec := { keys := keys, fuses := fs }
      pol := { programs := s0.pol.programs } }
  let gone := (ge.part.parts.filter fun p => p.st == .scrubbing).map (·.num)
  gone.foldl (fun (a : State) p => (a.wipeContent p).wipeRest p) ge

/-- The boot of a reset begins when SYS_RST_N is high and power is good (R698). -/
def State.startBoot (s : State) : State :=
  if !s.hw.pins.pwrgd ∨ !s.hw.pins.sysRstN ∨ s.boot.begun ∨ s.boot.halted ∨ s.hw.stopped then s
  else
    let s1 : State := { s with boot := { s.boot with begun := true } }
    -- the records of the last boot give way to those of this one
    let s2 := (List.range 10).foldl (fun (a : State) n =>
      ((a.ws F.STEP_STATE_STATE n 0).ws F.STEP_STATE_RESULT n 0).ws F.STEP_STATE_ATTEMPTS n 0) s1
    s2.beginStep 0

/-- A reset of a kind (R698): 0 cold, 1 warm. -/
def State.reset1 (s : State) (cold : Bool) : State :=
  let s1 := s.restart cold
  let s2 := (s1.w F.RESET_CAUSE_KIND (if cold then 0 else 1)).w F.RESET_CAUSE_AFTER_PFAIL (if s1.boot.passedPfail then 1 else 0)
  (s2.timeGo 1).startBoot

end Sys2Proof.Machine
end

