-- ==== Sys2Proof/Machine/FaultCmds.lean ====
section
/-! DEFINITION. The commands of chapter 17 that report faults of units, and of pace sensors (R47–R50, R659–R663, R678–R685). -/

namespace Sys2Proof.Machine

/-! ### Pace (R47–R51) -/

/-- The median of a list of readings: of an even number, the mean of the two in the middle. -/
def median (l : List Nat) : Nat :=
  let m := sortNat l
  let n := m.length
  if n % 2 = 1 then m.getD (n / 2) 0 else (m.getD (n / 2 - 1) 0 + m.getD (n / 2) 0) / 2

/-- A sensor after a window with a reading, against the median of its die (R50). -/
def Sensor.window (x : Sensor) (r med : Nat) : Sensor :=
  let dev := if r < med then med - r else r - med
  let o := if dev * 10 > med then x.outRun + 1 else 0
  let i := if dev * 20 ≤ med then x.inRun + 1 else 0
  let inc := if x.included then decide (o < 16) else decide (i ≥ 1024)
  { reading := r, included := inc, outRun := min o 16, inRun := if inc then 0 else min i 1024 }

/-- Dies whose first window has ended and whose pace counts for the package pace (R48). -/
def State.pacedDies (s : State) : List Nat := (List.range 10).filter fun d => s.paceDie d && s.hw.winT.getD d 0 != 0

/-- PKG_PACE, its minimum and the slowest die (R48). -/
def State.pkgPace (s : State) : State :=
  match argMin (fun d => ((s.gu F.CUR_PACE d : Nat) : Int)) s.pacedDies with
  | none => s
  | some d =>
    let v := s.gu F.CUR_PACE d
    let old := s.g F.PKG_PACE_MIN
    ((s.w F.PKG_PACE v).w F.SLOWEST_DIE d).w F.PKG_PACE_MIN (if s.g F.PKG_PACE = 0 then v else min old v)

/-- PACE_WINDOW (R47–R50, R705): the readings of a die's sensors over a sample window of 1,024 ns, 0 for a sensor without a valid one. -/
def execPaceWindow (die : Nat) (readings : List Nat) (s : State) : Host.Outcome State Fault Refusal :=
  if die ≥ 10 ∨ !s.paceDie die ∨ !s.hw.pins.pwrgd then .next s
  else
    let first := s.hw.winT.getD die 0 = 0
    let s1 := s.reach (s.hw.winT.getD die 0 + 1024)
    let old := s.hw.sensors.getD die []
    let rs := old.zipIdx.map fun e => readings.getD e.2 0
    let med := median rs
    let new := old.zipIdx.map fun e => e.1.window (rs.getD e.2 0) med
    let inc := (new.filter fun x => x.included && x.reading != 0).map (·.reading)
    let few := decide ((new.filter fun x => x.included).length * 4 < new.length * 3)
    let cur := if few then 9 * median inc / 10 else (inc.min?).getD 0
    let s2 : State := { s1 with hw := { s1.hw with
      winT := nthUpd die (fun _ => s1.now) s1.hw.winT, sensors := nthUpd die (fun _ => new) s1.hw.sensors } }
    let min1 := if first then cur else min (s2.gu F.MIN_PACE die) cur
    let s3 := ((s2.wu F.CUR_PACE die cur).wu F.MIN_PACE die min1).wu F.MEDIAN_PACE die (median inc)
    -- sensors that leave and return
    let s4 := (List.range old.length).foldl (fun (a : State) i =>
      let x := (old.getD i {}).included
      let y := (new.getD i {}).included
      if x && !y then ((a.bumpU F.EXCLUSIONS die).raiseU Ev.SENSOR_EXCLUDED die).fault 13 6 255 (faultUnit die i) 0 0
      else if y && !x then a.raiseU Ev.SENSOR_INCLUDED die
      else a) s3
    let was := s4.cm (Fld.blkDegraded 0x02 1) (die + 1) 255 = 1
    let s5 := s4.wcm (Fld.blkDegraded 0x02 1) (die + 1) 255 (if few then 1 else 0)
    let s6 := if few && !was then s5.raiseBoth Ev.PACE_DEGRADED die else s5
    let s7 := s6.pkgPace
    if inc.isEmpty && !s7.hw.deferred.contains (.stack die 5 true) then
      if die < 8 then
        let num := s7.tel.nextFault
        .next ((s7.fault 7 2 255 (faultUnit die die) 0 0).repair (.stack die 5 true) fun a => a.retireDie die num)
      else .next (s7.fenceBridge (die - 8))
    else .next s7

/-! ### Shared effects of faults -/

/-- A pseudo-channel fails (R680), recorded at once and acted on under a lead (R673). -/
def State.pcFault (s : State) (n pc : Nat) : State :=
  if !s.stackOk n ∨ !bit (s.stack n).pcOk pc then s
  else
    let num := s.tel.nextFault
    let s1 := (s.fault 6 2 255 (faultUnit n pc) 0 0).raiseU Ev.PC_FAIL n
    s1.repair (.pseudoChannel n pc) fun a => a.failPc n pc num

/-- A stack, or its whole die, fails (R682). -/
def State.stackFault (s : State) (n : Nat) (whole : Bool) : State :=
  if n ≥ 8 ∨ (if whole then !s.dieOk n else !s.stackOk n) then s
  else
    let num := s.tel.nextFault
    let s1 := s.fault 7 2 255 (faultUnit n n) 0 0
    s1.repair (.stack n 4 whole) fun a => if whole then a.retireDie n num else a.retireStack n 4 num

/-- A die-to-die link fails (R29, R43, R660): its flows use the other bridge die; of the transfers under way over it some are lost, and which
they are is free. The links of a disabled die are powered down. -/
def State.linkFault (s : State) (die b : Nat) : State :=
  if die ≥ 8 ∨ b ≥ 2 ∨ !bit s.dev.dies die ∨ s.hw.d2dDown.contains (die, b) then s
  else
    let s1 : State := { s with hw := { s.hw with d2dDown := s.hw.d2dDown ++ [(die, b)] } }
    let p := s1.flowsLost fun f => f.bridge == b && (f.src == die || f.dst == die)
    (p.1.fault 8 6 255 (faultUnit die (8 + b)) p.2 0).degrade 0x01 0

/-- The SRAM staging buffer of a die fails (R663): it is retired; what it alone held is lost. -/
def State.bufFault (s : State) (die : Nat) : State :=
  if !s.dieOk die ∨ s.hw.bufRetired.contains die then s
  else
    let s1 := s.fault 4 2 255 (faultUnit die die) 0 0
    let s2 : State := { s1 with hw := { s1.hw with bufRetired := s1.hw.bufRetired ++ [die] } }
    s2.loseGrans (fun g => g.home == die && g.dirty) (·.inSlot)

/-! ### The commands -/

/-- HANDSHAKE_TIMEOUT (R659, R663): a handshake of a unit, by its code in R663, has not completed within WATCHDOG_STEPS steps of its
die. The unit is numbered within its die: a core as 34 × cluster + physical core. -/
def execHandshakeTimeout (kind unit die : Nat) (s : State) : Host.Outcome State Fault Refusal :=
  if die ≥ 10 ∨ s.hw.stopped ∨ s.boot.halted then .next s
  else match kind with
    | 1 => .next (if die < 8 ∧ unit < 340 then s.failCore (10 * die + unit / 34) (unit % 34) else s)
    | 2 => .next (if die < 8 ∧ unit < 10 then s.failMerge (10 * die + unit) else s)
    | 3 => .next (if die < 8 ∧ unit < 10 then s.failT0Unit (10 * die + unit) else s)
    | 4 => .next (s.bufFault die)
    | 6 => .next (s.pcFault die unit)
    | 7 => .next (s.stackFault die (unit == 1))
    | 8 => .next (s.linkFault die unit)
    | 9 => .next (if unit < 2 then (s.fault 9 4 255 (faultUnit die unit) 0 0).halfDown unit else s)
    | 10 => .next (s.fenceBridge unit)
    | 11 => .next (if unit < 16 then (s.fault 11 6 255 (faultUnit die unit) 0 0).linkDown unit else s)
    | 12 => .next (s.failEngine unit)
    | 14 => .next ((s.fault 14 6 255 (faultUnit die unit) 0 0).loseTimeBase unit)
    | _ => .next (s.fault kind 6 255 (faultUnit die unit) 0 0)

/-- CORE_FAIL (R18–R20). -/
def execCoreFail (die cluster phys : Nat) (s : State) : Host.Outcome State Fault Refusal :=
  if die ≥ 8 ∨ cluster ≥ 10 ∨ phys ≥ 34 then .next s else .next (s.failCore (10 * die + cluster) phys)

/-- HBM_CE (R678, R679): a correctable error is counted for its row; at CE_ROW_LIMIT errors within 24 h the row is spared. -/
def execHbmCe (stack bank row : Nat) (s : State) : Host.Outcome State Fault Refusal :=
  if !s.stackOk stack then .next s
  else
    let mine := fun (r : HbmRow) => r.bank == bank && r.row == row
    let old := ((s.stack stack).rows.find? mine).getD { bank := bank, row := row }
    let ces := (old.ces.filter fun t => s.now < t + 86400000000000) ++ [s.now]
    let s1 := s.setStack stack fun x => { x with rows := put mine { old with ces := ces } x.rows }
    let s2 := (((s1.bumpU F.CE_COUNT stack).bump F.CE_TOTAL).raiseU Ev.CE stack)
    if ces.length < s.g F.CE_ROW_LIMIT ∨ old.spared then .next s2
    else
      -- the region of the row, should the bank have no spare left: the chapters give no map from rows to addresses
      let c := s2.choose
      let addr := c.1 % (36 * 2 ^ 30)
      let s3 := c.2.fault 5 (if s2.spareRows stack bank = 0 then 2 else 1) 255 (faultUnit stack row) 0 0
      .next (s3.repair (.row stack bank row addr) fun a => a.spareRow stack bank row addr)

/-- HBM_UE (R678, R679): an uncorrectable error poisons the 4 KiB granule of stack address space that holds it. Which object has a byte
there, if one has, is free. -/
def execHbmUe (stack addr bank row : Nat) (s : State) : Host.Outcome State Fault Refusal :=
  if !s.stackOk stack then .next s
  else
    let s1 := s.setStack stack fun x => { x with poisoned := (x.poisoned ++ [addr / 4096]).eraseDups }
    let s2 := (((s1.bumpU F.UE_COUNT stack).bump F.UE_TOTAL).wu F.LAST_UE_ADDR stack addr).wu F.LAST_UE_TIME stack s1.now
    let s3 := s2.raiseBoth Ev.UE stack
    let act := if s.spareRows stack bank = 0 then 2 else 1
    let s4 := s3.fault 5 act 255 (faultUnit stack row) 0 0
    let cs := s4.tier.copies.filter fun c => c.tier ≤ 1 && c.die == stack && !c.leaving && c.good
    let gs := s4.sq.granules.filter fun g => g.home == stack
    let pick := s4.choose
    let k := pick.1 % (cs.length + gs.length + 1)
    let s5 := match cs[k]?, gs[k - cs.length]? with
      | some c, _ =>
        if c.backing then pick.2.setCopy c.part c.serial c.tier c.die fun y => { y with good := false }
        else pick.2.dropCopy c.part c.serial c.tier c.die
      | none, some g =>
        pick.2.loseGrans fun x => x.part == g.part && x.seq == g.seq && x.layer == g.layer && x.first == g.first
      | none, none => pick.2
    .next (s5.repair (.row stack bank row addr) fun a => a.spareRow stack bank row addr)

/-- PC_FAIL (R680). -/
def execPcFail (stack pc : Nat) (s : State) : Host.Outcome State Fault Refusal :=
  if stack ≥ 8 ∨ pc ≥ 32 then .next s else .next (s.pcFault stack pc)

/-- STACK_FAIL (R682): the stack, or with `whole` its attention die. -/
def execStackFail (stack : Nat) (whole : Bool) (s : State) : Host.Outcome State Fault Refusal := .next (s.stackFault stack whole)

/-- D2D_LINK_FAIL (R29, R660). -/
def execD2dLinkFail (die bridge : Nat) (s : State) : Host.Outcome State Fault Refusal := .next (s.linkFault die bridge)

/-- BRIDGE_FENCE (R683). -/
def execBridgeFence (bridge : Nat) (s : State) : Host.Outcome State Fault Refusal := .next (s.fenceBridge bridge)

/-- A restart of a bridge die is under way (R683). -/
def State.bridgeRestarting (s : State) : Bool := [0, 1].any fun b => (s.bridge b).st == .restarting

/-- The retirement of the device begins (R685): the device files a report against itself. -/
def State.retireDevice (s : State) : State :=
  ({ s with hw := { s.hw with retireReq := true, retireWait := false } } : State).fileIncident s.dev.serial 1 0xFF

/-- A retirement that waited for the outcome of a bridge-die restart begins (R694). -/
def State.retireGo (s : State) : State := if s.hw.retireWait && !s.bridgeRestarting then s.retireDevice else s

/-- BRIDGE_RESTART_DONE (R683): the restart of a bridge die has ended; it succeeds when its FTL recovered within BRIDGE_RESTART_S. -/
def execBridgeRestartDone (bridge : Nat) (ok : Bool) (s : State) : Host.Outcome State Fault Refusal :=
  let x := s.bridge bridge
  if bridge ≥ 2 ∨ x.st != .restarting then .next s
  else if !ok ∨ s.now > x.fencedAt + s.g F.BRIDGE_CFG_RESTART_S * 1000000000 then .next (s.loseBridge bridge).retireGo
  else
    let s1 := s.setBridge bridge fun y => { y with st := .up }
    let s2 : State := { s1 with ftl := { s1.ftl with
      sbs := s1.ftl.sbs.map fun (y : SuperBlk) => if y.bridge = bridge then s1.sbOff y else y } }
    let s3 := s2.setHalf bridge fun y => { y with st := .resync, synced := false, loaded := true, resyncT := s2.now }
    .next (((s3.w F.RESET_CAUSE_KIND 2).fault 10 4 255 (faultUnit (8 + bridge) bridge) 0 0).placeWaiting).retireGo

/-- BRIDGE_LOST (R683): the restart has not succeeded in time, or RESTART_MAX restarts have been made within 24 h. -/
def execBridgeLost (bridge : Nat) (s : State) : Host.Outcome State Fault Refusal :=
  let x := s.bridge bridge
  if bridge ≥ 2 then .next s
  else match x.st with
    | .restarting => .next ((s.reach (x.fencedAt + s.g F.BRIDGE_CFG_RESTART_S * 1000000000)).loseBridge bridge).retireGo
    | .fenced =>
      let recent := x.restarts.filter fun t => s.now < t + 86400000000000
      if recent.length ≥ s.g F.BRIDGE_CFG_RESTART_MAX ∧ s.leadHalf.isSome then .next (s.loseBridge bridge) else .next s
    | _ => .next s

/-- DEVICE_RETIRE (R685): RETIRE is set with every partition FREE, once the device has joined (R721). During a bridge-die restart it waits
for the outcome (R694). -/
def execDeviceRetire (s : State) : Host.Outcome State Fault Refusal :=
  if s.hw.retireReq ∨ !s.joined ∨ !((List.range 64).all fun p => s.pst p == .free) then .next s
  else
    let s1 := s.w F.FLT_CTRL_RETIRE 1
    .next (if s.bridgeRestarting then { s1 with hw := { s1.hw with retireWait := true } } else s1.retireDevice)

/-- DEVICE_RETIRED (R685): no peer has class P content of this device left to replicate, or KEEP_H has passed. -/
def execDeviceRetired (s : State) : Host.Outcome State Fault Refusal :=
  if !s.hw.retireReq then .next s else .next (s.w F.FLT_CTRL_RETIRED 1)

/-- SRAM_UNCORRECTABLE_ERROR (R661, R663): of a cluster SRAM unit (3), a staging buffer (4), or else of control state that a partition
owns and the journal does not hold. -/
def execSramUncorrectableError (kind die unit part : Nat) (s : State) : Host.Outcome State Fault Refusal :=
  match kind with
  | 3 => .next (if s.dieOk die ∧ unit < 10 then s.failT0Unit (10 * die + unit) else s)
  | 4 => .next (s.bufFault die)
  | _ => .next (if part < 64 then s.partFault part 1 else s)

/-- HBM_PATROL (R678): every row of a stack has been read and corrected, at least once in PATROL_H hours; 0 disables it. -/
def execHbmPatrol (stack : Nat) (s : State) : Host.Outcome State Fault Refusal :=
  if !s.stackOk stack ∨ s.g F.PATROL_H = 0 then .next s
  else .next (s.setStack stack fun x => { x with patrolT := s.now })

end Sys2Proof.Machine
end

