-- ==== Sys2Proof/Machine/PlpCmds.lean ====
section
/-! DEFINITION. Power loss and durability (R592–R615, R789–R792, R797, R802, R809): the hold-up measurement, the rehearsal, the D
budget, the power-fail point and the flush, replicas kept for peers. -/

namespace Sys2Proof.Machine

/-! ### The D budget (R592–R594) -/

/-- E_avail as a fraction, numerator and positive denominator, in J (R592, R594): half C × (V_s² − HU_VMIN²) × HU_EFF / 1,000 less
P_leak × 1 s, with V_s the lower of 0.98 × V_c and the bank voltage now, and C = 100,000 / `fall` F, P_leak = 2 × V_c × `leak` / `fall` µW
from the exact results of the measurement. -/
def State.avail (s : State) : Int × Int :=
  let m := s.plp.meas
  let vs : Int := ((min (49 * m.vc) (50 * s.hw.bankUv) : Nat) : Int)
  let vmin : Int := ((50000 * s.g F.HU_VMIN : Nat) : Int)
  ((vs * vs - vmin * vmin) * (s.g F.HU_EFF : Int) - 100000000 * ((m.vc * m.leak : Nat) : Int), ((max 1 m.fall : Nat) : Int) * 50000000000000)

/-- The energy bound of R594, MiB: floor(1,024 × (E_avail / 1.25 − E_fix) / e_b). -/
def State.energyBound (s : State) : Int :=
  let e := s.avail
  let eb : Int := ((s.g F.FLUSH_EB : Nat) : Int)
  1024 * (800 * e.1 - (900 + eb) * e.2) / (e.2 * eb)

/-- The time bound of R594, MiB: the largest D for which 1 ms + (1 GiB + D) / r_f ≤ 1 s. -/
def State.timeBound (s : State) : Int := (999000 * ((s.g F.FLUSH_RATE : Nat) : Int) - 2 ^ 30) / 2 ^ 20

/-- B in MiB, the least of its three bounds (R594). -/
def State.budgetNow (s : State) : Nat :=
  let m := s.plp.meas
  if m.fault ∨ !m.rehearsed ∨ s.g F.HU_VMIN = 0 ∨ s.g F.PLP_CTRL_HU_PRESENT = 0 ∨ s.g F.FLUSH_EB = 0 then 0
  else (min s.energyBound (min s.timeBound s.flashBound)).toNat

/-- NAND channels in service (R593). -/
def State.activeChans (s : State) : Nat :=
  ((List.range 32).filter fun c => s.ftl.dies.any fun d => d.chan == c && d.serves).length

/-- B is recomputed: FLUSH_RATE follows the active channels until the next rehearsal, HU_ENERGY and D_BUDGET are published, and
BUDGET_SHRINK is raised once when the D total comes to exceed B (R593, R594, R598). -/
def State.rebudget (s : State) : State :=
  let m := s.plp.meas
  let s1 := if m.chans = 0 then s else s.w F.FLUSH_RATE (m.rate * s.activeChans / m.chans)
  let e := 1000 * s1.avail.1 / s1.avail.2
  let b := s1.budgetNow
  let s2 := (s1.w F.HU_ENERGY (min (max e 0).toNat (2 ^ 20 - 1))).w F.D_BUDGET (min b (2 ^ 20 - 1))
  let s3 : State := { s2 with plp := { s2.plp with budget := b } }
  let s4 := s3.noteBehind s
  if s3.overBudget && !s.overBudget then s4.raise Ev.BUDGET_SHRINK else s4

def State.setMeas (s : State) (f : HoldMeas → HoldMeas) : State := { s with plp := { s.plp with meas := f s.plp.meas } }

/-- The measurement ends: the charger is enabled again, MEAS_NOW reads 0. -/
def State.endMeas (s : State) : State :=
  ((s.setMeas fun m => { m with phase := 0, doneT := s.now }).setPins fun p => { p with huCharge := true }).w F.PLP_CTRL_MEAS_NOW 0

/-- A measurement fails (R592): the budget is 0 until one succeeds. -/
def State.measFault (s : State) : State :=
  ((s.endMeas.setMeas fun m => { m with fault := true }).raise Ev.HOLDUP_FAULT).rebudget

/-- HOLDUP_MEASURE (R592): V_c is recorded and the charger disabled. It starts in start-up step 1, on MEAS_NOW, or MEAS_PERIOD after the
last; the test sink is used once in 10 s (R802). -/
def execHoldupMeasure (s : State) : Host.Outcome State Fault Refusal :=
  let m := s.plp.meas
  if m.phase ≠ 0 ∨ s.g F.PLP_CTRL_HU_PRESENT = 0 ∨ s.hw.stopped ∨ !(s.stepDone 0) then .next s
  else
    let asked := s.g F.PLP_CTRL_MEAS_NOW = 1 ∨ !s.stepDone 1
    let due := if asked then 0 else m.doneT + s.g F.MEAS_PERIOD * 1000000000
    let s1 := s.reach (max due (match m.sinkT with | some t => t + 9950000000 | none => 0))
    .next ((s1.setMeas fun m => { m with phase := 1, startT := s1.now, vc0 := s.hw.bankUv }).setPins fun p => { p with huCharge := false })

/-- A sample of the bank voltage shows it below 0.995 × V_c of the measurement under way (R592). -/
def State.sagged (s : State) (uv : Nat) : Bool := s.plp.meas.phase != 0 && decide (1000 * uv < 995 * s.plp.meas.vc0)

/-- HOLDUP_MEAS_STEP (R592): the bank voltage, in µV, at the end of the droop interval of 50 ms, then of the test draw of 20 ms, from
which capacitance and leakage follow. A voltage below 0.995 × V_c ends the measurement at once. -/
def execHoldupMeasStep (uv : Nat) (s : State) : Host.Outcome State Fault Refusal :=
  let m := s.plp.meas
  if s.sagged uv then .next ({ s with hw := { s.hw with bankUv := uv } } : State).measFault
  else if m.phase = 1 then
    let s1 := s.reach (m.startT + 50000000)
    let s2 : State := { s1 with hw := { s1.hw with bankUv := uv } }
    .next (s2.setMeas fun m => { m with phase := 2, droop := m.vc0 - uv, startT := s2.now, sinkT := some s2.now })
  else if m.phase = 2 then
    let s1 := s.reach (m.startT + 20000000)
    -- the draw began at the voltage that the droop had left
    let dv := m.vc0 - m.droop - uv
    let s2 : State := { s1 with hw := { s1.hw with bankUv := uv } }
    -- five times ΔV less the droop over 20 ms; where the droop takes it all, C has no value and is left free
    let d5 := 5 * dv - 2 * m.droop
    let c := s2.choose
    let fall := if d5 = 0 then 1 + c.1 else d5
    let s3 := if d5 = 0 then c.2 else s2
    -- ΔV below 1 mV, or C below 10 mF
    if dv < 1000 ∨ fall > 10000000 then .next s3.measFault
    else
      let s4 := s3.endMeas.setMeas fun m => { m with vc := m.vc0, fall := fall, leak := m.droop, fault := false }
      let s5 := ((s4.w F.HU_VC (min (m.vc0 / 1000) 65535)).w F.HU_CAP (min (100000000 / fall) (2 ^ 20 - 1))).w F.HU_LEAK
        (min (2 * m.vc0 * m.droop / (1000 * fall)) 65535)
      .next ((s5.w F.MEAS_TIME s4.now).raise Ev.MEAS_DONE).rebudget
  else .next s

/-- HOLDUP_ABORT (R592): the bank is seen below 0.995 × V_c; the draw ends at once. -/
def execHoldupAbort (s : State) : Host.Outcome State Fault Refusal :=
  if s.plp.meas.phase = 0 then .next s else .next s.measFault

/-- FLUSH_REHEARSAL (R593): the rate in 10^6 bytes/s and the energy in mJ/GiB, rounded up, of a rehearsal of 1 GiB; one that fails
is made again. -/
def execFlushRehearsal (rate eb : Nat) (ok : Bool) (s : State) : Host.Outcome State Fault Refusal :=
  if s.hw.stopped ∨ !ok ∨ rate = 0 ∨ !(s.stepDone 2) then .next s
  else
    let s1 := s.setMeas fun m => { m with rate := rate, eb := eb, chans := s.activeChans, rehearsed := true }
    .next (((((s1.w F.FLUSH_RATE rate).w F.FLUSH_EB eb).w F.PLP_CTRL_REHEARSE_NOW 0).raise Ev.MEAS_DONE).rebudget)

/-- BUDGET_RECOMPUTE (R594): the bank voltage is sampled, in µV, every 1 ms. A sample below 0.995 × V_c during a measurement ends it
(R592). -/
def execBudgetRecompute (uv : Nat) (s : State) : Host.Outcome State Fault Refusal :=
  if s.hw.stopped then .next s
  else
    let s1 : State := { s with hw := { s.hw with bankUv := uv } }
    .next (if s.sagged uv then s1.measFault else s1.rebudget)

/-! ### The power-fail point and the flush (R599–R605) -/

/-- POWER_FAIL (R599, R600): PFAIL_N, or the input below its threshold, has held for 20 µs. -/
def execPowerFail (s : State) : Host.Outcome State Fault Refusal :=
  if s.hw.stopped ∨ !s.hw.pins.pwrgd then .next s
  else
    -- step 1 of R601: the running parities as partial parity pages, and metadata, as much as the chapters leave open, below 1 GiB
    let par := sumBy (fun (x : SuperBlk) => x.running.length * (match x.members[x.parity]? with
      | some m => (match s.ndie m.1 m.2.1 with | some d => rowPageBytes d x.pslc | none => 0) | none => 0)) s.ftl.sbs
    let m := Config.predict s.free % 2 ^ 30 + par
    let d := sumBy (fun (g : Granule) => g.slot) s.flushGrans + sumBy (fun (x : Page) => x.stored) s.flushPages
    let s1 : State := { s with
      free := s.free + 1
      -- buffers are written to their slots as the flush begins (R111)
      sq := { s.sq with granules := s.sq.granules.map Granule.writeBack }
      ftl := { s.ftl with sbs := s.ftl.sbs.map fun (x : SuperBlk) => { x with partials := x.running } }
      plp := { s.plp with flush := { passed := true, active := true, startT := s.now, bytes := m + d } } }
    .next (s1.stopAll.setPins fun p => { p with flushBusy := true, pfailN := false })

/-- POWER_RETURN_FLUSH (R603): power returns; the flush goes on, and the device restarts after it. Without a flush under way it restarts
at once: it never resumes service. -/
def execPowerReturnFlush (s : State) : Host.Outcome State Fault Refusal :=
  if !s.plp.flush.passed ∨ !s.hw.stopped then .next s
  else
    let s1 := (s.setPins fun p => { p with pfailN := true })
    if s.plp.flush.active then .next { s1 with plp := { s1.plp with flush := { s1.plp.flush with returned := true } } }
    else .next (s1.reset1 true)

/-- FLUSH_DONE (R601–R604): everything counted is covered, FLUSH_BUSY_N is released. -/
def execFlushDone (s : State) : Host.Outcome State Fault Refusal :=
  let f := s.plp.flush
  if !f.active then .next s
  else
    let rate := max 1 (s.g F.FLUSH_RATE)
    let s1 := s.reach (f.startT + 500000 + (if s.g F.FLUSH_RATE = 0 then 0 else f.bytes * 1000 / rate))
    let s2 := s1.coverItems (2 ^ 64)
    let s3 : State := { s2 with plp := { s2.plp with flush := { f with active := false, done := true, ns := s1.now - f.startT } } }
    let s4 := s3.setPins fun p => { p with flushBusy := false }
    .next (if f.returned then s4.reset1 true else s4)

/-- THERMTRIP (R797, R805): a die at 105 °C or a stack at 110 °C. Everything stops; a flush under way stops with it. -/
def execThermtrip (s : State) : Host.Outcome State Fault Refusal :=
  let hot := s.hw.temps.any (fun t => decide (t ≥ 1050)) || s.hw.hbmTemps.any fun t => decide (t ≥ 1100)
  if !hot ∨ !s.hw.pins.pwrgd then .next s
  else .next (s.cutFlush.stopAll.setPins fun p => { p with thermtrip := true, flushBusy := false })

/-- PWRGD_FALL (R790, R791, R809): power goes; a flush under way ends, and what its records cover is kept. -/
def execPwrgdFall (s : State) : Host.Outcome State Fault Refusal :=
  if !s.hw.pins.pwrgd then .next s
  else .next ((s.restart true).setPins fun p => { p with pwrgd := false, sysRstN := false, flushBusy := false })

/-- POWER_GOOD (R698, R78, R789): a cold reset. -/
def execPowerGood (s : State) : Host.Outcome State Fault Refusal :=
  if s.hw.pins.pwrgd then .next s
  else .next ((s.setPins fun p => { p with pwrgd := true, pfailN := true }).reset1 true)

/-- WARM_RESET (R698): SYS_RST_N low while power is good. During a flush it only holds the restart that follows. With no flush under way it is
the clean shutdown of R172 and R719, which the spec names and does not define: the shard entries of a joined device are journalled first
(DESIGN CHOICE, assumption 75). -/
def execWarmReset (s : State) : Host.Outcome State Fault Refusal :=
  if !s.hw.pins.pwrgd then .next (s.setPins fun p => { p with sysRstN := false })
  else
    let s1 := s.setPins fun p => { p with sysRstN := false }
    if s.plp.flush.active then .next { s1 with plp := { s1.plp with flush := { s1.plp.flush with returned := true } } }
    else .next ((if s1.joined && !s1.hw.stopped then s1.journalShards else s1).reset1 false)

/-- SYS_RST_N_RELEASE (R698, R789): the boot begins. -/
def execSysRstNRelease (s : State) : Host.Outcome State Fault Refusal :=
  .next (s.setPins fun p => { p with sysRstN := true }).startBoot

/-! ### Replicas kept for peers (R611) -/

/-- REPLICA_AUDIT (R611): every AUDIT_H hours each replica is checked with a FETCH without a receive area. -/
def execReplicaAudit (s : State) : Host.Outcome State Fault Refusal :=
  if s.hw.stopped then .next s
  else
    let s1 := s.reach (s.plp.lastAudit + s.g F.REPLICA_CFG_AUDIT_H * 3600000000000)
    let rs := s1.plp.replicas.filter fun (r : Replica) => r.ask.isNone && !r.remnant && r.unknownSince.isNone
    let marked := s1.plp.replicas.map fun (r : Replica) => if r.ask.isNone && !r.remnant && r.unknownSince.isNone then { r with auditT := s1.now } else r
    let s2 : State := { s1 with plp := { s1.plp with lastAudit := s1.now, replicas := marked } }
    .next (rs.foldl (fun (a : State) r =>
      let chain := if hOrder r.handle = 7 then leBytes 2 r.layer ++ leBytes 2 0 ++ leBytes 4 r.first ++ leBytes 8 0 else []
      a.malSend 0x0020 r.owner (fetchBody r.handle chain 0 (hOrder r.handle) 0 0 0 0) r.id 3) s2)

/-- REPLICA_KEEP_EXPIRE (R611): KEEP_H after an UNREACHABLE declaration against the owner, its replicas go. -/
def execReplicaKeepExpire (owner handle : Nat) (s : State) : Host.Outcome State Fault Refusal :=
  match s.plp.replicas.find? fun r => r.owner == owner && r.handle == handle && r.unknownSince.isSome with
  | none => .next s
  | some r =>
    let s1 := s.reach (r.unknownSince.getD 0 + s.g F.REPLICA_CFG_KEEP_H * 3600000000000)
    let gone := (s1.plp.replicas.filter fun (x : Replica) => x.owner == owner && x.handle == handle && x.unknownSince.isSome).map (·.id)
    .next (gone.foldl (fun (a : State) i => a.dropReplica i) s1)

end Sys2Proof.Machine
end

