-- ==== Sys2Proof/Machine/BootCmds.lean ====
section
/-! DEFINITION. Start-up steps 0–5 (R629, R699–R711, R541–R543, R584, R605, R606, R162, R188, R66): firmware, measurement, HBM, NAND and
recovery, links and time, the fabric manager's binding. -/

namespace Sys2Proof.Machine

/-- A step that the lead drives may run (R701). -/
def State.leadStep (s : State) (n : Nat) : Bool := s.mayStep n && s.leadHalf.isSome

def State.setBoot (s : State) (f : Boot → Boot) : State := { s with boot := f s.boot }

/-! ### Failure of a step (R703, R704) -/

/-- Outcomes the table of R703 permits: 0 halt, 1 degrade, 2 skip. -/
def stepPermits : Nat → List Nat
  | 1 => [0, 1] | 2 => [0, 1] | 3 => [0, 1] | 4 => [1] | 5 => [0, 2] | 7 => [1] | _ => [0]

/-- The stack of each enabled die has been through step 2: the step ends. -/
def State.hbmClose (s : State) : State :=
  if s.leadStep 2 && s.enabledDies.all fun d => s.boot.settled.contains (2, d) || (s.stack d).st == .retired then s.closeStep 2 else s

/-- A join attempt begins with its back-off (R716 step 1). -/
def State.startJoin (s : State) : State :=
  let c := s.choose
  let wait := c.1 % (s.g F.JOIN_CFG_BACKOFF_MS * 1000000 + 1)
  c.2.setBoot fun b => { b with backoffEnd := s.now + wait, gatherEnd := 0, joinRetryAt := 0 }

/-- The join has failed for the last time: service stays LOCAL, and it is tried again in 10 s (R703). -/
def State.joinDegraded (s : State) : State :=
  let s1 := (s.ws F.STEP_STATE_STATE 7 stepDegraded).raise Ev.STEP_ALTERNATE
  s1.setBoot fun b => { b with joinRetryAt := s1.now + 10000000000, backoffEnd := 0, gatherEnd := 0 }

/-- A unit of a step has failed for the last time and the plan degrades it (R703). -/
def State.degradeUnit (s : State) (n unit result : Nat) : State :=
  let s1 := s.setBoot fun b => { b with worse := b.worse ++ [n], settled := b.settled ++ [(n, unit)] }
  match n with
  | 1 => s1.closeStep 1
  | 2 =>
    let num := s1.tel.nextFault
    let why := if result = 4 then 1 else 2
    ((s1.fault 7 2 255 (faultUnit unit unit) 0 0).retireStack unit why num).hbmClose
  | 3 => if unit < 32 then s1.failChannel unit else (s1.fenceBridge (unit - 256)).loseBridge (unit - 256)
  | 4 => s1
  | _ => s.joinDegraded

/-- An attempt of a unit of a step fails; after the last one the plan decides (R703, R704). -/
def State.stepFail (s : State) (n unit result : Nat) : State :=
  let k := alGetD (n, unit) 0 s.boot.failed + 1
  let s1 := s.setBoot fun b => { b with failed := alSet (n, unit) k b.failed }
  let s2 := ((s1.ws F.STEP_STATE_ATTEMPTS n (min k 15)).ws F.STEP_STATE_RESULT n result).ws F.STEP_STATE_UNIT n unit
  if k < max 1 (s.gi F.BOOT_PLAN_ATTEMPTS n) then (if n = 7 then s2.startJoin else s2)
  else
    let plan := s.gi F.BOOT_PLAN_ON_FAIL n
    let act := if (stepPermits n).contains plan then plan else 0
    if act = 1 then s2.degradeUnit n unit result
    else if act = 2 then s2.endStep n stepSkipped
    else s2.halt n

/-- Units of a step that can fail: stacks, channels and (256 up) bridge dies, ports, else the whole step. -/
def State.stepUnit (s : State) (n unit : Nat) : Bool :=
  match n with
  | 2 => s.enabledDies.contains unit
  | 3 => decide (unit < 32 ∨ unit = 256 ∨ unit = 257)
  | 4 => decide (unit < 16)
  | _ => true

/-- BOOT_STEP_FAIL (R703). -/
def execBootStepFail (step unit result : Nat) (s : State) : Host.Outcome State Fault Refusal :=
  if !([1, 2, 3, 4, 5, 7].contains step) ∨ !s.leadStep step ∨ !s.stepUnit step unit ∨ s.boot.settled.contains (step, unit) ∨
      s.stepState step ≠ stepRunning then .next s
  else .next (s.stepFail step unit result)

/-! ### Step 0 (R629, R698, R700) -/

/-- The image in a slot, as half h counts them: own A, own B, other A, other B. -/
def State.slotImage (s : State) (h stage k : Nat) : Option Image := alGet (4 * stage + (k + 2 * h) % 4) s.boot.slots

/-- A stage is run only when its image verifies, its signing key is not revoked and its SVN is at least the fuse counter (R629). -/
def State.imageRuns (s : State) (stage : Nat) (i : Image) : Bool :=
  i.valid && !bit s.sec.fuses.revoked i.keySlot && decide (s.sec.fuses.svn.getD (stage - 1) 0 ≤ i.svn)

/-- The first slot whose image is run, and the slots before it. -/
def State.tryStage (s : State) (h stage : Nat) : Option (Nat × Image) × List Nat :=
  let run := fun (k : Nat) => match s.slotImage h stage k with | some i => s.imageRuns stage i | none => false
  match (List.range 4).find? run with
  | some k => ((s.slotImage h stage k).map fun i => (k, i), List.range k)
  | none => (none, List.range 4)

/-- Failed verifications count as attempts; an image refused for its SVN alone raises ROLLBACK_REFUSED (R629, R700). -/
def State.countTries (s : State) (h stage : Nat) (tried : List Nat) : State :=
  let low := tried.any fun k => match s.slotImage h stage k with
    | some i => i.valid && !bit s.sec.fuses.revoked i.keySlot
    | none => false
  let s1 := if low then s.raise Ev.ROLLBACK_REFUSED else s
  if tried.isEmpty then s1
  else
    let n := min 15 (s1.gs F.STEP_STATE_ATTEMPTS 0 + tried.length)
    ((s1.ws F.STEP_STATE_ATTEMPTS 0 n).ws F.STEP_STATE_RESULT 0 1).ws F.STEP_STATE_UNIT 0 h

/-- A half reads BL1, then Shuarn; at a warm reset it runs those of the last power-on (R698). -/
def State.loadHalf (s : State) (h : Nat) : State :=
  let x := s.half h
  let r1 := if s.boot.cold then s.tryStage h 1 else (x.bl1, [])
  let s1 := s.countTries h 1 r1.2
  let r2 := if !s.boot.cold then (x.shuarn, []) else if r1.1.isSome then s1.tryStage h 2 else (none, [])
  let s2 := s1.countTries h 2 r2.2
  let src := fun (r : Option (Nat × Image)) => (r.map fun e => e.1).getD 0
  let s3 := if h = 0 then (s2.w F.IMAGE_SRC_BL1_H0 (src r1.1)).w F.IMAGE_SRC_SHUARN_H0 (src r2.1)
    else (s2.w F.IMAGE_SRC_BL1_H1 (src r1.1)).w F.IMAGE_SRC_SHUARN_H1 (src r2.1)
  (s3.setHalf h fun y => { y with bl1 := r1.1, shuarn := r2.1, loaded := r1.1.isSome && r2.1.isSome }).settleUnit 0 h

/-- The halves compare their Shuarn digests; the lower (SVN, VERSION), or H1, restarts from the other's image (R700). -/
def State.compareHalves (s : State) : State :=
  match (s.half 0).shuarn, (s.half 1).shuarn with
  | some a, some b =>
    if a.2.digest == b.2.digest then s
    else
      let low0 := decide (a.2.svn < b.2.svn) || (a.2.svn == b.2.svn && decide (a.2.version < b.2.version))
      let h := if low0 then 0 else 1
      let from_ := if low0 then b else a
      let k := (from_.1 + 2) % 4
      let s1 := s.setHalf h fun y => { y with shuarn := some (k, from_.2) }
      (if h = 0 then s1.w F.IMAGE_SRC_SHUARN_H0 k else s1.w F.IMAGE_SRC_SHUARN_H1 k).raise Ev.IMAGE_MISMATCH
  | _, _ => s

/-- Lifecycle and debug state, as they enter CDI_1 and the storage key (R625). -/
def Fuses.stateBytes (f : Fuses) : Bytes :=
  leBytes 1 (match f.life with | .manufacture => 0 | .production => 1 | .returned => 2) ++
  leBytes 1 (match f.debug with | .none => 0 | .telemetry => 1 | .invasive => 2)

/-- What runs: SVN, key slot, version and digest of each stage; stages 3 and 4 are loaded where they verify (R629). At a cold reset the
DICE engine derives its outputs (R625); at every boot the ROM signs the alias certificate, with what was measured (R626). -/
def State.runStages (s : State) : State :=
  let h := if (s.half 0).loaded then 0 else 1
  let x := s.half h
  let imgs := [x.bl1, x.shuarn, (s.tryStage h 3).1, (s.tryStage h 4).1].map fun (e : Option (Nat × Image)) => e.map fun r => r.2
  let num := fun (f : Image → Nat) => imgs.map fun (e : Option Image) => (e.map f).getD 0
  let ds := imgs.map fun (e : Option Image) => (e.map fun i => i.digest).getD []
  let fs : Fuses := { s.sec.fuses with
    runSvn := num (fun i => i.svn), runKey := num (fun i => i.keySlot), runVer := num (fun i => i.version), digests := ds, tcb := ds.zip (num fun i => i.svn) }
  let dice := Config.crypt 10 (ds.flatten ++ (num fun i => i.svn).map (BitVec.ofNat 8) ++ fs.stateBytes)
  let s1 := if s.boot.cold then s.setBoot fun b => { b with dice := dice } else s
  { s1 with sec := { s1.sec with fuses := fs } }

/-- BOOT_FIRMWARE (R700): a half's boot ROM and BL1 read their images; once both have, the digests are compared. -/
def execBootFirmware (half : Nat) (s : State) : Host.Outcome State Fault Refusal :=
  if half ≥ 2 ∨ !s.unitOwed 0 half then .next s
  else
    let s1 := if s.bridgeUp half then s.loadHalf half else s.settleUnit 0 half
    if !s1.boot.settled.contains (0, 1 - half) then .next s1
    else
      let a := (s1.half 0).loaded
      let b := (s1.half 1).loaded
      if !a && !b then .next (s1.halt 0)
      else if a && b then .next s1.compareHalves.runStages
      else .next (s1.raise Ev.STANDBY_LOST).runStages

/-! ### Step 1 (R703, R705, R803) -/

/-- Absolute maximum of rail i in mV (R803). -/
def railMax (i : Nat) : Nat :=
  if i < 10 then 1050
  else match i with
    | 10 => 1000 | 11 => 1000 | 12 => 1500 | 13 => 1500 | 14 => 600 | 15 => 600 | 16 => 2200 | 17 => 1000 | 18 => 1000 | 19 => 1000
    | 20 => 1500 | 21 => 1500 | _ => 2200

/-- BOOT_MEASURE (R705): the 24 rails in mV and the ten junction temperatures in 0.1 °C. Above the operating maximum of 95 °C the step
waits; a rail outside its range fails the attempt; an absolute maximum exceeded halts the device. -/
def execBootMeasure (samples : List Nat) (temps : List Int) (s : State) : Host.Outcome State Fault Refusal :=
  let m := s.plp.meas
  let held := m.phase = 0 ∧ (s.g F.PLP_CTRL_HU_PRESENT = 0 ∨ m.doneT ≠ 0)
  if !s.leadStep 1 ∨ !held then .next s
  else
    let bad := fun (i : Nat) => let v := samples.getD i 0; decide (v < (s.railRange i).1 ∨ (s.railRange i).2 < v)
    let ms := s.hw.meas.zipIdx.map fun (e : Meas × Nat) => { e.1 with value := samples.getD e.2 0, out := bad e.2, answered := s.now }
    let ts := (List.range 10).map fun d => temps.getD d 0
    let s1 : State := { s with hw := { s.hw with meas := ms, temps := ts, sampleT := s.now } }
    let s2 := (List.range 10).foldl (fun (a : State) d => a.wu F.JUNCTION d (unsigned 16 (ts.getD d 0))) s1
    let above := (List.range 24).any (fun i => decide (samples.getD i 0 > railMax i)) || ts.any fun t => decide (t > 1150)
    if above then .next (s2.halt 1)
    else if ts.any fun t => decide (t > 950) then .next s2
    else match (List.range 24).find? bad with
      | some i => .next (s2.stepFail 1 i 3)
      | none => .next (s2.closeStep 1)

/-! ### Step 2 (R699, R705) -/

/-- BOOT_HBM (R699): the training of a stack, with the hard repair of the rows spared since the last start-up; or its failure. -/
def execBootHbm (stack : Nat) (ok : Bool) (vendor height : Nat) (s : State) : Host.Outcome State Fault Refusal :=
  if !s.enabledDies.contains stack ∨ !s.leadStep 2 ∨ s.boot.settled.contains (2, stack) ∨ (s.stack stack).st = .retired then .next s.hbmClose
  else if !ok then .next (s.stepFail 2 stack 4)
  else
    let s1 := s.setStack stack fun x =>
      let pcs := if x.pcOk = 0 then 2 ^ 32 - 1 else x.pcOk
      { x with st := if pcs = 2 ^ 32 - 1 then .active else .degraded, reason := if pcs = 2 ^ 32 - 1 then 0 else 3
               pcOk := pcs, vendor := vendor, height := height, pendingRepair := [], patrolT := s.now }
    let s2 := (s1.stackCap stack).setBoot fun b =>
      { b with repairLog := b.repairLog.filter fun e => e.1 != stack, settled := b.settled ++ [(2, stack)] }
    .next s2.hbmClose

/-! ### Step 3: discovery (R541–R543, R573) -/

/-- A die that matches a profile (R542): its number orders the dies of a bridge die. -/
def NandFound.matches_ (d : NandFound) : Bool := d.pageOk && d.profile.isSome && d.fieldsOk
def NandFound.num (d : NandFound) : Nat := d.chan * 16 + d.target

/-- Profile of a bridge die: that of its lowest-numbered matching die. -/
def bridgeProfile (found : List NandFound) (b : Nat) : Option Nat :=
  (argMin (fun (d : NandFound) => ((d.num : Nat) : Int)) (found.filter fun d => d.matches_ && d.chan / 16 == b)).bind fun d => d.profile

/-- Why a die is unused (DIE_INFO.REASON), 0 when it is used. -/
def State.whyUnused (s : State) (found : List NandFound) (d : NandFound) : Nat :=
  if !d.pageOk then 3
  else if d.profile.isNone then 1
  else if !d.fieldsOk then 2
  else if d.profile ≠ bridgeProfile found (d.chan / 16) then 4
  else if d.label.isSome ∧ d.label ≠ some s.dev.serial ∧ s.g F.NAND_CTRL = 0 then 5
  else 0

/-- A die is discovered: a new one joins its set, formatted and labelled where it is blank or adopted; one that served keeps its state,
or has failed when it no longer answers as it did (R573, R574). -/
def State.findDie (s : State) (found : List NandFound) (d : NandFound) : State :=
  let why := s.whyUnused found d
  let own := d.label = some s.dev.serial
  let known : Bool := match s.ndie d.chan d.target with
    | some x => x.st != .absent && x.st != .unused
    | none => false
  if known then (if why = 0 ∧ own then s else s.failNand d.chan d.target 0)
  else
    let x : NDie :=
      { chan := d.chan, target := d.target, st := if why = 0 then .active else .unused, reason := why, profile := d.profile.getD 0
        gib := d.gib, blocks := d.blocks, badMax := d.badMax, rows := d.rows, bad := d.bad }
    let ds := put (fun (y : NDie) => y.chan == d.chan && y.target == d.target) x s.ftl.dies
    let s1 : State := { s with ftl := { s.ftl with dies := ds } }
    let s2 := if d.profile.isNone then s1.raise Ev.PROFILE_MISSING else s1
    if why = 5 then s2.raise Ev.FOREIGN_DIE else s2

/-- Discovery over the channels of the bridge dies in service. A die that served and is not found has failed. The profiles come from the
stage 3 image: without one, none matches. -/
def State.discover (s : State) (found : List NandFound) : State :=
  let profiles := (s.sec.fuses.digests.getD 2 []) != []
  let live := fun (c : Nat) => s.bridgeUp (c / 16) && s.ftl.chans.any fun x => x.num == c && x.st != 2
  let fs := (found.filter fun d => live d.chan).map fun (d : NandFound) => if profiles then d else { d with profile := none }
  let s1 := (sortBy (fun (d : NandFound) => ((d.num : Nat) : Int)) fs).foldl (fun (a : State) d => a.findDie fs d) s
  let lost := s1.ftl.dies.filter fun d => d.serves && !(fs.any fun f => f.chan == d.chan && f.target == d.target) && live d.chan
  let s2 := lost.foldl (fun (a : State) d => a.failNand d.chan d.target 0) s1
  let keys := [0, 1].flatMap fun b => (List.range 8).map fun k => (b, k)
  let new := keys.filter fun e => (s2.sset e.1 e.2).isNone && !(s2.members e.1 e.2).isEmpty
  let s3 : State := { s2 with ftl := { s2.ftl with sets := s2.ftl.sets ++ new.map fun (e : Nat × Nat) => { bridge := e.1, num := e.2 : StripeSet } } }
  -- interface and rate of a channel are the fastest both sides allow (R541); the chapters leave the profile's modes open
  let c := s3.choose
  let chans := c.2.ftl.chans.map fun (x : NChan) => { x with kind := c.1 % 3, mts := c.1 / 3 % 4096 }
  let s4 : State := { c.2 with ftl := { c.2.ftl with chans := chans, firstOn := if s.ftl.firstOn = 0 then s.now else s.ftl.firstOn } }
  let s5 := keys.foldl (fun (a : State) e => a.settleSet e.1 e.2) s4
  -- the pSLC targets are computed for the first time, and each second from here (R555)
  { s5 with ftl := { s5.ftl with targets := [s5.pslcTarget 0, s5.pslcTarget 1], targetT := [s5.now, s5.now] } }

/-! ### Step 3: recovery (R127, R162, R188, R584, R605, R606) -/

/-- A leaf that the restart does not bring back: of class V after a power loss, or without a T3 copy of every page. -/
def State.leafGone (s : State) (l : Leaf) : Bool :=
  (s.boot.cold && l.cls == 0) || l.freed ||
    (List.range l.layers).any fun i => !s.tier.copies.any fun c => c.part == l.part && c.serial == l.serial + i && c.tier == 3

/-- Leaves that are gone leave views and capos; counted ones of class D are reported lost (R606). -/
def State.recoverLeaves (s : State) : State :=
  let gone := s.sq.leaves.filter fun l => s.leafGone l
  let live := gone.filter fun l => !l.freed
  (s.reportLost (live.filter fun l => l.cls == 1) 6 0).dropLeaves live

/-- Every layer of every sequence ends where what is left of it ends; granules that a sealed leaf of the view covers go. -/
def State.recoverSeqs (s : State) : State :=
  let under := fun (g : Granule) => match s.seq g.part g.seq with
    | some x => x.leaves.any fun e => decide (e.1 * orderT x.order ≤ g.first ∧ g.first < (e.1 + 1) * orderT x.order)
    | none => true
  let s1 : State := { s with sq := { s.sq with granules := del under s.sq.granules } }
  s1.sq.seqs.foldl (fun (a : State) x => (List.range x.lens.length).foldl (fun (t : State) l => t.rollLayer x.part x.id l) a) s1

/-- What the last power-off left is reported (R605, R606). -/
def State.reportFlush (s : State) : State :=
  let f := s.plp.flush
  let cut := (f.passed && !f.done) || (s.boot.cold && s.boot.counted)
  -- a warm reset after no power-fail point leaves the state of the last flush as it is (RWS)
  let s1 := if !s.boot.cold && !f.passed then s
    else ((s.w F.FLUSH_LAST (if cut then 2 else if f.passed then 1 else 0)).w F.FLUSH_MS (min (f.ns / 1000000) 65535)).w F.FLUSH_MIB
      (min (f.bytes / 2 ^ 20) (2 ^ 20 - 1))
  let s2 : State := { s1 with plp := { s1.plp with flush := {} } }
  (if cut then s2.raise Ev.FLUSH_INCOMPLETE else s2).setBoot fun b => { b with counted := false }

/-- BOOT_NAND (R541, R584, R162, R188, R605, R606): discovery, recovery, the journal, the counts, the capos. The boot epoch rises
(R715). -/
def execBootNand (found : List NandFound) (s : State) : Host.Outcome State Fault Refusal :=
  if !s.leadStep 3 then .next s
  else
    let s1 := ((s.discover found).recoverLeaves.recoverSeqs).reportFlush
    let ps := s1.sq.pages.map fun (x : Page) => { x with score := s1.seedScore x.part, ts := s1.now }
    let s2 : State := { s1 with sq := { s1.sq with pages := ps } }
    let s3 := (s2.w F.BOOT_EPOCH (min (s2.g F.BOOT_EPOCH + 1) (2 ^ 32 - 1))).w F.RECOVERY_MS
      (min ((s2.now - s2.gs F.STEP_START 3) / 1000000) 65535)
    .next ((s3.sweep.restoreCapos.capCheck).closeStep 3)

/-! ### Step 4: links and DEV_TIME (R66) -/

/-- DEV_TIME is set d ns ahead: what the device times goes on from where it was. -/
def State.shiftTime (s : State) (d : Nat) : State :=
  let opt := fun (t : Option Nat) => t.map fun (x : Nat) => x + d
  let nz := fun (t : Nat) => if t = 0 then 0 else t + d
  let c := s.course
  let hs := c.halves.map fun (h : Half) =>
    { h with claimT := h.claimT + d, backoffEnd := h.backoffEnd + d, lastRenew := h.lastRenew + d, resyncT := h.resyncT + d }
  let as_ := c.arbs.map fun (a : Arbiter) => { a with expiry := a.expiry + d }
  let course : Course := { c with
    halves := hs, arbs := as_, mirror := c.mirror.map fun (m : MirrorWait) => { m with sent := m.sent + d }
    headlessSince := opt c.headlessSince }
  let w := s.hw
  let hw : Hw := { w with
    winT := w.winT.map nz
    sampleT := w.sampleT + d
    rails := w.rails.map fun (r : Rail) =>
      { r with lastStep := r.lastStep + d, mismatchSince := opt r.mismatchSince, thermT := r.thermT + d }
    meas := w.meas.map fun (m : Meas) => { m with answered := m.answered + d }
    bridges := w.bridges.map fun (b : Bridge) => { b with fencedAt := b.fencedAt + d, restarts := b.restarts.map fun t => t + d }
    hbm := w.hbm.map fun (k : Stack) => { k with patrolT := nz k.patrolT } }
  let m := s.plp.meas
  let meas : HoldMeas := { m with startT := m.startT + d, doneT := nz m.doneT, sinkT := opt m.sinkT }
  let ports := s.dlv.ports.map fun (p : Port) =>
    { p with holdT := p.holdT + d, gateT := p.gateT + d, linkT := nz p.linkT, lldpT := nz p.lldpT, ptmT := opt p.ptmT, annT := opt p.annT
             ptmOffset := if p.ptmT.isSome then p.ptmOffset - (d : Int) else p.ptmOffset }
  let paths := s.tel.paths.map fun (p : TPath) => { p with winStart := p.winStart + d, lowSince := p.lowSince + d }
  let conns := s.net.conns.map fun (x : Conn) => { x with lastT := x.lastT + d }
  { s with
    now := s.now + d
    course := course
    hw := hw
    plp := { s.plp with meas := meas }
    time := { s.time with holdAt := s.time.holdAt + d }
    part := { s.part with calT := s.part.calT + d }
    dlv := { s.dlv with ports := ports }
    tel := { s.tel with paths := paths }
    net := { s.net with conns := conns }
    boot := { s.boot with powerGoodT := s.boot.powerGoodT + d } }

/-- BOOT_LINKS (R66, R699): training is over for every port; DEV_TIME is set from a source: 1 PTP, 2 PTM, 3 the board controller, 0 none,
where it goes on from zero at power-good. -/
def execBootLinks (source t : Nat) (s : State) : Host.Outcome State Fault Refusal :=
  if !s.leadStep 4 ∨ source > 3 then .next s
  else
    if !s.timeFrom source then .next s
    else
      let s1 := if s.g F.TIME_STATE_STATE ≥ 2 then s
        else ((s.shiftTime (if source = 0 then 0 else t - s.now)).w F.TIME_STATE_SET_SOURCE source).timeGo 2
      .next (s1.closeStep 4)

/-! ### Step 5 (R648, R709) -/

/-- FM_PIN is zero: no fabric manager is bound (R648). -/
def State.noFm (s : State) : Bool := (List.range 12).all fun i => s.gi F.FM_PIN i == 0

/-- FM_BIND (R709): a session of the fabric manager stands, or there is none to wait for. -/
def execFmBind (s : State) : Host.Outcome State Fault Refusal :=
  if s.leadStep 5 && (s.noFm || s.sec.fuses.fmBound) then .next (s.endStep 5 stepOk) else .next s

/-- FM_WAIT_TIMEOUT (R709). -/
def execFmWaitTimeout (s : State) : Host.Outcome State Fault Refusal :=
  if !s.leadStep 5 then .next s
  else .next ((s.reach (s.gs F.STEP_START 5 + s.g F.FM_WAIT * 1000000000)).endStep 5 stepSkipped)

/-- FM_WAIVE (R709): BOOT_CTRL.FM_WAIVE is written; the bit reads 1 until the step takes it. -/
def execFmWaive (s : State) : Host.Outcome State Fault Refusal :=
  if s.leadStep 5 then .next ((s.w F.BOOT_CTRL_FM_WAIVE 0).endStep 5 stepSkipped) else .next (s.w F.BOOT_CTRL_FM_WAIVE 1)

/-! ### Configuration requests and image writes (R702, R711) -/

/-- PCIE_CONFIG_REQUEST (R711, R702): retry status until the port's functions are ready, which is within 1 s of the end of training; no
answer from a halted device or an untrained port. -/
def execPcieConfigRequest (port : Nat) (s : State) : Host.Outcome State Fault Refusal :=
  let p := s.port port
  if port ≥ 8 ∨ s.boot.halted ∨ s.hw.stopped ∨ !p.trained then .next s
  else if p.linkT + 1000000000 ≤ s.now then .next (s.emit (.config port false))
  else
    let c := s.choose
    .next (c.2.emit (.config port (c.1 % 2 == 0)))

/-- QUINBEL_IMAGE_WRITE (R702): an image is written into a slot of a bridge die's xSPI flash. -/
def execQuinbelImageWrite (die slot stage : Nat) (image : Image) (s : State) : Host.Outcome State Fault Refusal :=
  if die ≥ 2 ∨ slot ≥ 2 ∨ stage = 0 ∨ stage > 4 ∨ s.hw.stopped ∨ !s.hw.pins.pwrgd then .next s
  else .next (s.setBoot fun b => { b with slots := alSet (4 * stage + die * 2 + slot) image b.slots })

end Sys2Proof.Machine
end

