-- ==== Sys2Proof/Machine/Complete.lean ====
section
/-! DEFINITION. Posting a completion (R372, R374, R380), with which an APPEND's positions become visible (R113). -/

namespace Sys2Proof.Machine

/-- COMPLETION_POST (R372, R374, R380): output buffers first, then the completion entry; `ok` false when the write failed. Held
while the queue's port is HOLDING (R456); a queue whose CQ write failed posts no more (R362). -/
def execCompletionPost (c : Nat) (ok : Bool) (s : State) : Host.Outcome State Fault Refusal :=
  match s.cmd c with
  | none => .next s
  | some x =>
    if x.live then .next s
    else match s.queue x.q with
      | none => .next (s.unposted x)
      | some qu =>
        if qu.num < 65536 && (s.port qu.port).st == .holding then .next s
        else if qu.cqFailed then .next (s.unposted x)
        else
          let s1 := x.outs.foldl (fun (a : State) o =>
            (a.emit (.hostWrite qu.port qu.fn o.1 o.2)).chargeCmd c .hostOut o.2.length false) s
          if !ok then .next (((s1.queueError x.q 3).setQueue x.q fun y => { y with cqFailed := true }).unposted x)
          else
            let fin := (s1.cmd c).getD x
            let s2 := s1.writeCqe qu fin
            let s3 := (s2.charge x.part x.qg .commands 1).irqAfter x.q x.fNotify
            let s4 := if x.part < 64 then s3.bumpP F.CMDS x.part else s3
            -- R424: by how much the completion followed its last prediction
            let s5 := if x.pred ≠ 0 ∧ x.status ≤ 1 ∧ x.deadline ≠ 0 ∧ x.part < 64 then s4.maxP F.PRED_ERR_MAX x.part (s.now - x.pred)
              else s4
            -- ATT.LAT_MAX and ATT.COMMANDS
            let s6 := if x.attn && !x.is .bwd && x.part < 64 then
              let b := s5.bumpP F.COMMANDS x.part
              if x.status ≤ 1 then b.maxP F.LAT_MAX x.part (min (s.now - x.acceptT) 0xFFFFFFFF) else b
              else s5
            .next ((s6.applyAppends fin).retire fin)

end Sys2Proof.Machine
end

