-- ==== Sys2Proof/Machine/CxlCmds.lean ====
section
/-! DEFINITION. The commands of the coherent link and the pool: extent messages (R473, R474, R482, R483), window extents and maps
(R475–R481), window reads and writes, snoops. A window message is laid out as the model's own: port in byte 0, the host's PBR ID in
bytes 2–3, base and length of the extent in the port's region at 8 and 16, the tag of R475 at 32. -/

namespace Sys2Proof.Machine

/-! ### Tray extents -/

/-- The first reason of R473 for which a GRANT is refused, 0 when it is accepted. -/
def State.grantReason (s : State) (m : Nat) : Nat :=
  let kind := efld m 2 1
  let p := efld m 3 1
  let dpa := efld m 0x10 8
  let len := efld m 0x18 8
  let tray := efld m 8 2 % 4096
  let u := 2 ^ 28
  let held := sumBy (·.len) (s.cxl.extents.filter fun e => e.part == p && e.kind == 1)
  if s.cxl.extents.length ≥ 4096 then 1
  else if p ≥ 64 ∨ !(s.pst p == .active || s.pst p == .switching) then 2
  else if kind = 1 ∧ held + len > s.gp F.POOL_MAX p * 2 ^ 30 then 3
  else if len = 0 ∨ len % u ≠ 0 ∨ dpa % u ≠ 0 ∨ len > 2 ^ 36 ∨ kind = 0 ∨ kind > 2 then 4
  else if !((List.range 8).any fun i => bit (efld m 0x0A 1) i && s.gu F.PORT_CTRL_POOL_EN i == 1) then 5
  else if s.cxl.extents.any fun e => e.tray == tray && decide (dpa < e.dpa + e.len) && decide (e.dpa < dpa + len) then 6
  else 0

/-- EXT_GRANT (R473, R474). The index of an accepted extent is the device's choice among the free ones. -/
def execExtGrant (msg : Nat) (s : State) : Host.Outcome State Fault Refusal :=
  if !s.fmBound then .next s.fmReject
  else
    let kind := efld msg 2 1
    let p := efld msg 3 1
    let fmId := efld msg 4 4
    let tray := efld msg 8 2 % 4096
    let ports := efld msg 0x0A 1
    let mode := efld msg 0x0B 1
    let dpa := efld msg 0x10 8
    let len := efld msg 0x18 8
    let r := s.grantReason msg
    if r ≠ 0 then
      .next ((s.emit (.fm (extMsg 0x0082 kind p fmId tray ports mode 0 r 0 dpa len 0))).raise Ev.EXT_REFUSED (if p < 64 then p else 255))
    else
      let c := s.choose
      let free := (List.range 4096).filter fun i => !(s.cxl.extents.any fun e => e.idx == i)
      let idx := free.getD (c.1 % free.length) 0
      let ep := s.cxl.extEpoch + 1
      let e : Extent := { idx := idx, kind := kind, part := p, fmId := fmId, tray := tray, ports := ports, hdmDb := mode == 1
                          dpa := dpa, len := len, epoch := ep }
      let s1 : State := { c.2 with cxl := { c.2.cxl with extents := c.2.cxl.extents ++ [e], extEpoch := ep } }
      .next ((s1.emit (.fm (e.msg 0x0081 0 0))).raise Ev.EXT_GRANTED p).pump

/-- The held extent a later message names; none is refused with REASON 0 (R474). -/
def State.extNamed (s : State) (msg : Nat) : Option Extent :=
  (s.extent (efld msg 0x0C 2)).bind fun e => if e.fmId = efld msg 4 4 then some e else none

/-- REFUSED with REASON 0, the message's own fields echoed. -/
def State.refuseExt (s : State) (msg : Nat) : State :=
  s.emit (.fm (extMsg 0x0082 (efld msg 2 1) (efld msg 3 1) (efld msg 4 4) (efld msg 8 2) (efld msg 0x0A 1) (efld msg 0x0B 1)
    (efld msg 0x0C 2) 0 0 (efld msg 0x10 8) (efld msg 0x18 8) 0))

/-- EXT_RELEASE_REQ (R241, R482). -/
def execExtReleaseReq (msg : Nat) (s : State) : Host.Outcome State Fault Refusal :=
  if !s.fmBound then .next s.fmReject
  else match s.extNamed msg with
    | none => .next (s.refuseExt msg)
    | some e => if e.st == .held then .next (s.releaseExtent e.idx) else .next s

/-- EXT_FORCE_RELEASE (R242, R483): the revocation point. -/
def execExtForceRelease (msg : Nat) (s : State) : Host.Outcome State Fault Refusal :=
  if !s.fmBound then .next s.fmReject
  else match s.extNamed msg with
    | none => .next (s.refuseExt msg)
    | some e => if e.st == .revoking then .next s else .next (s.revokeExtent e.idx)

/-- EVAC_TIMEOUT (R241): backing copies that T3 has not admitted within EVAC_MS are treated as under revocation. -/
def execEvacTimeout (ext : Nat) (s : State) : Host.Outcome State Fault Refusal :=
  match s.extent ext with
  | some e =>
    if e.st != .releasing || e.kind != 1 || s.extentEmpty ext then .next s
    else
      -- copies T3 has admitted finish their moves
      let s1 := s.reach e.evacUntil
      .next (s1.loseExtent e fun c => (s1.moveOf c.part c.serial).any fun m => m.dstTier == 3 && m.replace && m.srcTier == 2)
  | none => .next s

/-- EXTENT_RELEASED (R482, R483): the last step is done. -/
def execExtentReleased (ext : Nat) (s : State) : Host.Outcome State Fault Refusal :=
  match s.extent ext with
  | none => .next s
  | some e =>
    let busy := s.q.cmds.any fun c => c.live && c.nmNames ext && c.uid < e.relUid
    match e.st with
    | .held => .next s
    | .releasing =>
      if e.kind = 1 then (if s.extentEmpty ext then .next (s.endExtent e 1) else .next (s.evacuate e))
      else if busy then .next s else .next (s.endExtent e 0)
    | .revoking => if busy then .next s else .next (s.endExtent e 0)

/-! ### Window extents -/

/-- A window add satisfies R475. -/
def State.windowOk (s : State) (m : Nat) : Bool :=
  let port := efld m 0 1
  let pbr := efld m 2 2
  let base := efld m 8 8
  let len := efld m 16 8
  let p := efld m 34 1
  let tagOk := efld m 32 2 == 0x574C && p < 64 && efld m 35 1 == 0 && efld m 40 8 == 0
  let allow := (List.range 16).any fun i => s.gps F.HOST_ALLOW_VALID p i == 1 && s.gps F.HOST_ALLOW_PBR_ID p i == pbr
  tagOk && decide (port < 8) && s.gu F.PORT_CTRL_HOST_EN port == 1 && s.ideOk port && s.pst p == .active &&
  bit (s.gp F.HOST_PORTS p) port && allow &&
  decide ((s.cxl.leases.filter fun l => l.part == p).length < s.gp F.WIN_QUOTA p) &&
  decide (len ≠ 0 ∧ base + len ≤ 2 ^ 44 ∧ base % 2 ^ 21 = 0 ∧ len % 2 ^ 21 = 0) &&
  !(s.cxl.leases.any fun l => l.port == port && decide (base < l.base + l.len) && decide (l.base < base + len))

/-- WINDOW_EXTENT_ADD (R475, R476). A lease number is the device's choice among the free ones. -/
def execWindowExtentAdd (msg : Nat) (s : State) : Host.Outcome State Fault Refusal :=
  if !s.fmBound then .next s.fmReject
  else
    let port := efld msg 0 1
    let pbr := efld msg 2 2
    let fmId := efld msg 36 4
    if !s.windowOk msg then .next (s.emit (.dcd port pbr 2 fmId))
    else
      let p := efld msg 34 1
      let c := s.choose
      let free := (List.range 4096).filter fun i => !(s.cxl.leases.any fun e => e.num == i)
      let ep := s.cxl.leaseEpoch + 1
      let l : Lease := { num := free.getD (c.1 % max 1 free.length) 0, part := p, port := port, pbr := pbr, base := efld msg 8 8
                         len := efld msg 16 8, fmId := fmId, epoch := ep }
      let s1 : State := { c.2 with cxl := { c.2.cxl with leases := c.2.cxl.leases ++ [l], leaseEpoch := ep } }
      .next ((s1.emit (.dcd port pbr 1 fmId)).raise Ev.LEASE_ADDED p)

/-- The lease a window message names: port, host, identifier. -/
def State.leaseNamed (s : State) (m : Nat) : Option Lease :=
  s.cxl.leases.find? fun l => l.port == efld m 0 1 && l.pbr == efld m 2 2 && l.fmId == efld m 36 4 &&
    (l.st == .active || l.st == .releasing)

/-- WINDOW_RELEASE_REQ (R476): service continues. -/
def execWindowReleaseReq (msg : Nat) (s : State) : Host.Outcome State Fault Refusal :=
  if !s.fmBound then .next s.fmReject
  else match s.leaseNamed msg with
    | some l =>
      if l.st == .active then
        .next ((s.setLease l.num fun x => { x with st := .releasing }).emit (.dcd l.port l.pbr 3 l.fmId))
      else .next s
    | none => .next (s.emit (.dcd (efld msg 0 1) (efld msg 2 2) 5 (efld msg 36 4)))

/-- HOST_EXTENT_RELEASE (R476, R499): the host's own release. -/
def execHostExtentRelease (msg : Nat) (s : State) : Host.Outcome State Fault Refusal :=
  match s.leaseNamed msg with
  | some l => if l.st == .releasing then .next (s.stopLease l.num .ending false) else .next s
  | none => .next (s.emit (.dcd (efld msg 0 1) (efld msg 2 2) 5 (efld msg 36 4)))

/-- WINDOW_FORCE_RELEASE (R476, R483). -/
def execWindowForceRelease (msg : Nat) (s : State) : Host.Outcome State Fault Refusal :=
  if !s.fmBound then .next s.fmReject
  else match s.leaseNamed msg with
    | some l => .next (s.revokeLease l.num false)
    | none => .next (s.emit (.dcd (efld msg 0 1) (efld msg 2 2) 5 (efld msg 36 4)))

/-- BIRSP (R481): the response for a block of four lines. -/
def execBirsp (port lease line : Nat) (s : State) : Host.Outcome State Fault Refusal :=
  if !(s.cxl.leases.any fun l => l.num == lease && l.port == port) then .next s
  else
    let sf := s.cxl.sf.filter fun f => !(f.lease == lease && f.line / 4 == line / 4 && f.snooped)
    let s1 : State := { s with cxl := { s.cxl with sf := sf } }
    .next (((s1.settleBinv.endLease lease).sweep).serveReads)

/-! ### Window maps (R477, R478) -/

/-- WINDOW_MAP_COMMIT (R478 steps 1 and 2): the map read from the host, none when poisoned. -/
def execWindowMapCommit (part lease : Nat) (map : Option Bytes) (s : State) : Host.Outcome State Fault Refusal :=
  match s.lease part lease with
  | none => .next s
  | some e =>
    let n := s.gps F.WIN_MAP_ENTRIES part lease
    if !(e.st == .active || e.st == .releasing) || e.pending.isSome then .next s
    else if s.tdiHolds e.port (part + 1) then .next (s.refuseMap e 5)
    else match map with
      | none => .next (s.refuseMap e 4)
      | some b =>
        let ws := mapSlots b n
        if b.length < 16 * n then .next (s.refuseMap e 4)
        else if ws.any fun w => (s.resolve part w.handle (hOrder w.handle)).isSome then .next (s.refuseMap e 1)
        else if s.slotsBad e ws then .next (s.refuseMap e 2)
        else
          let s1 := (s.setLease lease fun l => { l with pending := some ws, pendingT := s.now, reason := 0 }).wps F.WIN_CTRL_COMMIT part lease 1
          .next (ws.foldl (fun (a : State) w => a.demandFetch (hPart w.handle) (hSerial w.handle) 0 0 9) s1)

/-- MAP_COMMIT_POINT (R478 steps 2 to 6): once every page has a near copy, the lines of every slot removed or changed are
back-invalidated, and then the new map takes effect. -/
def execMapCommitPoint (part lease : Nat) (s : State) : Host.Outcome State Fault Refusal :=
  match s.lease part lease with
  | none => .next s
  | some e =>
    match e.pending with
    | none => .next s
    | some ws =>
      let far := ws.filter fun w => !s.near (hPart w.handle) (hSerial w.handle) && (s.page (hPart w.handle) (hSerial w.handle)).isSome
      let coming := fun (w : WinSlot) =>
        (s.moveOf (hPart w.handle) (hSerial w.handle)).isSome ||
        s.tier.waits.any fun x => x.part == hPart w.handle && x.serial == hSerial w.handle
      if far.any fun w => !coming w then .next (s.refuseMap e 3)
      else if !far.isEmpty then .next s
      else
        let pinned := ws.foldl (fun (a : State) w => a.pinNear (hPart w.handle) (hSerial w.handle)) s
        let same := fun (n : Nat) => s.slotOf e.slots n == s.slotOf ws n
        let stale := fun (f : SfLine) => f.lease == lease && !same f.line
        if s.cxl.sf.any stale then .next (pinned.snoopLines e fun f => !same f.line)
        else
          let s1 := ((pinned.setLease lease fun l => { l with slots := ws, pending := none }).wps F.WIN_CTRL_COMMIT part lease 0)
          let gone := e.slots.filter fun w => !(s1.cxl.leases.any fun l => l.slots.any fun v => v.handle == w.handle)
          let cs := upd (fun (c : Copy) => c.tier ≤ 1 && gone.any fun w => w.maps c.part c.serial) (fun c => { c with pinUntil := 0 })
            s1.tier.copies
          .next ({ s1 with tier := { s1.tier with copies := cs } }.sweep)

/-! ### Window traffic -/

/-- WINDOW_READ (R479, R481, R486): `addr` is the offset in the port's window region. -/
def execWindowRead (port pbr addr tag : Nat) (s : State) : Host.Outcome State Fault Refusal :=
  if port ≥ 8 then .next s
  else
    let lease := s.cxl.leases.find? fun l =>
      l.port == port && l.pbr == pbr && l.base ≤ addr && addr < l.base + l.len && (l.st == .active || l.st == .releasing)
    match lease with
    | none => .next (s.windowReply port tag none false)
    | some e =>
      if !s.ideOk port then .next (s.windowReply port tag none false)
      else
        let r : WinRead := { port := port, pbr := pbr, lease := e.num, line := (addr - e.base) / 64, tag := tag, since := s.free }
        .next ({ s with free := s.free + 1, cxl := { s.cxl with reads := s.cxl.reads ++ [r] } }.serveReads)

/-- WINDOW_WRITE (R479): completed, discarded, counted. The completion is an S2M response and carries DevLoad (R465, R485). -/
def execWindowWrite (port pbr addr : Nat) (s0 : State) : Host.Outcome State Fault Refusal :=
  let l := s0.loadOf port false
  let s := (s0.emit (.cxlDone port l)).sentLoad port l
  match s.cxl.leases.find? fun l => l.port == port && l.pbr == pbr && l.base ≤ addr && addr < l.base + l.len with
  | some e => .next ((s.bumpP F.WIN_WRITES e.part).raise Ev.WIN_WRITE e.part)
  | none => .next (s.raise Ev.WIN_WRITE)

/-- H2D_SNOOP (R471): RspIHitI, for the device holds no host line. -/
def execH2dSnoop (port addr : Nat) (s : State) : Host.Outcome State Fault Refusal := .next (s.emit (.snoopReply port addr))

end Sys2Proof.Machine
end

