-- ==== Sys2Proof/Machine/JoinCmds.lean ====
section
/-! DEFINITION. Start-up steps 6–9 (R703, R710–R720): local service, the join, the ring, warm-up. -/

namespace Sys2Proof.Machine

/-- The domain map as it lies in the board configuration area: header and entries; none where MAGIC, ENTRIES or the CRC-32C is wrong (R713). -/
def parseMap (b : Bytes) : Option DomainMap :=
  let n := rd b 8 4
  let whole := b.take (32 + 32 * n)
  if slice b 0 4 ≠ [0x4C, 0x44, 0x4D, 0x31] ∨ n = 0 ∨ 32768 < n ∨ whole.length ≠ 32 + 32 * n then none
  else if crc32c (whole.take 0x1C ++ leBytes 4 0 ++ whole.drop 0x20) ≠ rd b 0x1C 4 then none
  else
    let ent := fun (i : Nat) =>
      let o := 32 + 32 * i
      ({ serial := rd b o 8, group := rd b (o + 8) 2, kind := rd b (o + 0x0A) 1, eligible := bit (rd b (o + 0x0B) 1) 0
         addr := rd b (o + 0x10) 16 } : MapEnt)
    some { domainId := rd b 4 4, mapVer := rd b 0x0C 4, digest := Blake.hash 32 [] whole, entries := (List.range n).map ent }

/-- The domain map is one the device accepts (R713). -/
def State.mapGood (s : State) (m : DomainMap) : Bool :=
  let es := m.entries
  m.domainId == s.g F.DOMAIN_ID &&
    (es.any fun e => e.serial == s.dev.serial) &&
    es.all fun e => decide ((es.filter fun f => f.group == e.group && f.kind == 1).length ≤ 96)

/-- The map is read at the start of step 7 (R713): refused, the device stays LOCAL. -/
def State.readMap (s : State) (map : Option DomainMap) : State :=
  match map.filter s.mapGood with
  | none =>
    let s1 : State := { s with boot := { s.boot with map := none } }
    ((s1.raise Ev.JOIN_REFUSED).ws F.STEP_STATE_RESULT 7 6).joinDegraded
  | some m =>
    let g := ((m.entries.find? fun e => e.serial == s.dev.serial).map fun (e : MapEnt) => e.group).getD 0
    let s1 : State := { s with net := { s.net with group := g }, boot := { s.boot with map := some m, heard := [] } }
    -- members the map now lists receive the declarations (R143)
    (((s1.w F.JOIN_STATE_MAP_VER (m.mapVer % 65536)).w F.TREE_STATE_GROUP g).startJoin.sendDecls fun _ => true).groupsUpdate

/-- LOCAL_SERVICE (R710–R712, R720): the SYS block is sealed, local service begins, held enables take effect; then step 7 reads the map.
Capos are brought to their tiers first (R188): while a page of one is on its way the step waits; a page that finds no room and that nothing
under way can make room for does not hold the step (DESIGN CHOICE, assumption 75). -/
def execLocalService (map : Bytes) (s : State) : Host.Outcome State Fault Refusal :=
  let s0 := if s.leadStep 6 then s.restoreCapos else s
  if !s.leadStep 6 ∨ (s0.tier.moves.any fun m => m.why == 5 && m.cmd == 0) then .next s0
  else
    let s1 := if s0.g F.SYS_SEAL = 1 then s0 else (s0.w F.SYS_SEAL 1).raise Ev.SEALED
    let s2 := (s1.allotT0.setService 1)
    let held := (s2.q.queues.filter fun x => x.heldEnable).map fun x => x.num
    let s3 := held.foldl (fun (a : State) q => (a.setQueue q fun y => { y with heldEnable := false }).enableQueue q) s2
    .next ((s3.endStep 6 stepOk).readMap (parseMap map))

/-! ### The join (R703, R716, R718) -/

/-- HELLO to a device: it opens the connection, or goes over the one that stands. -/
def State.sendHello (s : State) (n : Nat) : State :=
  if n = s.dev.serial then s else if (s.malConn n).isSome then s.malSend 0x0001 n s.helloBody 0 else s.malOpen n

/-- Step 7 runs on a map. -/
def State.joining (s : State) : Bool := s.mayStep 7 && s.stepState 7 == stepRunning && s.boot.map.isSome && s.leadHalf.isSome

def State.mapEntries (s : State) : List MapEnt := (s.boot.map.map fun (m : DomainMap) => m.entries).getD []

/-- GATHER_MS, in ns. -/
def State.gatherNs (s : State) : Nat := s.g F.JOIN_CFG_GATHER_MS * 1000000

/-- JOIN_BACKOFF_EXPIRE (R716 steps 1, 2). -/
def execJoinBackoffExpire (s : State) : Host.Outcome State Fault Refusal :=
  if !s.joining ∨ s.boot.gatherEnd ≠ 0 then .next s
  else
    let s1 := s.reach s.boot.backoffEnd
    let s2 := s1.setBoot fun b => { b with gatherEnd := s1.now + s1.gatherNs, lastChange := s1.now }
    let receivers := (s2.mapEntries.filter fun e => e.group == s2.net.group).map fun (e : MapEnt) => e.serial
    .next (receivers.foldl (fun (a : State) n => a.sendHello n) s2)

/-- Groups of the map after the device's own, in ascending order, wrapping (R716). -/
def State.groupsAfter (s : State) : List Nat :=
  let gs := sortNat ((s.mapEntries.map fun (e : MapEnt) => e.group).eraseDups)
  (gs.filter fun g => decide (s.net.group < g)) ++ gs.filter fun g => decide (g < s.net.group)

/-- The leader of a group, as far as the device has heard. -/
def State.leaderOf (s : State) (g : Nat) : Option Nat :=
  let ps := s.net.peers.filter fun (p : Peer) => p.group == g && p.reachable && (p.leader || p.leaderSerial != 0)
  ps.head?.map fun (p : Peer) => if p.leader then p.serial else p.leaderSerial

/-- JOIN_GATHER_EXPIRE (R716 steps 4, 5 and the rule for a group without an eligible device, which asks the next group first). -/
def execJoinGatherExpire (s : State) : Host.Outcome State Fault Refusal :=
  if !s.joining ∨ s.boot.gatherEnd = 0 ∨ s.net.leader ≠ 0 then .next s
  else
    let s1 := s.reach s.boot.gatherEnd
    match s1.bestOfGroup with
    | some n => .next (s1.attach n)
    | none =>
      match s1.groupsAfter.head? with
      | none => .next s1
      | some g =>
        match s1.leaderOf g with
        | some n => .next (s1.attach n)
        | none =>
          let receivers := (s1.mapEntries.filter fun e => e.group == g).map fun (e : MapEnt) => e.serial
          let s2 := s1.setBoot fun b => { b with gatherEnd := s1.now + s1.gatherNs }
          .next (receivers.foldl (fun (a : State) n => a.sendHello n) s2)

/-- First listed device of every other group (R717). -/
def State.firstOfGroups (s : State) : List Nat :=
  (s.groupsAfter.filterMap fun g => s.mapEntries.find? fun e => e.group == g).map fun (e : MapEnt) => e.serial

/-- RING_GATHER_MS in ns. -/
def State.ringGatherNs (s : State) : Nat := max 5 (s.g F.JOIN_CFG_RING_GATHER_100MS) * 100000000

/-- JOIN_SETTLED (R716 steps 3, 6; R717): step 7 ends; a leader asks the other groups. -/
def execJoinSettled (s : State) : Host.Outcome State Fault Refusal :=
  let lead := s.net.leader
  let acked := lead = s.dev.serial ∨ !(s.net.waits.any fun w => w.msg.typ == 2 && w.msg.dst == lead)
  if !s.joining ∨ lead = 0 ∨ ¬acked then .next s
  else
    let ring := ((s.peer lead).map fun (p : Peer) => p.ringMember).getD false
    let all := (s.mapEntries.filter fun e => e.group == s.net.group && e.serial != s.dev.serial).all fun e => (s.peer e.serial).isSome
    let s1 := if ring || (lead == s.dev.serial && all) then s else s.reach (s.boot.lastChange + s.gatherNs)
    let s2 := s1.closeStep 7
    if lead ≠ s.dev.serial then .next s2
    else
      let s3 := (s2.setBoot fun b => { b with ringGatherEnd := s2.now + s2.ringGatherNs }).coordBy
      .next (s3.firstOfGroups.foldl (fun (a : State) n => a.sendHello n) s3)

/-- JOIN_RETRY (R703): after 10 s, or at once on JOIN_NOW. -/
def execJoinRetry (s : State) : Host.Outcome State Fault Refusal :=
  if !s.mayStep 7 ∨ s.stepState 7 ≠ stepDegraded ∨ s.leadHalf.isNone then .next s
  else
    let asked := s.g F.BOOT_CTRL_JOIN_NOW = 1
    let s1 := if asked then s.w F.BOOT_CTRL_JOIN_NOW 0 else s.reach s.boot.joinRetryAt
    match s1.boot.map with
    | none => .next (s1.readMap none)
    | some _ =>
      let s2 : State := { s1 with net := { s1.net with leader := 0, coordinator := 0, members := [] } }
      .next (((s2.setBoot fun b => { b with failed := b.failed.filter fun e => e.1.1 != 7, heard := [] }).beginStep 7).showTree.startJoin)

/-! ### The ring and warm-up (R717–R720) -/

/-- RING_GATHER_EXPIRE (R717): the leader of best rank issues the first RING_UPDATE; the others report their members to it. -/
def execRingGatherExpire (s : State) : Host.Outcome State Fault Refusal :=
  if !s.mayStep 8 ∨ s.net.leader ≠ s.dev.serial ∨ s.boot.ringGatherEnd = 0 then .next s
  else
    let s1 := (s.reach s.boot.ringGatherEnd).setBoot fun b => { b with ringGatherEnd := 0 }
    let s2 := s1.coordBy
    let ms := (s2.dev.serial :: s2.net.members).eraseDups
    if s2.net.coordinator = s2.dev.serial ∨ s2.net.coordinator = 0 then
      let seen := maxBy (fun (p : Peer) => if p.leader then p.ringSeen else 0) s2.net.peers
      let joins := ((ms ++ s2.boot.batch).eraseDups).filter fun n => s2.listed n
      .next ((s2.setBoot fun b => { b with batch := [] }).issueRing (1 + max seen s2.pdir.ringEpoch) joins [])
    else .next (s2.malSend 0x0041 s2.net.coordinator (memberBody s2.pdir.ringEpoch ms) 0)

/-- JOIN_BATCH_EXPIRE (R718). -/
def execJoinBatchExpire (s : State) : Host.Outcome State Fault Refusal :=
  if s.boot.batch.isEmpty ∨ s.net.coordinator ≠ s.dev.serial ∨ !s.stepDone 8 then .next s
  else
    let s1 := s.reach s.boot.batchEnd
    let joins := s1.boot.batch.filter fun n => s1.listed n
    .next ((s1.setBoot fun b => { b with batch := [] }).issueRing (s1.pdir.ringEpoch + 1) joins [])

/-- WARM_UP (R719, R720): the device's shards are loaded and its republication is acknowledged. -/
def execWarmUp (s : State) : Host.Outcome State Fault Refusal :=
  if !s.leadStep 9 ∨ !s.boot.republish.isEmpty ∨ (s.net.waits.any fun w => w.msg.typ == 0x0011) then .next s
  else .next ((s.endStep 9 stepOk).setService 3)

/-- SHARD_CHECKPOINT (R719): the entries of the device's own shards go into the journal. -/
def execShardCheckpoint (s : State) : Host.Outcome State Fault Refusal :=
  if !s.joined ∨ s.hw.stopped then .next s
  else
    let s1 := s.reach (s.boot.shardCkptT + s.g F.SHARD_CKPT * 1000000000)
    .next (s1.journalShards.setBoot fun b => { b with shardCkptT := s1.now })

end Sys2Proof.Machine
end

