-- ==== Sys2Proof/Machine/PartCmds.lean ====
section
/-! DEFINITION. The partition commands and events of chapter 10 that change partitions, geometries and accounts. -/

namespace Sys2Proof.Machine

/-- n free bytes. -/
def State.draw (s : State) (n : Nat) : Bytes × State :=
  ((List.range n).map fun i => Config.freeByte (s.free + i), { s with free := s.free + n })

/-- A slot the new descriptor takes from a partition holds a key (R403). -/
def State.keysLeft (s : State) (p : Nat) (d : PartDesc) : Bool :=
  s.sec.keys.any fun k =>
    (s.partition p).ownsKey k.num && k.st != .empty && !decide (d.keyFirst ≤ k.num ∧ k.num < d.keyFirst + d.keyCount)

/-- A T1 or flash quota of the new descriptor lies below the partition's use (R403). -/
def State.quotaShort (s : State) (p : Nat) (d : PartDesc) : Bool :=
  ((List.range 8).any fun k => decide (d.t1.getD k 0 * 2 ^ 30 < s.used p 1 k)) || decide (d.flashGib * 2 ^ 30 < s.used p 3 15)

/-- Result of PART_SET: cores held and total T1 quota in GiB (R405). -/
def PartDesc.result (d : PartDesc) : Nat := popCount 2560 d.cores + sumBy id d.t1 * 2 ^ 32

/-- The cores of a partition have changed: its runs not yet on a core are released anew. Without a lane no command and no run stays a lane
one (R403, R432). -/
def State.recore (s : State) (p : Nat) (lane : Bool) : State :=
  { s with
    part := { s.part with
      runs := upd (fun (r : Run) => r.part == p) (fun r => { r with lane := r.lane && lane, stage := if r.stage = 1 then 0 else r.stage })
        s.part.runs }
    q := { s.q with cmds := upd (fun (c : Cmd) => c.part == p) (fun c => { c with lane := c.lane && lane }) s.q.cmds } }

/-- The descriptor takes effect for command c (R400, R403, R428, R633, R634, R643). Resources taken away are scrubbed before the
command completes (R650). -/
def State.applyDesc (s : State) (c p : Nat) (d : PartDesc) (raw : Bytes) (lead : Nat) : State :=
  let me := s.partition p
  let fresh := me.st == .free
  let k1 := s.draw 32
  let k2 := k1.2.draw 32
  let base : Partition :=
    if fresh then { num := p, st := .active, nsKey := k1.1, mediaKey := k2.1, wrap := s.sec.fuses.state, winStart := s.now, rsvNow := d.rsv, weightNow := d.weight } else me
  let gone := me.desc.cores - (me.desc.cores &&& d.cores)
  let less := (List.range 8).map fun k => me.t1.getD k 0 - d.t1.getD k 0
  let shrinks := !fresh && (gone != 0 || less.any (· != 0) ||
    (List.range 80).any (fun cl => decide (d.t0.getD cl 0 < me.desc.t0.getD cl 0)))
  let s0 : State := if fresh then
      let mine : AcctKey → Bool := fun k => match k with | .group q _ => q == p | .part q => q == p | .idle q => q == p | .device => false
      { k2.2 with part := { k2.2.part with acct := del (fun e => mine e.1) k2.2.part.acct, activity := del (fun e => mine e.1) k2.2.part.activity } }
    else s
  let s1 := s0.setPart p fun _ => { base with
    desc := d, t1 := d.t1, descDigest := Blake.hash 32 [] raw, epochOk := true
    leaving := if shrinks then gone else 0
    leaveCmd := if shrinks then c else 0
    scrubGib := if shrinks then less else []
    scrubT := if shrinks then s.now else base.scrubT }
  let cutRuns := upd (fun (r : Run) => r.part == p && r.stage == 2 && bit gone r.core) (fun r => { r with cut := true }) s1.part.runs
  let s1a : State := { s1 with part := { s1.part with runs := cutRuns, setLead := lead, setBoot := s1.g F.BOOT_EPOCH } }
  let s2 := if d.cores = me.desc.cores ∧ d.lane = me.desc.lane then s1a else s1a.recore p (d.lane != 0)
  let s3 := ((s2.allotT0).tdiError fun t => t.fn == p + 1).journalEnd c
  if shrinks then s3 else s3.finish c St.ok d.result 0

/-- PART_SET (R400–R405, R432, R655). -/
def execPartSet (c : Nat) (s : State) : Host.Outcome State Fault Refusal :=
  match s.running c .partSet with
  | none => .next s
  | some x =>
    let p := x.f 0x18 1
    let earlier := s.q.cmds.any fun y => y.is .partSet && y.live && y.uid < c && y.f 0x18 1 == p
    let st := s.pst p
    let addr := x.f 0x20 8
    if s.sec.fuses.debug = .invasive then .next (s.fail c St.perm)
    else if earlier ∨ (s.partition p).leaveCmd ≠ 0 then .next s
    else match x.buffers [addr] with
      | none => .next s
      | some false => .next (s.fail c St.poison)
      | some true =>
        match x.buf addr 768 with
        | none => .next s
        | some b =>
          let d := parseDesc b
          if p ≥ 64 ∨ rd b 0 2 ≠ 0x0100 ∨ rd b 2 1 ≠ p ∨ !(st == .free || st == .active) ∨ s.descBad p d ∨ s.keysLeft p d then
            .next (s.fail c St.badCmd)
          else if st = .active ∧ s.quotaShort p d then .next (s.fail c St.noSpace)
          else match s.journalled c with
            | (s1, false) => .next s1
            | (s1, true) => .next (s1.applyDesc c p d b (x.f 0x3C 4))

/-- PART_CLEAR (R149, R400, R404, R408, R647): the partition's queues are reset and its commands end. -/
def execPartClear (c : Nat) (s : State) : Host.Outcome State Fault Refusal :=
  match s.running c .partClear with
  | none => .next s
  | some x =>
    let p := x.f 0x18 1
    let revoke := bit (x.f 0x19 1) 0
    let me := s.partition p
    if me.clearCmd = c then .next s
    else if p ≥ 64 ∨ !(me.st == .active || me.st == .switching || me.st == .faulted) then .next (s.fail c St.badCmd)
    else if s.foreignHolds p ∧ !revoke then .next (s.fail c St.perm)
    else match s.journalled c with
      | (s1, false) => .next s1
      | (s1, true) =>
        let s2 := if revoke then s1.revokeShared p else s1
        let s3 := s2.setPart p fun y => { y with st := .clearing, clearCmd := c, clearT := x.acceptT, next := none, switchCmd := 0 }
        -- the chapters give the GEOM_LOAD of an ended switch no status: a free value
        let s4 := if me.st == .switching then
            let k := s3.choose
            (k.2.fail me.switchCmd (k.1 % 256)).raise Ev.SWITCH_DONE p
          else s3
        let s5 := s4.tdiError fun t => t.fn == p + 1
        let s6 := (s5.queuesOf p).foldl (fun (a : State) q => a.resetQueue q.num) s5
        let s7 := (s6.sq.seqs.filter fun y => y.part == p && y.holder.isSome).foldl (fun (a : State) y => a.releaseLease p y.id) s6
        .next (s7.settle.journalEnd c)

/-- PARTITION_DRAINED (R400, R483, R482): the last command of a CLEARING partition has ended; its leases and extents end and its scrub
starts. -/
def execPartitionDrained (part : Nat) (s : State) : Host.Outcome State Fault Refusal :=
  if s.pst part = .clearing ∧ !(s.q.cmds.any fun x => x.part == part && x.live) ∧ !(s.part.runs.any fun r => r.part == part) then
    let s1 := (s.cxl.leases.filter fun l => l.part == part).foldl (fun (a : State) l => a.revokeLease l.num false) s
    let s2 := (s1.cxl.extents.filter fun e => e.part == part && e.st == .held).foldl (fun (a : State) e => a.releaseExtent e.idx) s1
    -- views formed over the partition's leaves since PART_CLEAR are truncated before the scrub too (R149)
    let s3 := if s2.foreignHolds part then s2.revokeShared part else s2
    .next ((s3.wipeContent part).setPart part fun y => { y with st := .scrubbing, scrubT := s.now })
  else .next s

/-- The time of a scrub in its register, saturating. -/
def State.scrubNs (s : State) (p start : Nat) : State :=
  (s.wp F.SCRUB_NS p (min (s.now - start) 0xFFFFFFFF)).raise Ev.SCRUB_DONE p

/-- SCRUB_DONE (R400, R403, R650, R652): every mechanism has completed. Of a SCRUBBING partition it returns the resources and
completes PART_CLEAR; of a PART_SET that took resources away it completes that command. -/
def execScrubDone (part : Nat) (s : State) : Host.Outcome State Fault Refusal :=
  let me := s.partition part
  if me.st = .scrubbing then
    let s1 := s.sweep
    let read := s1.tier.copies.any fun y => y.part == part && s1.pageBusy part y.serial
    if read || s1.cxl.leases.any (fun l => l.part == part) || s1.cxl.extents.any (fun e => e.part == part) then .next s1
    else
      let s2 : State := { s1 with
        sq := { s1.sq with leaves := del (fun l => l.part == part) s1.sq.leaves, pages := del (fun y => y.part == part) s1.sq.pages }
        tier := { s1.tier with copies := del (fun (y : Copy) => y.part == part) s1.tier.copies } }
      -- a PART_SET whose scrub this one covers is done too (R403)
      let s3 := if me.leaveCmd = 0 then s2 else s2.finish me.leaveCmd St.ok me.desc.result 0
      .next (((s3.wipeRest part).scrubNs part me.scrubT).finish me.clearCmd St.ok (s.now - me.clearT) 0)
  else if me.leaveCmd ≠ 0 ∧ !s.leavingRuns part then
    let s1 := s.setPart part fun y => { y with leaving := 0, leaveCmd := 0, scrubGib := [] }
    .next ((s1.scrubNs part me.scrubT).finish me.leaveCmd St.ok me.desc.result 0)
  else .next s

/-- GEOM_LOAD (R87, R332, R405, R406, R408, R642). -/
def execGeomLoad (c : Nat) (s : State) : Host.Outcome State Fault Refusal :=
  match s.running c .geomLoad with
  | none => .next s
  | some x =>
    let p := x.f 0x18 1
    let me := s.partition p
    let addr := x.f 0x20 8
    let len := x.f 0x28 4
    if me.st = .switching then .next s
    else if p ≥ 64 ∨ me.st ≠ .active ∨ len > 2 ^ 22 then .next (s.fail c St.badCmd)
    else match x.buffers [addr] with
      | none => .next s
      | some false => .next (s.fail c St.poison)
      | some true =>
        match x.bufAll addr with
        | none => .next s
        | some b =>
          let sealed_ := s.gp F.SEC_CTRL p == 1
          match (if sealed_ then s.openEnvelope p b len else .ok (b, 0)) with
          | .error st => .next (s.fail c st)
          | .ok (plain, slot) =>
            match parseGeom plain (if sealed_ then plain.length else len) with
            | none => .next (s.fail c St.badCmd)
            | some g =>
              if me.geom.any fun o => o.digest == g.digest then .next (s.finish c St.ok g.id 0)
              else match s.journalled c with
                | (s1, false) => .next s1
                | (s1, true) =>
                  let s2 := if sealed_ then s1.setCmd c fun y => { y with keys := [(slot, (s.keySlot slot).gen)] } else s1
                  .next ((s2.setPart p fun y => { y with st := .switching, next := some g, switchCmd := c, switchT := s.now }).journalEnd c)

/-- GEOM_SWITCH_APPLY (R406 steps 3 and 4, R407): the last started command has ended; the new tables are in force, no earlier than
40 µs after. -/
def execGeomSwitchApply (part : Nat) (s : State) : Host.Outcome State Fault Refusal :=
  let me := s.partition part
  -- commands started, and the leaves and blocks the partition's coding has begun (R355)
  let busy := (s.q.cmds.any fun x => x.part == part && x.st == .started && !(x.is .fence || x.is .cancel)) ||
    (s.sq.seals.any fun j => j.part == part && (j.step == 1 || s.coding j)) ||
    s.att.codecs.any fun k => k.queue.any (fun j => j.part == part) || k.lanes.any fun l => l.any fun j => j.part == part
  if me.st = .switching ∧ !busy then
    match me.next with
    | none => .next s
    | some g =>
      let s1 := (s.reach (me.switchT + 40000)).switchWipe part
      let ns := min (s1.now - me.switchT) 0xFFFFFFFF
      let s2 := s1.setPart part fun y => { y with st := .active, geom := some g, next := none, switchCmd := 0 }
      let s3 : State := { s2 with q := { s2.q with
        cmds := upd (fun (y : Cmd) => y.part == part && y.st == .waiting) (fun y => { y with held := true }) s2.q.cmds } }
      .next (((s3.wp F.SWITCH_NS part ns).raise Ev.SWITCH_DONE part).finish me.switchCmd St.ok g.id ns)
  else .next s

/-- SHARE_WINDOW_TICK (R403, R410, R411, R414, R432–R434): the window ends; `asked` gives the bytes the partition asked of each stack in it, of which
the division gives what it received. What the device's own traffic took is free, up to the 8/64 it keeps. The next window goes by the reserves,
the weight and the shares written. The division is over a whole window, not by requests of 4 KiB (DESIGN CHOICE, assumption 80). -/
def execShareWindowTick (part : Nat) (asked : List Nat) (s : State) : Host.Outcome State Fault Refusal :=
  if part ≥ 64 ∨ s.partFree part = true then .next s else
  let ns := s.g F.SHARE_WINDOW * 1000
  let s1 := (s.reach ((s.partition part).winStart + ns)).setPart part fun y => { y with asked := asked.take 8 }
  let me := s1.partition part
  let decode := s1.winSteps part 0
  let chunk := s1.winSteps part 1
  let pm := if decode + chunk = 0 then 0 else chunk * 1000 / (decode + chunk)
  let own := fun (d : Nat) => Config.freeChoice (s1.free + d) % (s1.windowBytes 8 + 1)
  let got := (List.range 8).map fun d => s1.received part d (own d)
  let allot := (List.range 8).map fun d => s1.allotment part d (own d)
  let far := s1.farRead part
  let rate := fun (new old kept : Nat) => if new = old then kept else (new - old) * 1000 / ns
  let share := fun (g : Group) => { g with got := got.zipIdx.map fun (e : Nat × Nat) => s1.stackShare part g.num e.2 e.1 }
  let s2 : State := { s1 with
    free := s1.free + 8
    part := { s1.part with groups := upd (fun g => g.part == part) share s1.part.groups } }
  let s3 := (s2.setPart part fun y => { y with
    winStart := s1.now, rsvNow := me.desc.rsv, weightNow := me.desc.weight, sharesNow := [], got := got, allot := allot, rdSeen := far
    rdRate := (rate far.1 me.rdSeen.1 me.rdRate.1, rate far.2 me.rdSeen.2 me.rdRate.2) }).wp F.MIX_ACTUAL part pm
  let short := (List.range 8).any fun d => decide (got.getD d 0 + 8192 < s1.reserveBytes part d)
  .next (if bit me.desc.flags 1 && short then s3.raise Ev.RESERVE_SHORT part else s3)

/-! ### Energy (R428, R431) -/

/-- Energy of an activity list under the coefficients in force, in units of 2^-32 µJ, and what the last sum left (DESIGN CHOICE of the unit,
assumption 80). -/
def State.activityEnergy (s : State) (l : List Nat) : Nat :=
  sumBy (fun i => s.reg F.ENERGY_COEF 0 255 0 i * l.getD i 0) (List.range 9) + l.getD 9 0

/-- The dynamic energy of a record since it was last summed is charged to it (R431): Σ c_k × n_k. -/
def State.sumEnergy (s : State) (k : AcctKey) : State :=
  match alGet k s.part.activity with
  | none => s
  | some l =>
    let e := s.activityEnergy l
    let s1 : State := { s with part := { s.part with
      activity := alSet k (List.replicate 9 0 ++ [e % 2 ^ 32]) s.part.activity, dynUj := s.part.dynUj + e / 2 ^ 32 } }
    match k with
    | .group p g => (s1.charge1 (.group p g) .energy (e / 2 ^ 32)).charge1 (.part p) .energy (e / 2 ^ 32)
    | _ => s1.charge1 k .energy (e / 2 ^ 32)

/-- The energy of every record is summed. -/
def State.sumEnergies (s : State) : State := (s.part.activity.map (·.1)).foldl (fun (a : State) k => a.sumEnergy k) s

/-- Energy measured on the rails since the last fit, µJ (R58): the rails' last readings, mV × mA, over the time. -/
def State.railEnergy (s : State) : Nat :=
  sumBy (fun (e : Meas × Nat) => (if e.2 < 10 then (s.rail e.2).mv else e.1.value.toNat) * e.1.amps) s.hw.meas.zipIdx * (s.now - s.part.calT) / 10 ^ 9

/-- Static and idle energy of the period, µJ: what the rails measured beyond the dynamic energy. It goes to the partitions' idle records by the
cores and the T1 GiB they hold, each counted alike, and for what no partition holds to the device record (R431). -/
def State.chargeIdle (s : State) : State :=
  let idle := s.railEnergy - s.part.dynUj
  let cores := max 1 ((List.range 2560).filter s.coreOk).length
  let gib := max 1 (sumBy (fun d => (s.stack d).capGib) (List.range 8))
  let of_ := fun (p : Partition) => idle * ((s.coresOf p.num).length * gib + p.t1.sum * cores) / (2 * cores * gib)
  let ps := s.part.parts.filter (·.live)
  let s1 := ps.foldl (fun (a : State) p => a.charge1 (.idle p.num) .energy (of_ p)) s
  { s1.charge1 .device .energy (idle - sumBy of_ ps) with part := { (s1.charge1 .device .energy (idle - sumBy of_ ps)).part with calT := s.now, dynUj := 0 } }

/-- ACCT_LATCH (R431, R435): the counters of the record an agent's ACCT_SEL names, in one step. -/
def execAcctLatch (a : Agent) (s : State) : Host.Outcome State Fault Refusal :=
  let n := agentNo a
  let vf := match a with | .vf _ _ => true | _ => false
  let p := match a with | .vf _ q => q | _ => s.reg F.ACCT_PSEL 0 255 n 0
  let g := s.reg F.ACCT_SEL_QGROUP 0 255 n 0
  if s.partFree p then .next s else
  let k := match s.reg F.ACCT_SEL_KIND 0 255 n 0 with
    | 0 => AcctKey.group p g
    | 1 => AcctKey.part p
    | 2 => AcctKey.idle p
    | _ => AcctKey.device
  let s0 := s.sumEnergies
  let rec_ := if vf && k == .device then [] else alGetD k [] s0.part.acct
  let s1 := (List.range 21).foldl (fun (b : State) i => b.setReg F.Counters 0 p 0 i (rec_.getD i 0)) s0
  .next (s1.setReg F.LATCH_TIME 0 p 0 0 s.now)

/-- ENERGY_CALIBRATE (R431, R436): CAL_S after the last fit, the coefficients of a new one and its residual per mille. The energy up to now is
charged by the coefficients in force. How the fit is made the spec does not say: its coefficients come with the command. -/
def execEnergyCalibrate (coeffs : List Nat) (err : Nat) (s : State) : Host.Outcome State Fault Refusal :=
  let s0 := (s.reach (s.part.calT + max 1 (s.g F.ACCT_CTRL) * 10 ^ 9)).sumEnergies.chargeIdle
  let s1 := (List.range 16).foldl (fun (b : State) i => b.wi F.ENERGY_COEF i (coeffs.getD i 0)) s0
  let e := min err 1023
  let s2 := (s1.w F.CAL_ERR e).raise Ev.CAL_DONE
  .next (if e > 50 then s2.raise Ev.CAL_DRIFT else s2)

/-- PART_FAULT_FORCE (R661): reason 3, a forced fault. -/
def execPartFaultForce (part : Nat) (s : State) : Host.Outcome State Fault Refusal := .next (s.partFault part 3)

end Sys2Proof.Machine
end

