-- ==== Sys2Proof/Machine/PolMach.lean ====
section
/-! DEFINITION. The machine of a policy sequencer (R729–R731, R746): instruction words, their operations and checks, without the
primitives. -/

namespace Sys2Proof.Machine

/-! ### Fields of an instruction (R730) -/

def polOp (w : Nat) : Nat := bits w 7 0
def polRd (w : Nat) : Nat := bits w 12 8
def polRa (w : Nat) : Nat := bits w 17 13
def polRb (w : Nat) : Nat := bits w 22 18
def polImm14 (w : Nat) : Int := signed 14 (bits w 31 18)
def polImm19 (w : Nat) : Int := signed 19 (bits w 31 13)

/-- Forms of R730. -/
inductive PolForm where
  | a | i | b | w
  deriving DecidableEq, Repr

/-- The form and the steps of an opcode; none where it is illegal (R731). -/
def polKind (o : Nat) : Option (PolForm × Nat) :=
  if o = 0x03 then some (.a, 4) else if o = 0x04 then some (.a, 24)
  else if 0x01 ≤ o ∧ o ≤ 0x0E then some (.a, 2)
  else if o = 0x16 ∨ o = 0x17 then some (.i, 3)
  else if 0x10 ≤ o ∧ o ≤ 0x18 then some (.i, 2)
  else if o = 0x20 ∨ o = 0x22 then some (.w, 2) else if o = 0x21 then some (.w, 3)
  else if 0x30 ≤ o ∧ o ≤ 0x35 then some (.a, 4)
  else if 0x40 ≤ o ∧ o ≤ 0x46 then some (.b, 2)
  else if o = 0x50 then some (.w, 16) else if o = 0x51 then some (.a, 2)
  else none

/-- Branch target of the instruction at pc. -/
def polTarget (pc w : Nat) : Int := (pc : Int) + 1 + polImm14 w

/-! ### Operations -/

def m64 : Nat := 2 ^ 64

/-- FP32 truncated to a signed 64-bit integer: NaN gives 0, out of range saturates. -/
def fpToInt (v : Nat) : Int :=
  match Fp.toFv v with
  | .nan => 0
  | .inf n => if n then -(2 ^ 63 : Int) else 2 ^ 63 - 1
  | .fin n m e =>
    let k : Nat := if e ≥ 0 then m * 2 ^ e.toNat else m / 2 ^ (-e).toNat
    if n then max (-(2 ^ 63 : Int)) (-(k : Int)) else min (2 ^ 63 - 1) (k : Int)

/-- A-form result from ra and rb. -/
def polA (o a b : Nat) : Nat :=
  let sa := signed 64 a
  let sb := signed 64 b
  let fa := a % 2 ^ 32
  let fb := b % 2 ^ 32
  match o with
  | 0x01 => (a + b) % m64
  | 0x02 => (a + m64 - b) % m64
  | 0x03 => a * b % m64
  | 0x04 => if b = 0 then 0 else a / b
  | 0x05 => a &&& b
  | 0x06 => a ||| b
  | 0x07 => a ^^^ b
  | 0x08 => a * 2 ^ (b % 64) % m64
  | 0x09 => a / 2 ^ (b % 64)
  | 0x0A => unsigned 64 (sa / (2 ^ (b % 64) : Int))
  | 0x0B => if sa ≤ sb then a else b
  | 0x0C => if sa ≥ sb then a else b
  | 0x0D => if sa < sb then 1 else 0
  | 0x0E => if a < b then 1 else 0
  | 0x30 => Fp.add fa fb
  | 0x31 => Fp.sub fa fb
  | 0x32 => Fp.mul fa fb
  | 0x33 => if Fp.lt fa fb then 1 else 0
  | 0x34 => Fp.ofInt sa
  | _ => unsigned 64 (fpToInt fa)

/-- I-form result from ra and the immediate; LDM and STM are not among them. -/
def polI (o a : Nat) (imm : Int) : Nat :=
  let u := unsigned 64 imm
  let sh := u % 64
  match o with
  | 0x10 => (a + u) % m64
  | 0x11 => a &&& u
  | 0x12 => a ||| u
  | 0x13 => a ^^^ u
  | 0x14 => a * 2 ^ sh % m64
  | 0x15 => a / 2 ^ sh
  | _ => a / 2 ^ sh % 2 ^ (u / 64 % 64 + 1)

/-- The branch is taken. -/
def polTaken (o a b : Nat) : Bool :=
  match o with
  | 0x40 => a == b
  | 0x41 => a != b
  | 0x42 => decide (signed 64 a < signed 64 b)
  | 0x43 => decide (signed 64 b ≤ signed 64 a)
  | 0x44 => decide (a < b)
  | 0x45 => decide (b ≤ a)
  | _ => true

/-! ### Registers and steps -/

/-- g0 reads as zero (R729). -/
def PolInst.g (x : PolInst) (r : Nat) : Nat := if r = 0 then 0 else x.regs.getD r 0

/-- Writes to g0 are ignored (R729). -/
def PolInst.set (x : PolInst) (r v : Nat) : PolInst := if r = 0 then x else { x with regs := x.regs.set r (v % m64) }

/-- Its own time on a die of a pace (1/16 step per µs). -/
def PolInst.time (x : PolInst) (pace : Nat) : Nat := x.base + x.steps * 16000 / max 1 pace

/-- What one instruction asks for: to go on, the primitive k, the end with results, the fallback action of a fault (R732), or nothing
more, where the program counter has left the code. -/
inductive PolStep where
  | on (x : PolInst) (data : List Nat)
  | call (k : Nat) (x : PolInst)
  | fin (ra rb : Nat) (x : PolInst)
  | fault (x : PolInst)
  | stuck
  deriving DecidableEq, Repr

/-- One instruction (R731, R732): `data` is its segment, `budget` its units, `now` DEV_TIME as TIME reads it. -/
def PolInst.step1 (x : PolInst) (data : List Nat) (budget now : Nat) : PolStep :=
  match x.prog.code[x.pc]? with
  | none => .stuck
  | some w =>
    let o := polOp w
    let cost := if o = 0x50 then 8 else 1
    match polKind o with
    | none => .stuck
    | some (form, steps) =>
      if x.units + cost > budget then .fault x
      else
        let y := { x with units := x.units + cost, steps := x.steps + steps, pc := x.pc + 1 }
        match form with
        | .a =>
          if o = 0x51 then .fin (x.g (polRa w)) (x.g (polRb w)) y
          else .on (y.set (polRd w) (polA o (x.g (polRa w)) (x.g (polRb w)))) data
        | .i =>
          let at_ := (x.g (polRa w) + unsigned 64 (polImm14 w)) % m64
          if o = 0x16 then
            if at_ < x.prog.dataWords then .on (y.set (polRd w) (data.getD at_ 0)) data else .fault y
          else if o = 0x17 then
            if at_ < x.prog.dataWords then .on y (data.set at_ (x.g (polRd w))) else .fault y
          else .on (y.set (polRd w) (polI o (x.g (polRa w)) (polImm14 w))) data
        | .b =>
          .on (if polTaken o (x.g (polRd w)) (x.g (polRa w)) then { y with pc := (polTarget x.pc w).toNat } else y) data
        | .w =>
          if o = 0x50 then .call (polImm19 w).toNat y
          else if o = 0x20 then .on (y.set (polRd w) (unsigned 64 (polImm19 w))) data
          else if o = 0x21 then .on (y.set (polRd w) (x.prog.consts.getD (polImm19 w).toNat 0)) data
          else .on (y.set (polRd w) now) data

/-! ### Images (R744, R746) -/

/-- An image of format 1.x (R744): none where a field, the length or the digest is wrong. `blake` computes the digest. -/
def parseProgram (b : Bytes) (blake : Bytes → Bytes) (part hook load : Nat) : Option Program :=
  let n := b.length
  let code := rd b 0x08 2
  let consts := rd b 0x0A 2
  let data := rd b 0x0C 2
  let init := rd b 0x0E 2
  let digest := slice b 0x20 32
  if n < 0x40 ∨ b.take 4 ≠ [0x4C, 0x50, 0x50, 0x31] ∨ rd b 4 2 ≠ 0x0100 ∨ rd b 0x14 4 ≠ n ∨ n ≠ 0x40 + 4 * code + 8 * consts + 8 * init then none
  else if code = 0 ∨ code > 4096 ∨ consts > 256 ∨ data > 2048 ∨ init > data ∨ rd b 6 1 ≠ hook ∨ hook > 8 then none
  else if blake (b.take 0x20 ++ List.replicate 32 0 ++ b.drop 0x40) ≠ digest then none
  else
    some { part := part, hook := hook
           code := (List.range code).map fun i => rd b (0x40 + 4 * i) 4
           consts := (List.range consts).map fun i => rd b (0x40 + 4 * code + 8 * i) 8
           dataWords := data
           init := (List.range init).map fun i => rd b (0x40 + 4 * code + 8 * consts + 8 * i) 8
           budget := rd b 0x10 2, primMask := rd b 0x12 2, digest := digest, load := load }

/-- The instruction at pc is one R746 accepts in the program. -/
def Program.accepts (g : Program) (pc w : Nat) : Bool :=
  let o := polOp w
  match polKind o with
  | none => false
  | some (.a, _) => bits w 31 23 == 0
  | some (.i, _) => true
  | some (.b, _) => decide (0 ≤ polTarget pc w ∧ polTarget pc w < (g.code.length : Int))
  | some (.w, _) =>
    let k := polImm19 w
    if o = 0x21 then decide (0 ≤ k ∧ k < (g.consts.length : Int))
    else if o = 0x50 then
      decide (0 ≤ k ∧ k < 12) && bit g.primMask k.toNat && (k != 11 || g.part == 64) && (k != 3 || g.hook == 0) && (k != 7 || g.hook == 3)
    else true

end Sys2Proof.Machine
end

