-- ==== Sys2Proof/Machine/SchedCmds.lean ====
section
/-! DEFINITION. The scheduler front and the dispatchers (R269–R272, R413–R427): release, dispatch and stealing of runs, pre-emption, the
deadline monitor, the reserved-core lane. -/

namespace Sys2Proof.Machine

/-! ### Release (R413–R415, R425) -/

def Run.waits (r : Run) : Bool := r.stage != 2

/-- The source of a run's tiles can be read without a fetch (R205); staging, for seal tiles. -/
def State.runReady (s : State) (r : Run) : Bool :=
  match s.attn r.cmd with
  | none => r.leaf.isSome
  | some a =>
    let ts := (a.items[r.item]?.map (·.tiles)).getD []
    match ts[if a.kind = 4 then 0 else r.first]? with
    | some t => t.2.2 == 0 || s.pageReady (hPart t.2.2) (hSerial t.2.2 + a.layer)
    | none => false

/-- The home a run has now: that of the copy a demand fetch brought, when it had none. -/
def State.runHome (s : State) (r : Run) : Nat :=
  match s.attn r.cmd with
  | none => r.home
  | some a =>
    match ((a.items[r.item]?).bind fun it => it.tiles[if a.kind = 4 then 0 else r.first]?), a.items[r.item]? with
    | some t, some it => s.homeOf a it.seq t.2.2
    | _, _ => r.home

def State.laneCore (s : State) (p c : Nat) : Bool := bit (s.partition p).desc.lane c

/-- Cores a run may use on a die: lane cores for a run of a lane command (R425). -/
def State.coresFor (s : State) (p d : Nat) (lane : Bool) : Nat :=
  ((s.coresOf p).filter fun c => c / 320 == d && (!lane || s.laneCore p c)).length

/-- A partition whose runs stay on the die of their copy (R427). -/
def State.isolated (s : State) (p : Nat) : Bool := bit (s.partition p).desc.flags 1

/-- Die that work homed on a die is released to (R270, R425, R427): its home where the partition has cores for it there, or is isolated, else the
die with most of them. -/
def State.dieOn (s : State) (p home : Nat) (lane : Bool) : Nat :=
  if s.isolated p || s.coresFor p home lane != 0 then home
  else (argMin (fun (d : Nat) => -((s.coresFor p d lane : Nat) : Int)) (List.range 8)).getD home

/-- Die a run is released to. -/
def State.dieFor (s : State) (r : Run) : Nat := s.dieOn r.part (s.runHome r) r.lane

/-- Fewer than RELEASE_AHEAD runs per core are released and not started on the run's die (R415). -/
def State.aheadRoom (s : State) (r : Run) : Bool :=
  let d := s.dieFor r
  let out := (s.part.runs.filter fun y => y.part == r.part && y.stage == 1 && y.die == d).length
  decide (out < s.g F.RELEASE_AHEAD * s.coresOn r.part d)

/-- The class that releases next (R414): 1 chunk, 0 decode, when both have runs waiting; a tie goes to decode. -/
def State.nextClass (s : State) (p : Nat) : Nat :=
  let decode : Int := s.winSteps p 0
  let chunk : Int := s.winSteps p 1
  let all := decode + chunk
  let pm : Int := s.gp F.SCHED_CTRL_MIX_PM p
  let share := fun (w t : Int) => if all = 0 then t else t * all - 1000 * w
  if share chunk pm > share decode (1000 - pm) then 1 else 0

/-- The command of a group that releases next (R415, R417): a killed one first, then the highest PRIO_CLASS, then the earliest. -/
def State.cmdOrder (s : State) (c : Nat) : Int :=
  match s.cmd c with
  | some x => (x.uid : Int) - ((if x.kills ≠ 0 then 16 else 0) + x.prio : Nat) * 2 ^ 64
  | none => 0

/-- The run of a set that goes first within its group (R415). -/
def State.firstRun (s : State) (rs : List Run) : Option Run :=
  match argMin (fun (r : Run) => s.cmdOrder r.cmd) rs with
  | none => none
  | some r => argMin (fun (y : Run) => ((y.item * 2 ^ 32 + y.first : Nat) : Int)) (rs.filter fun y => y.cmd == r.cmd)

def State.vtOf (s : State) (p g : Nat) : Nat := ((s.part.groups.find? fun x => x.part == p && x.num == g).map (·.vt)).getD 0

/-- The next run a partition releases, and whether it is of a best-effort group: seal tiles first (R413), then lane commands (R425), then the class
and group of R414 and R415. -/
def State.nextRelease (s : State) (p : Nat) : Option (Run × Bool) :=
  let can := s.part.runs.filter fun r =>
    r.part == p && r.stage == 0 && s.runReady r && s.aheadRoom r && (match s.cmd r.cmd with | some x => (s.attnStop x).isNone | none => r.leaf.isSome)
  let lanes := can.filter (·.lane)
  match can.find? (·.leaf.isSome) with
  | some r => some (r, false)
  | none =>
  if !lanes.isEmpty then
    let dl := fun (r : Run) => match s.cmd r.cmd with | some x => x.deadline | none => 0
    match argMin (fun (r : Run) => (((dl r) * 2 ^ 64 + r.cmd : Nat) : Int)) lanes with
    | some r => (s.firstRun (lanes.filter fun y => y.cmd == r.cmd)).map fun y => (y, false)
    | none => none
  else
    let both := can.any (fun r => r.cls == 0) && can.any fun r => r.cls == 1
    let cls := if both then can.filter fun r => r.cls == s.nextClass p else can
    let shared := cls.filter fun r => s.shareOf p r.qg != 0
    if !shared.isEmpty then
      match argMin (fun (r : Run) => ((s.vtOf p r.qg * 2 ^ 16 + r.qg : Nat) : Int)) shared with
      | some r => (s.firstRun (shared.filter fun y => y.qg == r.qg)).map fun y => (y, false)
      | none => none
    else
      let last := (s.partition p).rrBest
      match argMin (fun (r : Run) => (((if r.qg > last then r.qg else r.qg + 2 ^ 16) : Nat) : Int)) cls with
      | some r => (s.firstRun (cls.filter fun y => y.qg == r.qg)).map fun y => (y, true)
      | none => none

def State.setRun (s : State) (id : Nat) (f : Run → Run) : State :=
  { s with part := { s.part with runs := upd (fun r => r.id == id) f s.part.runs } }

/-- A core is free to take a run (R271, R276, R403): it holds none and no partial, and is not being taken from its partition. -/
def State.coreFree (s : State) (p c : Nat) : Bool :=
  !(s.part.runs.any fun r => r.stage == 2 && r.core == c) && !(s.att.helds.any fun h => h.place == 2 && h.core == c) &&
  !bit (s.partition p).leaving c

/-- A lane run finds its cores lent: the youngest ordinary run on a lane core of the die ends after its tile (R425, R418). -/
def State.reclaimLane (s : State) (p d : Nat) : State :=
  let lane := (s.coresOf p).filter fun c => c / 320 == d && s.laneCore p c
  if lane.any (s.coreFree p) then s
  else
    let lent := s.part.runs.filter fun r => r.stage == 2 && !r.lane && r.cls != 2 && !r.cut && lane.contains r.core
    match argMin (fun (r : Run) => -((r.relNo : Nat) : Int)) lent with
    | some r => ((s.setRun r.id fun y => { y with cut := true }).bumpP F.PREEMPT_CUTS p).raise Ev.PREEMPT p
    | none => s

/-- RUN_RELEASE (R270, R413–R415, R425). -/
def execRunRelease (part : Nat) (s : State) : Host.Outcome State Fault Refusal :=
  match (if s.paused 0x0F 0 then none else s.nextRelease part) with
  | none => .next s
  | some (r, best) =>
    let home := s.runHome r
    let d := s.dieFor r
    let s1 := s.setRun r.id fun y => { y with stage := 1, home := home, die := d, releasedT := s.now, relNo := 1 + maxBy (·.relNo) s.part.runs }
    let s2 := s1.setCmd r.cmd fun x => { x with released := true }
    let s3 := if best then s2.setPart part fun y => { y with rrBest := r.qg } else s2
    let s4 := if d = home then s3 else s3.bumpP F.REMOTE_RUNS part
    .next (if r.lane then s4.reclaimLane part d else s4)

/-! ### Dispatch (R271, R272) -/

/-- The copy a core on die d streams (R22, R34): the T0 copy there, else the fastest of the T0 and T1 copies. -/
def State.streamed (s : State) (p serial d : Nat) : Option (Nat × Nat × Nat × Nat) :=
  let cs := (s.copiesOf p serial).filter fun c => c.tier ≤ 1 && c.good
  let best := match cs.find? fun c => c.tier == 0 && c.die == d with
    | some c => some c
    | none => argMin (fun (c : Copy) => if c.tier = 1 then (0 : Int) else 1) cs
  best.map fun c => (p, serial, c.tier, c.die)

/-- The page a run reads; none over staging. -/
def State.runPage (s : State) (r : Run) : Option (Nat × Nat) :=
  (s.attn r.cmd).bind fun a =>
    (((a.items[r.item]?).bind fun it => it.tiles[if a.kind = 4 then 0 else r.first]?)).bind fun t =>
      if t.2.2 = 0 then none else some (hPart t.2.2, hSerial t.2.2 + a.layer)

/-- A core of die d can take the run: its source needs no fetch (R205), and a remote read has a path to it (R24). -/
def State.runnable (s : State) (r : Run) (d : Nat) : Bool :=
  s.runReady r && s.diesJoined (((s.runPage r).bind fun k => s.streamed k.1 k.2 d).elim r.home fun c => c.2.2.2) d

/-- The run released first (R271). -/
def oldestRun (l : List Run) : Option Run := argMin (fun (r : Run) => ((r.relNo : Nat) : Int)) l

/-- The run a free core of a die takes: the oldest released that it may run (R271, R425). -/
def State.runFor (s : State) (p d c : Nat) : Option Run :=
  let queue := s.part.runs.filter fun r => r.part == p && r.stage == 1 && r.die == d && s.runnable r d
  let plain := oldestRun (queue.filter fun r => !r.lane)
  if s.laneCore p c then
    match oldestRun (queue.filter (·.lane)) with
    | some r => some r
    | none =>
      let wanted := s.part.runs.any fun r => r.part == p && r.lane && r.waits
      if wanted || s.gp F.SCHED_CTRL_LANE_LEND p == 0 then none else plain
  else plain

/-- Runs released and not started on a die. -/
def State.queuedOn (s : State) (p d : Nat) : List Run := s.part.runs.filter fun r => r.part == p && r.stage == 1 && r.die == d && !r.lane

/-- The run a die with an empty queue steals (R272, R427). Of two dies with the same highest number of queued runs per core it steals from the
lower-numbered one, of which the spec says nothing (DESIGN CHOICE, assumption 77). -/
def State.stealable (s : State) (p d : Nat) : Option Run :=
  if s.gp F.ATT_CTRL_STEAL_EN p = 0 ∨ s.isolated p ∨
    (s.part.runs.any fun r => r.part == p && r.stage == 1 && r.die == d) then none
  else
    let dies := (List.range 8).filter fun e => s.coresOn p e != 0 && !(s.queuedOn p e).isEmpty
    let more := fun (e f : Nat) => decide ((s.queuedOn p e).length * s.coresOn p f > (s.queuedOn p f).length * s.coresOn p e)
    match dies.foldl (fun (b : Option Nat) e => match b with | none => some e | some f => if more e f then some e else some f) none with
    | none => none
    | some e =>
      if (s.queuedOn p e).length > s.g F.STEAL_RATIO * s.coresOn p e then
        oldestRun ((s.queuedOn p e).filter fun r => s.runnable r d)
      else none

/-- A run starts on a core, with a read reference on the copy it streams (R34), and a flow for a remote read (R24, R29). A tile that reads a T1 copy is told to the PROMOTE hook
(R738). -/
def State.startRun (s : State) (r : Run) (d c : Nat) (stolen : Bool) : State :=
  let src := (s.runPage r).bind fun k => s.streamed k.1 k.2 d
  let s1 := s.setRun r.id fun y => { y with stage := 2, die := d, core := c, startT := s.now, cut := false, src := src }
  let from_ := match src with | some c => c.2.2.2 | none => r.home
  let s0 := if stolen then (s1.bumpU F.RUNS_STOLEN d).bumpP F.REMOTE_RUNS r.part else s1
  let s2 := if r.leaf.isSome then s0 else s0.openFlow r.cmd 0 from_ d
  match s2.runPage r with
  | some k => s2.promote k.1 k.2 d
  | none => s2

/-- RUN_DISPATCH (R271, R272). -/
def execRunDispatch (die part : Nat) (s : State) : Host.Outcome State Fault Refusal :=
  let free := (s.coresOf part).filter fun c => c / 320 == die && s.coreFree part c && !s.paused 0x0C (die + 1)
  let own := free.findSome? fun c => (s.runFor part die c).map fun r => (c, r)
  match own with
  | some (c, r) => .next (s.startRun r die c false)
  | none =>
    let wanted := s.part.runs.any fun r => r.part == part && r.lane && r.waits
    match free.find? fun c => !s.laneCore part c || !wanted && s.gp F.SCHED_CTRL_LANE_LEND part == 1, s.stealable part die with
    | some c, some r => .next (s.startRun r die c true)
    | _, _ => .next s

/-! ### Pre-emption (R416–R418) -/

/-- Cores of a class that a group holds in a partition. -/
def State.groupCores (s : State) (p cls g : Nat) : Nat :=
  (s.part.runs.filter fun r => r.part == p && r.stage == 2 && r.cls == cls && r.qg == g && !r.lane).length

/-- Groups with runs of a class on cores or waiting. -/
def State.classGroups (s : State) (p cls : Nat) (waiting : Bool) : List Nat :=
  ((s.part.runs.filter fun r => r.part == p && r.cls == cls && !r.lane && (!waiting || r.waits)).map (·.qg)).eraseDups

/-- A group's entitlement in a class, as a fraction (numerator, denominator) of cores (R416). -/
def State.entitled (s : State) (p cls g : Nat) : Nat × Nat :=
  let sum := sumBy (fun n => s.shareOf p n) (s.classGroups p cls true)
  let held := sumBy (s.groupCores p cls) (s.classGroups p cls false)
  (s.shareOf p g * held, max 1 sum)

def State.underShare (s : State) (p cls g freed : Nat) : Bool :=
  let e := s.entitled p cls g
  decide ((s.groupCores p cls g + freed) * e.2 < e.1)

def State.overShare (s : State) (p cls g taken : Nat) : Bool :=
  let e := s.entitled p cls g
  decide ((s.groupCores p cls g - taken) * e.2 > e.1)

/-- A command killed starts again from its snapshot (R277, R310, R417): its partials are discarded, its runs are made anew. That its first run has
been released stays so (R423). -/
def State.killCmd (s : State) (c : Nat) : State :=
  match s.cmd c, s.attn c, s.geom (((s.cmd c).map (·.part)).getD 0) with
  | some x, some a, some g =>
    let fin := a.finals.filter fun f => match a.items[f.1]? with | some it => it.tiles.isEmpty | none => false
    let a1 := { a with finals := fin, stats := [], cols := [], tiles := 0 }
    let s0 := (s.part.runs.filter fun r => r.cmd == c && r.stage == 2).foldl (fun (b : State) r => b.chargeKilled x a g r) s
    let s1 : State := { s0 with
      part := { s0.part with runs := del (fun r => r.cmd == c) s0.part.runs }
      att := { s0.att with helds := del (fun h => h.cmd == c) s0.att.helds } }
    let s2 := (s1.setAttn c fun _ => a1).setCmd c fun y => { y with kills := y.kills + 1 }
    ((s2.makeRuns x a1 g).bumpP F.PREEMPT_KILLS x.part).raise Ev.PREEMPT x.part
  | _, _, _ => s

/-- Victims of a pre-emption for group g: whole commands, or single runs, of the groups above their entitlement, youngest release first,
until g reaches its entitlement or no group is above its own. Answers commands or runs. `fuel` bounds them. -/
def State.victims (s : State) (p cls g : Nat) (whole : Bool) : Nat → List Run → List Nat
  | 0, _ => []
  | fuel + 1, taken =>
    let lost := fun (n : Nat) => (taken.filter fun r => r.qg == n).length
    if !s.underShare p cls g taken.length then []
    else
      let kills := fun (c : Nat) => ((s.cmd c).map (·.kills)).getD 0
      let cands := s.part.runs.filter fun r =>
        r.part == p && r.stage == 2 && r.cls == cls && !r.lane && !r.cut && r.qg != g && !taken.contains r && s.overShare p cls r.qg (lost r.qg) &&
        (!whole || kills r.cmd < s.g F.KILL_MAX)
      match argMin (fun (r : Run) => -((r.relNo : Nat) : Int)) cands with
      | none => []
      | some r =>
        if whole then
          r.cmd :: s.victims p cls g whole fuel (taken ++ s.part.runs.filter fun y => y.cmd == r.cmd && y.stage == 2)
        else r.id :: s.victims p cls g whole fuel (taken ++ [r])

/-- PREEMPT_WAIT_EXPIRE (R416–R419). -/
def execPreemptWaitExpire (run : Nat) (s : State) : Host.Outcome State Fault Refusal :=
  match s.part.runs.find? fun r => r.id == run && r.stage == 1 with
  | none => .next s
  | some r =>
    let p := r.part
    let s1 := s.reach (r.releasedT + s.gp F.PREEMPT_WAIT p * 1000)
    if s1.gp F.SCHED_CTRL_PREEMPT_EN p = 0 ∨ r.lane ∨ r.leaf.isSome ∨ s1.shareOf p r.qg = 0 then .next s1
    else
      let whole := decide ((s1.coresOf p).length ≤ 64)
      let vs := s1.victims p r.cls r.qg whole s1.part.runs.length []
      .next (vs.foldl (fun (b : State) v =>
        if whole then b.killCmd v
        else ((b.setRun v fun y => { y with cut := true }).bumpP F.PREEMPT_CUTS p).raise Ev.PREEMPT p) s1)

/-! ### The deadline monitor (R420–R426) -/

/-- Tiles of a planned command: home die, die they run on, steps, bytes they read (stored bytes of pages, staging bytes at the measured ratio),
expander steps at the layer's mean decode steps (R262, R264, R308, R351). -/
def State.tileLoads (s : State) (x : Cmd) (a : Attn) (g : Geom) (lane : Bool) : List (Nat × Nat × Nat × Nat × Nat) :=
  let m := s.ratioOf a.part a.layer
  a.items.flatMap fun it => it.tiles.map fun t =>
    let h := s.homeOf a it.seq t.2.2
    let d := s.dieOn a.part h lane
    let image := t.2.1 * g.streamBytes a.layer
    let bytes := if t.2.2 = 0 then image * m.ratio.2 / max 1 m.ratio.1
      else match s.page (hPart t.2.2) (hSerial t.2.2 + a.layer) with
        | some pg => pg.stored * t.2.1 / (orderT pg.order * max 1 g.kvHeads)
        | none => 0
    let w := bwdTiles g a.layer it
    let steps := if a.kind = 4 then sumBy (bwdSteps g a.layer it (x.f 0x1E 1)) (List.range (w.1 + w.2.1 + w.2.2))
      else g.tileSteps a.layer it.rows t.2.1
    (h, d, steps, bytes, if t.2.2 = 0 then 0 else image * m.steps.1 / (4096 * max 1 m.steps.2))

/-- Cores of a die that the core bound of R289 counts: those the command may use, of an isolated partition those of its own class and group
(R427). -/
def State.boundCores (s : State) (x : Cmd) (d : Nat) (lane : Bool) : Nat :=
  let p := x.part
  let n := s.coresFor p d lane
  if !s.isolated p || lane then n
  else
    let rs := s.part.runs.filter fun r => r.part == p && !r.lane
    let cls := if x.is .decode || x.is .sparse then 0 else 1
    let pm := min 1000 (s.gp F.SCHED_CTRL_MIX_PM p)
    let mine := if rs.any fun r => r.cls != cls && r.cls != 2 then n * (if cls = 1 then pm else 1000 - pm) / 1000 else n
    let sum := sumBy (s.shareOf p) (x.qg :: (rs.filter fun r => r.cls == cls).map fun r => r.qg).eraseDups
    if s.shareOf p x.qg = 0 then mine else max 1 (mine * s.shareOf p x.qg / sum)

/-- The compute phase of R289 for a command's tiles, over the cores it may use, in ns: core, stack and link bounds of each die, and the time of
its cores' expanders (R263, R351); a link has the pace of the slower of its two dies (R55). An isolated partition has its reserve of a stack
(R427). Where a die it must use has no core for it, it never ends: 2^64 ns. -/
def State.phiNs (s : State) (x : Cmd) (a : Attn) (g : Geom) (lane : Bool) : Nat :=
  let tiles := s.tileLoads x a g lane
  maxBy (fun d =>
    let mine := tiles.filter fun t => t.2.1 == d
    let far := mine.filter fun t => t.1 != d
    let slow := ((far.map fun t => s.pace t.1) ++ [s.pace d]).min?.getD 0
    let cores := s.boundCores x d lane
    let rate := if s.isolated a.part then 18750 * (s.partition a.part).desc.rsv.getD d 0 else 1200000
    let core := if cores = 0 ∧ !mine.isEmpty then 2 ^ 64
      else max (sumBy (fun t => t.2.2.1) mine) (sumBy (fun t => t.2.2.2.2) mine) * 16000 / max 1 (cores * s.pace d)
    let stack := sumBy (fun t => t.2.2.2.1) (tiles.filter fun t => t.1 == d) * 1000 / max 1 rate
    let link := sumBy (fun t => t.2.2.2.1) far * 16000 / (1280 * max 1 slow)
    max core (max stack link)) (List.range 8)

/-- The typical values of the rows of R290 still to come around the compute phase (K of R420), in ns, for k dies: what the dies do scales with
pace (R54), the host's read latency and the port's rate do not. -/
def typicalNs (pace query out k : Nat) (read sparse : Bool) : Nat :=
  (if read then 0 else atPace 300 pace + 800 + query * 1000 / 121000) + atPace 300 pace + (if sparse then atPace 1000 pace else 0) +
  atPace (300 + 100 * (k - 1)) pace + atPace 200 pace + out * 1000 / 121000 + atPace 200 pace

/-- Core-steps of a run's tiles. -/
def State.runSteps (s : State) (r : Run) : Nat :=
  match s.attn r.cmd, s.cmd r.cmd, s.geom r.part with
  | some a, some x, some g =>
    match a.items[r.item]? with
    | none => 0
    | some it =>
      sumBy (fun i => if a.kind = 4 then bwdSteps g a.layer it (x.f 0x1E 1) (r.first + i)
        else (it.tiles[r.first + i]?).elim 0 fun t => g.tileSteps a.layer it.rows t.2.1) (List.range r.count)
  | _, _, _ => 0

/-- Core-steps of the waiting runs `rs` that R415 releases before the first run of x, from the groups' virtual times: each release raises its
group's by what it will receive. `fuel` bounds the runs. -/
def State.stepsAhead (s : State) (x : Cmd) (rr : Nat) : Nat → List Run → List (Nat × Nat) → Nat
  | 0, _, _ => 0
  | fuel + 1, rs, vts =>
    let share := fun (g : Nat) => s.shareOf x.part g
    let vt := fun (g : Nat) => (alGet g vts).getD (s.vtOf x.part g)
    let gs := (x.qg :: rs.map fun r => r.qg).eraseDups
    let paid := gs.filter fun g => share g != 0
    let g := if paid.isEmpty then argMin (fun (g : Nat) => (((if g > rr then g else g + 2 ^ 16) : Nat) : Int)) gs
      else argMin (fun (g : Nat) => ((vt g * 2 ^ 16 + g : Nat) : Int)) paid
    let mine := rs.filter fun r => some r.qg == g && (g != some x.qg || decide (s.cmdOrder r.cmd < s.cmdOrder x.uid))
    match s.firstRun mine with
    | none => 0
    | some r =>
      let n := s.runSteps r
      let vs := if share r.qg = 0 then vts else alSet r.qg (vt r.qg + n * 2 ^ 32 / share r.qg) vts
      n + s.stepsAhead x (if share r.qg = 0 then r.qg else rr) fuel (rs.filter fun y => y.id != r.id) vs

/-- W of R420, in ns: the steps ahead over the cores of the command's class, at the lowest pace of the dies concerned. A class has its share of
the cores while both have runs waiting, else all (R414); on the lane, lane work goes in deadline order over the lane's cores (R425, R426). -/
def State.waitNs (s : State) (x : Cmd) (lane : Bool) (pace : Nat) : Nat :=
  let p := x.part
  let cls := if x.is .decode || x.is .sparse then 0 else 1
  let rs := s.part.runs.filter fun r => r.part == p && r.stage == 0 && r.cmd != x.uid
  let all := (s.coresOf p).length
  if lane then
    let dl : Run → Nat := fun r => match s.cmd r.cmd with | some c => c.deadline | none => 0
    let first := rs.filter fun r => r.lane && decide (dl r * 2 ^ 64 + r.cmd < x.deadline * 2 ^ 64 + x.uid)
    sumBy s.runSteps first * 16000 / max 1 (((s.coresOf p).filter (s.laneCore p)).length * pace)
  else
    let mine := rs.filter fun r => r.cls == cls && !r.lane
    let both := rs.any fun r => r.cls != cls && !r.lane
    let pm := s.gp F.SCHED_CTRL_MIX_PM p
    let cores := if both then all * (if cls = 1 then pm else 1000 - pm) / 1000 else all
    s.stepsAhead x (s.partition p).rrBest mine.length mine [] * 16000 / max 1 (cores * pace)

/-- The plan a prediction is made on: the command's own once it has started, else the one it would fix now. -/
def State.planned (s : State) (x : Cmd) : Option Attn :=
  match s.attn x.uid with
  | some a => some a
  | none =>
    if x.is .fwd then (match s.planFwd x with | .ok (a, _) => some a | .error _ => none)
    else if x.is .bwd then
      match s.geom x.part, x.bwdDesc with
      | some g, some (some d) => (match s.planBwd x g d with | .ok a => some a | .error _ => none)
      | _, _ => none
    else match s.planAttn x (if x.is .chunk then 1 else if x.is .sparse then 2 else 0) with
      | some (.ok a) => some a
      | _ => none

/-- The tile lists a prediction goes by: the command's own once they are built; of a sparse run those its queries choose, once they have been
read (R282–R284); none before. -/
def State.predItems (s : State) (x : Cmd) (a : Attn) (g : Geom) (thin : Bool) : Option Attn :=
  if a.kind = 4 ∨ (a.built ∧ (thin → a.kind = 2)) then some a
  else if thin then
    let b := if a.kind = 2 then a else
      { a with kind := 2, topn := s.gp F.FB_SPARSE_TOPN a.part, sink := s.gp F.FB_SPARSE_SINK a.part, recent := s.gp F.FB_SPARSE_RECENT a.part }
    (x.buf (x.f 0x28 8) (a.queryBytes g)).map fun q => s.attnItems g b q
  else some { a with items := a.itemsFor g fun i _ => (a.seqs[i]?.map (·.segs)).getD [] }

/-- Time of the pages of tile lists that have no T0 or T1 copy (R420): their coded bytes at the partition's measured share of their tier's read
rate, what it read from the tier in the last share window in which it read any (assumption 77); a free value where none has been measured. -/
def State.farNs (s : State) (a : Attn) (open_ : Nat) : Nat :=
  let ks := ((a.items.flatMap fun it => it.tiles.filterMap fun t =>
    if t.2.2 = 0 then none else some (hPart t.2.2, hSerial t.2.2 + a.layer)).eraseDups).filter fun k => !s.near k.1 k.2
  let inT2 := fun (k : Nat × Nat) => (s.copiesOf k.1 k.2).any fun c => c.tier == 2 && c.good
  let bytes := fun (l : List (Nat × Nat)) => sumBy (fun k => ((s.page k.1 k.2).map (·.stored)).getD 0) l
  let ns := fun (n rate : Nat) => if n = 0 then 0 else if rate = 0 then open_ else n * 1000 / rate
  let r := (s.partition a.part).rdRate
  ns (bytes (ks.filter inT2)) r.1 + ns (bytes (ks.filter fun k => !inT2 k)) r.2

/-- A prediction (R420): now + W + Φ + K. A free value stands for Φ of a sparse run whose queries have not been read, so that its pages are not
chosen, and for a command that cannot be planned yet (assumption 77). -/
def State.predictCmd (s : State) (x : Cmd) (sparse lane : Bool) : Nat × State :=
  let s1 : State := { s with free := s.free + 1 }
  let open_ := Config.predict s.free
  match s.planned x, s.geom x.part with
  | some a, some g =>
    let thin := sparse || x.is .sparse
    let own := s.predItems x a g thin
    let b := own.getD a
    let dies := ((s.tileLoads x b g lane).map fun t => t.2.1).eraseDups
    let pace := ((dies.map s.pace).min?).getD (s.g F.PKG_PACE)
    let rows := a.seqs.length * a.qtok * g.qHeads
    let query := a.queryBytes g + if a.kind = 4 then a.doBytes g (x.f 0x1E 1) + a.recBytes g x else 0
    let out := if a.kind = 4 then rows * g.headDim * 4 else rows * (g.dv * elemBytes g.outFmt + 8)
    let phi := if own.isNone then open_ else s.phiNs x b g lane + s.farNs b open_
    (s.now + s.waitNs x lane pace + phi + typicalNs pace query out (max 1 dies.length) a.built thin, s1)
  | _, _ => (s.now + open_, s1)

/-- The command goes to the lane (R422, R425). -/
def State.toLane (s : State) (x : Cmd) : State :=
  let s1 := s.setCmd x.uid fun y => { y with lane := true }
  let s2 : State := { s1 with part := { s1.part with runs := upd (fun r => r.cmd == x.uid) (fun r => { r with lane := true }) s1.part.runs } }
  (s2.bumpP F.LANE_MOVES x.part).raise Ev.LANE_MOVE x.part

/-- The command runs as sparse attention over what it fixed when it started (R286, R422). -/
def State.toSparse (s : State) (x : Cmd) : State :=
  let p := x.part
  let s1 := s.setCmd x.uid fun y => { y with approx := true }
  let s2 : State := { s1 with part := { s1.part with runs := del (fun r => r.cmd == x.uid) s1.part.runs } }
  s2.setAttn x.uid fun a => { a with kind := 2, built := false, items := [], finals := [], demand := []
                                     topn := s.gp F.FB_SPARSE_TOPN p, sink := s.gp F.FB_SPARSE_SINK p, recent := s.gp F.FB_SPARSE_RECENT p }

/-- The monitor watches the command (R421): until its first run is released. -/
def State.monitored (s : State) (x : Cmd) : Bool :=
  x.attn && x.live && !x.released && x.deadline != 0 && s.gp F.SCHED_CTRL_MON_EN x.part == 1

/-- An evaluation of a command (R420–R422). -/
def State.monitor (s0 : State) (c : Nat) : State :=
  match s0.cmd c with
  | none => s0
  | some x =>
    if !s0.monitored x then s0
    else
      let s := s0.setCmd c fun y => { y with evalT := some s0.now }
      let p := x.part
      let limit : Int := x.deadline - s.gp F.MON_GUARD p * 1000
      let late := fun (t : Nat) => decide ((t : Int) > limit)
      let e := s.predictCmd x x.approx x.lane
      let s1 := e.2.setCmd c fun y => { y with pred := e.1 }
      if !late e.1 then s1
      else
        let lane := (s.partition p).desc.lane != 0 && !x.lane
        let soft := x.is .decode && x.fApprox && !x.approx
        let a := s1.predictCmd x true x.lane
        if soft && !late a.1 then (a.2.toSparse x).setCmd c fun y => { y with pred := a.1 }
        else
          let b := (if soft then a.2 else s1).predictCmd x true true
          if soft && lane && !late b.1 then ((b.2.toSparse x).toLane x).setCmd c fun y => { y with pred := b.1 }
          else
            let d := s1.predictCmd x x.approx true
            if lane && !late d.1 then (d.2.toLane x).setCmd c fun y => { y with pred := d.1 }
            else s1.endAttn c St.deadlineMiss 0 0

/-- MONITOR_EVAL (R421): an evaluation is due MON_PERIOD after the last. -/
def execMonitorEval (c : Nat) (s : State) : Host.Outcome State Fault Refusal :=
  match s.cmd c with
  | none => .next s
  | some x =>
    if !s.monitored x then .next s
    else .next ((s.reach (match x.evalT with | some t => t + s.g F.MON_PERIOD * 1000 | none => 0)).monitor c)

/-- DEADLINE_PASS (R423, R447): an attention command whose first run was released stops at its next tile boundary; a delivery with
payload still queued ends. -/
def execDeadlinePass (c : Nat) (s : State) : Host.Outcome State Fault Refusal :=
  match s.cmd c with
  | none => .next s
  | some x =>
    if x.deadline = 0 ∨ !x.live then .next s
    else
      let s1 := s.reach (x.deadline + 1)
      if x.attn then .next (if x.released then s1.stopAttn c St.deadlineMiss else s1)
      else if x.is .deliver || x.is .fetch then
        match s1.deliv c with
        | some d =>
          let sent := d.cut && !(s1.dlv.pushes.any fun u => u.cmd == c && u.st == 0 && !u.landing)
          .next (if sent && !s1.landHeld d then s1 else s1.endDeliv c St.deadlineMiss)
        -- not begun, and held (R457)
        | none =>
          .next (if (s1.dest x.part (x.f 0x28 4)).any fun e => (s1.port e.port).st == .holding then (s1.fail c St.deadlineMiss).settleDest x.part (x.f 0x28 4)
            else s1)
      else .next s1

end Sys2Proof.Machine
end

