-- ==== Sys2Proof/Machine/SecCmds.lean ====
section
/-! DEFINITION. The commands of chapter 16: key slots, SPDM and TDISP, the fabric manager's binding, fuses, debug tokens; function-level
reset (R467). -/

namespace Sys2Proof.Machine

/-! ### Key slots (R635–R641) -/

/-- A live command pins a generation of a slot (R640). -/
def State.pinned (s : State) (slot gen : Nat) : Bool :=
  s.q.cmds.any fun c => c.live && c.keys.contains (slot, gen) && (s.keyUses c).contains slot

/-- Earlier generations that no command pins any more are zeroised (R640). -/
def State.pruneKeys (s : State) : State :=
  { s with sec := { s.sec with keys := s.sec.keys.map fun k => { k with old := k.old.filter fun o => s.pinned k.num o.1 } } }

/-- The key of a slot is new: earlier generations stay while pinned; a group slot that was refused for want of the key, or lost it, is
declared again under it (R636, R640). -/
def State.installKey (s : State) (slot typ gen : Nat) (key : Bytes) : State :=
  let k := s.keySlot slot
  let old := if k.st == .set then k.old ++ [(k.gen, k.key)] else k.old
  let s1 := ((s.setKey { k with st := .set, typ := typ, key := key, gen := gen, retired := gen == 65535, old := old }).pruneKeys).raise
    Ev.KEY_SET ((s.keyOwner slot).getD 255)
  let again := s1.pdir.slots.filter fun g =>
    typ == 1 && g.key == slot && some g.part == s.keyOwner slot && !g.members.isEmpty && ((g.st == .refused && g.reason == 4) || g.st == .keyWithdrawn)
  (again.foldl (fun (a : State) g =>
    let h := { g with st := .waiting, reason := 0, kcv := keyCheck key g.id, acked := [] }
    a.setSlot g.part g.slot fun _ => h) s1).sendDecls (fun _ => true) |>.groupsUpdate

/-- KEY_SET (R638, R639, R655). -/
def execKeySet (c : Nat) (s : State) : Host.Outcome State Fault Refusal :=
  match s.running c .keySet with
  | none => .next s
  | some x =>
    let slot := x.f 0x18 2
    let addr := x.f 0x20 8
    if s.sec.fuses.debug = .invasive then .next (s.fail c St.perm)
    else if slot > 4095 ∨ x.f 0x28 4 ≠ 72 then .next (s.fail c St.badCmd)
    else match x.buffers [addr] with
      | none => .next s
      | some false => .next (s.fail c St.poison)
      | some true =>
        match x.buf addr 72 with
        | none => .next s
        | some b =>
          let k := s.keySlot slot
          let typ := rd b 6 1
          let owner := s.keyOwner slot
          let session := s.sec.sessions.find? fun y => y.id == x.f 0x1C 4 && (owner.any fun p => y.fn == p + 1)
          if b.take 4 ≠ [0x4C, 0x4B, 0x42, 0x31] ∨ rd b 7 1 ≠ 32 ∨ !(typ == 1 || typ == 2) ∨ rd b 4 2 ≠ slot ∨ k.retired then
            .next (s.fail c St.badCmd)
          else match session with
            | none => .next (s.fail c St.miss)
            | some y =>
              let gen := rd b 0x0A 2
              if some (rd b 8 1) ≠ owner ∨ gen ≠ k.gen + 1 then .next (s.fail c St.perm)
              else match gcmOpen y.kik (slice b 0x0C 12) (slice b 0 24) (slice b 24 32) (slice b 0x38 16) with
                | none => .next (s.fail c St.perm)
                | some key =>
                  match s.journalled c with
                  | (s1, false) => .next s1
                  | (s1, true) =>
                    let check := match owner with
                      | some p => if typ = 1 then
                          (match s.pdir.slots.find? fun g => g.part == p && g.key == slot && g.id != 0 with
                           | some g => keyCheck key g.id % 2 ^ 64
                           -- no group slot names the key: the chapter gives no GROUP_ID for the value
                           | none => Config.freeChoice s.free % 2 ^ 64) else 0
                      | none => 0
                    .next (((s1.choose.2.installKey slot typ gen key).journalEnd c).finish c St.ok gen check)

/-- One slot is erased for KEY_ERASE c (R146, R641): its commands complete KEY_WITHDRAWN, its groups lose their declaration, the key is
zeroised. Answers the commands terminated. -/
def State.eraseKey (s : State) (c slot : Nat) : State × Nat :=
  let k := s.keySlot slot
  if k.st == .empty then (s, 0)
  else
    let owner := s.keyOwner slot
    let hit := s.q.cmds.filter fun x => x.uid != c && x.live && (s.keyUses x).contains slot
    let s1 := hit.foldl (fun (a : State) x =>
      let b := if x.is .geomLoad then a.setPart (x.f 0x18 1) fun p =>
          if p.switchCmd = x.uid then { p with st := .active, next := none, switchCmd := 0 } else p
        else a
      (((b.dropImport x.uid).dropWork x.uid).fail x.uid St.keyWithdrawn)) s
    let s2 := (s1.pdir.slots.filter fun g => g.key == slot && some g.part == owner && g.declared).foldl
      (fun (a : State) g => a.endDecl g.part g.slot .keyWithdrawn) s1
    (((s2.zeroKey slot).raise Ev.KEY_ERASED (owner.getD 255)).settle, hit.length)

/-- KEY_ERASE (R638, R641). -/
def execKeyErase (c : Nat) (s : State) : Host.Outcome State Fault Refusal :=
  match s.running c .keyErase with
  | none => .next s
  | some x =>
    let lo := x.f 0x18 2
    let n := x.f 0x1A 2
    if n = 0 ∨ lo + n > 4096 then .next (s.fail c St.badCmd)
    else match s.journalled c with
      | (s1, false) => .next s1
      | (s1, true) =>
        let r := (List.range n).foldl (fun (a : State × Nat) i =>
          let b := a.1.eraseKey c (lo + i)
          (b.1, a.2 + b.2)) (s1, 0)
        .next ((r.1.journalEnd c).finish c St.ok n r.2)

/-! ### SPDM (R632–R634, R637) -/

/-- A byte string cut or zero-filled to n bytes. -/
def fit (n : Nat) (b : Bytes) : Bytes := b.take n ++ List.replicate (n - b.length) 0

def PSt.code : PSt → Nat
  | .free => 0 | .active => 1 | .switching => 2 | .clearing => 3 | .scrubbing => 4 | .faulted => 5

/-- The record of a partition (R634). -/
def State.partRecord (s : State) (p : Partition) : Bytes :=
  let groups := (s.pdir.slots.filter fun g => g.part == p.num && g.st == .active).map (·.id)
  leBytes 1 p.num ++ leBytes 1 p.st.code ++
  leBytes 1 ((if bit p.desc.flags 1 then 1 else 0) + 2 * s.gp F.SEC_CTRL p.num) ++ leBytes 1 0 ++
  leBytes 2 (popCount 2560 p.desc.cores) ++ leBytes 2 (popCount 2560 p.desc.lane) ++ leBytes 2 (sumBy id p.t1) ++ leBytes 2 (sumBy id p.t0) ++
  leBytes 4 p.desc.flashGib ++ leBytes 2 p.desc.keyFirst ++ leBytes 2 p.desc.keyCount ++
  leBytes 2 ((p.geom.map (·.id)).getD 0) ++ leBytes 2 0 ++ fit 8 p.descDigest ++
  fit 32 (groups.flatMap (leBytes 4))

/-- A measurement block as function fn sees it, none where it has none (R633). Field places inside blocks 2 to 8, 10 and 11 are the
model's own. -/
def State.measBlock (s : State) (fn i : Nat) : Option Bytes :=
  let f := s.sec.fuses
  let image := fun (k : Nat) => fit 48 (f.digests.getD k []) ++ leBytes 4 (f.runSvn.getD k 0) ++ leBytes 4 (f.runVer.getD k 0)
  let life := match f.life with | .manufacture => 0 | .production => 1 | .returned => 2
  let debug := match f.debug with | .none => 0 | .telemetry => 1 | .invasive => 2
  let ver := fun (v : Nat) => leBytes 1 (v / 256) ++ leBytes 1 (v % 256)
  match i with
  | 1 => some (fit 48 (Config.crypt 2 []))
  | 2 => some (image 0)
  | 3 => some (image 1)
  | 4 => some (image 2)
  | 5 => some (image 3)
  | 6 => some (fit 16 (f.svn.flatMap (leBytes 1) ++ leBytes 1 f.revoked ++ leBytes 2 s.dev.fuseMin ++ leBytes 2 s.dev.fuseMax ++ leBytes 1 life))
  | 7 => some (fit 8 (leBytes 1 debug ++ leBytes 1 life ++ leBytes 1 f.debugEntries))
  | 8 => some (fit 8 (leBytes 1 s.dev.dies ++ leBytes 1 s.dev.ordering))
  | 9 =>
    let ps := s.part.parts.filter fun p => p.st != .free && (fn == 0 || p.num + 1 == fn)
    some (leBytes 2 ps.length ++ leBytes 2 0 ++ leBytes 4 s.part.setLead ++ leBytes 4 s.part.setBoot ++ leBytes 4 0 ++ ps.flatMap s.partRecord)
  | 10 => some (fit 16 (ver 0x302 ++ ver s.malRange.1 ++ ver s.malRange.2 ++ ver 0x102 ++ ver 0x100 ++ ver 0x100))
  | 11 => some (fit 12 (leBytes 4 (s.g F.BOOT_EPOCH) ++ leBytes 4 s.course.pubEpoch ++ leBytes 1 (s.leadHalf.getD 0)))
  | 12 => if fn = 0 then none else some (fit 32 (((s.geom (fn - 1)).map (·.digest)).getD []))
  | _ => none

/-- Request codes of SPDM (DSP0274): KEY_EXCHANGE opens a session, GET_CERTIFICATE reads the chain. -/
def spdmKeyExchange : Nat := 0xE4
def spdmGetCertificate : Nat := 0x82

/-- The certificate chain (R626), from the root: the Trelben root, the LN740 product and the DeviceID certificate, which xSPI holds since
manufacture and whose subject serial number is DEVICE_SERIAL, and the alias certificate of this boot, which carries the digests and SVNs
measured and is signed with the DeviceID key. The bytes of certificates are no matter of the chapters. -/
def State.certChain (s : State) : List Bytes :=
  let id := leBytes 8 s.dev.serial
  let tcb := s.sec.fuses.tcb.flatMap fun e => fit 48 e.1 ++ leBytes 2 e.2
  [Config.crypt 20 [], Config.crypt 21 [], Config.crypt 22 [] ++ id, tcb ++ Config.crypt 23 (id ++ tcb)]

/-- SPDM_REQUEST (R632, R637, R626): answered by the function's responder; the answer's bytes lie outside the chapters, but for the part of
the certificate chain a GET_CERTIFICATE asks for with its offset and length (DSP0274, PRESUMED: assumption 81). A KEY_EXCHANGE opens a
session where the limits leave room; its key import key is derived for the partition. -/
def execSpdmRequest (port fn : Nat) (msg : Bytes) (s : State) : Host.Outcome State Fault Refusal :=
  if port ≥ 8 ∨ fn > 64 then .next s
  else
    let chain := if rd msg 1 1 = spdmGetCertificate then slice s.certChain.flatten (rd msg 4 2) (rd msg 6 2) else []
    let s1 := s.emit (.spdm port (Config.crypt 3 (leBytes 1 port ++ leBytes 1 fn ++ msg) ++ chain))
    let mine := s.sec.sessions.filter fun x => x.port == port && x.fn == fn
    if rd msg 1 1 = spdmKeyExchange ∧ mine.length < 4 ∧ s.sec.sessions.length < 512 ∧ s.sec.fuses.life ≠ .returned then
      let top := maxBy (fun (x : Session) => x.id) s.sec.sessions
      let kik := fit 32 (Config.crypt 4 (msg ++ leBytes 1 (fn - 1)))
      .next { s1 with sec := { s1.sec with sessions := s1.sec.sessions ++
        [{ id := top + 1, port := port, fn := fn, part := if fn = 0 then 255 else fn - 1, kik := if fn = 0 then [] else kik }] } }
    else .next s1

/-- SPDM_GET_MEASUREMENTS (R633): the block named, 0xFF for all that the function sees, and the signature. -/
def execSpdmGetMeasurements (session block : Nat) (nonce : Bytes) (s : State) : Host.Outcome State Fault Refusal :=
  match s.sec.sessions.find? fun x => x.id == session with
  | none => .next s
  | some x =>
    if s.sec.fuses.life = .returned then .next s
    else
      let is_ := if block = 0xFF then (List.range 12).map (· + 1) else [block]
      let body := is_.flatMap fun i => match s.measBlock x.fn i with
        | some b => leBytes 1 i ++ leBytes 2 b.length ++ b
        | none => []
      let s1 := s.emit (.spdm x.port (body ++ Config.crypt 5 (nonce ++ body)))
      .next (if x.fn = 0 then s1 else s1.bumpP F.ATTESTS (x.fn - 1))

/-- SPDM_SESSION_END (R637, R647, R645): the session and its key import key are destroyed; the interface locked through it enters ERROR. -/
def execSpdmSessionEnd (session : Nat) (s : State) : Host.Outcome State Fault Refusal :=
  let s1 : State := { s with sec := { s.sec with sessions := del (fun x => x.id == session) s.sec.sessions } }
  .next (if s.sec.sessions.any fun x => x.id == session then s1.tdiError fun t => t.sess == session else s)

/-! ### TDISP and IDE (R644, R646) -/

def State.tdi (s : State) (port fn : Nat) : Tdi := (s.sec.tdis.find? fun t => t.port == port && t.fn == fn).getD { port := port, fn := fn }

def State.setTdi (s : State) (t : Tdi) : State :=
  { s with sec := { s.sec with tdis := put (fun x => x.port == t.port && x.fn == t.fn) t s.sec.tdis } }

/-- TDISP_LOCK_INTERFACE (R646): admitted for an unlocked interface whose partition is ACTIVE, on a port with IDE up, by the holder of a
session with the function. -/
def execTdispLockInterface (port fn session : Nat) (s : State) : Host.Outcome State Fault Refusal :=
  let held := s.sec.sessions.any fun x => x.id == session && x.port == port && x.fn == fn
  let t := s.tdi port fn
  if 1 ≤ fn ∧ fn ≤ 64 ∧ t.st = .unlocked ∧ s.pst (fn - 1) = .active ∧ (s.port port).ideUp ∧ held then
    .next (s.setTdi { t with st := .locked, sess := session })
  else .next s

/-- TDISP_START_INTERFACE (R646). -/
def execTdispStartInterface (port fn : Nat) (nonce : Bytes) (s : State) : Host.Outcome State Fault Refusal :=
  let t := s.tdi port fn
  if t.st = .locked then .next (s.setTdi { t with st := .run, nonce := nonce }) else .next s

/-- IDE_KEY_REFRESH (R644): the stream goes to the other key set. -/
def execIdeKeyRefresh (port stream keySet : Nat) (s : State) : Host.Outcome State Fault Refusal :=
  let same := fun (x : Ide) => x.port == port && x.stream == stream
  if port < 8 ∧ stream < 9 ∧ keySet < 2 ∧ (s.port port).ideUp then
    let old := (s.sec.ides.find? same).getD { port := port, stream := stream }
    .next { s with sec := { s.sec with ides := put same { old with keySet := keySet, refreshT := s.now } s.sec.ides } }
  else .next s

/-! ### Fabric manager (R648, R649) -/

/-- FM_PIN as bytes. -/
def State.fmPin (s : State) : Bytes := (List.range 12).flatMap fun i => leBytes 4 (s.gi F.FM_PIN i)

/-- FM_SESSION (R648, R649, R657): a session opens, and is bound when its key's digest is the pinned one; the bound session ends. -/
def execFmSession (port : Nat) (digest : Bytes) (open_ : Bool) (s : State) : Host.Outcome State Fault Refusal :=
  let f := s.sec.fuses
  if open_ then
    if s.fmPin.any (· != 0) ∧ digest = s.fmPin then .next { s with sec := { s.sec with fuses := { f with fmBound := true, fmPort := port } } }
    else .next s
  else if f.fmBound ∧ f.fmPort = port then
    .next (({ s with sec := { s.sec with fuses := { f with fmBound := false } } } : State).raise Ev.FM_UNBOUND)
  else .next s

/-- FM_MESSAGE_REJECT (R648). -/
def execFmMessageReject (_port : Nat) (s : State) : Host.Outcome State Fault Refusal := .next s.fmReject

/-! ### Fuses and debug (R630, R631, R653–R655) -/

/-- SVN_COMMIT (R630, R788): the counter of stage 1 to 4 rises to the running image's SVN. -/
def execSvnCommit (stage : Nat) (s : State) : Host.Outcome State Fault Refusal :=
  let f := s.sec.fuses
  if !s.hw.pins.vfuseOk ∨ stage = 0 ∨ stage > 4 then .next s
  else .next { s with sec := { s.sec with fuses := { f with svn := nthUpd (stage - 1) (fun v => max v (f.runSvn.getD (stage - 1) 0)) f.svn } } }

/-- KEY_REVOKE (R631, R788): refused for the slot that signed the running BL1. -/
def execKeyRevoke (slot : Nat) (s : State) : Host.Outcome State Fault Refusal :=
  let f := s.sec.fuses
  if !s.hw.pins.vfuseOk ∨ slot > 3 ∨ f.runKey.getD 0 0 = slot then .next s
  else .next { s with sec := { s.sec with fuses := { f with revoked := f.revoked ||| 2 ^ slot } } }

/-- DEBUG_TOKEN (R654, R655, R656): `valid` says that the token names this device and a nonce issued for it, and that its signature
verifies. State 1 TELEMETRY, 2 INVASIVE, 3 RETURNED. -/
def execDebugToken (_token : Bytes) (state : Nat) (nonce : Bytes) (valid : Bool) (s : State) : Host.Outcome State Fault Refusal :=
  let f := s.sec.fuses
  if !valid ∨ f.nonces.contains nonce then .next s
  else
    let f1 := { f with nonces := nonce :: f.nonces }
    let spent : State := { s with sec := { s.sec with fuses := f1 } }
    let quiet := (List.range 64).all (fun p => s.pst p == .free) && s.sec.keys.all fun k => k.st == .empty
    let enter := fun (d : DebugSt) =>
      ({ s with sec := { s.sec with fuses := { f1 with debug := d, debugEntries := min 255 (f.debugEntries + 1) } } } : State).raise Ev.DEBUG_CHANGE
    if state = 3 then
      .next (if s.hw.pins.vfuseOk then { s with sec := { s.sec with fuses := { f1 with life := .returned } } } else spent)
    else if f.life ≠ .production ∨ f.debug ≠ .none then .next spent
    else if state = 1 then .next (enter .telemetry)
    else if state = 2 ∧ quiet then .next ((enter .invasive).tdiError fun _ => true)
    else .next spent

/-- FUNCTION_LEVEL_RESET (R119, R467): the queues of a function on one port, with the leases they hold, and its MSI-X table; of a virtual
function its destinations and host leases too. -/
def execFunctionLevelReset (port fn : Nat) (s : State) : Host.Outcome State Fault Refusal :=
  let s1 := (s.q.queues.filter fun q => q.port == port && q.fn == fn && q.num < 65536).foldl (fun (a : State) q => a.resetQueue q.num)
    { s with q := { s.q with msix := del (fun e => e.port == port && e.fn == fn) s.q.msix } }
  if fn = 0 then .next s1
  else
    let s2 := (s1.cxl.leases.filter fun l => l.port == port && l.part + 1 == fn).foldl
      (fun (a : State) l => a.stopLease l.num .ending false) s1
    .next { s2 with dlv := { s2.dlv with dests := s2.dlv.dests.map fun d =>
      if d.port = port ∧ d.part + 1 = fn then { d with st := 3 } else d } }

end Sys2Proof.Machine
end

