-- ==== Sys2Proof/Machine/Views.lean ====
section
/-! DEFINITION. Read-only register fields whose value is a view of the state, block by block, and what BLK_STATUS shows of an
instance: QUIESCED, HEALTH, SPARES (R763, R764). Every list gives a block's view fields with their present values. -/

namespace Sys2Proof.Machine

/-! ### Codes of the states, as their registers report them -/

def QSt.code : QSt → Nat
  | .disabled => 0 | .active => 1 | .draining => 2 | .error => 3 | .resetting => 4

def GrpSt.code : GrpSt → Nat
  | .empty => 0 | .declared => 1 | .waiting => 2 | .active => 3 | .refused => 4 | .keyWithdrawn => 5

def PoolSt.code : PoolSt → Nat
  | .idle => 0 | .demoting => 1 | .blocked => 2

def StackSt.code : StackSt → Nat
  | .absent => 0 | .active => 1 | .degraded => 2 | .retired => 3

def HalfSt.code : HalfSt → Nat
  | .down => 0 | .resync => 1 | .standby => 2 | .claiming => 3 | .lead => 4 | .fenced => 5

def NDieSt.code : NDieSt → Nat
  | .absent => 0 | .unused => 1 | .active => 2 | .draining => 3 | .failed => 4 | .retired => 5

def KeySt.code : KeySt → Nat
  | .empty => 0 | .set => 1 | .erasing => 2

def TdiSt.code : TdiSt → Nat
  | .unlocked => 0 | .locked => 1 | .run => 2 | .error => 3

def ConnSt.code : ConnSt → Nat
  | .free => 0 | .opening => 1 | .open_ => 2 | .error => 3 | .held => 4

def ExtSt.code : ExtSt → Nat
  | .held => 0 | .releasing => 1 | .revoking => 2

def LeaseSt.code : LeaseSt → Nat
  | .active => 1 | .releasing => 2 | .ending => 3 | .revoking => 4

def PortSt.code : PortSt → Nat
  | .up => 0 | .holding => 1 | .down => 2

def LifeSt.code : LifeSt → Nat
  | .manufacture => 0 | .production => 1 | .returned => 2

def DebugSt.code : DebugSt → Nat
  | .none => 0 | .telemetry => 1 | .invasive => 2

/-- 1 for true. -/
def b2n (b : Bool) : Nat := if b then 1 else 0

/-- The bitmap of the numbers below n that satisfy p. -/
def bitmap (n : Nat) (p : Nat → Bool) : Nat := sumBy (fun i => if p i then 2 ^ i else 0) (List.range n)

def kib (n : Nat) : Nat := ceilDiv n (2 ^ 10)
def mib (n : Nat) : Nat := ceilDiv n (2 ^ 20)
def gib (n : Nat) : Nat := ceilDiv n (2 ^ 30)

/-- A measurement of the world beside the device whose value the chapters leave to it (link counters, power): a free value. -/
def State.measured (s : State) (k : Nat) : Nat := Config.predict (s.free + k)

/-! ### SEQ, PDIR, TIER -/

/-- Ready leaves of a partition that are not yet committed (SEAL_BACKLOG): those no seal covers, and those being sealed. -/
def State.sealBacklog (s : State) (p : Nat) : Nat :=
  sumBy (fun (x : Seq) => (s.startable x).length) (s.sq.seqs.filter fun x => x.part == p) +
  (s.sq.seals.filter fun j => j.part == p && j.seq < 2 ^ 48 && j.step < 6).length

def State.viewSEQ (s : State) (p : Nat) : List (Fld × Nat) :=
  [(F.SEQ_OPEN_CNT, s.openCount p), (F.STAGE_USED, mib (s.stageUsed p)), (F.SEAL_BACKLOG, s.sealBacklog p)]

def State.viewPDIR (s : State) (p sel : Nat) : List (Fld × Nat) :=
  let g := s.pdir.slots.find? fun x => x.part == p && x.slot == sel
  [(F.GRP_STATE_STATE, (g.map fun x => x.st.code).getD 0),
   (F.GRP_STATE_MISSING, (g.map fun x => if x.declared then min 0xFFF (s.missing x) else 0).getD 0),
   (F.GRP_STATE_REASON, (g.map fun x => if x.st == .refused then x.reason else 0).getD 0),
   (F.CAPO_COUNT, (s.pdir.capos.filter fun c => c.part == p).length),
   (F.LEAVES_PUB, (s.leaves.filter fun l => l.part == p && l.published).length),
   (F.PUB_DEFERRED, (s.pdir.pubs.filter fun w => w.part == p && w.deferred).length),
   (F.SHARDS_OWNED, ((List.range 65536).filter fun k => s.shardOwner k == some s.dev.serial).length),
   (F.SHARDS_MOVING, ((s.pdir.moving.map (·.shard) ++ s.boot.republish.filterMap fun h => (s.leaf h).bind fun l => l.chain.map shardOf).eraseDups).length),
   (F.INDEX_ENTRIES, s.leaves.length)]

/-- The pool state of a tier for TIER_STATE: of T0 and T1, the highest of any die. -/
def State.tierState (s : State) (p t : Nat) : Nat :=
  maxBy (fun (x : Pool) => x.st.code) (s.tier.pools.filter fun x => x.part == p && x.tier == t)

/-- A tier's bytes in use over all its pools. -/
def State.tierUsed (s : State) (p t : Nat) : Nat :=
  if t ≤ 1 then sumBy (fun d => s.used p t d) (List.range 8) else s.used p t 15

def State.viewTIER (s : State) (u p : Nat) : List (Fld × Nat) :=
  [(F.T0_QUOTA, s.tierQuota p 0 / 2 ^ 18), (F.T0_USED, kib (s.tierUsed p 0)),
   (F.T1_QUOTA, s.tierQuota p 1 / 2 ^ 30), (F.T1_USED, mib (s.tierUsed p 1)),
   (F.T2_QUOTA, s.tierQuota p 2 / 2 ^ 30), (F.T2_USED, mib (s.tierUsed p 2)),
   (F.T3_QUOTA, s.tierQuota p 3 / 2 ^ 30), (F.T3_USED, mib (s.tierUsed p 3)),
   (F.D_COUNTED, mib (s.dSealed p)),
   (F.CADENCE_GROUPS, (s.tier.cadences.filter fun c => c.part == p).length),
   (F.TIER_STATE, sumBy (fun t => s.tierState p t * 4 ^ t) (List.range 4)),
   (F.DIE_T0_QUOTA, s.quota p 0 u / 2 ^ 18), (F.DIE_T0_USED, ceilDiv (s.used p 0 u) (2 ^ 18)),
   (F.STACK_T1_QUOTA, s.quota p 1 u / 2 ^ 30), (F.STACK_T1_USED, mib (s.used p 1 u)),
   (F.STACK_RESERVE, s.stackReserve), (F.STACK_FREE, s.stackFree u)]

/-! ### ATT, CDC -/

def State.cluster (s : State) (c : Nat) : Cluster := (s.hw.clusters.find? fun x => x.num == c).getD { num := c }

/-- Spare physical cores of a cluster that hold no logical core and work (R20). -/
def Cluster.spares (c : Cluster) : Nat := popCount 34 c.physOk - (c.map.filter Option.isSome).length

/-- A cluster is degraded: a logical core of it is retired, or its merge unit has failed (R20, R663). -/
def Cluster.worse (c : Cluster) : Bool := !c.mergeOk || c.map.any Option.isNone

/-- ATT: die `u`, with cluster `sel` selected, or the whole die for 0xF. -/
def State.viewATT (s : State) (u p sel : Nat) : List (Fld × Nat) :=
  let cl := s.cluster (10 * u + sel)
  let ok := fun (c : Cluster) => bitmap 32 fun j => (c.map.getD j none).isSome
  let gone := fun (c : Cluster) => bitmap 32 fun j => (c.map.getD j none).isNone
  let busy := fun (c : Cluster) => bitmap 32 fun j => s.part.runs.any fun r => r.stage == 2 && r.core == 32 * c.num + j
  let on := fun (f : Cluster → Nat) =>
    if sel = 15 then sumBy (fun k => popCount 32 (f (s.cluster (10 * u + k)))) (List.range 10)
    else if sel < 10 then f cl else 0
  let sets := s.att.gsets.filter fun g => g.part == p
  [(F.LOGICAL_OK, on ok), (F.PHYS_OK, if sel < 10 then cl.physOk else 0), (F.RETIRED, on gone), (F.BUSY, on busy),
   (F.MERGE_USED, if sel = 15 then kib (maxBy (fun k => s.mergeUsed (10 * u + k)) (List.range 10))
                  else if sel < 10 then kib (s.mergeUsed (10 * u + sel)) else 0),
   (F.VIEW_COUNT, (s.att.views.filter fun v => v.part == p).length),
   (F.GSET_MIB, mib (sumBy (fun (g : GSet) => sumBy (·.bytes) g.acc) sets +
      sumBy (fun (a : Attn) => sumBy (fun (w : Nat × Nat) => w.2) a.work) (s.att.attns.filter fun a => a.part == p))),
   (F.GSET_NAN, sumBy (fun (g : GSet) => if g.nan && 1 ≤ g.num && g.num ≤ 64 then 2 ^ (g.num - 1) else 0) sets)]

/-- Storage of base remnants: pages of freed leaves that a delta page still names (R343). -/
def State.remnantBytes (s : State) (p : Nat) : Nat :=
  let rs := s.sq.leaves.filter fun l => l.part == p && l.freed && s.baseInUse l
  sumBy (fun (l : Leaf) => sumBy (·.bytes) (s.tier.copies.filter fun c => l.holds c.part c.serial)) rs

def State.viewCDC (s : State) (u p sel : Nat) : List (Fld × Nat) :=
  let r := match s.geom p with | some g => if sel < g.layers.length then some (s.ratioOf p sel) else none | none => none
  let raw := match s.geom p with | some g => (g.raw, g.codecOff) | none => ([], 0)
  let last := (s.partition p).lastBlocks
  let k := s.codec u
  [(F.LAYER_RATIO, (r.map fun x => min 0xFFFF (x.ratio.1 * 256 / max 1 x.ratio.2)).getD 0),
   (F.LAYER_STEPS, (r.map fun x => min 0xFFFF ((2 * x.steps.1 + x.steps.2) / max 1 (2 * x.steps.2))).getD 0),
   (F.TABLE_INFO_FMT_VER, if raw.2 = 0 then 0 else rd raw.1 raw.2 2),
   (F.TABLE_INFO_TABLES, if raw.2 = 0 then 0 else tableCount raw.1 raw.2),
   (F.REMNANT_MIB, mib (s.remnantBytes p)),
   (F.RAW_PERMILLE, if last.isEmpty then 0 else (last.filter id).length * 1000 / last.length),
   (F.SC_LANES_BUSY, (k.lanes.filter Option.isSome).length), (F.SC_LANES_WORKING, (k.okLanes.filter id).length),
   (F.SC_QUEUES, ((k.queue.map fun j => (j.part, j.qg)).eraseDups).length),
   (F.SC_IN_KIB, k.inBytes / 1024), (F.SC_OUT_KIB, k.outBytes / 1024)]

/-! ### QMGR, SCHED, ACCT -/

/-- QMGR: queue `q`, partition `p`, front end `u`. -/
def State.viewQMGR (s : State) (u p q : Nat) : List (Fld × Nat) :=
  let x := (s.queue q).getD { num := q, port := 255, fn := 255, loc := 0 }
  let front := s.q.queues.filter fun y => y.num < 65536 && y.st != .disabled && s.qreg F.QCTRL_FE y.num == u
  let rings := sumBy (fun (r : Nat × Nat) => if r.1 / 2 ^ 23 = u then r.2 else 0) s.inlineRings
  [(F.QSTATE_STATE, x.st.code), (F.QSTATE_REASON, x.reason), (F.QSTATE_ACCEPT_PAUSED, b2n x.paused),
   (F.SQ_PTRS_HEAD, x.sqHead), (F.SQ_PTRS_TAIL, x.sqTail), (F.CQ_PTRS_HEAD, x.cqHead), (F.CQ_PTRS_TAIL, x.cqTail),
   (F.INFLIGHT, (s.cmdsOf q).length), (F.QP_USED, ((s.queuesOf p).filter fun (y : Queue) => y.st != .disabled).length), (F.INLINE_USED, s.inlineUsed p / 1024),
   (F.FE_QUEUES, front.length), (F.FE_RING_FREE, (2 ^ 23 - rings) / 1024)]

def State.viewSCHED (s : State) (p g : Nat) : List (Fld × Nat) :=
  let rs := s.part.runs.filter fun r => r.part == p && r.qg == g
  let y := s.partition p
  [(F.QG_STATUS_RUNS, min 0xFFFF (rs.filter fun r => r.stage < 2).length),
   (F.QG_STATUS_CORES, (rs.filter fun r => r.stage == 2).length),
   (F.PART_STATE_STATE, y.st.code), (F.PART_STATE_ISOLATED, bits y.desc.flags 1 1),
   (F.PART_CORES_CORES, bitCount y.desc.cores 0 2560), (F.PART_CORES_LANE, bitCount y.desc.lane 0 2560),
   (F.GEOM_CUR, (y.geom.map (·.id)).getD 0)]

/-! ### DLV, CXL, NET -/

/-- Bytes that wait in a port's delivery queues (R449). -/
def State.portQueued (s : State) (i : Nat) : Nat := sumBy (·.charge) (s.dlv.pushes.filter fun x => x.port == i && x.st == 0)

/-- DLV: port `i`, partition `p`, destination `sel`. -/
def State.viewDLV (s : State) (i p sel : Nat) : List (Fld × Nat) :=
  let d := s.dest p sel
  let x := s.port i
  let heldC := s.q.cmds.filter fun c => c.st == .done && (s.queue c.q).any fun y => y.port == i
  [(F.DEST_STATE_STATE, s.destState p sel), (F.DEST_STATE_REASON, (d.map (·.reason)).getD 0),
   -- 0 until the link has trained once, the reset value
   (F.PORT_STATE, if x.st = .down ∧ x.linkT = 0 then 0 else x.st.code), (F.GATE_CTRL_CURRENT, x.gateCur),
   (F.HELD_ITEMS, if x.st == .holding then (s.dlv.pushes.filter fun y => y.port == i && y.st < 2).length + heldC.length else 0),
   (F.QUEUED_KIB, kib (s.portQueued i))]

/-- CXL: port `i`, partition `p`, select value `sel` (a lease, or an extent). -/
def State.viewCXL (s : State) (i p sel : Nat) : List (Fld × Nat) :=
  let e := s.lease p sel
  let x := (s.extent sel).filter fun y => y.part == p
  let q := s.port i
  let trays := (s.cxl.extents.filter fun y => bit y.ports i).map fun y => (s.tray y.tray).limit
  [(F.WIN_STATE_STATE, (e.map (·.st.code)).getD 0), (F.WIN_STATE_REASON, (e.map (·.reason)).getD 0),
   (F.LEASE_HOLDER_PBR_ID, (e.map (·.pbr)).getD 0), (F.LEASE_HOLDER_PORT, (e.map (·.port)).getD 0),
   (F.LEASE_EPOCH, (e.map (·.epoch)).getD 0),
   (F.LEASES, (s.cxl.leases.filter fun y => y.part == p).length),
   (F.WIN_SLOTS, sumBy (fun (y : Lease) => if y.part = p then y.slots.length else 0) s.cxl.leases),
   (F.EXT_INFO_KIND, (x.map (·.kind)).getD 0), (F.EXT_INFO_STATE, (x.map (·.st.code)).getD 0),
   (F.EXT_INFO_TRAY, (x.map (·.tray)).getD 0), (F.EXT_INFO_PORTS, (x.map (·.ports)).getD 0),
   (F.EXT_INFO_TRAY_MODE, (x.map fun y => b2n y.hdmDb).getD 0), (F.EXT_EPOCH, (x.map (·.epoch)).getD 0),
   (F.EXT_LEN, (x.map fun y => y.len / 2 ^ 28).getD 0),
   (F.WIN_RD_KIB, alGetD p 0 s.cxl.winBytes / 1024),
   (F.EXTENTS, (s.cxl.extents.filter fun y => y.part == p).length),
   (F.SF_USED, s.cxl.sf.length),
   (F.LINK_STATUS_RATE, if q.st == .down then 0 else q.rate), (F.LINK_STATUS_WIDTH, if q.st == .down then 0 else q.width),
   (F.LINK_STATUS_CXL, b2n (q.st != .down && q.cxl)), (F.LINK_STATUS_IDE_UP, b2n q.ideUp),
   (F.PARTNER_ID, q.partner.getD 0), (F.PARTNER_PORT_PORT, q.partnerPort), (F.PARTNER_PORT_VALID, b2n q.partner.isSome),
   (F.REPLAYS, s.measured (16 * i)), (F.TRAY_LIMIT, trays.min?.getD 256),
   (F.RD_QUEUE, min 1024 (s.cxl.reads.filter fun r => r.port == i).length)]

/-- NET: port instance `u` (port 8 + u), connection `sel`. -/
def State.viewNET (s : State) (u p sel : Nat) : List (Fld × Nat) :=
  let c := s.net.conns.find? fun x => x.num == sel
  let q := s.port (8 + u)
  [(F.CONN_STATE_STATE, (c.map (·.st.code)).getD 0), (F.CONN_STATE_REASON, (c.map (·.reason)).getD 0),
   (F.CONN_USED, (s.net.conns.filter fun x => !x.malroth && x.part == p && (x.st == .open_ || x.st == .held)).length),
   (F.INC_USED, s.net.incidents.length),
   (F.NETP_LINK_UP, b2n (q.st == .up)), (F.NETP_LINK_SPEED, if q.st == .down then 0 else q.rate),
   (F.PARTNER_DIGEST, q.lldp.getD 0), (F.PARTNER_VALID, b2n q.lldp.isSome),
   (F.ECN_MARKED, s.measured (16 * u + 1)), (F.CNP_RX, s.measured (16 * u + 2)), (F.RETRANS, s.measured (16 * u + 3)),
   (F.PAUSE_RX, s.measured (16 * u + 4)), (F.RX_KIB, s.measured (16 * u + 5)), (F.TX_KIB, s.measured (16 * u + 6))]

/-! ### FTL, NAND, PLP -/

/-- Blocks of the dies of a set that have wear, with those never used. -/
def State.setWear (s : State) (b k : Nat) : List Nat :=
  let ds := s.members b k
  let used := s.ftl.blocks.filter fun x => ds.any fun d => d.chan == x.chan && d.target == x.target
  used.map (·.wear) ++ (if used.length < sumBy (·.blocks) ds then [0] else [])

/-- Progress of a rebuild or drain of a set, per mille. -/
def State.setProgress (s : State) (x : StripeSet) : Nat :=
  if x.rowsTotal = 0 then 0 else (x.rowsTotal - (s.rowsLeft x.bridge x.num).length) * 1000 / x.rowsTotal

/-- FTL: bridge die `b`, set `sel`. -/
def State.viewFTL (s : State) (b sel : Nat) : List (Fld × Nat) :=
  let rb := s.ftl.sets.filter fun x => x.st == 1
  let dr := s.ftl.sets.any fun x => x.st == 2
  let st := s.sset b sel
  let patrolled := s.ftl.blocks.filter fun x => x.inUse
  let period := s.g F.PATROL_DAYS * 86400000000000
  let done := patrolled.filter fun x => s.now < x.patrolT + period && x.patrolT > 0
  let backlog := s.ftl.sbs.filter fun x => x.bridge == b && x.pslc
  let full := sumBy (fun (x : SuperBlk) => (x.next / max 1 x.rowGroups - x.folded) * x.rowGroups) backlog
  [(F.RAW_GIB, s.rawGib 0 + s.rawGib 1), (F.USER_GIB, s.userGib 0 + s.userGib 1), (F.ASSIGNED_GIB, s.assignedGib),
   (F.USED_GIB, gib (s.unitUsed 0 + s.unitUsed 1)),
   (F.PSLC_TARGET, (s.ftl.targets.getD 0 0 + s.ftl.targets.getD 1 0) / 2 ^ 30), (F.PSLC_USED, gib s.pslcUsed),
   (F.WA_PM, min 0xFFFF s.waPm), (F.LIFE_USED_PM, min 1000 s.lifeUsed), (F.LIFE_DAYS, min 0xFFFF s.lifeDays),
   (F.REBUILD_STATE, b2n (!rb.isEmpty) + 2 * b2n dr),
   (F.REBUILD_PERMILLE, (rb.head?.map s.setProgress).getD 0),
   (F.PATROL_PM, if patrolled.isEmpty then 0 else done.length * 1000 / patrolled.length),
   (F.SET_COUNT, (s.ftl.sets.filter fun x => x.bridge == b && x.st != 3).length),
   (F.SET_INFO_WIDTH, s.width b sel), (F.SET_INFO_STATE, (st.map (·.st)).getD 0),
   (F.SET_FREE_SB, min 0xFFFF (s.freeSb b sel)),
   (F.SET_WEAR_MIN, (s.setWear b sel).min?.getD 0), (F.SET_WEAR_MAX, maxBy id (s.setWear b sel)),
   (F.SET_ROWS_LEFT, (s.rowsLeft b sel).length),
   (F.FOLD_BACKLOG, full), (F.FREE_GIB, s.freeUser b / 2 ^ 30)]

/-- NAND: channel `c`, die (target) `sel`. -/
def State.viewNAND (s : State) (c sel : Nat) : List (Fld × Nat) :=
  let ds := s.ftl.dies
  let n := fun (p : NDieSt → Bool) => (ds.filter fun d => p d.st).length
  let ch := (s.ftl.chans.find? fun x => x.num == c).getD { num := c }
  let d := s.ndie c sel
  [(F.DIES_PRESENT, n (· != .absent)), (F.DIES_ACTIVE, n fun x => x == .active || x == .draining),
   (F.DIES_RETIRED, n fun x => x == .retired || x == .failed), (F.DIES_UNUSED, n (· == .unused)),
   (F.PROFILE_VER, s.sec.fuses.runVer.getD 2 0 % 2 ^ 16),
   (F.CH_STATE_STATE, ch.st), (F.CH_STATE_DIES, (ds.filter fun x => x.chan == c && x.st != .absent).length),
   (F.CH_IFACE_KIND, ch.kind), (F.CH_IFACE_MTS, ch.mts),
   (F.DIE_INFO_STATE, (d.map fun x => x.st.code).getD 0), (F.DIE_INFO_REASON, (d.map (·.reason)).getD 0),
   (F.DIE_INFO_GROUP, (d.map fun _ => sel / 8).getD 0), (F.DIE_INFO_SET, (d.map (·.set)).getD 0),
   (F.DIE_INFO_PROFILE, (d.map (·.profile)).getD 0), (F.DIE_GIB, (d.map (·.gib)).getD 0),
   (F.DIE_BAD_BLOCKS, (d.map (·.bad.length)).getD 0), (F.DIE_WEAR_AVG, (d.map s.meanWear).getD 0)]

/-- Class P items that have no replica (R612): published leaves and sequences with staged granules. -/
def State.unreplicated (s : State) : Nat :=
  (s.leaves.filter fun l => l.cls == 2 && l.replica == 0).length + (s.sq.seqs.filter (·.unreplicated)).length

def State.viewPLP (s : State) (p : Nat) : List (Fld × Nat) :=
  [(F.D_TOTAL, mib s.dTotal), (F.D_USED, mib (s.dUsed p)), (F.P_UNREPLICATED, s.unreplicated),
   (F.REPLICA_USED, gib s.replicaUsed)]

/-! ### SEC, FLT, BOOT -/

/-- IDE is established on every port with a role (R617). -/
def State.ideAll (s : State) : Bool :=
  (List.range 8).all fun i =>
    (s.gu F.PORT_CTRL_HOST_EN i = 0 && s.gu F.PORT_CTRL_POOL_EN i = 0) || (s.port i).ideUp

/-- SEC: partition `p`, key slot `sel`. -/
def State.viewSEC (s : State) (p sel : Nat) : List (Fld × Nat) :=
  let own := (s.partition p).ownsKey sel
  let k := s.keySlot sel
  let fs := s.sec.fuses
  let svn := fun (l : List Nat) => sumBy (fun i => l.getD i 0 % 256 * 256 ^ i) (List.range 4)
  [(F.SEC_STATE_LIFECYCLE, fs.life.code), (F.SEC_STATE_DEBUG, DebugSt.code fs.debug), (F.SEC_STATE_FM_BOUND, b2n s.fmBound),
   (F.SEC_STATE_IDE_ALL, b2n s.ideAll),
   (F.SEC_STATE_EPOCH_OK, b2n (s.part.parts.all fun y => y.st == .free || y.epochOk)),
   (F.SEC_STATE_GROUPS_OK, b2n (s.pdir.slots.all fun g => g.part != p || g.st == .empty || g.st == .active)),
   (F.SEC_STATE_DEBUG_OK, b2n (fs.debug != .invasive)), (F.SEC_STATE_NET_ISOLATED, s.g F.SEC_NET),
   (F.KEY_INFO_STATE, if own then k.st.code else 0), (F.KEY_INFO_TYPE, if own then k.typ else 0),
   (F.KEY_INFO_RETIRED, if own then b2n k.retired else 0), (F.KEY_INFO_GEN, if own then k.gen else 0),
   (F.KEYS_SET, (s.sec.keys.filter fun x => x.st == .set && (s.partition p).ownsKey x.num).length),
   (F.SESSIONS, (s.sec.sessions.filter fun x => x.part == p).length),
   (F.TDI_STATE, sumBy (fun i => (s.tdi i (p + 1)).st.code * 8 ^ i) (List.range 8)),
   (F.FW_SVN, svn fs.runSvn), (F.FUSE_SVN, svn fs.svn), (F.DEBUG_ENTRIES, min 255 fs.debugEntries)]

/-- FLT: half `h`, telemetry path `path`, fault number `sel`, word `idx` of a fault record. -/
def State.viewFLT (s : State) (h path sel idx : Nat) : List (Fld × Nat) :=
  let y := s.half h
  let rec_ := match s.tel.faults.find? fun f => f.number == sel with
    | some f => rd f.bytes (4 * idx) 4
    | none => 0
  let e := s.leadHalf
  [(F.LEAD_STATE_LEAD, e.getD 3),
   (F.LEAD_STATE_HELD, match e with
      | some n => bitmap 8 fun d => (s.heldBy n (s.half n).epoch).contains d
      | none => 0),
   (F.LEAD_STATE_STANDBY_OK, match e with | some n => b2n ((s.half (1 - n)).st == .standby) | none => 0),
   (F.LEAD_EPOCH, s.course.pubEpoch), (F.FAULT_REC, rec_),
   (F.ALARMS_HELD, (s.path path).alarms.length),
   (F.LOSTREC_HELD, min 0xFFFF ((s.path path).held.filter fun r => r.code == 0x0904).length),
   (F.HALF_STATE, y.st.code), (F.HALF_EPOCH, y.epoch), (F.MIRROR_LAG, min 0xFFFF y.lag), (F.JOURNAL_SEQ, y.seq)]

/-- What MEAS_SEL names (R705): value and whether its last sample lay outside its range. -/
def State.measValue (s : State) (i : Nat) : Nat × Bool :=
  if i < 24 then
    let m := s.hw.meas.getD i {}
    (unsigned 16 m.value, m.out)
  else if 32 ≤ i && i < 42 then (unsigned 16 (s.hw.temps.getD (i - 32) 0), decide (s.hw.temps.getD (i - 32) 0 > 950))
  else if i = 48 then (s.hw.bankUv / 1000, false)
  else (0, false)

/-- The length LANE_LOSS reports for a loss in 0.1 dB (R706): rounded to the nearest 0.1 m, ties upward. -/
def State.laneLen (s : State) (port loss : Nat) : Nat :=
  let host := if port < 8 then s.g F.LOSS_CFG_HOST_DB_CXL else s.g F.LOSS_CFG_HOST_DB_ETH
  let per := if port < 8 then s.g F.LOSS_CFG_DB_PER_M_CXL else s.g F.LOSS_CFG_DB_PER_M_ETH
  if loss ≤ host then 0 else (2 * 10 * (loss - host) + per) / (2 * per)

def State.viewBOOT (s : State) (sel : Nat) : List (Fld × Nat) :=
  let m := s.measValue sel
  let port := sel / 16
  let loss := if port ≥ 8 && sel % 16 ≥ 8 then 0 else (s.port port).loss.getD (sel % 16) 0
  [(F.MEAS_VALUE_VALUE, m.1), (F.MEAS_VALUE_OUT_OF_RANGE, b2n m.2),
   (F.LANE_LOSS_DB10, min 0xFFF loss), (F.LANE_LOSS_LEN_DM, min 0xFFF (s.laneLen port loss))]

/-! ### POL, SYS, PACE, TIME, HBM, NM -/

/-- Bytes of a loaded program in a die's store (R744): code, constants and data segment. -/
def Program.storeBytes (x : Program) : Nat := 4 * x.code.length + 8 * x.consts.length + 8 * x.dataWords

/-- Bytes of a die's program store in use: the programs of the hooks that run there (R725, R728). -/
def State.storeUsed (s : State) (die : Nat) : Nat :=
  sumBy (fun (x : Program) => if (s.hookDies x.part x.hook).contains die then x.storeBytes else 0) s.pol.programs

/-- POL: die `u`, owner `p` (64 the device), select value `sel` (a hook, or a sequencer). -/
def State.viewPOL (s : State) (u p sel : Nat) : List (Fld × Nat) :=
  let x := s.program p sel
  let q := s.pol.seqrs.find? fun y => y.die == u && y.num == sel
  let die := s.reg F.DATA_DIE 0 p sel 0
  let w := s.reg F.DATA_ADDR 0 p sel 0
  let ev := q.bind (·.running)
  let y := s.partition p
  [(F.HOOK_CTRL_CUSTOM, b2n x.isSome), (F.PROG_DIGEST, (x.map fun z => leNat (z.digest.take 8)).getD 0),
   (F.FAULTS_1S, min 0xFF (y.polFaults.filter fun t => s.now < t + 1000000000).length),
   (F.DEFAULTS_VER, s.sec.fuses.runVer.getD 3 0),
   (F.DATA_VALUE, if (s.hookDies p sel).contains die then (x.map fun z => (s.segOf z die).words.getD w 0).getD 0 else 0),
   (F.SQ_STATE_STATE, match q with
      | none => 0
      | some z => if z.retired then 2 else b2n z.running.isSome),
   (F.SQ_STATE_PART, (ev.map (·.part)).getD 0), (F.SQ_STATE_HOOK, (ev.map (·.hook)).getD 0),
   (F.SQ_QUEUED, (s.eventsOn u).length), (F.SQ_STORE_USED, kib (s.storeUsed u)),
   (F.SQ_EVENTS, (q.map (·.events)).getD 0), (F.SQ_BUSY_NS, (q.map (·.busyNs)).getD 0)]

/-- What FUNC_ID tells the accessing agent: kind, partition, port. -/
def funcId : Agent → Nat × Nat × Nat
  | .pf i => (0, 0, i)
  | .vf i p => (1, p, i)
  | .half h => (2 + h, 0, 0)
  | .quinbel => (4, 0, 0)

def State.viewSYS (s : State) (a : Agent) : List (Fld × Nat) :=
  [(F.SYS_INFO_ORDERING, s.dev.ordering), (F.DIE_MAP_ENABLED, s.dev.dies), (F.DIE_MAP_RETIRED, s.dev.retired),
   (F.DIE_MAP_BRIDGE_UP, bitmap 2 fun b => s.bridgeUp b), (F.DIE_MAP_BRIDGE_LOST, bitmap 2 fun b => s.bridgeLost b),
   (F.DEVICE_SERIAL, s.dev.serial), (F.VCORE_FUSE_MIN_MV, s.dev.fuseMin), (F.VCORE_FUSE_MAX_MV, s.dev.fuseMax),
   (F.FUNC_ID_KIND, (funcId a).1), (F.FUNC_ID_PARTITION, (funcId a).2.1), (F.FUNC_ID_PORT, (funcId a).2.2)]

def State.viewPACE (s : State) (d sel : Nat) : List (Fld × Nat) :=
  let xs := s.hw.sensors.getD d []
  let x := xs.getD sel {}
  let r := s.rail d
  let seen := s.hw.winT.getD d 0 != 0
  [(F.SENSOR_INCL, if seen then bitmap xs.length fun i => (xs.getD i {}).included else 0),
   (F.SENSOR_READ_PACE, if sel < xs.length then x.reading else 0),
   (F.SENSOR_READ_INCLUDED, b2n (seen && decide (sel < xs.length) && x.included)),
   (F.VREAD_STEPPING, b2n (r.mv != r.target && !r.halted)), (F.VREAD_HALTED, b2n r.halted)]

/-- TIME: PTM port `sel`, time base `b`. A virtual function sees the ports of its partition only (chapter 20). The other time base tracks
the primary to within 5 ns (R68), by how much is measured. -/
def State.viewTIME (s : State) (a : Agent) (b sel : Nat) : List (Fld × Nat) :=
  let shown : Bool := match a with
    | .vf _ p => bit (s.gp F.HOST_PORTS p) sel
    | _ => true
  let x := s.port sel
  let fresh := x.ptmT.any fun t => s.now ≤ t + 2000000000
  let up := !s.time.tbLost.contains b && !s.bridgeLost b
  let on := fun (v : Nat) => if shown then v else 0
  [(F.DEV_TIME, s.now), (F.PTM_STATUS_ENABLED, on (b2n x.ptmEn)), (F.PTM_STATUS_VALID, on (b2n fresh)),
   (F.PTM_OFFSET, on (unsigned 64 x.ptmOffset)), (F.PTM_RATE_PPB, on (unsigned 32 x.ptmPpb)),
   (F.PTM_AGE_US, on (match x.ptmT with | some t => min 0xFFFFFFFF ((s.now - t) / 1000) | none => 0xFFFFFFFF)),
   (F.TB_ROLE_PRIMARY, b2n (up && s.time.primary == b)), (F.TB_ROLE_TRACKING, b2n (up && s.time.primary != b)),
   (F.TB_SKEW_NS, if up && s.time.primary != b then unsigned 32 (((s.measured b % 11 : Nat) : Int) - 5) else 0)]

/-- Least spare rows left in any bank of a stack (SPARE_ROWS_MIN). -/
def State.sparesMin (s : State) (n : Nat) : Nat :=
  min 255 (((s.stack n).spares.map (·.2)).foldl min (Config.spareRows n))

def State.viewHBM (s : State) (n : Nat) : List (Fld × Nat) :=
  let k := s.stack n
  let gone := fun (x : Stack) => x.st == .retired
  [(F.STACKS_ACTIVE, bitmap 8 fun i => (s.stack i).st == .active || (s.stack i).st == .degraded),
   (F.STACKS_RETIRED, bitmap 8 fun i => gone (s.stack i)),
   (F.HBM_GIB, sumBy (·.capGib) s.hw.hbm),
   (F.STACK_STATE_STATE, k.st.code), (F.STACK_STATE_REASON, k.reason),
   (F.STACK_ID_VENDOR, k.vendor), (F.STACK_ID_DENSITY_GIB, if k.st == .absent then 0 else 36), (F.STACK_ID_HEIGHT, k.height),
   (F.PC_OK, k.pcOk), (F.CAP_GIB, k.capGib), (F.RATE, k.mbps), (F.SPARE_ROWS_MIN, s.sparesMin n),
   (F.REPAIR_PENDING, min 0xFFFF k.pendingRepair.length), (F.RETIRED_MIB, min 0xFFFF k.regions.length),
   (F.BW_PM, min 1000 (s.measured (16 * n + 7)))]

def State.viewNM (s : State) (b : Nat) : List (Fld × Nat) :=
  [(F.NM_BUSY, (s.cxl.jobs.filter fun j => j.die == b && j.running).length), (F.NM_QUEUED, kib (s.nmQueued (b)))]

/-! ### The page of a unit that is retired or lost (R811) -/

/-- The unit of a page is retired or lost. -/
def State.unitGone (s : State) (b page : Nat) : Bool :=
  let u := page - 1
  page != 0 &&
  (match b with
   | 0x08 => (s.stack u).st == .retired
   | 0x02 | 0x15 => if u < 8 then bit s.dev.retired u else s.bridgeLost (u - 8)
   | 0x0B | 0x0C => bit s.dev.retired u
   | 0x03 | 0x06 | 0x0A | 0x0D | 0x0E | 0x13 | 0x16 => s.bridgeLost u
   | 0x10 => s.bridgeLost (u / 4 % 2)
   | 0x11 | 0x12 => s.bridgeLost (u / 4)
   | 0x14 => s.bridgeLost (u / 16)
   | _ => false)

/-! ### BLK_STATUS -/

/-- No work of the instance is in flight (R763): page 0 stands for the whole block. -/
def State.idle (s : State) (b page : Nat) : Bool :=
  let u := page - 1
  let all := page == 0
  match b with
  | 0x06 => s.course.halves.all fun h => h.st != .claiming
  | 0x07 => s.plp.meas.phase == 0 && !s.plp.flush.active
  | 0x08 => true
  | 0x09 => s.sq.seals.isEmpty
  | 0x0A => s.pdir.lookups.isEmpty
  | 0x0B => s.tier.moves.all fun m => !all && m.srcDie != u && m.dstDie != u
  | 0x0C => s.part.runs.all fun r => r.stage != 2 || (!all && r.core / 320 != u)
  | 0x0D => s.att.codecs.all fun k => (!all && k.die != 8 + u) || k.lanes.all Option.isNone
  | 0x0E => s.q.cmds.all fun c => !all && s.qreg F.QCTRL_FE c.q != u
  | 0x0F => s.part.runs.all fun r => r.stage != 2
  | 0x10 => s.dlv.pushes.all fun x => x.st != 1 || (!all && x.port != u)
  | 0x11 => s.cxl.reads.all fun r => !all && r.port != u
  | 0x12 => if all then s.net.waits.all fun w => !w.sent
            else s.net.conns.all fun c => c.port != 8 + u || c.unacked.isEmpty
  | 0x13 => s.ftl.units.all fun x => (x.mapped && x.to_.isNone) || (!all && x.bridge != u)
  | 0x14 => s.ftl.units.all fun x => (x.mapped && x.to_.isNone) || (!all && !(s.unitTo x).any fun m => m.1 == u)
  | 0x15 => s.pol.seqrs.all fun q => q.running.isNone || (!all && q.die != u)
  | 0x16 => s.cxl.jobs.all fun j => !j.running || (!all && j.die != u)
  | _ => true

/-- QUIESCED (R761): QUIESCE is set and no work is in flight. -/
def State.quiesced (s : State) (b page : Nat) : Bool :=
  s.cm (Fld.blkQuiesce b (pageUnit page)) page 255 == 1 && s.idle b page

/-- Sub-units of an instance in service and fitted (R764): clusters' cores for ATT (die page, cluster `sel`), pseudo-channels,
stream codec lanes, sequencers, die sensors. -/
def State.subUnits (s : State) (b page sel : Nat) : Option (Nat × Nat) :=
  let u := page - 1
  if page = 0 then none
  else match b with
  | 0x02 => let xs := s.hw.sensors.getD u []; some ((xs.filter (·.included)).length, xs.length)
  | 0x08 => some (popCount 32 (s.stack u).pcOk, 32)
  | 0x0C =>
    if sel = 15 then some (sumBy (fun k => popCount 34 (s.cluster (10 * u + k)).physOk) (List.range 10), 340)
    else some (popCount 34 (s.cluster (10 * u + sel)).physOk, 34)
  | 0x0D => some (((s.codec u).okLanes.filter id).length, 8)
  | 0x15 => let qs := s.pol.seqrs.filter fun q => q.die == u; some ((qs.filter fun q => !q.retired).length, qs.length)
  | _ => none

/-- HEALTH (R764). -/
def State.health (s : State) (b page sel : Nat) (fault : Bool) : Nat :=
  if fault then 0
  else match s.subUnits b page sel with
    | some (w, f) => 15 * w / max 1 f
    | none => 15

/-- SPARES (R761): unused spare cores of a cluster (R20), spare rows of a stack, the spare channel engine (R544). -/
def State.spares (s : State) (b page sel : Nat) : Nat :=
  let u := page - 1
  if page = 0 then 0
  else match b with
  | 0x08 => s.sparesMin u
  | 0x0C => if sel = 15 then sumBy (fun k => (s.cluster (10 * u + k)).spares) (List.range 10)
            else (s.cluster (10 * u + sel)).spares
  | 0x13 => if s.ftl.spareUsed.contains u then 0 else 1
  | _ => 0

/-- BLK_STATUS of an instance (R761): READY, QUIESCED, DEGRADED, FAULT, HEALTH, SPARES. -/
def State.blkStatus (s : State) (b page sel : Nat) : Nat :=
  let k := pageUnit page
  let cl := s.cluster (10 * (page - 1) + sel)
  let attDie := b == 0x0C && page != 0
  let fault := s.cm (Fld.blkFault b k) page 255 == 1 || s.unitGone b page ||
    (attDie && decide (sel < 10) && cl.map.all Option.isNone)
  let deg := if attDie && decide (sel < 10) then cl.worse else s.cm (Fld.blkDegraded b k) page 255 == 1
  b2n s.serving + 2 * b2n (s.quiesced b page) + 4 * b2n deg + 8 * b2n fault +
  16 * s.health b page sel fault + 256 * min 255 (s.spares b page sel)

/-! ### All of them -/

/-- The view fields of a block's page, for an agent, the partition its page is scoped to, and the copy its selector names. -/
def State.views (s : State) (a : Agent) (b page part sel idx : Nat) : List (Fld × Nat) :=
  let u := page - 1
  match b with
  | 0x01 => s.viewSYS a
  | 0x02 => s.viewPACE u sel
  | 0x03 => s.viewTIME a u sel
  | 0x04 => s.viewBOOT sel
  | 0x05 => s.viewSEC part sel
  | 0x06 => s.viewFLT u part sel idx
  | 0x07 => s.viewPLP part
  | 0x08 => s.viewHBM u
  | 0x09 => s.viewSEQ part
  | 0x0A => s.viewPDIR part sel
  | 0x0B => s.viewTIER u part
  | 0x0C => s.viewATT u part sel
  | 0x0D => s.viewCDC u part sel
  | 0x0E => s.viewQMGR u part sel
  | 0x0F => s.viewSCHED part sel
  | 0x10 => s.viewDLV u part sel
  | 0x11 => s.viewCXL u part sel
  | 0x12 => s.viewNET u part sel
  | 0x13 => s.viewFTL u sel
  | 0x14 => s.viewNAND u sel
  | 0x15 => s.viewPOL u part sel
  | 0x16 => s.viewNM u
  | 0x17 => [(F.POWER_MW, s.measured part)]
  | _ => []

/-- The present value of a view field; none for a field that is stored. -/
def State.regView (s : State) (a : Agent) (f : Fld) (page part sel idx : Nat) : Option Nat :=
  if f == F.GATE_OPER then
    some (match (s.port (page - 1)).gate[idx]? with
      | some e => e.mask * 2 ^ 24 + e.ns
      | none => 0)
  else alGet f (s.views a f.blk page part sel idx)

end Sys2Proof.Machine
end

