-- ==== Sys2Proof/Machine/RegRead.lean ====
section
/-! DEFINITION. Where an access to the register map lands, who sees what there, and what a read returns (R751–R769, R806, R808,
R811). -/

namespace Sys2Proof.Machine

/-- Where an address lies: block, page, offset (R752). A virtual function sees page 0 only. -/
def decodeAddr (a : Agent) (addr : Nat) : Option (Nat × Nat × Nat) :=
  match a with
  | .vf _ _ =>
    if addr % 0x8000 < 0x1000 then some (addr / 0x8000, 0, addr % 0x1000) else none
  | _ => some (addr / 0x40000, (addr % 0x40000) / 0x1000, addr % 0x1000)

/-- The block has an instance on the page, and its unit is present (R753). -/
def State.pagePresent (s : State) (b page : Nat) : Bool :=
  1 ≤ b && b ≤ 0x17 && page ≤ unitCount b &&
  (page == 0 ||
    (let u := page - 1
     match b with
     | 0x02 | 0x15 => u ≥ 8 || bit s.dev.dies u
     | 0x08 | 0x0B | 0x0C => bit s.dev.dies u
     | _ => true))

/-- Unit instances of a block that the device has (R753). -/
def State.unitsPresent (s : State) (b : Nat) : Nat := ((List.range (unitCount b)).filter fun u => s.pagePresent b (u + 1)).length

/-- The expert gate of an agent (R767). -/
def State.gateOpen (s : State) (a : Agent) (write : Bool) : Bool :=
  match a with
  | .half _ => true
  | .pf _ => s.g F.EXPERT_GATE_PF == 1
  | .vf _ p => bit (s.g F.EXPERT_GATE_VF) p
  | .quinbel => s.sec.fuses.debug != .none && !write

/-- Offsets a virtual function's page shows, by block (the blocks' sections; R806 for the expert registers). -/
def vfShows (b off : Nat) : Bool :=
  if off < 0x100 then true
  else match b with
    | 0x01 => off = 0x100 || off = 0x104 || (0x108 ≤ off && off < 0x110) || off = 0x11C
    | 0x02 => off < 0x108
    | 0x03 => off < 0x108 || off = 0x10C || (0x130 ≤ off && off < 0x148)
    | 0x04 => off = 0x100
    | 0x05 => 0x108 ≤ off && off < 0x12C
    | 0x06 => 0x150 ≤ off && off < 0x16C
    | 0x07 => 0x118 ≤ off && off < 0x138
    | 0x0A => off < 0x180
    | 0x0B => off < 0x800 || (0x800 ≤ off && off < 0x810)
    | 0x0C => off < 0x800 || off = 0x804
    | 0x11 => off < 0x170 || off = 0x804 || off = 0x808
    | 0x12 => 0x124 ≤ off && off < 0x150
    | 0x13 => 0x108 ≤ off && off < 0x12C
    | 0x15 => (0x104 ≤ off && off < 0x140) || (0x800 ≤ off && off < 0x820)
    | 0x08 | 0x14 => false
    | _ => off < 0x800

/-- Blocks whose virtual-function page is read only. -/
def vfReadOnly (b : Nat) : Bool := b = 0x01 || b = 0x02 || b = 0x04 || b = 0x13

/-- The partition a partition-scoped register refers to for an agent: its own, or the one its PSEL selects (R757, R754);
the device log ring through the physical function (chapter 17). -/
def State.scopePart (s : State) (a : Agent) (b off : Nat) : Nat :=
  match a with
  | .vf _ p => p
  | _ =>
    let n := agentNo a
    match b with
    | 0x05 => s.reg F.SEC_PSEL 0 255 n 0
    | 0x06 => if off < 0x168 then 64 else s.reg F.FLT_PSEL 0 255 n 0
    | 0x07 => s.reg F.PLP_PSEL 0 255 n 0
    | 0x09 => s.reg F.SEQ_PSEL 0 255 n 0
    | 0x0A => s.reg F.PDIR_PSEL 0 255 n 0
    | 0x0B => s.reg F.TIER_PSEL 0 255 n 0
    | 0x0C => s.reg F.ATT_PSEL 0 255 n 0
    | 0x0D => s.reg F.CDC_PSEL 0 255 n 0
    | 0x0E => s.reg F.QMGR_PSEL 0 255 n 0
    | 0x0F => s.reg F.SCHED_PSEL 0 255 n 0
    | 0x10 => s.reg F.DLV_PSEL 0 255 n 0
    | 0x11 => s.reg F.CXL_PSEL 0 255 n 0
    | 0x12 => s.reg F.NET_PSEL 0 255 n 0
    | 0x15 => s.reg F.POL_PSEL 0 255 n 0
    | 0x16 => s.reg F.NM_PSEL 0 255 n 0
    | 0x17 => s.reg F.ACCT_PSEL 0 255 n 0
    | _ => 255

/-- The copy of a field's select register that an agent holds. Virtual functions count key slots from KEY_FIRST and queues
from their own first (chapters 9, 16). -/
def State.selValue (s : State) (a : Agent) (f : Fld) (page : Nat) : Nat :=
  let n := agentNo a
  if f.isSel then n
  else if f.selOff = 0 then 0
  else
    match (F.table f.blk).find? fun g => g.off == f.selOff && g.unit == f.unit with
    | none => 0
    | some g =>
      let v := s.reg g page 255 n 0
      match a with
      | .vf port p =>
        if f.blk = 0x05 then (s.partition p).desc.keyFirst + v
        else if f.blk = 0x0E then
          ((s.q.queues.find? fun q => q.port == port && q.fn == p + 1 && q.loc == v).map (·.num)).getD 65538
        else v
      | _ => v

/-- Every field with bits in the accessed window of a page. -/
def fieldsAt (b page off size : Nat) : List (Fld × Nat) :=
  ((F.table b).filter (fun f => f.unit == (page != 0)) ++ Fld.commonAll b (pageUnit page)).flatMap fun f =>
    if off + size ≤ f.off ∨ f.off + f.count * f.width ≤ off then []
    else
      (List.range f.count).filterMap fun i =>
        let base := f.off + i * f.width
        let a := 8 * (off - base)
        if base ≤ off ∧ off < base + f.width ∧ f.lo < a + 8 * size ∧ a ≤ f.hi then some (f, i)
        else if off < base ∧ base < off + size ∧ f.lo < 8 * (off + size - base) then some (f, i) else none

/-- A partition-scoped field of a FREE partition: reads its reset value, ignores writes (R760). -/
def State.freeScoped (s : State) (f : Fld) (part : Nat) : Bool := f.part && s.partFree part

/-- What an agent reads from one field. A virtual function reads its own partition's number in SEQ_PSEL (chapter 3). -/
def State.readFld (s : State) (a : Agent) (f : Fld) (page part idx : Nat) : Nat :=
  let sel := s.selValue a f page
  if f.acc == .wo then 0
  else if s.freeScoped f part then f.resetAt page idx sel
  else match s.regView a f page part sel idx with
    | some v => v % 2 ^ f.bits
    | none => if f == F.SEQ_PSEL then (match a with | .vf _ p => p | _ => s.reg f page part sel idx) else s.reg f page part sel idx

/-- The partition whose copy of a common-page field an agent reaches: a virtual function its own event unit and watermark
units, any other the units of the partition its PSEL selects where R808 holds one for each (R757); 255 for the instance's own. -/
def State.commonPart (s : State) (a : Agent) (b page off : Nat) : Nat :=
  if off < 0x18 then 255
  else match a with
    | .vf _ p => p
    | _ => if off ≥ 0x80 && wmOfPart b page ((off - 0x80) / 0x20) then s.scopePart a b 0x168 else 255

/-- The copy an access at an offset reaches. -/
def State.pageScope (s : State) (a : Agent) (b page off : Nat) : Nat :=
  if off < 0x100 then s.commonPart a b page off else s.scopePart a b off

/-- The part of the common page that is not stored: BLK_ID, BLK_VER, BLK_CAPS, EXPERT_VIEW, BLK_STATUS (R761, R764, R769). A die page
of ATT shows the cluster the agent's ATT_CSEL selects. -/
def State.commonView (s : State) (a : Agent) (b page off size : Nat) : Nat :=
  let sel := if b = 0x0C && page != 0 then s.reg F.ATT_CSEL page 255 (agentNo a) 0 else 15
  let expert := (F.table b).any fun f => f.off ≥ 0x800 && f.unit == (page != 0)
  let word := fun (o : Nat) =>
    if o = 0 then (if b = 0x0C && page != 0 then b + (if sel < 10 then sel else page - 1) * 2 ^ 16 + (page - 1) * 2 ^ 24 else blkId b page)
    else if o = 4 then 0x100
    else if o = 8 then (if page = 0 then s.unitsPresent b else 0) + wmUnits b page * 2 ^ 8 + b2n expert * 2 ^ 12 + 2 ^ 13
    else if o = 0x10 then 8 * b2n (s.gateOpen a false)
    else if o = 0x14 then s.blkStatus b page sel
    else 0
  let w0 := word (off / 4 * 4)
  if size = 8 then w0 + word (off + 4) * 2 ^ 32 else w0

/-- The value of an aligned access, before its side effects. -/
def State.readWin (s : State) (a : Agent) (b page off size : Nat) : Nat :=
  let p := s.pageScope a b page off
  let fs := fieldsAt b page off size
  let v := fs.foldl (fun acc (fi : Fld × Nat) =>
    let f := fi.1
    let base := f.off + fi.2 * f.width
    let x := s.readFld a f page p fi.2
    -- place the field's bits at their position in the window
    if base ≤ off then acc ||| (((x <<< f.lo) >>> (8 * (off - base))) % 2 ^ (8 * size))
    else acc ||| ((x <<< (f.lo + 8 * (base - off))) % 2 ^ (8 * size))) 0
  if off < 0x18 then v ||| s.commonView a b page off size else v

/-- The agent may see the register at all (R753, R757, R767): none when it reads as zero and ignores writes; the state
carries the count of a closed gate. -/
def State.access (s : State) (a : Agent) (addr : Nat) (write : Bool) : State × Option (Nat × Nat × Nat) :=
  match decodeAddr a addr with
  | none => (s, none)
  | some (b, page, off) =>
    if !s.pagePresent b page then (s, none)
    else
      let shown := match a with | .vf _ _ => vfShows b off | _ => true
      if !shown then (s, none)
      else if off ≥ 0x800 && !s.gateOpen a write then ((s.bump F.EXPERT_DENIALS).raise Ev.EXPERT_DENIED, none)
      else (s, some (b, page, off))

end Sys2Proof.Machine
end

