-- ==== Sys2Proof/Machine/PolOps.lean ====
section
/-! DEFINITION. The primitives a policy program calls (R209–R211, R735–R737) and the run of an event on a sequencer (R726–R734). -/

namespace Sys2Proof.Machine

/-- What a call meets: its status and the results it gives in g2–g6, or a wait for the page's REFS (R211). -/
inductive PrimAns where
  | ret (s : State) (status : Nat) (results : List (Nat × Nat))
  | wait

/-! Status codes of R735. -/
def primOk := 0
def primRefused := 1
def primNone := 2
def primBusy := 3
def primPerm := 4

/-- All ones, the cursor after the last candidate. -/
def allOnes : Nat := 2 ^ 64 - 1

/-- A call that fails: nothing changes (R210). -/
def State.primFail (s : State) (st : Nat) : PrimAns := .ret s st []

/-! ### Pages -/

/-- The page a program names (R737): a status, a wait for its REFS (none), or the page. -/
def State.primPage (s : State) (owner h : Nat) : Except Nat (Option Page) :=
  let p := hPart h
  if owner < 64 ∧ p ≠ owner then .error primPerm
  else match s.page p (hSerial h) with
    | none => .error primNone
    | some x =>
      match s.leafOf p x.serial with
      | some l => if x.handle ≠ h ∨ l.freed then .error primNone else if s.refsKnown l then .ok (some x) else .ok none
      | none => .error primNone

/-- Run a page primitive (R211, R737). -/
def State.onPage (s : State) (owner h : Nat) (f : Page → PrimAns) : PrimAns :=
  match s.primPage owner h with
  | .error st => s.primFail st
  | .ok none => .wait
  | .ok (some x) => f x

/-- The copy of a page at a locator. -/
def State.copyLoc (s : State) (x : Page) (loc : Nat) : Option Copy :=
  (s.copiesOf x.part x.serial).find? fun c => c.tier == loc % 4 && (c.tier ≥ 2 || c.die == loc / 4 % 16)

/-- lookup: the copy at an index, and what the page map holds of the page. -/
def State.primLookup (s : State) (owner h idx : Nat) : PrimAns :=
  s.onPage owner h fun x =>
    match (s.copiesOf x.part x.serial)[idx]? with
    | none => s.primFail primNone
    | some c =>
      let l := s.leafOf x.part x.serial
      let capos := s.capoTiers ((l.map fun (y : Leaf) => y.handle).getD 0)
      let flags := b2n c.backing + 2 * x.own + 8 * b2n (decide (s.now < c.pinUntil)) + 16 * b2n (decide (s.now < c.protUntil)) +
        32 * (capos.min?.getD 0) + 128 * b2n (!capos.isEmpty)
      .ret s primOk [(2, locator c.tier c.die), (3, flags), (4, (l.map s.refs).getD 0), (5, s.scoreOf x), (6, x.stored)]

/-- pin: a copy is protected from demotion until a time within PIN_MAX_MS. -/
def State.primPin (s : State) (owner h loc until_ : Nat) : PrimAns :=
  s.onPage owner h fun x =>
    match s.copyLoc x loc with
    | none => s.primFail primNone
    | some c =>
      if until_ > s.now + s.gp F.PIN_MAX_MS x.part * 1000000 then s.primFail primRefused
      else .ret (s.setCopy x.part x.serial c.tier c.die fun y => { y with pinUntil := max y.pinUntil until_ }) primOk []

/-- move: a copy at the destination, replacing its source when asked (R204, R206, R207, R226, R229). -/
def State.primMove (s : State) (owner h dst opts src : Nat) : PrimAns :=
  s.onPage owner h fun x =>
    let p := x.part
    let t := dst % 4
    let dd := dst / 4 % 16
    let d := if t ≥ 2 then some 15 else if dd = 15 then s.stackFor p x.serial 0 else if s.dieOk dd then some dd else none
    let named := if src = 0xFF then none else some (src % 4, if src % 4 ≥ 2 then 15 else src / 4 % 16)
    let replace := bit opts 0
    match s.moveOf p x.serial with
    | some m => s.primFail (if m.dstTier = t then primOk else primBusy)
    | none =>
      match s.moveSrc p x.serial named, d with
      | none, _ => s.primFail primNone
      | _, none => s.primFail primRefused
      | some c, some d =>
        let here := c.tier == t && (t ≥ 2 || c.die == d)
        if here || (!replace && (s.copyAt p x.serial t d).isSome) then .ret s primOk []
        else if (t = 2 ∧ s.quota p 2 15 = 0) ∨ !s.moveMay x c t replace then s.primFail primRefused
        else match s.softAsk p x.serial t d replace 3 0 0 named with
          | (s1, .started) => .ret s1 primOk []
          | (s1, .joined) => .ret s1 primOk []
          | (s1, .busy) => .ret s1 primBusy []
          | (s1, .noRoom) => .ret s1 primRefused []
          | (s1, .absent) => .ret s1 primNone []

/-- score: read, or FP32 mass of at least 0 added (R217). -/
def State.primScore (s : State) (owner h how mass : Nat) : PrimAns :=
  s.onPage owner h fun x =>
    let m := mass % 2 ^ 32
    if how = 0 then .ret s primOk [(2, s.scoreOf x)]
    else if how ≠ 1 ∨ Fp.isNan m ∨ Fp.lt m 0 then s.primFail primRefused
    else
      let s1 := s.addScore x.part x.serial m x.coldSeq
      .ret s1 primOk [(2, ((s1.page x.part x.serial).map s1.scoreOf).getD 0)]

/-- evict: a cached copy is discarded, or a retained leaf dropped (R160, R209). -/
def State.primEvict (s : State) (owner h loc opts : Nat) : PrimAns :=
  s.onPage owner h fun x =>
    if bit opts 0 then
      match s.leafOf x.part x.serial with
      | some l => if s.retained l then .ret (s.dropRetained l).pump primOk [] else s.primFail primRefused
      | none => s.primFail primNone
    else match s.copyLoc x loc with
      | none => s.primFail primNone
      | some c =>
        if (s.moveOf x.part x.serial).isSome then s.primFail primBusy
        else if c.backing ∨ s.capoOnly c then s.primFail primRefused
        else .ret ((s.dropCopy x.part x.serial c.tier c.die).bumpP F.EVICTIONS x.part).pump primOk []

/-! ### Leaves being sealed, sequences, pools -/

/-- seal: the placement of the event's pending leaf (R204, R740). Answers the instance's `placed` too. For a class P leaf a tier but T3 is taken to
break R204, though step 4 of R123 programs T3 whatever the tier (DESIGN CHOICE, assumption 85). -/
def State.primSeal (s : State) (e : PolEvent) (h t die opts : Nat) : PrimAns :=
  match s.eventJob e with
  | none => s.primFail primNone
  | some j =>
    let f := if j.seq < 2 ^ 48 then j.seq % 256 else 0
    let cached := bit opts 0
    let k : SealJob := { j with die := if die < 8 then die else 15, cached := cached, want := [t] }
    if hPart h ≠ e.part then s.primFail primPerm
    else if h ≠ e.args.getD 0 0 then s.primFail primNone
    else if t = 0 ∨ t > 3 ∨ (j.cls = 2 ∧ t ≠ 3) ∨ (j.cls = 1 ∧ !(t == 3 || (t == 1 && s.leafD j))) then s.primFail primRefused
    else if die ≠ 15 ∧ !s.dieOk die then s.primFail primRefused
    else match s.placeAll k t cached f with
      | none => s.primFail primRefused
      | some (ps, cs) =>
        match s.sealBudget k t with
        | (s1, true) => .ret (s1.placed k t ps cs) primOk []
        | (_, false) => s.primFail primRefused

/-- hint: what the HINT command would do (R230); BATCH needs a table, which a call cannot name. -/
def State.primHint (s : State) (owner kind group seq t lo n : Nat) : PrimAns :=
  if owner ≥ 64 then s.primFail primPerm
  else match kind with
    | 0 => match s.seq owner seq with
      | some y => .ret (if s.gp F.TIER_CTRL_PREFETCH_EN owner = 0 then s
          else s.needHint owner y (List.range y.lens.length) lo n t 0 false) primOk []
      | none => s.primFail primNone
    | 1 => match s.seq owner seq with
      | some y => .ret (s.coldHint y lo n t) primOk []
      | none => s.primFail primNone
    | 2 => if group > 255 then s.primFail primNone else .ret (s.cadenceHint owner group lo n t 0) primOk []
    | 4 => match s.cadence owner group, s.seq owner seq with
      | some g, some y => if g.members.contains y.id then .ret (s.leaveHint g y) primOk [] else s.primFail primNone
      | _, _ => s.primFail primNone
    | _ => s.primFail primRefused

/-- Tier and die of a pool id (R735). -/
def poolId (l : Nat) : Nat × Nat := (l % 4, if l % 4 ≥ 2 then 15 else l / 4 % 16)

/-- cand: the candidates of a pool one by one (R222, R736). -/
def State.primCand (s : State) (owner pool cursor : Nat) : PrimAns :=
  if owner ≥ 64 then s.primFail primPerm
  else
    let q := poolId pool
    let cs := s.candidates owner q.1 q.2
    match cs[cursor]? with
    | none => s.primFail primNone
    | some c =>
      match s.page owner c.serial with
      | none => s.primFail primNone
      | some x =>
        let kept := ((s.leafOf owner c.serial).map s.retained).getD false
        let next := if cursor + 1 < cs.length then cursor + 1 else allOnes
        let flags := locator c.tier c.die + 256 * b2n c.backing + 512 * x.own + 2048 * b2n kept
        .ret s primOk [(2, next), (3, x.handle), (4, flags), (5, s.scoreOf x), (6, x.stored)]

/-- level: a pool's use, quota, level and demotion state. -/
def State.primLevel (s : State) (owner pool : Nat) : PrimAns :=
  let q := poolId pool
  let st := match (s.pool owner q.1 q.2).st with | .idle => 0 | .demoting => 1 | .blocked => 2
  if owner ≥ 64 then s.primFail primPerm
  else if q.1 ≤ 1 ∧ !s.dieOk q.2 then s.primFail primNone
  else .ret s primOk [(2, s.used owner q.1 q.2 / 1024), (3, s.quota owner q.1 q.2 / 1024), (4, s.level owner q.1 q.2), (5, st)]

/-- The agent whose select registers a program reads through: none has written them (R754). -/
def statAgent : Agent := .pf 4096

/-- stat: a register of a package page, partition-scoped for the program's partition; it has no side effects. -/
def State.primStat (s : State) (owner arg : Nat) : PrimAns :=
  let b := bits arg 31 16
  let off := bits arg 11 0
  let size := if ((F.table b ++ Fld.commonAll b 0).any fun f => f.off == off && f.width == 8 && !f.unit) then 8 else 4
  let fs := fieldsAt b 0 off size
  if off % 4 ≠ 0 ∨ fs.isEmpty ∨ !s.pagePresent b 0 then s.primFail primNone
  else if owner < 64 ∧ !(fs.all fun x => x.1.part && decide (0x100 ≤ off)) then s.primFail primPerm
  else
    let v := fs.foldl (fun acc (x : Fld × Nat) =>
      acc ||| ((s.readFld statAgent x.1 0 (if off < 0x100 then 255 else owner) x.2 <<< x.1.lo) % 2 ^ (8 * size))) 0
    let w := if off < 0x18 then v ||| s.commonView statAgent b 0 off size else v
    .ret { s with free := s.free + 1024 } primOk [(2, w)]

/-- emit: a log record of the program's partition (R737). -/
def State.primEmit (s : State) (owner a b c : Nat) : PrimAns :=
  let r : TRec :=
    { code := 0x15FF, cls := 1, source := blkId 0x15 0, count := 1, part := if owner < 64 then owner else 255, first := s.now
      last := s.now, ext := leBytes 8 a ++ leBytes 8 b ++ leBytes 8 c ++ leBytes 8 0 }
  .ret (s.carry r) primOk []

/-- vset: the request of a core rail's voltage (R60, R737). -/
def State.primVset (s : State) (owner rail mv : Nat) : PrimAns :=
  if owner < 64 then s.primFail primPerm
  else if rail ≥ 10 ∨ !s.paceDie rail then s.primFail primNone
  else .ret (s.vset rail mv) primOk []

/-- Latency of a primitive at a pace, ns (R735, R54). -/
def primNs (k pace : Nat) : Nat :=
  atPace (match k with
    | 0 | 2 | 5 => 300
    | 4 | 8 | 9 | 10 => 100
    | _ => 200) pace

/-- PCALL k of an event with the arguments of its registers (R735). -/
def State.prim (s : State) (e : PolEvent) (k : Nat) (x : PolInst) : PrimAns :=
  let o := e.part
  let a := x.g
  match k with
  | 0 => s.primLookup o (a 1) (a 2)
  | 1 => s.primPin o (a 1) (a 2) (a 3)
  | 2 => s.primMove o (a 1) (a 2) (a 3) (a 4)
  | 3 => s.primSeal e (a 1) (a 2) (a 3) (a 4)
  | 4 => s.primScore o (a 1) (a 2) (a 3)
  | 5 => s.primEvict o (a 1) (a 2) (a 3)
  | 6 => s.primHint o (a 1) (a 2) (a 3) (a 4) (a 5) (a 6)
  | 7 => s.primCand o (a 1) (a 2)
  | 8 => s.primLevel o (a 1)
  | 9 => s.primStat o (a 1)
  | 10 => s.primEmit o (a 1) (a 2) (a 3)
  | _ => s.primVset o (a 1) (a 2)

/-- The registers after a call: its status in g1, its results, and in those of g2–g6 for which it gives none a value the chapters leave
open (R735). -/
def PolInst.answered (x : PolInst) (free st : Nat) (rs : List (Nat × Nat)) : PolInst :=
  (List.range 5).foldl (fun (y : PolInst) i => y.set (i + 2) ((alGet (i + 2) rs).getD (Config.freeChoice (free + i)))) (x.set 1 st)

/-! ### The run of an event -/

/-- Units an event may use (R732). -/
def State.polBudget (s : State) (g : Program) : Nat :=
  let b := s.gps F.HOOK_BUDGET g.part g.hook
  if g.budget = 0 then b else min b g.budget

/-- Longest event of an owner's hook, ns (R733). -/
def State.eventMax (s : State) (e : PolEvent) : Nat := s.gps F.EVENT_MAX_US e.part e.hook * 1000

/-- The instance of a sequencer as it stands. -/
def State.setInst (s : State) (die n : Nat) (x : PolInst) : State := s.setSeqr die n fun q => { q with inst := some x }

/-- A program's segment on a die, written. -/
def State.setSeg (s : State) (g : Program) (die : Nat) (words : List Nat) : State :=
  let d : DataSeg := { g.seg die with words := words }
  { s with pol := { s.pol with segs := put (fun y => y.load == g.load && y.die == die) d s.pol.segs } }

/-- HOOK_UNITS_MAX keeps the largest. -/
def State.unitsMax (s : State) (e : PolEvent) (u : Nat) : State :=
  if u > s.gps F.HOOK_UNITS_MAX e.part e.hook then s.wps F.HOOK_UNITS_MAX e.part e.hook u else s

/-- A faulting event ends with the fallback action (R732); more than FAULT_LIMIT faults of a partition within 1 s fault it (R661). -/
def State.polFault (s : State) (die n : Nat) (e : PolEvent) : State :=
  let own := if e.part < 64 then e.part else 255
  let s1 := ((s.endByFallback die n).bumpPS F.HOOK_FAULTS e.part e.hook).raise Ev.PROG_FAULT own
  if e.part ≥ 64 then s1
  else
    let ts := ((s1.partition e.part).polFaults.filter fun t => s1.now < t + 1000000000) ++ [s1.now]
    let s2 := s1.setPart e.part fun y => { y with polFaults := ts }
    if ts.length > s2.gps F.FAULT_LIMIT e.part e.hook then (s2.raise Ev.FAULT_LIMIT own).partFault e.part 2 else s2

/-- The event runs on until it ends, faults, waits for a page's REFS or would go on past EVENT_MAX_US. `fuel` bounds the
instructions; each takes at least one unit of the budget. -/
def State.runEvent (die n : Nat) (e : PolEvent) (startT : Nat) : Nat → State → PolInst → State
  | 0, s, x => s.setInst die n { x with late := true }
  | fuel + 1, s, x =>
    let pace := s.pace die
    let t := x.time pace
    let stop := startT + s.eventMax e
    let seg := (s.segOf x.prog die).words
    if t > stop then s.setInst die n { x with late := true }
    else match x.step1 seg (s.polBudget x.prog) (max s.now t) with
      | .stuck => s.setInst die n { x with late := true }
      | .on y d => State.runEvent die n e startT fuel (if d = seg then s else s.setSeg x.prog die d) y
      | .fault y =>
        let z := y.time pace
        if z > stop then s.setInst die n { y with late := true }
        else (((s.reach z).setInst die n y).unitsMax e y.units).polFault die n e
      | .fin ra rb y =>
        let z := y.time pace
        if z > stop then s.setInst die n { y with late := true }
        else
          let s1 := ((s.reach z).unitsMax e y.units).setInst die n y
          let s2 := s1.freeSeqr die n
          match s2.endResult e y.placed ra rb with
          | some s3 => s3
          | none => s2.fallback e
      | .call k y =>
        let s1 := s.reach t
        match s1.prim e k y with
        | .wait => s1.setInst die n { x with base := t, steps := 0 }
        | .ret s2 st rs =>
          let s3 : State := { s2 with free := s2.free + 5 }
          let z : PolInst := { (y.answered s2.free st rs) with
            base := y.base + primNs k pace, placed := y.placed || (k == 3 && st == primOk) }
          State.runEvent die n e startT fuel s3 z

end Sys2Proof.Machine
end

