-- ==== Sys2Proof/Machine/PolCmds.lean ====
section
/-! DEFINITION. The commands and events of policy programs (chapter 19): loads, event runs, the timer, a full queue, failing
sequencers. -/

namespace Sys2Proof.Machine

/-! ### Loads (R744–R747) -/

/-- Store of a die for programs, bytes (R725). -/
def storeSize (die : Nat) : Nat := if die < 8 then 2 ^ 20 else 2 ^ 21

/-- The program fits the store of every die on which its hook runs, beside those there (R746). -/
def State.storeFits (s : State) (g : Program) : Bool :=
  (s.hookDies g.part g.hook).all fun d => decide (s.storeUsed d + g.storeBytes ≤ storeSize d)

/-- POLICY_LOAD ends BAD_CMD or NO_SPACE (R746, R749). -/
def State.loadRefused (s : State) (c p status : Nat) : State := (s.raise Ev.LOAD_REFUSED (if p < 64 then p else 255)).fail c status

/-- The owner and hook of a POLICY_LOAD exist: a partition that is not FREE, or the device with its hooks 7 and 8 (R745). -/
def State.loadNames (s : State) (p h : Nat) : Bool :=
  (decide (p < 64 ∧ h ≤ 8) && s.pst p != .free) || (p == 64 && (h == 7 || h == 8))

/-- An operand of a POLICY_LOAD is out of its range (R370, R744, R745, R369); with DEFAULT it reads no program. -/
def Cmd.loadBad (x : Cmd) : Bool :=
  let p := x.f 0x18 1
  let h := x.f 0x19 1
  !(decide (p < 64 ∧ h ≤ 8) || (p == 64 && (h == 7 || h == 8))) ||
  (!bit (x.f 0x1A 1) 0 && decide (x.f 0x28 4 > 65536 ∨ x.f 0x20 8 % 16 ≠ 0))

/-- A program is bound, with fresh segments on every die on which it runs, its timer counting from now (R729, R738, R747). -/
def State.bind (s : State) (g : Program) : State :=
  let ps := put (fun (x : Program) => x.part == g.part && x.hook == g.hook) g s.pol.programs
  let segs := s.pol.segs ++ (s.hookDies g.part g.hook).map g.seg
  let tm := if g.hook = 8 then put (fun (x : Nat × Nat × Nat) => x.1 == g.part) (g.part, s.now, 0) s.pol.timers else s.pol.timers
  ({ s with pol := { s.pol with programs := ps, segs := segs, timers := tm } } : State).trimSegs

/-- POLICY_LOAD (R744–R748). -/
def execPolicyLoad (c : Nat) (s : State) : Host.Outcome State Fault Refusal :=
  match s.running c .policyLoad with
  | none => .next s
  | some x =>
    let p := x.f 0x18 1
    let h := x.f 0x19 1
    let addr := x.f 0x20 8
    let len := x.f 0x28 4
    if bit (x.f 0x1A 1) 0 then .next s
    else if x.loadBad || !s.loadNames p h then .next (s.loadRefused c p St.badCmd)
    else match x.buffers [addr] with
      | none => .next s
      | some false => .next (s.fail c St.poison)
      | some true =>
        match x.bufAll addr with
        | none => .next s
        | some b =>
          let sealed_ := p < 64 && s.gp F.SEC_CTRL p == 1
          match (if sealed_ then s.openEnvelope p b len else .ok (b.take len, 0)) with
          | .error st => .next (if st = St.badCmd then s.loadRefused c p st else s.fail c st)
          | .ok (plain, slot) =>
            match parseProgram plain (Blake.hash 32 []) p h c with
            | none => .next (s.loadRefused c p St.badCmd)
            | some g =>
              if !(g.code.zipIdx.all fun i => g.accepts i.2 i.1) then .next (s.loadRefused c p St.badCmd)
              else if !s.storeFits g then .next (s.loadRefused c p St.noSpace)
              else match s.journalled c with
                | (s1, false) => .next (if sealed_ then s1.setCmd c fun y => { y with keys := [(slot, (s.keySlot slot).gen)] } else s1)
                | (s1, true) =>
                  let s2 := ((s1.bind g).journalEnd c).raise Ev.LOAD_DONE (if p < 64 then p else 255)
                  .next (s2.finish c St.ok g.code.length (leNat (g.digest.take 8)))

/-- POLICY_LOAD_DEFAULT (R745): POLICY_LOAD with DEFAULT unbinds the program; the shipped variants decide again. -/
def execPolicyLoadDefault (c : Nat) (s : State) : Host.Outcome State Fault Refusal :=
  match s.running c .policyLoad with
  | none => .next s
  | some x =>
    let p := x.f 0x18 1
    let h := x.f 0x19 1
    if !bit (x.f 0x1A 1) 0 then .next s
    else if x.loadBad || !s.loadNames p h then .next (s.loadRefused c p St.badCmd)
    else match s.journalled c with
      | (s1, false) => .next s1
      | (s1, true) =>
        let ps := del (fun (g : Program) => g.part == p && g.hook == h) s1.pol.programs
        let tm := if h = 8 then del (fun (t : Nat × Nat × Nat) => t.1 == p) s1.pol.timers else s1.pol.timers
        let s2 := ({ s1 with pol := { s1.pol with programs := ps, timers := tm } } : State).trimSegs
        .next (((s2.journalEnd c).raise Ev.LOAD_DONE (if p < 64 then p else 255)).finish c St.ok 0 0)

/-! ### Events (R726–R733) -/

/-- The event is excluded by one that runs: of one pool for DEMOTE, of one sequence for SEAL_PLACE (R726). -/
def State.excluded (s : State) (e : PolEvent) : Bool :=
  (e.hook == 0 || e.hook == 3) && s.pol.seqrs.any fun q => match q.running with
    | some r => r.hook == e.hook && r.part == e.part && r.excl == e.excl
    | none => false

/-- Registers at the start of an event (R729). -/
def State.startRegs (s : State) (e : PolEvent) : List Nat :=
  (List.range 32).map fun i =>
    if 1 ≤ i ∧ i ≤ 8 then e.args.getD (i - 1) 0
    else if 28 ≤ i then unsigned 64 (signed 32 (s.hookParam e.part e.hook (i - 28)))
    else 0

/-- An idle sequencer takes an event: under the program bound now it runs; without one the hook's shipped variant or fallback decides it
(R726, R743, R747). -/
def State.takeEvent (s : State) (die n : Nat) (e : PolEvent) : State :=
  let s0 : State := { s with pol := { s.pol with events := del (fun x => x.id == e.id) s.pol.events } }
  let s1 := s0.setSeqr die n fun q => { q with running := some e, startT := s0.now }
  match s1.hookBy e.part e.hook with
  | .fallback => (s1.freeSeqr die n).fallback e
  | .shipped v => ((s1.freeSeqr die n).bumpPS F.HOOK_EVENTS e.part e.hook).shippedAct e v
  | .program =>
    match s1.program e.part e.hook with
    | none => s1
    | some g =>
      let x : PolInst := { prog := g, regs := s1.startRegs e, base := s1.now }
      State.runEvent die n e s1.now 4224 (s1.bumpPS F.HOOK_EVENTS e.part e.hook) x

/-- POLICY_EVENT_RUN (R726): an idle sequencer takes the oldest event that no running one excludes; one whose event waits for a
page's REFS goes on (R211). -/
def execPolicyEventRun (die sqr : Nat) (s : State) : Host.Outcome State Fault Refusal :=
  match s.seqr die sqr with
  | none => .next s
  | some q =>
    if q.retired ∨ s.hw.stopped ∨ (q.running.isNone ∧ s.paused 0x15 (die + 1)) then .next s
    else match q.running, q.inst with
      | some e, some x =>
        if x.late then .next s else .next (State.runEvent die sqr e q.startT 4224 s { x with base := max x.base s.now })
      | some _, none => .next s
      | none, _ =>
        match (s.eventsOn die).find? fun e => !s.excluded e with
        | some e => .next (s.takeEvent die sqr e)
        | none => .next s

/-- EVENT_MAX_TIMEOUT (R733): the event ends with the fallback action; it is no fault. -/
def execEventMaxTimeout (die sqr : Nat) (s : State) : Host.Outcome State Fault Refusal :=
  match s.seqr die sqr with
  | some q =>
    match q.running with
    | some e => .next ((s.reach (q.startT + s.eventMax e)).endByFallback die sqr)
    | none => .next s
  | none => .next s

/-- POLICY_QUEUE_FULL (R727): an event of the hook finds the die's queue full. Of the events whose cause the command names, the
fallback of a DEMOTING pool of the die is taken; that of the others stands in the meaning that raises the event. -/
def execPolicyQueueFull (die hook part : Nat) (s : State) : Host.Outcome State Fault Refusal :=
  if (s.eventsOn die).length < 1024 ∨ hook > 8 ∨ (part > 64) then .next s
  else
    let s1 := ((s.bumpU F.SQ_OVERFLOW die).raise Ev.OVERFLOW (if part < 64 then part else 255)).bumpPS F.HOOK_FALLBACKS part hook
    let mine := s1.tier.pools.find? fun (x : Pool) =>
      x.part == part && x.st == .demoting && s1.hookDie part (if x.tier ≤ 1 then x.die else 8) == die
    match (if hook = 3 then mine else none) with
    | some x =>
      .next (match s1.firstVictim (s1.candidates part x.tier x.die) with
        | some s2 => s2.pump
        | none => s1.poolBlocked part x.tier x.die)
    | none => .next s1

/-- POLICY_TIMER (R738 hook 8): the period of an owner's TIMER has passed. -/
def execPolicyTimer (part : Nat) (s : State) : Host.Outcome State Fault Refusal :=
  let us := s.gps F.TIMER_PERIOD part 8
  if us = 0 ∨ part > 64 ∨ s.hw.stopped ∨ (part < 64 ∧ s.pst part = .free) then .next s
  else
    let old := (s.pol.timers.find? fun t => t.1 == part).getD (part, s.now, 0)
    let s1 := s.reach (old.2.1 + us * 1000)
    let ticks := old.2.2 + 1
    let s2 : State := { s1 with pol := { s1.pol with
      timers := put (fun (t : Nat × Nat × Nat) => t.1 == part) (part, s1.now, ticks) s1.pol.timers } }
    match s2.hookBy part 8 with
    | .program => .next (s2.hookRaise 8 part 8 [s2.now, ticks] 0 0).1
    | _ => .next (s2.hookCount part 8)

/-- SEQUENCER_FAIL (R728): the sequencer is retired and its event ends with the fallback action; a die without any passes its
hooks on. -/
def execSequencerFail (die sqr : Nat) (s : State) : Host.Outcome State Fault Refusal :=
  match s.seqr die sqr with
  | none => .next s
  | some q =>
    if q.retired then .next s
    else
      let s1 := (s.setSeqr die sqr fun x => { x with retired := true }).endByFallback die sqr
      let s2 := s1.raiseBoth Ev.SQ_RETIRED die
      .next (if (s2.seqrsOn die).isEmpty then s2.moveHooks die else s2)

end Sys2Proof.Machine
end

