-- ==== Sys2Proof/Machine/Bar.lean ====
section
/-! DEFINITION. BAR2 and BAR4 of a function (R359, R363, R393, R771, R772): doorbells, the MSI-X table and its pending bits, the ring SRAM. -/

namespace Sys2Proof.Machine

/-- The BAR an access of a host driver goes to stands in bits 34:32 of its address, above the offset (DESIGN CHOICE, assumption 88). -/
def barOf (addr : Nat) : Nat := addr / 2 ^ 32

/-- The 16 bytes of a table entry: address, data, and the Mask bit. -/
def MsixVec.bytes (e : MsixVec) : Bytes := leBytes 8 e.addr ++ leBytes 4 e.data ++ leBytes 4 (if e.masked then 1 else 0)

/-- A byte of BAR2 (R771); doorbells read as zero (DESIGN CHOICE, assumption 88). -/
def State.bar2Byte (s : State) (port fn off : Nat) : Byte :=
  let v := (off - 0x80000) / 16
  let p := 8 * (off - 0x88000)
  if 0x80000 ≤ off ∧ v < msixCount fn then (s.msixVec port fn v).bytes.getD (off % 16) 0
  else if 0x88000 ≤ off ∧ p < msixCount fn then
    BitVec.ofNat 8 (sumBy (fun (i : Nat) => if (s.msixVec port fn (p + i)).pending then 2 ^ i else 0) (List.range 8))
  else 0

/-- An offset of BAR4 lies in an inline ring of a queue of the function, on a front end that is not lost (R360, R467, R772). -/
def State.inRing (s : State) (port fn off : Nat) : Bool :=
  !s.bridgeLost (off / (8 * 2 ^ 20)) && s.q.queues.any fun x => x.port == port && x.fn == fn &&
    (x.sqInline.toList ++ x.cqInline.toList).any fun r => decide (r.1 ≤ off ∧ off < r.1 + r.2)

/-- What a read of BAR2 or BAR4 returns; of any other range, zero. -/
def State.barRead (s : State) (port fn addr size : Nat) : Nat :=
  let byte_ := fun (i : Nat) =>
    let off := addr % 2 ^ 32 + i
    if barOf addr = 2 then s.bar2Byte port fn off
    else if barOf addr = 4 && s.inRing port fn off then Memory.read s.q.ring off else 0
  leNat ((List.range size).map byte_)

/-- A doorbell is written (R363): the lower word updates SQ_TAIL, the upper one CQ_HEAD and ARM, eight bytes both. -/
def State.bellWrite (s : State) (a : Agent) (off size v : Nat) : State :=
  match s.queueOf a (off / 8) with
  | none => s
  | some q =>
    let hi := if size = 8 then v / 2 ^ 32 else v
    let s1 := if off % 8 = 0 then s.sqBell q (v % 2 ^ 16) else s
    if off % 8 = 4 ∨ size = 8 then s1.cqBell q (hi % 2 ^ 16) (bit hi 31) else s1

/-- An MSI-X table entry is written, four or eight bytes of it (R393). -/
def State.msixWrite (s : State) (port fn off size v : Nat) : State :=
  let e := s.msixVec port fn (off / 16)
  let word := fun (a : State) (w v : Nat) =>
    let e := a.msixVec port fn (off / 16)
    match w with
    | 0 => a.setMsix { e with addr := e.addr / 2 ^ 32 * 2 ^ 32 + v }
    | 1 => a.setMsix { e with addr := e.addr % 2 ^ 32 + v * 2 ^ 32 }
    | 2 => a.setMsix { e with data := v }
    | _ => a.maskMsix e (bit v 0)
  let w := off % 16 / 4
  if e.vec ≥ msixCount fn then s
  else if size = 8 then word (word s w (v % 2 ^ 32)) (w + 1) (v / 2 ^ 32)
  else word s w (v % 2 ^ 32)

/-- An aligned write of four or eight bytes to BAR2 or BAR4 (R363, R771, R772). -/
def State.barWrite (s : State) (a : Agent) (addr size v : Nat) : State :=
  let off := addr % 2 ^ 32
  let port := agentPort a
  let fn := agentFn a
  if barOf addr = 2 then
    if off < 0x80000 then s.bellWrite a off size v
    else if off < 0x88000 then s.msixWrite port fn (off - 0x80000) size v
    else s
  else if barOf addr = 4 && s.inRing port fn off then
    { s with q := { s.q with ring := Memory.writeAll off (leBytes size v) s.q.ring } }
  else s

end Sys2Proof.Machine
end

