-- ==== Sys2Proof/Machine/WmLevel.lean ====
section
/-! DEFINITION. The level each watermark unit watches (R765, R766, R808), block by block, where the state holds it. -/

namespace Sys2Proof.Machine

/-- v per mille of n; of nothing, 0. -/
def perMille (v n : Nat) : Nat := if n = 0 then 0 else 1000 * v / n

/-- A register as the physical function of port 0 reads it, in partition `p` or in the one it has selected, with its own selectors: whose
selection a unit watches the chapters leave open (DESIGN CHOICE, assumption 76). -/
def State.watched (s : State) (f : Fld) (page p : Nat) : Nat :=
  s.readFld (.pf 0) f page (if p < 64 then p else s.scopePart (.pf 0) f.blk f.off) 0

/-- The absolute value of a signed field. -/
def magnitude (n v : Nat) : Nat := if v < 2 ^ (n - 1) then v else 2 ^ n - v

/-- The smallest margin of any rail within its operating range, mV (R723); 0 for one outside it. -/
def State.railMargin (s : State) : Nat :=
  ((s.hw.meas.zipIdx.map fun (e : Meas × Nat) =>
    (min (e.1.value - (s.railRange e.2).1) ((s.railRange e.2).2 - e.1.value)).toNat).min?).getD 0

/-- Level of a tier for a partition over all its pools, per mille (R219). -/
def State.tierLevel (s : State) (p t : Nat) : Nat :=
  let u := s.tierUsed p t
  let q := s.tierQuota p t
  if q = 0 then (if u = 0 then 0 else 0xFFFFFFFF) else 1000 * u / q

/-- A partition's bytes on its busiest stack in the last share window, per mille of its allotment there (R434). -/
def State.stackLevel (s : State) (p : Nat) : Nat :=
  let y := s.partition (if p < 64 then p else s.scopePart (.pf 0) 0x0F 0x10C)
  match argMin (fun (d : Nat) => -((y.got.getD d 0 : Nat) : Int)) (List.range 8) with
  | some d => perMille (y.got.getD d 0) (y.allot.getD d 0)
  | none => 0

/-- The level that unit u of a package instance watches for a partition; none where it is a rate over time or a measure that no field of the
state holds. -/
def State.pkgLevel (s : State) (blk p u : Nat) : Option Nat :=
  let r := fun (f : Fld) => some (s.watched f 0 p)
  let part := fun (f : Run → Bool) => s.part.runs.filter fun x => x.part == p && f x
  match blk, u with
  | 0x01, _ => some (s.measValue (s.cm (Fld.wmSource 1 0 u) 0 255)).1
  | 0x02, _ => r F.PKG_PACE
  | 0x03, 0 => some (magnitude F.OFFSET_NS.bits (s.g F.OFFSET_NS))
  | 0x03, 1 => some (magnitude F.RATE_PPB.bits (s.g F.RATE_PPB))
  | 0x03, _ => some (magnitude F.TB_SKEW_NS.bits (s.watched F.TB_SKEW_NS (2 - s.time.primary) 255))
  | 0x04, 0 => r F.REPUB_LEFT
  | 0x04, 1 => some (maxBy Int.toNat (s.hw.temps.take 10))
  | 0x04, _ => some s.railMargin
  | 0x05, 0 => some (perMille (s.watched F.KEYS_SET 0 p) (s.partition p).desc.keyCount)
  | 0x05, 1 => some s.sec.sessions.length
  | 0x06, 0 => some (s.path 64).alarms.length
  | 0x06, 1 => some (perMille ((s.gp F.LOG_PTRS_TAIL p + s.ringSlots p - s.gp F.LOG_PTRS_HEAD p) % s.ringSlots p) (s.ringSlots p))
  | 0x07, 0 => some (perMille (s.watched F.D_TOTAL 0 p) (s.g F.D_BUDGET))
  | 0x07, 1 => r F.D_USED
  | 0x07, 2 => some (s.g F.HU_ENERGY / 1000)
  | 0x07, _ => r F.P_UNREPLICATED
  | 0x09, 0 => r F.STAGE_USED
  | 0x09, 1 => r F.SEQ_OPEN_CNT
  | 0x09, _ => r F.SEAL_BACKLOG
  | 0x0A, 0 => r F.INDEX_ENTRIES
  | 0x0A, 1 => r F.CAPO_COUNT
  | 0x0A, 2 => some (s.pdir.pubs.filter fun w => w.deferred).length
  | 0x0A, _ => r F.SHARDS_MOVING
  | 0x0B, t => some (s.tierLevel p t)
  | 0x0C, 0 => some (part fun x => x.stage == 1).length
  | 0x0C, _ => some ((part fun x => x.stage == 2).map (·.core)).eraseDups.length
  | 0x0D, 0 => r F.RAW_PERMILLE
  | 0x0D, _ => r F.REMNANT_MIB
  | 0x0E, 0 => r F.QP_USED
  | 0x0E, 1 => some (sumBy (fun (q : Queue) => (s.cmdsOf q.num).length) (s.queuesOf p))
  | 0x0E, _ => some ((s.queue (s.selValue (.pf 0) F.QCTRL_ENABLE 0)).elim 0 fun q => perMille (s.unconsumed q) (s.cqSize q.num))
  | 0x0F, 0 => r F.QG_STATUS_RUNS
  | 0x0F, 1 => r F.MIX_ACTUAL
  | 0x0F, 2 => some (s.stackLevel p)
  | 0x10, 0 => r F.DQ_DEPTH
  | 0x10, 1 => r F.DQ_DELAY
  | 0x10, _ => some (kib (sumBy (·.charge) (s.dlv.pushes.filter fun x => x.part == p && x.st == 0)))
  | 0x11, 0 => r F.WIN_SLOTS
  | 0x11, _ => some (perMille s.cxl.sf.length 16777216)
  | 0x12, 0 => r F.INC_USED
  | 0x12, 1 => r F.CONN_USED
  | 0x12, _ => some s.net.waits.length
  | 0x13, 0 => some (perMille (s.watched F.USED_GIB 0 p) (s.watched F.USER_GIB 0 p))
  | 0x13, 1 => some (perMille (s.watched F.PSLC_USED 0 p) (s.watched F.PSLC_TARGET 0 p))
  | 0x13, 2 => r F.LIFE_USED_PM
  | 0x13, _ => r F.WA_PM
  | 0x15, 0 => r F.FAULTS_1S
  | 0x15, _ => some (perMille (s.watched F.HOOK_UNITS_MAX 0 p) (s.watched F.HOOK_BUDGET 0 p))
  | 0x17, _ => some (s.watched F.POWER_MW 0 p / 1000)
  | _, _ => none

/-- The level that unit u of a unit instance watches. -/
def State.unitLevel (s : State) (blk page p u : Nat) : Option Nat :=
  let r := fun (f : Fld) => some (s.watched f page p)
  let d := page - 1
  match blk, u with
  | 0x02, 0 => r F.CUR_PACE
  | 0x02, 1 => r F.JUNCTION
  | 0x02, _ => r F.VREAD_MV
  | 0x06, _ => r F.MIRROR_LAG
  | 0x08, 0 => r F.TEMP
  | 0x08, 1 => r F.BW_PM
  | 0x0B, t => some (s.level p t d)
  | 0x0C, 0 => some (perMille (s.watched F.MERGE_USED page p) 512)
  | 0x0C, _ => some (s.part.runs.filter fun x => x.die == d && x.stage == 1).length
  | 0x0D, 0 => r F.SC_QUEUES
  | 0x0D, _ => r F.SC_LANES_BUSY
  | 0x0E, _ => r F.FE_QUEUES
  | 0x10, 0 => r F.HELD_ITEMS
  | 0x10, _ => r F.QUEUED_KIB
  | 0x11, 0 => r F.RD_QUEUE
  | 0x11, _ => r F.TRAY_LIMIT
  | 0x13, 0 => r F.SET_FREE_SB
  | 0x13, _ => r F.FOLD_BACKLOG
  | 0x14, 0 => some (perMille (s.watched F.DIE_BAD_BLOCKS page p) (((s.ndie d (s.selValue (.pf 0) F.DIE_BAD_BLOCKS page)).map (·.badMax)).getD 0))
  | 0x14, _ => some (perMille (s.watched F.DIE_WEAR_AVG page p) ratedWear)
  | 0x15, 0 => r F.SQ_QUEUED
  | 0x16, 0 => r F.NM_QUEUED
  | 0x16, _ => r F.NM_BUSY
  | _, _ => none

/-- The level unit u of an instance samples (R766). Rates (per second, per millisecond, per hour, a sequencer's busy share, the bytes of a share
window) are counted over periods the state does not keep: those come with the sample (DESIGN CHOICE, assumption 76). -/
def State.wmSampled (s : State) (blk page p u level : Nat) : Nat :=
  min (((if page = 0 then s.pkgLevel blk p u else s.unitLevel blk page p u)).getD level) 0xFFFFFFFF

end Sys2Proof.Machine
end

