-- ==== Sys2Proof/Machine/RegCmds.lean ====
section
/-! DEFINITION. Register accesses and the commands on the common page (R751–R785, R806, R811) and the SYS block. -/

namespace Sys2Proof.Machine

/-- What an RC field restarts from (R758): a peak or trough from its present level, a count from zero. -/
def State.rcFrom (s : State) (f : Fld) (page part sel : Nat) : Nat :=
  if f.off < 0x100 && f.off ≥ 0x80 && ((f.off - 0x80) % 0x20 = 0x10 || (f.off - 0x80) % 0x20 = 0x14) then
    s.cm (Fld.wmLevel f.blk (pageUnit page) ((f.off - 0x80) / 0x20)) page part
  else if f == F.MIN_PACE then s.reg F.CUR_PACE page part sel 0
  else if f == F.PKG_PACE_MIN then s.reg F.PKG_PACE page part sel 0
  else if f == F.OFFSET_MAX then (signed 32 (s.reg F.OFFSET_NS page part sel 0)).natAbs
  else if f == F.DQ_DEPTH_MAX then s.reg F.DQ_DEPTH page part sel 0
  else if f == F.DQ_DELAY_MAX then s.reg F.DQ_DELAY page part sel 0
  else if f == F.DEVLOAD_MAX then s.reg F.DEVLOAD_LAST page part sel 0
  else 0

/-- Fields that report what the model leaves to the device: each read takes a fresh value. -/
def measuredFields : List Fld :=
  [F.REPLAYS, F.ECN_MARKED, F.CNP_RX, F.RETRANS, F.PAUSE_RX, F.RX_KIB, F.TX_KIB, F.BW_PM, F.POWER_MW, F.TB_SKEW_NS]

/-- The RC fields of a window restart (R758); a page of a retired or lost unit keeps its values (R811). -/
def State.clearRc (s : State) (a : Agent) (b page off size : Nat) : State :=
  let fs := fieldsAt b page off size
  let s0 : State := if fs.any fun fi => measuredFields.contains fi.1 then { s with free := s.free + 1024 } else s
  if s0.unitGone b page then s0 else
  let p := s0.pageScope a b page off
  fs.foldl (fun (acc : State) (fi : Fld × Nat) =>
    let f := fi.1
    if f.acc == .rc && !acc.freeScoped f p then
      let sel := acc.selValue a f page
      acc.setReg f page p sel fi.2 (acc.rcFrom f page p sel)
    else acc) s0

/-- The upper word an agent's 4-byte read returns: the latched one, once (R755). -/
def State.takeLatch (s : State) (n addr : Nat) : Option (Nat × State) :=
  (s.latches.find? fun l => l.1 == n && l.2.1 == addr).map fun l =>
    (l.2.2, { s with latches := s.latches.filter fun x => !(x.1 == n && x.2.1 == addr) })

/-- An access of 1, 2, 4 or 8 bytes aligned to its size; any other is ignored (R755). -/
def accessOk (addr size : Nat) : Bool := (size == 1 || size == 2 || size == 4 || size == 8) && addr % size == 0

/-- A host driver's access to BAR2 or BAR4. -/
def barred (a : Agent) (addr : Nat) : Bool :=
  match a with
  | .pf _ => barOf addr != 0
  | .vf _ _ => barOf addr != 0
  | _ => false

/-- A read of 1 or 2 bytes returns the addressed bytes and does nothing else; an aligned 4- or 8-byte read clears the RC
fields it reads (R755, R758). -/
def State.readReg (s : State) (a : Agent) (addr size : Nat) : State :=
  if s.hw.stopped || !accessOk addr size then s
  else if barred a addr then s.emit (.readReply a (s.barRead (agentPort a) (agentFn a) addr size))
  else match s.access a addr false with
  | (s1, none) => s1.emit (.readReply a 0)
  | (s1, some (b, page, off)) =>
    if size < 4 then s1.emit (.readReply a (s1.readWin a b page (off / 4 * 4) 4 >>> (8 * (off % 4)) % 2 ^ (8 * size)))
    else
      match (if size = 4 then s1.takeLatch (agentNo a) addr else none) with
      | some (v, s2) => s2.emit (.readReply a v)
      | none => (s1.clearRc a b page off size).emit (.readReply a (s1.readWin a b page off size))

/-- A read with what it latches (R755, R77): a 4-byte read of the lower word of a 64-bit register latches the upper word for the agent. -/
def State.readLatch (s : State) (a : Agent) (addr size : Nat) : State :=
  let s1 := s.readReg a addr size
  if s.hw.stopped || size != 4 || !accessOk addr 4 then s1
  else match (s.access a addr false).2 with
    | none => s1
    | some (b, page, off) =>
      if off % 8 = 0 ∧ (fieldsAt b page off 4).any (fun fi => fi.1.width = 8) then
        { s1 with latches := (agentNo a, addr + 4, s.readWin a b page (off + 4) 4) ::
          s1.latches.filter fun x => !(x.1 == agentNo a && x.2.1 == addr + 4) }
      else s1

/-- RC_READ (R755, R758). -/
def execRcRead (a : Agent) (addr size : Nat) (s : State) : Host.Outcome State Fault Refusal := .next (s.readLatch a addr size)

/-- LOW_WORD_READ (R755, R77). -/
def execLowWordRead (a : Agent) (addr : Nat) (s : State) : Host.Outcome State Fault Refusal := .next (s.readLatch a addr 4)

/-- Fields whose write has a row of its own (SYS_SEAL, VSET_WRITE, QUEUE_ENABLE …) take no effect here. -/
def ownRow : List Fld :=
  [F.SYS_SEAL, F.VCORE_RANGE_MIN_MV, F.VCORE_RANGE_MAX_MV, F.VSET, F.QCTRL_ENABLE, F.QCTRL_RESET, F.LOG_CTRL_ENABLE,
   F.LOG_PTRS_HEAD, F.GRP_STATE_COMMIT, F.ACCT_LATCH, F.DEST_CTRL_COMMIT, F.GATE_CTRL_COMMIT, F.WIN_CTRL_COMMIT,
   F.CONN_CTRL_OPEN, F.CONN_CTRL_CLOSE, F.SVN_COMMIT_STAGE, F.SVN_COMMIT_REVOKE, F.PART_FAULT_FORCE, F.BOOT_CTRL_FM_WAIVE,
   F.FLT_CTRL_RETIRE]

/-- Fields of which a write of 0 has a row of its own (GROUP_WITHDRAW, DEST_DISABLE). -/
def zeroRow : List Fld := [F.GRP_ID, F.DEST_CTRL_ENABLE]

/-- The value of a field after bits `v` arrive over its own bits [l, h]. -/
def Fld.written (f : Fld) (old h l v : Nat) : Nat :=
  let mask := (2 ^ (h + 1 - l) - 1) <<< l
  let x := (v % 2 ^ (h + 1 - l)) <<< l
  match f.acc with
  | .w1c => old - (old &&& x)
  | .w1s => old ||| x
  | _ => f.clamped ((old - (old &&& mask)) ||| x)

/-- The base and size of a log ring are written only while it is disabled (R807). -/
def State.writeAllowed (s : State) (f : Fld) (part : Nat) : Bool :=
  if f == F.LOG_BASE || f == F.LOG_CTRL_LOG_LOG2 then s.gp F.LOG_CTRL_ENABLE part == 0 else true

/-- What a write must not reach back to: a group's share of the window under way (R432), and the filling of a policer's buckets up to now (R459). -/
def State.beforeWrite (s : State) (f : Fld) (part sel old : Nat) : State :=
  if f == F.QG_SHARE then
    if (s.partition part).live && (alGet sel (s.partition part).sharesNow).isNone then
      s.setPart part fun y => { y with sharesNow := alSet sel old y.sharesNow }
    else s
  else if [F.PLC_CIR, F.PLC_PIR, F.PLC_BURST_CBS_KIB, F.PLC_BURST_PBS_KIB].contains f then
    { s with dlv := { s.dlv with policers := upd (fun x => x.part == part && x.qg == sel) s.fillPolicer s.dlv.policers } }
  else s

/-- One field takes a write (R758, R760, R770). -/
def State.writeFld (s : State) (a : Agent) (f : Fld) (page part idx h l v : Nat) : State :=
  let sel := s.selValue a f page
  let old := s.reg f page part sel idx
  let new := f.written old h l v
  let isVf := match a with | .vf _ _ => true | _ => false
  let isHalf := match a with | .half _ => true | _ => false
  if ownRow.contains f || (zeroRow.contains f && new == 0) || s.freeScoped f part then s
  else match f.acc with
    | .ro | .rc => s
    | .rwl =>
      if s.g F.SYS_SEAL = 1 then (s.bump F.LOCKED_WRITES).raise Ev.LOCKED_WRITE
      else if s.writeAllowed f part then s.setReg f page part sel idx new else s
    | .rwpf => if isVf then s else s.setReg f page part sel idx new
    | .rwc => if isHalf then s.setReg f page part sel idx new else s
    | .rws => if f == F.ROWS_SPARED && !isHalf then s else s.setReg f page part sel idx new
    | _ =>
      if f == F.HOOK_SEL then s.setReg f page part sel idx (if new > 8 then 0 else new)
      else if s.writeAllowed f part then (s.beforeWrite f part sel old).setReg f page part sel idx new else s

/-- The registers of a queue exist once its first write has come (R358); none where a virtual function names no queue of its own. -/
def State.writtenQueue (s : State) (a : Agent) (b off : Nat) : Option State :=
  if b = 0x0E && 0x104 ≤ off && off < 0x138 then
    match s.queueFor a (s.reg F.QSEL 0 255 (agentNo a) 0) with
    | (s1, some _) => some s1
    | (_, none) => none
  else some s

/-- A bit of an instance's event unit that has an event: one the chapters list, or one of its watermark units (R762). -/
def eventBit (blk page i : Nat) : Bool :=
  56 ≤ i || Ev.all.any fun e => e.blk == blk && e.unit == (page != 0) && e.bit == i

/-- The bits of EVT_MASK of an instance that hold what is written: those of its events that are no alarms (R762); the others are reserved
or have no effect and read zero (R12). -/
def maskBits (blk page : Nat) : Nat :=
  bitmap 64 fun i => eventBit blk page i && !(Ev.all.any fun e => e.blk == blk && e.unit == (page != 0) && e.alarm && e.bit == i)

/-- What follows at once from a write: the port in use among those PTP may use (R70). -/
def State.afterWrite (s : State) (b off : Nat) : State :=
  if b = 0x03 ∧ (off / 8 = F.PTP_CTRL_PORTS.off / 8 ∨ off / 8 = F.TIME_CTRL_PTP_DOMAIN.off / 8) then s.choosePtp else s

/-- The fields of a written window, one after the other. Of the common page, EVT_MASK and the watermark units are plain registers;
latches, EVT_FORCE and BLK_CTRL have rows of their own. -/
def State.writeWin (s : State) (a : Agent) (b page off size value : Nat) : State :=
  match s.writtenQueue a b off with
  | none => s
  | some s0 =>
    let p := s0.pageScope a b page off
    (fieldsAt b page off size).foldl (fun (acc : State) (fi : Fld × Nat) =>
      let f := fi.1
      let base := f.off + fi.2 * f.width
      let lo := 8 * (off - base)
      let hi := 8 * (off + size - base) - 1
      let l := max f.lo lo - f.lo
      let h := min f.hi hi - f.lo
      let v := if base ≤ off then (value <<< lo) >>> (f.lo + l) else value >>> (8 * (base - off) + f.lo + l)
      if f.off < 0x80 then
        if f == Fld.evtMask b (pageUnit page) && !acc.freeScoped f p then
          acc.wcm f page p (f.written (acc.cm f page p) h l v &&& maskBits b page)
        else acc
      else acc.writeFld a f page p fi.2 h l v) s0 |>.afterWrite b off

/-- REGISTER_WRITE (R755, R758, R667): an aligned 4- or 8-byte write by an agent; a course half's write is a control write and
carries its epoch; a host driver's may go to BAR2 or BAR4 (R363, R393, R772). The Quinbel port reads only. -/
def execRegisterWrite (a : Agent) (addr size value epoch : Nat) (s : State) : Host.Outcome State Fault Refusal :=
  if size < 4 ∨ !accessOk addr size ∨ a = .quinbel ∨ s.hw.stopped then .next s
  else if barred a addr then .next (s.barWrite a addr size value)
  else
    match a with
    | .half h =>
      if s.epochOk h epoch then
        match s.access a addr true with
        | (s1, none) => .next s1
        | (s1, some (b, page, off)) => .next (if s1.unitGone b page then s1 else s1.writeWin a b page off size value)
      else
        -- refused: nothing changes but the report, and a lead whose write is stale is fenced (R664, R667)
        let s1 := (s.bumpU F.STALE_REJECTS h).raise Ev.STALE_EPOCH
        .next (if (s.half h).st == .lead then s1.setHalf h fun x => { x with stale := true } else s1)
    | _ =>
      match s.access a addr true with
      | (s1, none) => .next s1
      | (s1, some (b, page, off)) =>
        let ro := match a with | .vf _ _ => vfReadOnly b || off < 0x18 | _ => false
        .next (if ro || s1.unitGone b page then s1 else s1.writeWin a b page off size value)

/-- SYS_SEAL (R770, R774): the seal is set until the next reset. -/
def execSysSeal (s : State) : Host.Outcome State Fault Refusal :=
  if s.g F.SYS_SEAL = 1 then .next s else .next ((s.w F.SYS_SEAL 1).raise Ev.SEALED)

/-- EVT_FORCE_WRITE (R762): each 1 raises its event as if its source had, with the package event that mirrors it; reserved
bits are ignored (R12). -/
def execEvtForceWrite (blk page bits : Nat) (s : State) : Host.Outcome State Fault Refusal :=
  if !s.pagePresent blk page || s.unitGone blk page then .next s
  else .next ((List.range 64).foldl (fun (acc : State) i =>
    if bit bits i && eventBit blk page i then
      let a := acc.raiseAt blk page i 255 (Ev.all.any fun e => e.blk == blk && e.unit == (page != 0) && e.bit == i && e.alarm)
      (Ev.mirrors.filter fun m => m.1.blk == blk && page != 0 && m.1.bit == i).foldl (fun (b : State) m => b.raise m.2) a
    else acc) s)

/-- EVT_LATCH_CLEAR (R758, R759, R762): each 1 clears its latch; when none is left the first-event code reads 0xFF. -/
def execEvtLatchClear (blk page part bits : Nat) (s : State) : Host.Outcome State Fault Refusal :=
  if !s.pagePresent blk page || s.unitGone blk page || s.partFree part then .next s else
  let u := pageUnit page
  let old := s.cm (Fld.evtLatch blk u) page part
  let new := old - (old &&& bits)
  let s1 := s.wcm (Fld.evtLatch blk u) page part new
  .next (if new = 0 then (s1.wcm (Fld.evtFirstCode blk u) page part 0xFF).wcm (Fld.evtFirstTime blk u) page part 0 else s1)

/-- BLK_QUIESCE (R763): QUIESCE stops new work of the instance; QUIESCED shows once none is in flight. -/
def execBlkQuiesce (blk page : Nat) (on : Bool) (s : State) : Host.Outcome State Fault Refusal :=
  if !s.pagePresent blk page || s.unitGone blk page then .next s
  else .next (s.wcm (Fld.blkQuiesce blk (pageUnit page)) page 255 (b2n on))

/-- BLK_SOFT_RESET (R763): only while QUIESCED; RW and RW(PF) fields return to reset, selectors apart; latches, counters and
watermark units are cleared; RWS and RWL fields and the content are kept. -/
def execBlkSoftReset (blk page : Nat) (s : State) : Host.Outcome State Fault Refusal :=
  if !s.quiesced blk page || s.unitGone blk page then .next s
  else
    let gone := fun (k : RegKey) =>
      k.blk == blk && k.page == page &&
      (if k.off < 0x100 then k.off ≥ 0x18
       else (F.table blk).any fun f =>
        f.unit == (page != 0) && f.off ≤ k.off && k.off < f.off + f.count * f.width && f.lo == k.lo && !f.isSel &&
        (f.acc == .rw || f.acc == .rwpf || f.acc == .rc))
    .next { s with regs := s.regs.filter fun e => !gone e.1 }

/-- The port number of a CXL or NET port instance. -/
def portOf (blk page : Nat) : Nat := if blk = 0x12 then 8 + (page - 1) else page - 1

/-- BLK_PORT_ENABLE (R763): writable on port instances of CXL and NET only, and only while QUIESCED. Clearing it takes the
link down (R456), setting it lets the link train. -/
def execBlkPortEnable (blk page : Nat) (on : Bool) (s : State) : Host.Outcome State Fault Refusal :=
  if (blk = 0x11 ∨ blk = 0x12) ∧ page ≠ 0 ∧ s.quiesced blk page then
    let s1 := s.wcm (Fld.blkEnable blk 1) page 255 (b2n on)
    .next (if on then s1 else s1.linkDown (portOf blk page))
  else .next s

/-- A MEAS_SEL index that names a measurement; any other is unused (R775). -/
def measIndex (i : Nat) : Bool := i < 24 || (32 ≤ i && i < 42) || i == 48

/-- WM_SAMPLE (R766): unit u of an instance (of partition `part` where R808 holds one for each, else 255) samples the level it watches;
`level` is the rate it has counted where the level is one. -/
def execWmSample (blk page part u level : Nat) (s : State) : Host.Outcome State Fault Refusal :=
  let k := pageUnit page
  let unused := wmUnits blk page ≤ u || (blk == 1 && !(measIndex (s.cm (Fld.wmSource 1 0 u) 0 255))) ||
    wmOfPart blk page u != decide (part < 64)
  if unused then .next s else
  let lvl := s.wmSampled blk page part u level
  let above := s.cm (Fld.wmAbove blk k u) page part = 1
  let high := s.cm (Fld.wmHigh blk k u) page part
  let low := min high (s.cm (Fld.wmLow blk k u) page part)
  let s1 := s.wcm (Fld.wmLevel blk k u) page part lvl
  let s2 := if lvl > s1.cm (Fld.wmPeak blk k u) page part then s1.wcm (Fld.wmPeak blk k u) page part lvl else s1
  let s3 := if lvl < s2.cm (Fld.wmTrough blk k u) page part then s2.wcm (Fld.wmTrough blk k u) page part lvl else s2
  if s.cm (Fld.wmEnable blk k u) page part = 0 then .next s3
  else if !above ∧ lvl > high then
    let s4 := (s3.wcm (Fld.wmAbove blk k u) page part 1).bumpReg (Fld.wmCross blk k u) page part 0 0 1
    if s4.cm (Fld.wmUp blk k u) page part = 1 then .next s4
    else .next ((s4.wcm (Fld.wmUp blk k u) page part 1).raiseAt blk page (56 + 2 * u) part false)
  else if above ∧ lvl ≤ low then
    let s4 := (s3.wcm (Fld.wmAbove blk k u) page part 0).bumpReg (Fld.wmCross blk k u) page part 0 0 1
    if s4.cm (Fld.wmDown blk k u) page part = 1 then .next s4
    else .next ((s4.wcm (Fld.wmDown blk k u) page part 1).raiseAt blk page (57 + 2 * u) part false)
  else .next s3

/-- VSET_WRITE (R776, R60): clamped to VCORE_RANGE, it replaces the target and clears HALTED. -/
def execVsetWrite (die mv : Nat) (s : State) : Host.Outcome State Fault Refusal := .next (s.vset die mv)

/-- VCORE_RANGE_WRITE (R773, R59): accepted within the fused bounds, else the fused bounds stay and VRANGE_REFUSED is raised;
each die's VSET is clamped into the range. A write under the seal is ignored (R770). -/
def execVcoreRangeWrite (lo hi : Nat) (s : State) : Host.Outcome State Fault Refusal :=
  if s.g F.SYS_SEAL = 1 then .next ((s.bump F.LOCKED_WRITES).raise Ev.LOCKED_WRITE)
  else
    let ok := 680 ≤ lo ∧ s.dev.fuseMin ≤ lo ∧ lo ≤ hi ∧ hi ≤ 920 ∧ hi ≤ s.dev.fuseMax
    let a := if ok then lo else s.dev.fuseMin
    let b := if ok then hi else s.dev.fuseMax
    let s1 := (s.w F.VCORE_RANGE_MIN_MV a).w F.VCORE_RANGE_MAX_MV b
    let s2 := if ok then s1 else s1.raise Ev.VRANGE_REFUSED
    let rails := s2.hw.rails.map fun (r : Rail) => { r with thermal := r.thermal.map fun g => min b (max a g) }
    -- a target that lies outside the range, lowered for heat or not, is set to its nearer end
    .next ((List.range 10).foldl (fun (acc : State) d =>
      let c := min b (max a (acc.rail d).target)
      if !acc.paceDie d || (acc.rail d).target == c then acc
      else (acc.wu F.VSET d c).setRail d fun x => { x with target := c, halted := false, mismatchSince := none })
      { s2 with hw := { s2.hw with rails := rails } })

/-- TELEMETRY_POST (R690). -/
def execTelemetryPost (path : Nat) (s : State) : Host.Outcome State Fault Refusal := .next (s.postNext path)

/-- LOG_ENABLE (R807): the ring restarts at HEAD = TAIL = 0 with PHASE 1; what was not consumed is abandoned. -/
def execLogEnable (part : Nat) (s : State) : Host.Outcome State Fault Refusal :=
  if s.gp F.LOG_CTRL_ENABLE part = 1 ∨ s.partFree part = true then .next s
  else
    let s1 := ((s.wp F.LOG_CTRL_ENABLE part 1).wp F.LOG_PTRS_HEAD part 0).wp F.LOG_PTRS_TAIL part 0
    .next (s1.setPath { s1.path part with phase := true, slots := [], logq := [] })

/-- LOG_DISABLE (R807): posting stops at once; held records are kept. -/
def execLogDisable (part : Nat) (s : State) : Host.Outcome State Fault Refusal :=
  if s.partFree part then .next s
  else .next ((s.wp F.LOG_CTRL_ENABLE part 0).setPath { s.path part with logq := [] })

/-- LOG_HEAD_WRITE (R689): a HEAD at or beyond N, or one that would pass TAIL, is ignored. -/
def execLogHeadWrite (part head : Nat) (s : State) : Host.Outcome State Fault Refusal :=
  let n := s.ringSlots part
  let h := s.gp F.LOG_PTRS_HEAD part
  let t := s.gp F.LOG_PTRS_TAIL part
  let adv := (head + n - h) % n
  if head ≥ n ∨ adv > (t + n - h) % n ∨ s.partFree part = true then .next s
  else .next ((s.wp F.LOG_PTRS_HEAD part head).setPath { s.path part with slots := (s.path part).slots.drop adv })

/-- TRACE_ADJUST (R693): k rises when log and trace records have filled more than 80 % of their share of the path over the
last 1 ms; it falls, never below LOG2_MIN, when they have filled less than 40 % for 100 ms. -/
def execTraceAdjust (path : Nat) (s : State) : Host.Outcome State Fault Refusal :=
  let p := s.path path
  let share := if path ≤ 64 then logShare (s.ringSlots path) else (if path = 65 then s.g F.QB_TELEM * 1000 else 1000) * 8 / 10
  let fill := if path ≤ 64 then (p.slots.filter id).length else p.winLog
  let kMin := if path ≤ 64 then s.gp F.TRACE_CTRL_LOG2_MIN path else 0
  let k := max p.traceK kMin
  if fill * 10 > share * 8 then
    let s1 := s.setPath { p with traceK := k + 1, lowSince := s.now }
    .next ((s1.wp F.TRACE_CTRL_LOG2_NOW path (k + 1)).raise Ev.TRACE_SLOW)
  else if fill * 10 < share * 4 then
    if s.now - p.lowSince ≥ 100000000 then
      let s1 := s.setPath { p with traceK := max kMin (k - 1), lowSince := s.now }
      .next (s1.wp F.TRACE_CTRL_LOG2_NOW path (max kMin (k - 1)))
    else .next (s.setPath { p with traceK := k })
  else .next (s.setPath { p with traceK := k, lowSince := s.now })

end Sys2Proof.Machine
end

