-- ==== Sys2Proof/Machine/RingCmds.lean ====
section
/-! DEFINITION. Acceptance of ring entries with the checks that need more than the entry (R370, R421, R442, R447, R458, R489), the end of host
buffer reads, CANCEL (R381–R384). -/

namespace Sys2Proof.Machine

/-! ### Acceptance -/

/-- The entry at the head of an inline SQ, as it stands in the ring SRAM (R359). -/
def State.inlineEntry (s : State) (x : Queue) : Nat :=
  let o := ((x.sqInline.map (·.1)).getD 0) + 64 * x.sqHead
  leNat ((List.range 64).map fun i => Memory.read s.q.ring (o + i))

/-- The checks of a DELIVER or FETCH at its acceptance (R442), then the prediction of R447. -/
def State.delivAdmit (s : State) (x : Cmd) : Option Nat :=
  match s.dest x.part (x.f 0x28 4) with
  | none => some St.badCmd
  | some e =>
    let total := match s.pageList x with
      | some (.ok ps) => s.recordsBytes (bit (x.f 0x24 1) 1) ps
      | _ => 0
    if e.st ≠ 1 ∨ x.f 0x20 2 ≥ s.gp F.DQ_LIMIT x.part ∨ x.f 0x30 8 + total > e.len then some St.badCmd
    else if (s.port e.port).st = .down then some St.portLost
    else if x.deadline ≠ 0 ∧ s.now + s.predictPush x e total > x.deadline then some St.deadlineMiss
    else none

/-- The status that acceptance decides for an entry by more than its own bytes: the length table (R135), the buffer descriptor (R369), R442
and R447, R489, a deadline that has passed (R421). -/
def State.admitStatus (s : State) (x : Cmd) : Option Nat :=
  let head := x.headAddr.bind x.bufAll
  let bwdBad := x.is .bwd && head.any fun b => [0, 8, 16, 24, 32].any fun o => rd b o 8 % 16 != 0
  let tableBad := !x.is .bwd && head.any fun b => (lenTable b).isNone
  if bwdBad || tableBad then some St.badCmd
  else if x.is .deliver || x.is .fetch then s.delivAdmit x
  else if x.is .nmFill || x.is .nmCopy || x.is .nmCompare || x.is .nmReduce then s.nmCheck x
  else if x.attn && x.deadline != 0 && decide (x.deadline < s.now) then some St.deadlineMiss
  else none

/-- A command ends at its acceptance with a status. -/
def State.turnAway (s : State) (x : Cmd) (st : Nat) : State :=
  let s1 := if st = St.badCmd ∧ x.part < 64 then s.bumpP F.ENTRY_ERRORS x.part else s
  if st = St.portLost then ((s1.bumpP F.HOLD_DROPS x.part).raise Ev.HOLD_DROP x.part).fail x.uid st
  else if x.is .nmFill || x.is .nmCopy || x.is .nmCompare || x.is .nmReduce then
    (if st = St.perm then (s1.bump F.TAG_FAULTS).raise Ev.TAG_FAULT x.part else s1).nmClose x st 0 0
  else s1.fail x.uid st

/-- What acceptance does once it has read what it needs: the checks, the group's policer (R458), and of an attention command the deadline
monitor's first evaluation (R421). -/
def State.letIn (s : State) (c : Nat) : State :=
  match s.cmd c with
  | none => s
  | some x =>
    if !x.live || x.owed then s
    else match s.admitStatus x with
      | some st => s.turnAway x st
      | none =>
        if x.is .policyLoad && x.loadBad then s.loadRefused c (x.f 0x18 1) St.badCmd
        else (s.police c).monitor c

/-- ENTRY_ACCEPT (R365, R366, R370, R412): the entry read from the SQ, none when the read failed or returned poison, and the classes of the
other heads the front end has read. An inline SQ is read from the ring SRAM (R359). Out of its turn an entry is not accepted. -/
def execEntryAccept (q : Nat) (entry : SqRead (Option Nat)) (s : State) : Host.Outcome State Fault Refusal :=
  match s.queue q with
  | some x =>
    if x.st != .active || (q < 65536 && x.sqHead == x.sqTail) then .next s
    else if q < 65536 && s.paused 0x0E (s.qreg F.QCTRL_FE q + 1) then .next s
    else if !s.acceptRoom x then
      if x.paused then .next s
      else .next (((s.setQueue q fun y => { y with paused := true }).bumpP F.ACCEPT_STALLS (s.queuePart q)).raise
        Ev.ACCEPT_PAUSE (s.queuePart q))
    else match (if x.sqInline.isSome then some (s.inlineEntry x) else entry.entry) with
      | none => .next ((s.poisonIn q).queueError q 2)
      | some e => .next (if s.myTurn q e entry.heads then ((s.tookTurn q).acceptEntry x e).letIn s.q.nextUid else s)
  | none => .next s

/-- UNKNOWN_OPCODE (R385): an entry whose opcode is reserved or unknown is accepted, in its turn, and completes VERSION. -/
def execUnknownOpcode (q : Nat) (entry : SqRead Nat) (s : State) : Host.Outcome State Fault Refusal :=
  match s.queue q with
  | some x =>
    let e := if x.sqInline.isSome then s.inlineEntry x else entry.entry
    if x.st != .active || (q < 65536 && x.sqHead == x.sqTail) || !s.acceptRoom x || (Op.ofCode (efld e 0 1)).isSome || !s.myTurn q e entry.heads then .next s
    else .next ((s.tookTurn q).acceptEntry x e)
  | none => .next s

/-- HOST_BUFFER_READ_DONE (R495): a buffer of an accepted command has been read, or returned poison; the checks of acceptance that
waited for it follow. Poison in a length table or a buffer descriptor puts the queue into ERROR too. -/
def execHostBufferReadDone (c addr : Nat) (data : Option Bytes) (s : State) : Host.Outcome State Fault Refusal :=
  match s.cmd c with
  | some x =>
    if !x.live then .next s
    else
      let s1 := s.setCmd c fun y => { y with bufs := put (fun b => b.addr == addr) ⟨addr, data⟩ y.bufs }
      .next (match data with
        | some d =>
          let s2 := s1.chargeCmd c .hostIn d.length false
          if x.owed then s2.letIn c else s2
        | none =>
          let s2 := s1.poisonIn x.q
          if x.headAddr = some addr then s2.queueError x.q 2 else s2)
  | none => .next s

/-! ### CANCEL -/

/-- CANCEL (R381–R384): a target that has not started completes CANCELLED; a started one stops at its next pre-emption point, a
delivery before its next push (R448). -/
def execCancel (c : Nat) (s : State) : Host.Outcome State Fault Refusal :=
  match s.cmd c with
  | some x =>
    if !x.is .cancel || x.st != .started || x.phase != 0 then .next s
    else
      let ts := s.cancelTargets x
      if ts.isEmpty then .next (s.finish c St.miss 0 0)
      else
        let s1 := ts.foldl (fun (a : State) d =>
          if d.st == .waiting || d.is .fence then (a.dropWork d.uid).fail d.uid St.cancelled
          else if (a.deliv d.uid).isSome then a.endDeliv d.uid St.cancelled
          else a.setCmd d.uid fun y => { y with cancelled := true }) s
        .next (s1.setCmd c fun y => { y with phase := 1, waitFor := ts.map (·.uid), count := 0 })
  | none => .next s

end Sys2Proof.Machine
end

