-- ==== Sys2Proof/Machine/Dispatch.lean ====
section
/-! DEFINITION. The dispatch: one arm for each command of the table, each a direct call of its meaning. -/

namespace Sys2Proof.Machine

def exec (i : Instr) (s : State) : Host.Outcome State Fault Refusal :=
  match i with
  | .seqOpen c => Sys2Proof.Machine.execSeqOpen c s
  | .seqOpenAttach c => Sys2Proof.Machine.execSeqOpenAttach c s
  | .seqClose c => Sys2Proof.Machine.execSeqClose c s
  | .seqCloseDone part seq => Sys2Proof.Machine.execSeqCloseDone part seq s
  | .seqForkParent c => Sys2Proof.Machine.execSeqForkParent c s
  | .seqForkHandles c => Sys2Proof.Machine.execSeqForkHandles c s
  | .append c => Sys2Proof.Machine.execAppend c s
  | .seal c => Sys2Proof.Machine.execSeal c s
  | .truncate c => Sys2Proof.Machine.execTruncate c s
  | .lookupPrefix c => Sys2Proof.Machine.execLookupPrefix c s
  | .pin c => Sys2Proof.Machine.execPin c s
  | .unpin c => Sys2Proof.Machine.execUnpin c s
  | .attendDecode c => Sys2Proof.Machine.execAttendDecode c s
  | .attendChunk c => Sys2Proof.Machine.execAttendChunk c s
  | .attendSparse c => Sys2Proof.Machine.execAttendSparse c s
  | .attendFwdStats c => Sys2Proof.Machine.execAttendFwdStats c s
  | .attendBwdCompute c => Sys2Proof.Machine.execAttendBwdCompute c s
  | .attendBwdExport c => Sys2Proof.Machine.execAttendBwdExport c s
  | .attendBwdDiscard c => Sys2Proof.Machine.execAttendBwdDiscard c s
  | .deliver c => Sys2Proof.Machine.execDeliver c s
  | .fetch c => Sys2Proof.Machine.execFetch c s
  | .hintNeed c => Sys2Proof.Machine.execHintNeed c s
  | .hintCold c => Sys2Proof.Machine.execHintCold c s
  | .hintCadence c => Sys2Proof.Machine.execHintCadence c s
  | .hintBatch c => Sys2Proof.Machine.execHintBatch c s
  | .hintLeave c => Sys2Proof.Machine.execHintLeave c s
  | .migrate c => Sys2Proof.Machine.execMigrate c s
  | .evict c => Sys2Proof.Machine.execEvict c s
  | .nmFill c => Sys2Proof.Machine.execNmFill c s
  | .nmCopy c => Sys2Proof.Machine.execNmCopy c s
  | .nmCompare c => Sys2Proof.Machine.execNmCompare c s
  | .nmReduce c => Sys2Proof.Machine.execNmReduce c s
  | .partSet c => Sys2Proof.Machine.execPartSet c s
  | .partClear c => Sys2Proof.Machine.execPartClear c s
  | .geomLoad c => Sys2Proof.Machine.execGeomLoad c s
  | .keySet c => Sys2Proof.Machine.execKeySet c s
  | .keyErase c => Sys2Proof.Machine.execKeyErase c s
  | .policyLoad c => Sys2Proof.Machine.execPolicyLoad c s
  | .policyLoadDefault c => Sys2Proof.Machine.execPolicyLoadDefault c s
  | .fence c => Sys2Proof.Machine.execFence c s
  | .cancel c => Sys2Proof.Machine.execCancel c s
  | .unknownOpcode q entry => Sys2Proof.Machine.execUnknownOpcode q entry s
  | .sqDoorbell q tail => Sys2Proof.Machine.execSqDoorbell q tail s
  | .cqDoorbell q head arm => Sys2Proof.Machine.execCqDoorbell q head arm s
  | .entryAccept q entry => Sys2Proof.Machine.execEntryAccept q entry s
  | .acceptResume q => Sys2Proof.Machine.execAcceptResume q s
  | .commandStart c => Sys2Proof.Machine.execCommandStart c s
  | .completionPost c ok => Sys2Proof.Machine.execCompletionPost c ok s
  | .irqAggTimeout q => Sys2Proof.Machine.execIrqAggTimeout q s
  | .queueEnable a q => Sys2Proof.Machine.execQueueEnable a q s
  | .queueDisable q => Sys2Proof.Machine.execQueueDisable q s
  | .queueDrained q => Sys2Proof.Machine.execQueueDrained q s
  | .queueReset q => Sys2Proof.Machine.execQueueReset q s
  | .queueResetDone q => Sys2Proof.Machine.execQueueResetDone q s
  | .functionLevelReset port fn => Sys2Proof.Machine.execFunctionLevelReset port fn s
  | .appendLeaseExpire part seq => Sys2Proof.Machine.execAppendLeaseExpire part seq s
  | .autoSealStart part seq => Sys2Proof.Machine.execAutoSealStart part seq s
  | .sealCodeDone part seq leaf => Sys2Proof.Machine.execSealCodeDone part seq leaf s
  | .sealProgramsDone part seq leaf => Sys2Proof.Machine.execSealProgramsDone part seq leaf s
  | .sealCommit part seq leaf => Sys2Proof.Machine.execSealCommit part seq leaf s
  | .sealSpaceTimeout part seq leaf => Sys2Proof.Machine.execSealSpaceTimeout part seq leaf s
  | .autoSealRetry part seq => Sys2Proof.Machine.execAutoSealRetry part seq s
  | .granuleRelease part seq leaf => Sys2Proof.Machine.execGranuleRelease part seq leaf s
  | .groupDeclareCommit part slot list => Sys2Proof.Machine.execGroupDeclareCommit part slot list s
  | .groupWithdraw part slot => Sys2Proof.Machine.execGroupWithdraw part slot s
  | .lookupHashDone c => Sys2Proof.Machine.execLookupHashDone c s
  | .lookupShardTimeout c => Sys2Proof.Machine.execLookupShardTimeout c s
  | .lookupImportDone c => Sys2Proof.Machine.execLookupImportDone c s
  | .publishAckTimeout part serial => Sys2Proof.Machine.execPublishAckTimeout part serial s
  | .publishRetry part serial => Sys2Proof.Machine.execPublishRetry part serial s
  | .snapshotCut => Sys2Proof.Machine.execSnapshotCut s
  | .shardRepublishSend => Sys2Proof.Machine.execShardRepublishSend s
  | .tierEvaluate part tier die => Sys2Proof.Machine.execTierEvaluate part tier die s
  | .moveComplete move ok => Sys2Proof.Machine.execMoveComplete move ok s
  | .prefetchIssue part seq layer => Sys2Proof.Machine.execPrefetchIssue part seq layer s
  | .protectExpire part serial tier die => Sys2Proof.Machine.execProtectExpire part serial tier die s
  | .pinExpire part serial tier die => Sys2Proof.Machine.execPinExpire part serial tier die s
  | .pinRenew part lease => Sys2Proof.Machine.execPinRenew part lease s
  | .destageWrite part serial => Sys2Proof.Machine.execDestageWrite part serial s
  | .destageCommit part serial => Sys2Proof.Machine.execDestageCommit part serial s
  | .granuleSave part seq layer first => Sys2Proof.Machine.execGranuleSave part seq layer first s
  | .runRelease part => Sys2Proof.Machine.execRunRelease part s
  | .runDispatch die part => Sys2Proof.Machine.execRunDispatch die part s
  | .runEnd run stop => Sys2Proof.Machine.execRunEnd run stop s
  | .partialArrive c item first => Sys2Proof.Machine.execPartialArrive c item first s
  | .mergeStall die cluster => Sys2Proof.Machine.execMergeStall die cluster s
  | .viewExpire part view => Sys2Proof.Machine.execViewExpire part view s
  | .codecLaneTake lane => Sys2Proof.Machine.execCodecLaneTake lane s
  | .codecLaneFail bridge lane => Sys2Proof.Machine.execCodecLaneFail bridge lane s
  | .shareWindowTick part got => Sys2Proof.Machine.execShareWindowTick part got s
  | .preemptWaitExpire run => Sys2Proof.Machine.execPreemptWaitExpire run s
  | .monitorEval c => Sys2Proof.Machine.execMonitorEval c s
  | .deadlinePass c => Sys2Proof.Machine.execDeadlinePass c s
  | .geomSwitchApply part => Sys2Proof.Machine.execGeomSwitchApply part s
  | .partitionDrained part => Sys2Proof.Machine.execPartitionDrained part s
  | .scrubDone part => Sys2Proof.Machine.execScrubDone part s
  | .acctLatch a => Sys2Proof.Machine.execAcctLatch a s
  | .energyCalibrate coeffs err => Sys2Proof.Machine.execEnergyCalibrate coeffs err s
  | .destCommit part dest => Sys2Proof.Machine.execDestCommit part dest s
  | .destDisable part dest => Sys2Proof.Machine.execDestDisable part dest s
  | .shaperRefill part dest => Sys2Proof.Machine.execShaperRefill part dest s
  | .pushSend port => Sys2Proof.Machine.execPushSend port s
  | .pushAck push ok => Sys2Proof.Machine.execPushAck push ok s
  | .gateCommit port => Sys2Proof.Machine.execGateCommit port s
  | .gateSwitch port => Sys2Proof.Machine.execGateSwitch port s
  | .linkDown port => Sys2Proof.Machine.execLinkDown port s
  | .linkUp port rate width cxl ide partner partnerPort loss => Sys2Proof.Machine.execLinkUp port rate width cxl ide partner partnerPort loss s
  | .holdExpire port => Sys2Proof.Machine.execHoldExpire port s
  | .dlvSample part which => Sys2Proof.Machine.execDlvSample part which s
  | .extGrant msg => Sys2Proof.Machine.execExtGrant msg s
  | .extReleaseReq msg => Sys2Proof.Machine.execExtReleaseReq msg s
  | .extForceRelease msg => Sys2Proof.Machine.execExtForceRelease msg s
  | .evacTimeout ext => Sys2Proof.Machine.execEvacTimeout ext s
  | .extentReleased ext => Sys2Proof.Machine.execExtentReleased ext s
  | .windowExtentAdd msg => Sys2Proof.Machine.execWindowExtentAdd msg s
  | .windowReleaseReq msg => Sys2Proof.Machine.execWindowReleaseReq msg s
  | .hostExtentRelease msg => Sys2Proof.Machine.execHostExtentRelease msg s
  | .windowForceRelease msg => Sys2Proof.Machine.execWindowForceRelease msg s
  | .birsp port lease line => Sys2Proof.Machine.execBirsp port lease line s
  | .windowMapCommit part lease map => Sys2Proof.Machine.execWindowMapCommit part lease map s
  | .mapCommitPoint part lease => Sys2Proof.Machine.execMapCommitPoint part lease s
  | .windowRead port pbr addr tag => Sys2Proof.Machine.execWindowRead port pbr addr tag s
  | .windowWrite port pbr addr => Sys2Proof.Machine.execWindowWrite port pbr addr s
  | .h2dSnoop port addr => Sys2Proof.Machine.execH2dSnoop port addr s
  | .trayResponse tray ext line load data => Sys2Proof.Machine.execTrayResponse tray ext line load data s
  | .viralReceived port => Sys2Proof.Machine.execViralReceived port s
  | .ideFailure port => Sys2Proof.Machine.execIdeFailure port s
  | .ideKeyRefresh port stream keySet => Sys2Proof.Machine.execIdeKeyRefresh port stream keySet s
  | .tdispLockInterface port fn session => Sys2Proof.Machine.execTdispLockInterface port fn session s
  | .tdispStartInterface port fn nonce => Sys2Proof.Machine.execTdispStartInterface port fn nonce s
  | .spdmRequest port fn msg => Sys2Proof.Machine.execSpdmRequest port fn msg s
  | .spdmGetMeasurements session block nonce => Sys2Proof.Machine.execSpdmGetMeasurements session block nonce s
  | .spdmSessionEnd session => Sys2Proof.Machine.execSpdmSessionEnd session s
  | .fmSession port digest open_ => Sys2Proof.Machine.execFmSession port digest open_ s
  | .fmMessageReject port => Sys2Proof.Machine.execFmMessageReject port s
  | .ptmDialogue port t => Sys2Proof.Machine.execPtmDialogue port t s
  | .hello m => Sys2Proof.Machine.execHello m s
  | .heartbeat m => Sys2Proof.Machine.execHeartbeat m s
  | .heartbeatTick => Sys2Proof.Machine.execHeartbeatTick s
  | .heartbeatMiss peer => Sys2Proof.Machine.execHeartbeatMiss peer s
  | .shardQuery m => Sys2Proof.Machine.execShardQuery m s
  | .publish m => Sys2Proof.Machine.execPublish m s
  | .unpublish m => Sys2Proof.Machine.execUnpublish m s
  | .holderStale m => Sys2Proof.Machine.execHolderStale m s
  | .shardXfer m => Sys2Proof.Machine.execShardXfer m s
  | .republish m => Sys2Proof.Machine.execRepublish m s
  | .groupDecl m => Sys2Proof.Machine.execGroupDecl m s
  | .malrothFetch m => Sys2Proof.Machine.execMalrothFetch m s
  | .fetchData m => Sys2Proof.Machine.execFetchData m s
  | .replica m => Sys2Proof.Machine.execReplica m s
  | .incidentReport m => Sys2Proof.Machine.execIncidentReport m s
  | .probe m => Sys2Proof.Machine.execProbe m s
  | .probeSend inc => Sys2Proof.Machine.execProbeSend inc s
  | .probeTimeout inc => Sys2Proof.Machine.execProbeTimeout inc s
  | .incidentDecl m => Sys2Proof.Machine.execIncidentDecl m s
  | .incidentWindowExpire inc => Sys2Proof.Machine.execIncidentWindowExpire inc s
  | .incidentReprobe inc => Sys2Proof.Machine.execIncidentReprobe inc s
  | .ringUpdate m => Sys2Proof.Machine.execRingUpdate m s
  | .ringPull m => Sys2Proof.Machine.execRingPull m s
  | .malrothReply m => Sys2Proof.Machine.execMalrothReply m s
  | .msgTimeout msgId => Sys2Proof.Machine.execMsgTimeout msgId s
  | .connIdleClose conn => Sys2Proof.Machine.execConnIdleClose conn s
  | .connOpen part conn ok => Sys2Proof.Machine.execConnOpen part conn ok s
  | .connClose conn => Sys2Proof.Machine.execConnClose conn s
  | .lldpReceive port tlv => Sys2Proof.Machine.execLldpReceive port tlv s
  | .ptpAnnounce src gm prio interval => Sys2Proof.Machine.execPtpAnnounce src gm prio interval s
  | .ptpSync src t delay logSync twoStep => Sys2Proof.Machine.execPtpSync src t delay logSync twoStep s
  | .syncTimeout => Sys2Proof.Machine.execSyncTimeout s
  | .timeBaseLoss bridge => Sys2Proof.Machine.execTimeBaseLoss bridge s
  | .paceWindow die readings => Sys2Proof.Machine.execPaceWindow die readings s
  | .vcoreStep die => Sys2Proof.Machine.execVcoreStep die s
  | .railMismatch die => Sys2Proof.Machine.execRailMismatch die s
  | .railSample samples => Sys2Proof.Machine.execRailSample samples s
  | .pmbusPoll rail mv ma answered => Sys2Proof.Machine.execPmbusPoll rail mv ma answered s
  | .alertN words => Sys2Proof.Machine.execAlertN words s
  | .thermalStep die temp => Sys2Proof.Machine.execThermalStep die temp s
  | .thermtrip => Sys2Proof.Machine.execThermtrip s
  | .hbmTemp stack temp => Sys2Proof.Machine.execHbmTemp stack temp s
  | .nandProgramDone chan target block ok => Sys2Proof.Machine.execNandProgramDone chan target block ok s
  | .nandReadDone chan target block step bits lua => Sys2Proof.Machine.execNandReadDone chan target block step bits lua s
  | .nandEraseDone chan target block ok => Sys2Proof.Machine.execNandEraseDone chan target block ok s
  | .fold bridge set => Sys2Proof.Machine.execFold bridge set s
  | .gcRun bridge set => Sys2Proof.Machine.execGcRun bridge set s
  | .staticLevel bridge set => Sys2Proof.Machine.execStaticLevel bridge set s
  | .refresh chan target block => Sys2Proof.Machine.execRefresh chan target block s
  | .patrolRead chan target block step bits lua => Sys2Proof.Machine.execPatrolRead chan target block step bits lua s
  | .pslcTargetRecompute bridge => Sys2Proof.Machine.execPslcTargetRecompute bridge s
  | .channelEngineFail chan => Sys2Proof.Machine.execChannelEngineFail chan s
  | .channelFail chan => Sys2Proof.Machine.execChannelFail chan s
  | .dieFail chan target reason => Sys2Proof.Machine.execDieFail chan target reason s
  | .dieRetireStart chan target => Sys2Proof.Machine.execDieRetireStart chan target s
  | .rebuildRow bridge set ok => Sys2Proof.Machine.execRebuildRow bridge set ok s
  | .drainDone chan target => Sys2Proof.Machine.execDrainDone chan target s
  | .classPRestore part serial ok => Sys2Proof.Machine.execClassPRestore part serial ok s
  | .powerFail => Sys2Proof.Machine.execPowerFail s
  | .flushDone => Sys2Proof.Machine.execFlushDone s
  | .powerReturnFlush => Sys2Proof.Machine.execPowerReturnFlush s
  | .holdupMeasure => Sys2Proof.Machine.execHoldupMeasure s
  | .holdupMeasStep uv => Sys2Proof.Machine.execHoldupMeasStep uv s
  | .holdupAbort => Sys2Proof.Machine.execHoldupAbort s
  | .flushRehearsal rate eb ok => Sys2Proof.Machine.execFlushRehearsal rate eb ok s
  | .budgetRecompute uv => Sys2Proof.Machine.execBudgetRecompute uv s
  | .replicaAudit => Sys2Proof.Machine.execReplicaAudit s
  | .replicaKeepExpire owner handle => Sys2Proof.Machine.execReplicaKeepExpire owner handle s
  | .svnCommit stage => Sys2Proof.Machine.execSvnCommit stage s
  | .keyRevoke slot => Sys2Proof.Machine.execKeyRevoke slot s
  | .debugToken token state nonce valid => Sys2Proof.Machine.execDebugToken token state nonce valid s
  | .handshakeTimeout kind unit die => Sys2Proof.Machine.execHandshakeTimeout kind unit die s
  | .coreFail die cluster phys => Sys2Proof.Machine.execCoreFail die cluster phys s
  | .partFaultForce part => Sys2Proof.Machine.execPartFaultForce part s
  | .hbmCe stack bank row => Sys2Proof.Machine.execHbmCe stack bank row s
  | .hbmUe stack addr bank row => Sys2Proof.Machine.execHbmUe stack addr bank row s
  | .pcFail stack pc => Sys2Proof.Machine.execPcFail stack pc s
  | .stackFail stack whole => Sys2Proof.Machine.execStackFail stack whole s
  | .d2dLinkFail die bridge => Sys2Proof.Machine.execD2dLinkFail die bridge s
  | .bridgeFence bridge => Sys2Proof.Machine.execBridgeFence bridge s
  | .bridgeRestartDone bridge ok => Sys2Proof.Machine.execBridgeRestartDone bridge ok s
  | .bridgeLost bridge => Sys2Proof.Machine.execBridgeLost bridge s
  | .deviceRetire => Sys2Proof.Machine.execDeviceRetire s
  | .deviceRetired => Sys2Proof.Machine.execDeviceRetired s
  | .shuarnStart half => Sys2Proof.Machine.execShuarnStart half s
  | .journalCaughtUp half => Sys2Proof.Machine.execJournalCaughtUp half s
  | .standbyPoll half => Sys2Proof.Machine.execStandbyPoll half s
  | .claimRound half => Sys2Proof.Machine.execClaimRound half s
  | .arbiterClaim die half epoch => Sys2Proof.Machine.execArbiterClaim die half epoch s
  | .claimGranted half => Sys2Proof.Machine.execClaimGranted half s
  | .claimTimeout half => Sys2Proof.Machine.execClaimTimeout half s
  | .claimBackoff half => Sys2Proof.Machine.execClaimBackoff half s
  | .leaseRenew half => Sys2Proof.Machine.execLeaseRenew half s
  | .arbiterExpire die => Sys2Proof.Machine.execArbiterExpire die s
  | .leadFence half => Sys2Proof.Machine.execLeadFence half s
  | .halfWatchdog half => Sys2Proof.Machine.execHalfWatchdog half s
  | .mirrorRecord num => Sys2Proof.Machine.execMirrorRecord num s
  | .mirrorTimeout => Sys2Proof.Machine.execMirrorTimeout s
  | .headlessTimeout => Sys2Proof.Machine.execHeadlessTimeout s
  | .telemetryPost path => Sys2Proof.Machine.execTelemetryPost path s
  | .logEnable part => Sys2Proof.Machine.execLogEnable part s
  | .logDisable part => Sys2Proof.Machine.execLogDisable part s
  | .logHeadWrite part head => Sys2Proof.Machine.execLogHeadWrite part head s
  | .traceAdjust path => Sys2Proof.Machine.execTraceAdjust path s
  | .powerGood => Sys2Proof.Machine.execPowerGood s
  | .warmReset => Sys2Proof.Machine.execWarmReset s
  | .bootFirmware half => Sys2Proof.Machine.execBootFirmware half s
  | .claimStartTimeout => Sys2Proof.Machine.execClaimStartTimeout s
  | .bootMeasure samples temps => Sys2Proof.Machine.execBootMeasure samples temps s
  | .bootHbm stack ok vendor height => Sys2Proof.Machine.execBootHbm stack ok vendor height s
  | .bootNand found => Sys2Proof.Machine.execBootNand found s
  | .bootLinks source t => Sys2Proof.Machine.execBootLinks source t s
  | .bootStepFail step unit result => Sys2Proof.Machine.execBootStepFail step unit result s
  | .fmBind => Sys2Proof.Machine.execFmBind s
  | .fmWaitTimeout => Sys2Proof.Machine.execFmWaitTimeout s
  | .fmWaive => Sys2Proof.Machine.execFmWaive s
  | .localService map => Sys2Proof.Machine.execLocalService map s
  | .joinBackoffExpire => Sys2Proof.Machine.execJoinBackoffExpire s
  | .joinGatherExpire => Sys2Proof.Machine.execJoinGatherExpire s
  | .joinSettled => Sys2Proof.Machine.execJoinSettled s
  | .joinRetry => Sys2Proof.Machine.execJoinRetry s
  | .ringGatherExpire => Sys2Proof.Machine.execRingGatherExpire s
  | .joinBatchExpire => Sys2Proof.Machine.execJoinBatchExpire s
  | .warmUp => Sys2Proof.Machine.execWarmUp s
  | .shardCheckpoint => Sys2Proof.Machine.execShardCheckpoint s
  | .policyEventRun die sqr => Sys2Proof.Machine.execPolicyEventRun die sqr s
  | .policyQueueFull die hook part => Sys2Proof.Machine.execPolicyQueueFull die hook part s
  | .eventMaxTimeout die sqr => Sys2Proof.Machine.execEventMaxTimeout die sqr s
  | .policyTimer part => Sys2Proof.Machine.execPolicyTimer part s
  | .sequencerFail die sqr => Sys2Proof.Machine.execSequencerFail die sqr s
  | .sysSeal => Sys2Proof.Machine.execSysSeal s
  | .evtForceWrite blk page bits => Sys2Proof.Machine.execEvtForceWrite blk page bits s
  | .evtLatchClear blk page part bits => Sys2Proof.Machine.execEvtLatchClear blk page part bits s
  | .blkQuiesce blk page on => Sys2Proof.Machine.execBlkQuiesce blk page on s
  | .blkSoftReset blk page => Sys2Proof.Machine.execBlkSoftReset blk page s
  | .blkPortEnable blk page on => Sys2Proof.Machine.execBlkPortEnable blk page on s
  | .wmSample blk page part u level => Sys2Proof.Machine.execWmSample blk page part u level s
  | .vsetWrite die mv => Sys2Proof.Machine.execVsetWrite die mv s
  | .vcoreRangeWrite lo hi => Sys2Proof.Machine.execVcoreRangeWrite lo hi s
  | .rcRead a addr size => Sys2Proof.Machine.execRcRead a addr size s
  | .lowWordRead a addr => Sys2Proof.Machine.execLowWordRead a addr s
  | .registerWrite a addr size value epoch => Sys2Proof.Machine.execRegisterWrite a addr size value epoch s
  | .pwrgdFall => Sys2Proof.Machine.execPwrgdFall s
  | .sysRstNRelease => Sys2Proof.Machine.execSysRstNRelease s
  | .nandStatusTimeout chan target => Sys2Proof.Machine.execNandStatusTimeout chan target s
  | .admitWaitExpire wait => Sys2Proof.Machine.execAdmitWaitExpire wait s
  | .sramUncorrectableError kind die unit part => Sys2Proof.Machine.execSramUncorrectableError kind die unit part s
  | .announceTimeout port => Sys2Proof.Machine.execAnnounceTimeout port s
  | .lldpTimeout port => Sys2Proof.Machine.execLldpTimeout port s
  | .gateIntervalEnd port => Sys2Proof.Machine.execGateIntervalEnd port s
  | .hbmPatrol stack => Sys2Proof.Machine.execHbmPatrol stack s
  | .hostBufferReadDone c addr data => Sys2Proof.Machine.execHostBufferReadDone c addr data s
  | .pcieConfigRequest port => Sys2Proof.Machine.execPcieConfigRequest port s
  | .quinbelImageWrite die slot stage image => Sys2Proof.Machine.execQuinbelImageWrite die slot stage image s
  | .malrothUnknownType m => Sys2Proof.Machine.execMalrothUnknownType m s
  | .replyRetentionExpire src msgId => Sys2Proof.Machine.execReplyRetentionExpire src msgId s

end Sys2Proof.Machine
end

