-- ==== Sys2Proof/Machine/Tick.lean ====
section
/-! DEFINITION. What happens with no command waiting: DEV_TIME passes (R65), queued window reads are served (R486), a fret summary is
rebuilt from its page (R680). -/

namespace Sys2Proof.Machine

/-- The first page whose fret summary is missing and whose bytes can be read gets it again, on a stack that holds the partition's T1
(R213, R680). -/
def State.rebuildSummary (s : State) : State :=
  let due := s.sq.pages.find? fun x => x.summary.isNone && s.readable x.part x.serial &&
    (match s.geom x.part with | some g => g.id == x.geom | none => false)
  match due with
  | none => s
  | some x =>
    match s.geom x.part with
    | none => s
    | some g =>
      let leaf := s.leafOf x.part x.serial
      let at_ := (s.t1Stack x.part ((leaf.map fun (l : Leaf) => l.leafNo).getD 0) x.layer 0).getD x.sumStack
      let d := if s.stackOk x.sumStack && s.quota x.part 1 x.sumStack != 0 then x.sumStack else at_
      let sm := fretSummary g x.layer (imageRows g x.layer (orderT x.order) x.image) x.handle
      let c := s.choose
      c.2.setPage x.part x.serial fun y => { y with summary := some sm, sumStack := d, sumAddr := c.1 }

/-- One nanosecond passes. -/
def State.tick (s : State) : State :=
  if s.hw.stopped then s.nanosecond else s.nanosecond.serveReads.rebuildSummary

end Sys2Proof.Machine
end

