-- ==== Sys2Proof/Safety.lean ====
section
/-! DEFINITION. The terms in which statements about the machine are made: what a command does, how a ring command ends, and which
groups of the state a command may change. -/

namespace Sys2Proof.Machine

/-- The command answers a next state, and that state is as `post` says. -/
def Does (i : Instr) (s : State) (post : State → Prop) : Prop := ∃ t, exec i s = .next t ∧ post t

/-- Ring command c stands at its commit point with this status and these results (R380). -/
abbrev State.ended (t : State) (c status r0 r1 : Nat) : Prop :=
  ∃ y ∈ t.cmd c, y.st = .done ∧ y.status = status ∧ y.r0 = r0 ∧ y.r1 = r1

/-- Ring command c has started with opcode o, no CANCEL has reached it, and x is its record. -/
abbrev State.runs (s : State) (c : Nat) (o : Op) (x : Cmd) : Prop := s.running c o = some x ∧ x.cancelled = false

/-- Ring command number c names one command: a property of every state a run reaches (acceptance numbers rise, R370). -/
abbrev State.sole (s : State) (c : Nat) : Prop := ∀ d ∈ s.q.cmds, d.uid = c → s.cmd c = some d

/-- The numbers of the ring commands are all different, and below the next one to be given (R370). -/
abbrev State.numbersRise (s : State) : Prop := (s.q.cmds.map (·.uid)).Nodup ∧ ∀ c ∈ s.q.cmds, c.uid < s.q.nextUid

/-- Nothing waits for a move or for room: no MIGRATE, no PIN that is being filled, no copy or move that waits, no seal, no memory extent that
is being emptied. -/
abbrev State.quiet (s : State) : Prop :=
  (∀ k ∈ s.q.cmds, k.is .migrate = false) ∧ (∀ k ∈ s.pdir.capos, k.cmd = 0) ∧ s.tier.waits = [] ∧ s.sq.seals = [] ∧ s.tier.behind = [] ∧
  ∀ e ∈ s.cxl.extents, ¬(e.kind = 1 ∧ e.st = .releasing)

/-- What port i held is gone (R456, R457, R497): no push waits on it, a delivery with pushes held there ends PORT_LOST, completions held there
are lost, the host leases through it are revoked. -/
abbrev State.emptied (s t : State) (i : Nat) : Prop :=
  (∀ x ∈ t.dlv.pushes, x.port = i → x.st ≠ 0) ∧
  (∀ d ∈ s.dlv.delivs, (∃ x ∈ s.dlv.pushes, x.port = i ∧ x.st = 0 ∧ x.cmd = d.cmd) → ∀ e ∈ t.deliv d.cmd, e.status = some St.portLost) ∧
  (∀ c ∈ s.q.cmds, c.st = .done → c.q < 65536 → (∃ q ∈ s.queue c.q, q.port = i) → ∀ y ∈ t.q.cmds, y.uid ≠ c.uid) ∧
  (∀ l ∈ t.cxl.leases, l.port ≠ i)

/-- Port p after its link was lost with nothing to hold it back (R456): held, or down where its hold time is 0, with the partner it had. -/
def Port.lost (p : Port) (hold now : Nat) : Port :=
  { p with st := if hold = 0 then .down else .holding, holdT := now, heldPartner := p.identity, trained := false, rate := 0, width := 0
           cxl := false, ideUp := false, ptmT := none, annT := none }

/-- The package event e stands in its block's latch (R762). -/
abbrev State.latched (t : State) (e : EvDef) : Prop := bit (t.cm (Fld.evtLatch e.blk 0) 0 255) e.bit = true

/-- Event e of unit u stands in its latch. -/
abbrev State.latchedU (t : State) (e : EvDef) (u : Nat) : Prop := bit (t.cm (Fld.evtLatch e.blk 1) (u + 1) 255) e.bit = true

/-- A request that is handled now: Malroth is enabled, no reply to it is kept, and it is not the one that makes its sender's time
bad (R509, R526). -/
abbrev State.fresh (s : State) (m : MalMsg) : Prop :=
  s.g F.NET_CTRL_MALROTH_EN ≠ 0 ∧ (∀ k ∈ s.net.kept, ¬(k.src = m.src ∧ k.msgId = m.msgId)) ∧ ∀ p ∈ s.peer m.src, p.timeBad ≠ 15

/-- The request m was answered with this status and body, the answer sent last and kept (R509). -/
abbrev State.replies (s t : State) (m : MalMsg) (status : Nat) (body : Bytes) : Prop :=
  ∃ r : MalMsg, t.out = .malroth r :: s.out ∧ r.reply = true ∧ r.status = status ∧ r.typ = m.typ ∧ r.msgId = m.msgId ∧
    r.src = s.dev.serial ∧ r.dst = m.src ∧ r.body = body ∧ (⟨m.src, m.msgId, r, s.now⟩ : KeptReply) ∈ t.net.kept

/-- A fault of this kind, action and unit is among the fault records kept (R659). -/
abbrev State.recorded (t : State) (kind action unit : Nat) : Prop := ∃ f ∈ t.tel.faults, f.kind = kind ∧ f.action = action ∧ f.unit = unit

/-- The superblock x is the only one of its number, and its set opens others under higher numbers (R546). -/
abbrev State.numbered (s : State) (x : SuperBlk) : Prop :=
  (∀ y ∈ s.ftl.sbs, y.bridge = x.bridge → y.set = x.set → y.num = x.num → y = x) ∧ ∀ k ∈ s.sset x.bridge x.set, x.num < k.nextSb

/-- The good blocks of a NAND die that have been used, and the least wear of its good blocks: 0 while one is unused (R564). -/
def State.usedBlocks (s : State) (d : NDie) : List NBlock :=
  s.ftl.blocks.filter fun b => b.chan == d.chan && b.target == d.target && !d.bad.contains b.num

def State.leastWear (s : State) (d : NDie) : Nat :=
  if (s.usedBlocks d).length + d.bad.length < d.blocks then 0 else (((s.usedBlocks d).map (·.wear)).min?).getD 0

/-- The groups of the state, one for each field beside the queue of waiting commands. -/
inductive Grp where
  | now | free | dev | regs | latches | out | time | tel | course | hw | boot | q | part | sq | pdir | tier | att | dlv | cxl
  | net | ftl | plp | sec | pol
  deriving DecidableEq, Repr

/-- A group is the same in both states. -/
def Grp.same (s t : State) : Grp → Prop
  | .now => t.now = s.now
  | .free => t.free = s.free
  | .dev => t.dev = s.dev
  | .regs => t.regs = s.regs
  | .latches => t.latches = s.latches
  | .out => t.out = s.out
  | .time => t.time = s.time
  | .tel => t.tel = s.tel
  | .course => t.course = s.course
  | .hw => t.hw = s.hw
  | .boot => t.boot = s.boot
  | .q => t.q = s.q
  | .part => t.part = s.part
  | .sq => t.sq = s.sq
  | .pdir => t.pdir = s.pdir
  | .tier => t.tier = s.tier
  | .att => t.att = s.att
  | .dlv => t.dlv = s.dlv
  | .cxl => t.cxl = s.cxl
  | .net => t.net = s.net
  | .ftl => t.ftl = s.ftl
  | .plp => t.plp = s.plp
  | .sec => t.sec = s.sec
  | .pol => t.pol = s.pol

/-- The frame of a command: the waiting commands and every group but those listed are as they were. -/
def Only (gs : List Grp) (s t : State) : Prop := t.pending = s.pending ∧ ∀ g, g ∉ gs → g.same s t

/-- What an event, an alarm or a fault record may change (R686–R695, R727, R762). -/
def Grp.events : List Grp := [.regs, .tel, .pol]

end Sys2Proof.Machine
end

