-- ==== Sys2Proof/WellFormed.lean ====
section
/-! DEFINITION. What makes a command well formed: every operand lies in the range the chapters give it. A command outside it names
nothing the device has; `exec` leaves the state as it is for most of them. -/

namespace Sys2Proof

/-- 64 partitions (R399). -/
def okPart (n : Nat) : Bool := decide (n < 64)
/-- A partition, or 64 for the device (R738, R689). -/
def okOwner (n : Nat) : Bool := decide (n ≤ 64)
/-- A partition's copy, or 255 for the instance's own (R757). -/
def okScope (n : Nat) : Bool := n == 255 || decide (n < 64)
/-- SEQ_ID has 48 bits; 0 and all ones are reserved (R80). -/
def okSeq (n : Nat) : Bool := decide (0 < n ∧ n < 2 ^ 48 - 1)
/-- Dies 0–7 and the bridge dies 8 and 9 (chapter 1). -/
def okDie (n : Nat) : Bool := decide (n < 10)
def okPair (n : Nat) : Bool := decide (n < 2)
def okEight (n : Nat) : Bool := decide (n < 8)
/-- X0–X7, then E0–E7. -/
def okPort (n : Nat) : Bool := decide (n < 16)
/-- 65,536 queue pairs and two supervisor queues (R358, R361). -/
def okQueue (n : Nat) : Bool := decide (n < 65538)
def ok16 (n : Nat) : Bool := decide (n < 2 ^ 16)
def ok64 (n : Nat) : Bool := decide (n < 2 ^ 64)
/-- Page serials have 48 bits (R100). -/
def okSerial (n : Nat) : Bool := decide (n < 2 ^ 48)
/-- 32 NAND channels of 16 targets each (chapter 14). -/
def okChan (n : Nat) : Bool := decide (n < 32)
def okTarget (n : Nat) : Bool := decide (n < 16)
/-- 64 partition rings, the device ring, Quinbel, I3C (R689). -/
def okPath (n : Nat) : Bool := decide (n < 67)
/-- Four tiers (R198), four watermark units (R765), four fused signing keys (R631). -/
def okTier (n : Nat) : Bool := decide (n < 4)
/-- Ten clusters of a die (chapter 1). -/
def okCluster (n : Nat) : Bool := decide (n < 10)
/-- A message or entry of 64 bytes (R367, R473). -/
def okMsg (n : Nat) : Bool := decide (n < 2 ^ 512)
def okEntry (e : Option Nat) : Bool := e.all okMsg

/-- A PTP message comes in on an Ethernet port, over a transport that PTP_CTRL numbers. -/
def okPtp (x : PtpSource) : Bool := decide (x.port < 8) && decide (x.domain < 256) && decide (1 ≤ x.transport) && decide (x.transport ≤ 3)
/-- Heads of queues with their PRIO_CLASS, a 4-bit field. -/
def okHeads (hs : List (Nat × Nat)) : Bool := hs.all fun h => okQueue h.1 && decide (h.2 < 16)
/-- Hooks 0–8 (R738). -/
def okHook (n : Nat) : Bool := decide (n ≤ 8)
/-- Destinations of a partition (R437). -/
def okDest (n : Nat) : Bool := decide (n < 4096)
/-- Firmware stages 1–4 (R628). -/
def okStage (n : Nat) : Bool := decide (1 ≤ n ∧ n ≤ 4)
/-- Boot steps 0–9 (R699). -/
def okStep (n : Nat) : Bool := decide (n < 10)
/-- Block types 0x01–0x17 with at most 32 unit pages (R752, R784). -/
def okBlk (b page : Nat) : Bool := decide (1 ≤ b ∧ b ≤ 0x17 ∧ page ≤ 32)
/-- An access of 1, 2, 4 or 8 bytes, aligned (R755). -/
def okAccess (addr size : Nat) : Bool := (size == 1 || size == 2 || size == 4 || size == 8) && addr % size == 0
/-- The physical function, then one virtual function for each partition (chapter 20). -/
def okFn (n : Nat) : Bool := decide (n ≤ 64)
/-- An agent that exists: functions of the eight CXL ports, the halves, Quinbel. -/
def okAgent (a : Agent) : Bool :=
  match a with
  | .pf p => okEight p
  | .vf p q => okEight p && okPart q
  | .half h => okPair h
  | .quinbel => true
/-- A Malroth message whose fields fit its header (R508). -/
def okMal (m : Machine.MalMsg) : Bool := decide (m.typ < 2 ^ 16 ∧ m.msgId < 2 ^ 32 ∧ m.src < 2 ^ 64 ∧ m.dst < 2 ^ 64)

/-- Every operand of the command lies in its range. -/
def Instr.wf (i : Instr) : Bool :=
  match i with
  | .seqOpen _ => true
  | .seqOpenAttach _ => true
  | .seqClose _ => true
  | .seqCloseDone part seq => okPart part && okSeq seq
  | .seqForkParent _ => true
  | .seqForkHandles _ => true
  | .append _ => true
  | .seal _ => true
  | .truncate _ => true
  | .lookupPrefix _ => true
  | .pin _ => true
  | .unpin _ => true
  | .attendDecode _ => true
  | .attendChunk _ => true
  | .attendSparse _ => true
  | .attendFwdStats _ => true
  | .attendBwdCompute _ => true
  | .attendBwdExport _ => true
  | .attendBwdDiscard _ => true
  | .deliver _ => true
  | .fetch _ => true
  | .hintNeed _ => true
  | .hintCold _ => true
  | .hintCadence _ => true
  | .hintBatch _ => true
  | .hintLeave _ => true
  | .migrate _ => true
  | .evict _ => true
  | .nmFill _ => true
  | .nmCopy _ => true
  | .nmCompare _ => true
  | .nmReduce _ => true
  | .partSet _ => true
  | .partClear _ => true
  | .geomLoad _ => true
  | .keySet _ => true
  | .keyErase _ => true
  | .policyLoad _ => true
  | .policyLoadDefault _ => true
  | .fence _ => true
  | .cancel _ => true
  | .unknownOpcode q e => okQueue q && okMsg e.entry && okHeads e.heads
  | .sqDoorbell q tail => okAgent q.agent && okQueue q.q && ok16 tail
  | .cqDoorbell q head _ => okAgent q.agent && okQueue q.q && ok16 head
  | .entryAccept q e => okQueue q && okEntry e.entry && okHeads e.heads
  | .acceptResume q => okQueue q
  | .commandStart _ => true
  | .completionPost _ _ => true
  | .irqAggTimeout q => okQueue q
  | .queueEnable a q => okAgent a && okQueue q
  | .queueDisable q => okQueue q
  | .queueDrained q => okQueue q
  | .queueReset q => okQueue q
  | .queueResetDone q => okQueue q
  | .functionLevelReset port fn => okPort port && okFn fn
  | .appendLeaseExpire part seq => okPart part && okSeq seq
  | .autoSealStart part seq => okPart part && okSeq seq
  | .sealCodeDone part _ _ => okPart part
  | .sealProgramsDone part _ _ => okPart part
  | .sealCommit part _ _ => okPart part
  | .sealSpaceTimeout part _ _ => okPart part
  | .autoSealRetry part seq => okPart part && okSeq seq
  | .granuleRelease part _ _ => okPart part
  | .groupDeclareCommit part slot _ => okPart part && okEight slot
  | .groupWithdraw part slot => okPart part && okEight slot
  | .lookupHashDone _ => true
  | .lookupShardTimeout _ => true
  | .lookupImportDone _ => true
  | .publishAckTimeout part serial => okPart part && okSerial serial
  | .publishRetry part serial => okPart part && okSerial serial
  | .snapshotCut => true
  | .shardRepublishSend => true
  | .tierEvaluate part tier die => okPart part && okTier tier && okDie die
  | .moveComplete _ _ => true
  | .prefetchIssue part seq _ => okPart part && okSeq seq
  | .protectExpire part serial tier die => okPart part && okSerial serial && okTier tier && okDie die
  | .pinExpire part serial tier die => okPart part && okSerial serial && okTier tier && okDie die
  | .pinRenew part _ => okPart part
  | .destageWrite part serial => okPart part && okSerial serial
  | .destageCommit part serial => okPart part && okSerial serial
  | .granuleSave part seq _ _ => okPart part && okSeq seq
  | .runRelease part => okPart part
  | .runDispatch die part => okEight die && okPart part
  | .runEnd _ stop => decide (stop.bad ≤ 2)
  | .partialArrive _ _ _ => true
  | .mergeStall die cluster => okDie die && okCluster cluster
  | .viewExpire part _ => okPart part
  | .codecLaneTake lane => okPair lane.bridge
  | .codecLaneFail bridge lane => okPair bridge && okEight lane
  | .shareWindowTick part _ => okPart part
  | .preemptWaitExpire _ => true
  | .monitorEval _ => true
  | .deadlinePass _ => true
  | .geomSwitchApply part => okPart part
  | .partitionDrained part => okPart part
  | .scrubDone part => okPart part
  | .acctLatch a => okAgent a
  | .energyCalibrate _ _ => true
  | .destCommit part dest => okPart part && okDest dest
  | .destDisable part dest => okPart part && okDest dest
  | .shaperRefill part dest => okPart part && okDest dest
  | .pushSend port => okPort port
  | .pushAck _ _ => true
  | .gateCommit port => okPort port
  | .gateSwitch port => okPort port
  | .linkDown port => okPort port
  | .linkUp port _ _ _ _ _ _ _ => okPort port
  | .holdExpire port => okPort port
  | .dlvSample part _ => okPart part
  | .extGrant msg => okMsg msg
  | .extReleaseReq msg => okMsg msg
  | .extForceRelease msg => okMsg msg
  | .evacTimeout _ => true
  | .extentReleased _ => true
  | .windowExtentAdd msg => okMsg msg
  | .windowReleaseReq msg => okMsg msg
  | .hostExtentRelease msg => okMsg msg
  | .windowForceRelease msg => okMsg msg
  | .birsp port _ _ => okPort port
  | .windowMapCommit part _ _ => okPart part
  | .mapCommitPoint part _ => okPart part
  | .windowRead port _ _ _ => okPort port
  | .windowWrite port _ _ => okPort port
  | .h2dSnoop port addr => okPort port && ok64 addr
  | .trayResponse _ _ _ _ _ => true
  | .viralReceived port => okPort port
  | .ideFailure port => okPort port
  | .ideKeyRefresh port _ _ => okPort port
  | .tdispLockInterface port fn _ => okPort port && okFn fn
  | .tdispStartInterface port fn _ => okPort port && okFn fn
  | .spdmRequest port fn _ => okPort port && okFn fn
  | .spdmGetMeasurements _ _ _ => true
  | .spdmSessionEnd _ => true
  | .fmSession port _ _ => okPort port
  | .fmMessageReject port => okPort port
  | .ptmDialogue port _ => okPort port
  | .hello m => okMal m
  | .heartbeat m => okMal m
  | .heartbeatTick => true
  | .heartbeatMiss _ => true
  | .shardQuery m => okMal m
  | .publish m => okMal m
  | .unpublish m => okMal m
  | .holderStale m => okMal m
  | .shardXfer m => okMal m
  | .republish m => okMal m
  | .groupDecl m => okMal m
  | .malrothFetch m => okMal m
  | .fetchData m => okMal m
  | .replica m => okMal m
  | .incidentReport m => okMal m
  | .probe m => okMal m
  | .probeSend _ => true
  | .probeTimeout _ => true
  | .incidentDecl m => okMal m
  | .incidentWindowExpire _ => true
  | .incidentReprobe _ => true
  | .ringUpdate m => okMal m
  | .ringPull m => okMal m
  | .malrothReply m => okMal m
  | .msgTimeout _ => true
  | .connIdleClose _ => true
  | .connOpen part _ _ => okPart part
  | .connClose _ => true
  | .lldpReceive port _ => okPort port
  | .ptpAnnounce x _ _ _ => okPtp x
  | .ptpSync x _ _ _ _ => okPtp x
  | .syncTimeout => true
  | .timeBaseLoss bridge => okPair bridge
  | .paceWindow die _ => okDie die
  | .vcoreStep die => okDie die
  | .railMismatch die => okDie die
  | .railSample _ => true
  | .pmbusPoll _ _ _ _ => true
  | .alertN _ => true
  | .thermalStep die _ => okDie die
  | .thermtrip => true
  | .hbmTemp stack _ => okEight stack
  | .nandProgramDone chan target _ _ => okChan chan && okTarget target
  | .nandReadDone chan target _ _ _ _ => okChan chan && okTarget target
  | .nandEraseDone chan target _ _ => okChan chan && okTarget target
  | .fold bridge _ => okPair bridge
  | .gcRun bridge _ => okPair bridge
  | .staticLevel bridge _ => okPair bridge
  | .refresh chan target _ => okChan chan && okTarget target
  | .patrolRead chan target _ _ _ _ => okChan chan && okTarget target
  | .pslcTargetRecompute bridge => okPair bridge
  | .channelEngineFail chan => okChan chan
  | .channelFail chan => okChan chan
  | .dieFail chan target _ => okChan chan && okTarget target
  | .dieRetireStart chan target => okChan chan && okTarget target
  | .rebuildRow bridge _ _ => okPair bridge
  | .drainDone chan target => okChan chan && okTarget target
  | .classPRestore part serial _ => okPart part && okSerial serial
  | .powerFail => true
  | .flushDone => true
  | .powerReturnFlush => true
  | .holdupMeasure => true
  | .holdupMeasStep _ => true
  | .holdupAbort => true
  | .flushRehearsal _ _ _ => true
  | .budgetRecompute _ => true
  | .replicaAudit => true
  | .replicaKeepExpire _ _ => true
  | .svnCommit stage => okStage stage
  | .keyRevoke slot => okTier slot
  | .debugToken _ _ _ _ => true
  | .handshakeTimeout _ _ die => okDie die
  | .coreFail die cluster _ => okDie die && okCluster cluster
  | .partFaultForce part => okPart part
  | .hbmCe stack _ _ => okEight stack
  | .hbmUe stack _ _ _ => okEight stack
  | .pcFail stack _ => okEight stack
  | .stackFail stack _ => okEight stack
  | .d2dLinkFail die bridge => okEight die && okPair bridge
  | .bridgeFence bridge => okPair bridge
  | .bridgeRestartDone bridge _ => okPair bridge
  | .bridgeLost bridge => okPair bridge
  | .deviceRetire => true
  | .deviceRetired => true
  | .shuarnStart half => okPair half
  | .journalCaughtUp half => okPair half
  | .standbyPoll half => okPair half
  | .claimRound half => okPair half
  | .arbiterClaim die half _ => okEight die && okPair half
  | .claimGranted half => okPair half
  | .claimTimeout half => okPair half
  | .claimBackoff half => okPair half
  | .leaseRenew half => okPair half
  | .arbiterExpire die => okEight die
  | .leadFence half => okPair half
  | .halfWatchdog half => okPair half
  | .mirrorRecord _ => true
  | .mirrorTimeout => true
  | .headlessTimeout => true
  | .telemetryPost path => okPath path
  | .logEnable part => okOwner part
  | .logDisable part => okOwner part
  | .logHeadWrite part head => okOwner part && ok16 head
  | .traceAdjust path => okPath path
  | .powerGood => true
  | .warmReset => true
  | .bootFirmware half => okPair half
  | .claimStartTimeout => true
  | .bootMeasure _ _ => true
  | .bootHbm stack _ _ _ => okEight stack
  | .bootNand _ => true
  | .bootLinks _ _ => true
  | .bootStepFail step _ _ => okStep step
  | .fmBind => true
  | .fmWaitTimeout => true
  | .fmWaive => true
  | .localService _ => true
  | .joinBackoffExpire => true
  | .joinGatherExpire => true
  | .joinSettled => true
  | .joinRetry => true
  | .ringGatherExpire => true
  | .joinBatchExpire => true
  | .warmUp => true
  | .shardCheckpoint => true
  | .policyEventRun die sqr => okDie die && okEight sqr
  | .policyQueueFull die hook part => okDie die && okHook hook && okOwner part
  | .eventMaxTimeout die sqr => okDie die && okEight sqr
  | .policyTimer part => okOwner part
  | .sequencerFail die sqr => okDie die && okEight sqr
  | .sysSeal => true
  | .evtForceWrite blk page _ => okBlk blk page
  | .evtLatchClear blk page part _ => okBlk blk page && okScope part
  | .blkQuiesce blk page _ => okBlk blk page
  | .blkSoftReset blk page => okBlk blk page
  | .blkPortEnable blk page _ => okBlk blk page
  | .wmSample blk page part u _ => okBlk blk page && okScope part && okTier u
  | .vsetWrite die _ => okDie die
  | .vcoreRangeWrite _ _ => true
  | .rcRead a addr size => okAgent a && ok64 addr && okAccess addr size
  | .lowWordRead a addr => okAgent a && okAccess addr 4
  | .registerWrite a addr size _ _ => okAgent a && ok64 addr && okAccess addr size
  | .pwrgdFall => true
  | .sysRstNRelease => true
  | .nandStatusTimeout chan target => okChan chan && okTarget target
  | .admitWaitExpire _ => true
  | .sramUncorrectableError _ die _ part => okDie die && okScope part
  | .announceTimeout port => okPort port
  | .lldpTimeout port => okPort port
  | .gateIntervalEnd port => okPort port
  | .hbmPatrol stack => okEight stack
  | .hostBufferReadDone _ addr _ => ok64 addr
  | .pcieConfigRequest port => okPort port
  | .quinbelImageWrite die slot stage _ => okDie die && okPair slot && okStage stage
  | .malrothUnknownType m => okMal m
  | .replyRetentionExpire _ _ => true

end Sys2Proof
end

