-- ==== Sys2Proof/Certificates/Slice0/Obligations.lean ====
section
/-! DEFINITION. The statements about the model, for the provers. -/

open Sys2Proof Sys2Proof.Machine

/-- SEQ_OPEN with an unused SEQ_ID creates an empty sequence with the options' order and home die, epoch 0 and no lease, and ends OK; ATTACH ends OK with the sequence length and with the epoch in the low and K in the high 32 bits and leaves the sequences alone; SEQ_CLOSE makes the sequence closing and takes no other sequence away; SEQ_CLOSE_DONE, when no earlier command naming it is owed, destroys the record and every granule of it. -/
def Obligations.SeqOpenAndClose : Prop :=
  -- seqOpen
  (∀ (s : State) (c : Nat) (x : Cmd) (ge : Geom) (home : Nat),
    (s.runs c .seqOpen x) →
    (bit (x.f 0x19 1) 0 = false) →
    (s.geom x.part = some ge) →
    (s.idUsed x.part x.seq = false) →
    (x.f 0x20 4 = 0 ∨ s.groupActive x.part (x.f 0x20 4) = true) →
    (s.seqRoom x.part = true) →
    ((s.homeDie x.part (x.f 0x1B 1)).2 = some home) →
    Does (.seqOpen c) s fun t =>
      t.ended c St.ok 0 0 ∧
      ∃ q, t.sq = { s.sq with seqs := s.sq.seqs ++ [q] } ∧ t.seq x.part x.seq = some q ∧
        q.geom = ge.id ∧ q.home = home ∧ q.lens = List.replicate ge.layers.length 0 ∧ q.leaves = [] ∧
        q.holder = none ∧ q.epoch = 0 ∧ q.k = 0 ∧ q.closing = false ∧ q.ns = x.f 0x20 4 ∧ q.variant = x.f 0x28 8 ∧
        (x.f 0x18 1 ≠ 0xFF → q.order = x.f 0x18 1) ∧ q.ring = bit (x.f 0x19 1) 1) ∧
  -- seqOpenAttach
  (∀ (s : State) (c : Nat) (x : Cmd) (y : Seq) (ge : Geom),
    (s.runs c .seqOpen x) →
    (bit (x.f 0x19 1) 0 = true) →
    ((s.seqFor x.part x.seq (2 ^ 64)).toOption = some (y, ge)) →
    Does (.seqOpenAttach c) s fun t =>
      t.ended c St.ok y.length (y.epoch + y.k * 2 ^ 32) ∧ t.sq = s.sq ∧ t.tier = s.tier ∧ t.regs = s.regs ∧
      (∀ d, d ≠ c → t.cmd d = s.cmd d)) ∧
  -- seqClose
  (∀ (s : State) (c : Nat) (x : Cmd) (y : Seq) (ge : Geom),
    (s.runs c .seqClose x) →
    (x.phase = 0) →
    ((s.seqFor x.part x.seq (2 ^ 64)).toOption = some (y, ge)) →
    (s.holderCmds y = []) →
    Does (.seqClose c) s fun t =>
      (∃ z, t.seq x.part x.seq = some z ∧ z.closing = true ∧ z.closeCmd = c ∧ z.holder = none ∧ z.lens = y.lens ∧ z.leaves = y.leaves) ∧
      t.sq.seqs.length = s.sq.seqs.length ∧ t.sq.granules = s.sq.granules ∧ t.sq.leaves = s.sq.leaves) ∧
  -- seqCloseDone
  (∀ (s : State) (part seq : Nat) (y : Seq),
    (s.seq part seq = some y) →
    (y.closing = true) →
    (∀ d ∈ s.q.cmds, ¬ (d.part = part ∧ d.uid < y.closeCmd ∧ d.mayName seq = true)) →
    Does (.seqCloseDone part seq) s fun t =>
      t.seq part seq = none ∧ (∀ g ∈ t.sq.granules, ¬ (g.part = part ∧ g.seq = seq)) ∧
      ((∃ x, s.cmd y.closeCmd = some x ∧ x.st = .started) → (∀ d ∈ s.q.cmds, d.uid = y.closeCmd → d.is .seqClose = true) →
        t.ended y.closeCmd St.ok 0 0))

/-- A fork from a parent at position f, where the class needs no flash and the granules fit, ends OK with f and K and adds one child whose every layer has length f, with the parent's order, namespace and variant, the parent's leaves that end at or before f, no lease; the parent is as it was. A fork from n leaf handles that resolve and stand in place makes a child of n leaves, every layer n leaves long, with their order, namespace and variant. -/
def Obligations.SeqForks : Prop :=
  -- seqForkParent
  (∀ (s : State) (c : Nat) (x : Cmd) (par : Seq) (ge : Geom) (home : Nat) (q : Seq),
    (s.runs c .seqFork x) →
    (x.f 0x18 1 = 0) →
    ((s.seqFor x.part (x.f 0x20 6) c).toOption = some (par, ge)) →
    (s.sq.forks.find? (fun h => h.cmd == c) = none) →
    (s.idUsed x.part x.seq = false) →
    (x.f 0x1C 4 ≤ par.length) →
    (s.seqRoom x.part = true) →
    ((s.homeDie x.part (x.f 0x1A 1)).2 = some home) →
    (q = s.forkChild x ge par (x.f 0x1C 4) home) →
    (q.cls ≠ 2) →
    (∀ e ∈ q.leaves, (s.leaf e.2).isSome = true) →
    (s.admitGrans x.part (s.forkGrans x ge par q (x.f 0x1C 4)) = none) →
    Does (.seqForkParent c) s fun t =>
      t.ended c St.ok (x.f 0x1C 4) (q.k * 2 ^ 32) ∧ t.seq x.part x.seq = some q ∧ t.seq x.part (x.f 0x20 6) = some par ∧
      q.lens = List.replicate ge.layers.length (x.f 0x1C 4) ∧ q.order = par.order ∧ q.ns = par.ns ∧ q.variant = par.variant ∧
      q.leaves = (par.leaves.filter fun e => decide ((e.1 + 1) * orderT par.order ≤ x.f 0x1C 4)) ∧ q.holder = none ∧ q.epoch = 0 ∧
      q.home = home ∧ q.geom = ge.id) ∧
  -- seqForkHandles
  (∀ (s : State) (c : Nat) (x : Cmd) (ge : Geom) (home : Nat) (hs : List Nat) (ns va : Nat),
    (s.runs c .seqFork x) →
    (x.f 0x18 1 = 1) →
    (x.buffers [x.f 0x20 8] = some true) →
    (s.geom x.part = some ge) →
    (hs = u64s ((x.bufAll (x.f 0x20 8)).getD []) (x.f 0x1C 4)) →
    (x.f 0x1C 4 ≠ 0) →
    (hOrder (hs.headD 0) ≤ 6) →
    (x.f 0x1C 4 ≤ 2 ^ 24 / orderT (hOrder (hs.headD 0))) →
    (8 * x.f 0x1C 4 ≤ ((x.bufAll (x.f 0x20 8)).getD []).length) →
    (s.idUsed x.part x.seq = false) →
    (∀ h ∈ hs, s.resolve x.part h (hOrder (hs.headD 0)) = none) →
    (∀ e ∈ hs.zipIdx, ∃ l ∈ s.leaf e.1, l.leafNo = e.2 ∧ l.geom = ge.id ∧ l.ns = ns ∧ l.variant = va) →
    (s.seqRoom x.part = true) →
    ((s.homeDie x.part (x.f 0x1A 1)).2 = some home) →
    Does (.seqForkHandles c) s fun t =>
      ∃ q ∈ t.seq x.part x.seq, t.ended c St.ok (x.f 0x1C 4 * orderT (hOrder (hs.headD 0))) (q.k * 2 ^ 32) ∧
        q.lens = List.replicate ge.layers.length (x.f 0x1C 4 * orderT (hOrder (hs.headD 0))) ∧
        q.leaves = (hs.zipIdx.map fun h => (h.2, h.1)) ∧ q.order = hOrder (hs.headD 0) ∧ q.ns = ns ∧ q.variant = va ∧
        q.ring = false ∧ q.holder = none ∧ q.epoch = 0 ∧ q.home = home ∧ q.geom = ge.id ∧ t.sq.granules = s.sq.granules)

/-- An APPEND of one sequence without token IDs, whose layers start together, whose payload is whole, whose class is not P and whose granules fit, ends OK with the length after it and the lease epoch, its rows are in the granules, and the lengths read before its completion is posted are the old ones; a TRUNCATE to t at or below the length ends OK, every layer is t long and the leaves from t's leaf on are dropped, with the lease held; an append lease that expires while no command of its holder runs is free afterwards and LEASE_EXPIRED is raised. -/
def Obligations.AppendTruncateLease : Prop :=
  -- append
  (∀ (s : State) (c : Nat) (x : Cmd) (ge : Geom) (layers : List Nat) (y y' : Seq) (acq : Bool) (data : Bytes) (start : Nat),
    (s.runs c .append x) →
    (x.batch = false) →
    (x.f 0x30 4 = 0) →
    (x.buffers [x.f 0x20 8] = some true) →
    (x.bufAll (x.f 0x20 8) = some data) →
    ((s.seqFor x.part x.seq c).toOption = some (y, ge)) →
    (appendLayers ge x.layer = some layers) →
    (s.takeLease y x.q (x.f 0x1C 4) = some (y', acq)) →
    (layers ≠ []) →
    (∀ l ∈ layers, y.lens.getD l 0 = start) →
    (start + x.f 0x18 4 ≤ 2 ^ 24) →
    (x.f 0x18 4 * sumBy (fun l => posBytes ge (ge.layer l)) layers ≤ data.length) →
    (x.fClass.getD y.cls ≠ 2) →
    (s.admitGrans x.part (appendPuts s ge layers (x.fClass.getD y.cls) x.tag ⟨y', acq, x.f 0x18 4, data, []⟩ s.sq.granules) = none) →
    Does (.append c) s fun t =>
      t.ended c St.ok ((if x.layer = 0xFFFF then y.length else y.lens.getD x.layer 0) + x.f 0x18 4) y'.epoch ∧
      t.sq.granules = (s.putGrans (flashP (appendPuts s ge layers (x.fClass.getD y.cls) x.tag ⟨y', acq, x.f 0x18 4, data, []⟩
        s.sq.granules))).sq.granules ∧
      (∃ z ∈ t.seq x.part x.seq, z.holder = some x.q ∧ z.epoch = y'.epoch ∧ z.lens = y.lens ∧ z.leaves = y.leaves) ∧
      t.sq.pages = s.sq.pages ∧ t.sq.leaves = s.sq.leaves ∧ t.regs = s.regs) ∧
  -- truncate
  (∀ (s : State) (c : Nat) (x : Cmd) (ge : Geom) (y0 y : Seq) (acq : Bool),
    (s.runs c .truncate x) →
    (s.sole c) →
    (x.f 0x28 4 = 0) →
    ((s.seqFor x.part x.seq c).toOption = some (y0, ge)) →
    (s.takeLease y0 x.q (x.f 0x1C 4) = some (y, acq)) →
    (x.f 0x18 4 ≤ y0.length) →
    (y0.cls ≠ 2) →
    (s.admitGrans x.part (s.truncGrans ge y (x.f 0x18 4) x.tag) = none) →
    Does (.truncate c) s fun t =>
      ∃ z ∈ t.seq x.part x.seq, t.ended c St.ok (x.f 0x18 4) (z.epoch + z.k * 2 ^ 32) ∧
        z.lens = List.replicate ge.layers.length (x.f 0x18 4) ∧ z.holder = some x.q ∧ z.epoch = y.epoch ∧
        z.leaves = (y0.leaves.filter fun e => decide (e.1 < x.f 0x18 4 / orderT y0.order)) ∧
        t.sq.granules = (s.putGrans (flashP (s.truncGrans ge y (x.f 0x18 4) x.tag))).sq.granules) ∧
  -- leaseRenewed
  (∀ (s : State) (c : Nat) (x : Cmd) (qu : Queue) (y : Seq),
    (s.cmd c = some x) →
    (x.is .append = true ∨ x.is .truncate = true) →
    (x.st = .done) →
    (s.queue x.q = some qu) →
    (qu.cqFailed = false ∧ ¬ (qu.num < 65536 ∧ (s.port qu.port).st = .holding)) →
    (s.seq x.part y.id = some y) →
    (y.holder = some x.q) →
    (if x.status = St.ok then y.id ∈ x.names else y.id ∈ x.took) →
    Does (.completionPost c true) s fun t =>
      ∃ z ∈ t.seq x.part y.id, z.expiry = s.now + s.leaseNs x.part ∧ z.holder = some x.q ∧ z.epoch = y.epoch) ∧
  -- appendLeaseExpire
  (∀ (s : State) (part seq : Nat) (x : Seq),
    (s.seq part seq = some x) →
    (x.holder ≠ none) →
    (s.leaseBusy x = false) →
    Does (.appendLeaseExpire part seq) s fun t =>
      t.seq part seq = some { x with holder := none } ∧ t.now = max s.now x.expiry ∧ t.latched Ev.LEASE_EXPIRED ∧
      t.sq.granules = s.sq.granules ∧ t.q = s.q)

/-- SEAL of a sequence without automatic sealing starts one seal of step 1 for each ready leaf and waits for them, or ends OK with 0 when there is none; an automatic seal starts on the first ready leaf of a sequence that is open and not held back; a retry clears the hold and starts the first ready leaf; a seal whose coding is done has the serials and generation of its new pages and has left step 1. -/
def Obligations.SealStartsAndCoding : Prop :=
  -- seal
  (∀ (s : State) (c : Nat) (x : Cmd) (y : Seq) (ge : Geom),
    (s.runs c .seal x) →
    (s.sole c) →
    (x.phase = 0) →
    ((s.seqFor x.part x.seq c).toOption = some (y, ge)) →
    (y.auto = false) →
    Does (.seal c) s fun t =>
      (s.startable y ≠ [] → ∃ z ∈ t.cmd c, z.st = .started ∧ z.phase = 1 ∧ z.leaves = s.startable y ∧ z.count = 0) ∧
      (s.startable y = [] → t.ended c St.ok 0 0) ∧
      (∀ i ∈ s.startable y, ∃ j ∈ t.sq.seals, j.part = x.part ∧ j.seq = x.seq ∧ j.leafNo = i ∧ j.step = 1 ∧ j.cmd = c ∧
        j.first = i * orderT y.order ∧ j.count = orderT y.order) ∧
      t.sq.seqs = s.sq.seqs ∧ t.sq.granules = s.sq.granules ∧ t.sq.pages = s.sq.pages) ∧
  -- autoSealStart
  (∀ (s : State) (part seq i : Nat) (x : Seq) (ge : Geom),
    (s.seq part seq = some x) →
    (s.geom part = some ge) →
    (s.paused 0x09 0 = false ∧ s.pst part ≠ .switching) →
    (x.auto = true) →
    (x.closing = false) →
    (x.geom = ge.id) →
    (x.retryT = 0) →
    ((s.startable x).head? = some i) →
    Does (.autoSealStart part seq) s fun t =>
      (∃ j, t.sq.seals = s.sq.seals ++ [j] ∧ j.part = part ∧ j.seq = seq ∧ j.leafNo = i ∧ j.step = 1 ∧ j.cmd = 0 ∧
        j.first = i * orderT x.order ∧ j.count = orderT x.order) ∧ t.sq.granules = s.sq.granules ∧ t.q = s.q ∧ t.now = s.now) ∧
  -- autoSealRetry
  (∀ (s : State) (part seq : Nat) (x : Seq),
    (s.seq part seq = some x) →
    (x.retryT ≠ 0) →
    (x.auto = true) →
    (s.paused 0x09 0 = false ∧ s.pst part ≠ .switching) →
    Does (.autoSealRetry part seq) s fun t =>
      t.seq part seq = some { x with retryT := 0 } ∧ t.now = max s.now x.retryT ∧
      (∀ i, (s.startable x).head? = some i → ∃ j ∈ t.sq.seals, j.part = part ∧ j.seq = seq ∧ j.leafNo = i ∧ j.step = 1 ∧ j.cmd = 0) ∧
      ((s.startable x).head? = none → t.sq.seals = s.sq.seals)) ∧
  -- sealCodeDone
  (∀ (s : State) (part seq leaf : Nat) (j : SealJob) (x : Seq) (ge : Geom) (ts : List LayerSets),
    (s.job part seq leaf = some j) →
    (s.seq part seq = some x) →
    (s.geom part = some ge) →
    (j.step = 1) →
    ((List.range ge.layers.length).mapM ge.sets = some ts) →
    (s.indexFull = false) →
    Does (.sealCodeDone part seq leaf) s fun t =>
      ∃ k ∈ t.job part seq leaf, k.step ≠ 1 ∧ k.step ≤ 5 ∧ k.serial = (s.allocRun part ge.layers.length).2.1 ∧
        k.gen = (s.allocRun part ge.layers.length).2.2)

/-- When every program of a seal in step 4 is done it goes to step 5; the commit of a seal in step 5 puts its leaf in the sequence's view, which follows the ring rule, and a leaf record with the seal's class, leaf number, serial and generation among the leaves; a seal that found no room within its wait ends, with ADMIT_REFUSED and SEAL_FAIL raised and a manual SEAL ended NO_SPACE; the release of a leaf in step 8 that nothing reads removes exactly its granules and the seal. -/
def Obligations.SealCommitAndEnd : Prop :=
  -- sealProgramsDone
  (∀ (s : State) (part seq leaf : Nat) (j : SealJob),
    (s.job part seq leaf = some j) →
    (j.step = 4) →
    (∀ x ∈ j.pages, s.t3Done part x.serial 0 = true) →
    Does (.sealProgramsDone part seq leaf) s fun t =>
      t.job part seq leaf = some { j with step := 5 } ∧ t.sq.granules = s.sq.granules ∧ t.sq.seqs = s.sq.seqs ∧ Only [.sq] s t) ∧
  -- sealCommit
  (∀ (s : State) (part seq leaf : Nat) (j : SealJob) (x : Seq),
    (s.job part seq leaf = some j) →
    (s.seq part seq = some x) →
    (j.step = 5 ∧ s.coding j = false) →
    Does (.sealCommit part seq leaf) s fun t =>
      (∃ z ∈ t.seq part seq, z.leaves =
        (Seq.ringDrop { x with leaves := insBy (fun e => ((e.1 : Nat) : Int)) (leaf, mkHandle part x.order j.gen j.serial) x.leaves }).leaves) ∧
      (x.ring = false → ∃ l ∈ t.sq.leaves, l.part = part ∧ l.serial = j.serial ∧ l.gen = j.gen ∧ l.order = x.order ∧ l.leafNo = leaf ∧
        l.cls = j.cls ∧ l.sealT = s.now ∧ l.freed = false) ∧
      t.sq.granules = s.sq.granules) ∧
  -- sealSpaceTimeout
  (∀ (s : State) (part seq leaf : Nat) (j : SealJob),
    (s.job part seq leaf = some j) →
    (j.step = 3) →
    (j.waitUntil ≠ 0) →
    Does (.sealSpaceTimeout part seq leaf) s fun t =>
      t.job part seq leaf = none ∧ t.now = max s.now j.waitUntil ∧ t.latched Ev.ADMIT_REFUSED ∧ t.latched Ev.SEAL_FAIL ∧
      t.sq.granules = s.sq.granules ∧
      (∀ x, j.cmd ≠ 0 → s.cmd j.cmd = some x → x.st = .started → s.sole j.cmd → t.ended j.cmd St.noSpace 0 0)) ∧
  -- granuleRelease
  (∀ (s : State) (part seq leaf : Nat) (j : SealJob),
    (s.job part seq leaf = some j) →
    (j.step = 8) →
    (j.released = false) →
    (∀ g ∈ s.leafGrans part seq j.first j.count, ∀ a ∈ s.att.attns,
      ¬ (a.part = part ∧ a.layer = g.layer ∧ (a.grans.any fun h => h.seq == seq && h.first == g.first) = true)) →
    Does (.granuleRelease part seq leaf) s fun t =>
      t.job part seq leaf = none ∧
      t.sq.granules = (s.sq.granules.filter fun g =>
        !(g.part == part && g.seq == seq && (decide (j.first ≤ g.first) && decide (g.first < j.first + j.count)))) ∧
      t.sq.seqs = s.sq.seqs ∧ t.sq.leaves = s.sq.leaves)

/-- LOOKUP_PREFIX whose token IDs have been read enters a lookup with the options given and goes on; a lookup of the private namespace whose hashing is done ends MISS with no leaf found, OK with all of them and PARTIAL_HIT between, with the positions found in both halves of the first result and the number of leaves in the second; a lookup whose shard owners do not answer ends with bit 32 of the second result set; a fetched leaf whose copies are made is installed as an imported leaf; PIN of leaves whose pages are all at the tier makes a capo and ends OK with its number; UNPIN removes the capo and ends OK with its number of leaves. -/
def Obligations.LookupAndPin : Prop :=
  -- lookupPrefix
  (∀ (s : State) (c : Nat) (x : Cmd),
    (s.runs c .lookup x) →
    (x.phase = 0) →
    (s.geom x.part ≠ none) →
    (x.f 0x20 4 = 0 ∨ x.f 0x20 4 ∈ x.active) →
    (x.buffers [x.f 0x30 8] = some true) →
    Does (.lookupPrefix c) s fun t =>
      (∃ l, t.pdir.lookups = s.pdir.lookups ++ [l] ∧ l.cmd = c ∧ l.part = x.part ∧ l.ns = x.f 0x20 4 ∧ l.variant = x.f 0x28 8 ∧
        l.order = x.f 0x18 1 ∧ l.imp = bit (x.f 0x19 1) 0 ∧ l.step = 1 ∧ l.found = []) ∧
      (∃ y ∈ t.cmd c, y.st = .started ∧ y.phase = 1) ∧ Only [.q, .pdir] s t) ∧
  -- lookupHashDone
  (∀ (s : State) (c : Nat) (x : Cmd) (l : Lookup) (key : Bytes) (chains : List Bytes) (k : Nat),
    (s.lookup c = some l) →
    (s.cmd c = some x) →
    (x.st ≠ .done) →
    (x.cancelled = false) →
    (l.step = 1) →
    (l.ns = 0) →
    (s.cmdKey x 0 = some key) →
    (chains = (List.range (x.f 0x1C 4 / orderT l.order)).map fun j => (chainValues key 0 (s.geomDigest l.part) l.variant
      (u32s ((x.bufAll (x.f 0x30 8)).getD []) (x.f 0x1C 4 / orderT l.order * orderT l.order))).getD
      ((j + 1) * (orderT l.order / 16) - 1) []) →
    (k = ((chains.map fun ch => s.indexed l.part 0 l.order ch).takeWhile fun h => h.isSome).length) →
    (l.unreach = false) →
    Does (.lookupHashDone c) s fun t =>
      (k = 0 → t.ended c St.miss 0 0) ∧
      (k ≠ 0 → t.ended c (if k = x.f 0x1C 4 / orderT l.order then St.ok else St.partialHit)
        (k * orderT l.order + k * orderT l.order * 2 ^ 32) k) ∧
      (∀ y ∈ t.pdir.lookups, y.cmd ≠ c)) ∧
  -- lookupShardTimeout
  (∀ (s : State) (c : Nat) (x : Cmd) (l : Lookup),
    (s.lookup c = some l) →
    (s.cmd c = some x) →
    (x.st ≠ .done) →
    (x.cancelled = false) →
    (l.step = 2) →
    (l.imp = false) →
    Does (.lookupShardTimeout c) s fun t =>
      t.now = max s.now (l.queryT + s.g F.PDIR_CTRL_SHARD_TO_US * 1000) ∧
      (∃ z ∈ t.cmd c, z.st = .done ∧ (z.status = St.ok ∨ z.status = St.partialHit ∨ z.status = St.miss) ∧
        (z.status = St.miss → z.r0 = 0 ∧ z.r1 = 2 ^ 32) ∧ (z.status ≠ St.miss → z.r1 = l.found.length + 2 ^ 32)) ∧
      (∀ y ∈ t.pdir.lookups, y.cmd ≠ c)) ∧
  -- lookupImportDone
  (∀ (s : State) (c : Nat) (x : Cmd) (l : Lookup) (k : SealJob),
    (s.lookup c = some l) →
    (s.cmd c = some x) →
    (x.cancelled = false) →
    (l.step = 3) →
    (s.job l.part (importSeq c) l.found.length = some k) →
    (k.step = 5) →
    Does (.lookupImportDone c) s fun t =>
      (∃ y ∈ t.sq.leaves, y.part = l.part ∧ y.serial = k.serial ∧ y.gen = k.gen ∧ y.imported = true ∧ y.freed = false ∧
        y.leafNo = l.found.length ∧ y.cls = k.cls) ∧
      t.job l.part (importSeq c) l.found.length = none ∧ t.sq.seqs = s.sq.seqs ∧ t.sq.granules = s.sq.granules) ∧
  -- pin
  (∀ (s : State) (c : Nat) (x : Cmd) (hs : List Nat),
    (s.runs c .pin x) →
    (x.phase = 0) →
    ((x.f 0x19 1 = 1 ∧ ∃ e ∈ (s.seqFor x.part x.seq c).toOption, hs = e.1.leavesIn (x.f 0x1C 4) (x.f 0x20 4) ∧ ∀ h ∈ hs, hPart h = x.part) ∨
      (x.f 0x19 1 ≠ 1 ∧ x.buffers [x.f 0x28 8] = some true ∧ hs = (u64s ((x.bufAll (x.f 0x28 8)).getD []) (x.f 0x1C 4)).eraseDups ∧
      ∀ h ∈ u64s ((x.bufAll (x.f 0x28 8)).getD []) (x.f 0x1C 4), hPart h = x.part ∧ s.resolve x.part h (hOrder h) = none)) →
    (∀ h ∈ hs, s.leaf h ≠ none) →
    (∀ n ∈ s.serialsOf hs, s.atTier x.part n (x.f 0x18 1) = true) →
    ((s.pdir.capos.filter fun k => k.part == x.part).length < s.gp F.CAPO_LIMIT x.part) →
    (s.pdir.capos.length < 65536) →
    (x.f 0x18 1 = 2 → s.quota x.part 2 15 ≠ 0) →
    (s.capoBytes x.part (x.f 0x18 1) hs ≤ s.tierQuota x.part (x.f 0x18 1)) →
    (∀ k ∈ s.pdir.capos, k.cmd ≠ c) →
    Does (.pin c) s fun t =>
      t.ended c St.ok s.freeCapo.1 0 ∧
      (∃ k ∈ t.pdir.capos, k.num = s.freeCapo.1 ∧ k.part = x.part ∧ k.tier = x.f 0x18 1 ∧ k.leaves = hs ∧ k.cmd = 0) ∧
      t.pdir.capos.length = s.pdir.capos.length + 1 ∧ t.sq = s.sq ∧ t.tier = s.tier) ∧
  -- unpin
  (∀ (s : State) (c : Nat) (x : Cmd) (k : Capo),
    (s.runs c .unpin x) →
    ((s.pdir.capos.find? fun k => k.num == x.f 0x18 4 && k.part == x.part && k.cmd == 0) = some k) →
    Does (.unpin c) s fun t =>
      t.ended c St.ok k.leaves.length 0 ∧ (∀ y ∈ t.pdir.capos, y.num ≠ k.num) ∧ t.sq.seqs = s.sq.seqs ∧ t.sq.granules = s.sq.granules)

/-- The commit of a group declaration whose member list is whole, in order, of the right digest, names this device and partition, whose key slot is set and whose group no other slot declares, leaves the slot with its GROUP_ID, members and key check value, active, waiting, or refused for a key check value that differs; withdrawal empties the slot; a publication not acknowledged in time is deferred for a second with PUB_DEFER raised; a retry of a deferred publication sends PUBLISH to the shard's owner again; a snapshot holds the shard entries under the next version; the next leaf record to republish is sent by REPUBLISH and leaves the list. -/
def Obligations.DirectoryEvents : Prop :=
  -- groupDeclareCommit
  (∀ (s : State) (part slot id : Nat) (b : Bytes) (ms : List Member) (k : KeySlot),
    (part < 64 ∧ slot < 8) →
    (id = s.gps F.GRP_ID part slot ∧ id ≠ 0) →
    (∀ g ∈ s.pdir.slots.find? (fun g => g.part == part && g.slot == slot), g.declared = false) →
    (16 * s.gps F.GRP_MEMBERS part slot ≤ b.length) →
    (2 ≤ s.gps F.GRP_MEMBERS part slot ∧ s.gps F.GRP_MEMBERS part slot ≤ 4096) →
    (ms = (List.range (s.gps F.GRP_MEMBERS part slot)).map fun i => ({ serial := rd b (16 * i) 8, part := rd b (16 * i + 8) 1 } : Member)) →
    (∀ i < s.gps F.GRP_MEMBERS part slot - 1, (ms.getD i ⟨0, 0⟩).serial * 256 + (ms.getD i ⟨0, 0⟩).part <
      (ms.getD (i + 1) ⟨0, 0⟩).serial * 256 + (ms.getD (i + 1) ⟨0, 0⟩).part) →
    ((Blake.hash 32 [] (b.take (16 * s.gps F.GRP_MEMBERS part slot))).take 16 =
      (List.range 4).flatMap fun i => leBytes 4 (s.reg F.GRP_DIGEST 0 part slot i)) →
    (ms.contains ⟨s.dev.serial, part⟩ = true) →
    ((s.sec.keys.find? fun k => k.num == s.gps F.GRP_KEY part slot && k.st == .set) = some k) →
    (∀ g ∈ s.pdir.slots, ¬ (g.part = part ∧ g.slot ≠ slot ∧ g.id = id ∧ g.declared = true)) →
    (s.partFree part = false) →
    Does (.groupDeclareCommit part slot (some b)) s fun t =>
      ∃ g ∈ t.pdir.slots.find? (fun g => g.part == part && g.slot == slot), g.id = id ∧ g.members = ms ∧ g.key = s.gps F.GRP_KEY part slot ∧
        g.kcv = keyCheck k.key id ∧ (g.st = .active ∨ g.st = .waiting ∨ (g.st = .refused ∧ g.reason = 3))) ∧
  -- groupWithdraw
  (∀ (s : State) (part slot : Nat),
    (s.partFree part = false) →
    Does (.groupWithdraw part slot) s fun t =>
      ∃ g ∈ t.pdir.slots.find? (fun g => g.part == part && g.slot == slot), g.id = 0 ∧ g.members = [] ∧ g.st = .empty) ∧
  -- publishAckTimeout
  (∀ (s : State) (part serial : Nat) (w : PubWait),
    (s.pubOf part serial = some w) →
    (w.deferred = false) →
    Does (.publishAckTimeout part serial) s fun t =>
      t.now = max s.now (w.sentT + s.g F.PDIR_CTRL_PUB_TO_US * 1000) ∧
      t.pubOf part serial = some { w with deferred := true, nextT := t.now + 1000000000 } ∧ t.latched Ev.PUB_DEFER) ∧
  -- publishRetry
  (∀ (s : State) (part serial o : Nat) (w : PubWait) (l : Leaf) (ch : Bytes),
    (s.pubOf part serial = some w) →
    (w.deferred = true) →
    (s.leafAt part serial = some l) →
    (l.chain = some ch) →
    (s.shardOwner (shardOf ch) = some o) →
    (o ≠ s.dev.serial) →
    Does (.publishRetry part serial) s fun t =>
      t.now = max s.now w.nextT ∧ t.pubOf part serial = some { w with owner := o, nextT := t.now + 1000000000 } ∧
      (∃ m ∈ t.net.waits, m.msg.typ = 0x0011 ∧ m.msg.dst = o ∧ m.msg.reply = false ∧ m.ctx = leafCtx part serial) ∧ t.sq = s.sq) ∧
  -- snapshotCut
  (∀ (s : State),
    Does (.snapshotCut) s fun t =>
      t.now = max s.now (s.pdir.lastSnap + max 1 (s.g F.PDIR_CTRL_SNAP_MS) * 1000000) ∧ t.pdir.lastSnap = t.now ∧
      t.pdir.snaps = [⟨(((s.pdir.snaps.head?.map fun x => x.ver).getD 0) + 1) % 2 ^ 32, s.pdir.shards⟩] ∧
      t.reg F.SNAP_VER 0 255 0 0 = (((s.pdir.snaps.head?.map fun x => x.ver).getD 0) + 1) % 2 ^ 32 ∧ t.pdir.shards = s.pdir.shards ∧
      Only [.now, .pdir, .regs] s t) ∧
  -- shardRepublishSend
  (∀ (s : State) (h o : Nat) (rest : List Nat) (l : Leaf) (ch : Bytes),
    (s.boot.republish = h :: rest) →
    (s.leaf h = some l) →
    (l.chain = some ch) →
    (s.shardOwner (shardOf ch) = some o) →
    (o ≠ s.dev.serial) →
    Does (.shardRepublishSend) s fun t =>
      t.boot.republish = rest ∧ t.now = max s.now (s.boot.lastPublishT + 100000) ∧ t.boot.lastPublishT = t.now ∧
      (∃ m ∈ t.net.waits, m.msg.typ = 0x0015 ∧ m.msg.dst = o ∧ m.msg.reply = false ∧ m.ctx = leafCtx l.part l.serial) ∧ t.sq = s.sq)

/-- An attention command that has started, with a plan, cores and no stop, and whose queries have not been read, holds its plan: its snapshot of pages and granules; it is not done. One whose runs exist and whose every item is final ends OK, or APPROX where it was made sparse, with the number of rows and of empty rows in the first result; its outputs and its row statistics are written in buffer order and it leaves the engines with all its runs. -/
def Obligations.AttendForward : Prop :=
  -- start
  (∀ (s : State) (c : Nat) (x : Cmd) (g : Geom) (a : Attn) (i : Instr) (o : Op) (kind : Nat),
    ((i, o, kind) ∈ [(Instr.attendDecode c, Op.decode, if x.approx then 2 else 0), (Instr.attendChunk c, Op.chunk, 1), (Instr.attendSparse c, Op.sparse, 2)]) →
    (s.runs c o x) →
    (s.geom x.part = some g) →
    (s.attn c = none) →
    ((s.planAttn x kind).bind (·.toOption) = some a) →
    (s.coresOf x.part ≠ []) →
    (s.attnStop x = none) →
    (s.attnLost a = false) →
    (x.buffers [x.f 0x28 8] = none) →
    Does (i) s fun t =>
      t.attn c = some a ∧ t.cmd c = some x ∧ a.kind = kind ∧ a.built = false ∧ a.layer = x.layer ∧ a.qtok = x.qtok ∧ t.sq = s.sq ∧ t.q = s.q) ∧
  -- startFwd
  (∀ (s : State) (c : Nat) (x : Cmd) (g : Geom) (a : Attn) (v : View),
    (s.runs c .fwd x) →
    (s.geom x.part = some g) →
    (s.attn c = none) →
    ((s.planFwd x).toOption = some (a, some v)) →
    (a.cmd = c) →
    (s.coresOf x.part ≠ []) →
    (s.attnStop x = none) →
    (s.attnLost a = false) →
    (x.buffers [x.f 0x28 8] = none) →
    Does (.attendFwdStats c) s fun t =>
      t.attn c = some a ∧ v ∈ t.att.views ∧ t.cmd c = some x ∧ t.sq = s.sq ∧ t.q = s.q) ∧
  -- finish
  (∀ (s : State) (c : Nat) (x : Cmd) (g : Geom) (a : Attn) (i : Instr) (o : Op),
    ((i, o) ∈ [(Instr.attendDecode c, Op.decode), (Instr.attendChunk c, Op.chunk), (Instr.attendSparse c, Op.sparse), (Instr.attendFwdStats c, Op.fwd)]) →
    (s.runs c o x) →
    (s.geom x.part = some g) →
    (s.attn c = some a) →
    (o = .fwd → s.view x.part a.view ≠ none) →
    (s.attnStop x = none) →
    (s.attnLost a = false) →
    (a.built = true) →
    (a.finals.length = a.items.length) →
    Does (i) s fun t =>
      ∃ z ∈ t.cmd c, z.st = .done ∧ z.status = (if x.approx then St.approx else St.ok) ∧
        z.r0 = (a.finalRows g).length % 2 ^ 32 +
          (((a.finalRows g).map fun r => finalRow r.2).filter fun r => !Fp.isNan r.1 && Fp.isZero r.2.1).length * 2 ^ 32 ∧
        z.outs = x.outs ++
          [(x.f 0x30 8, ((a.finalRows g).map fun r => finalRow r.2).flatMap fun r => r.2.2.flatMap (fpOut g.outFmt)),
           (x.f 0x38 8, ((a.finalRows g).map fun r => finalRow r.2).flatMap fun r => leBytes 4 r.1 ++ leBytes 4 r.2.1)] ∧
        t.attn c = none ∧ (∀ r ∈ t.part.runs, r.cmd ≠ c))

/-- A backward command whose every column is complete, whose turn it is and whose accumulators fit ends OK with the number of rows in the low half of the first result and writes dQ of every row in buffer order; an export whose records fit writes them in ascending page handle and ends OK with their number in the high half; a discard frees the set and ends OK; a view that nothing uses expires with VIEW_EXPIRED and is gone. -/
def Obligations.TrainingBackward : Prop :=
  -- attendBwdCompute
  (∀ (s : State) (c : Nat) (x : Cmd) (g : Geom) (a : Attn) (d : List Nat),
    (s.runs c .bwd x) →
    (x.f 0x1C 1 = 0) →
    (s.geom x.part = some g) →
    (x.bwdDesc = some (some d)) →
    (s.attn c = some a) →
    (s.attnStop x = none) →
    (s.view a.part a.view ≠ none) →
    (s.attnLost a = false) →
    (a.built = true) →
    (a.items.length ≤ (a.cols.filter fun k => k.complete).length) →
    (x.dkvDest = 2 → a.det = true → s.setTurn x = true ∧ s.setMixed a.part (x.f 0x1F 1) x.q = false) →
    (x.dkvDest = 2 → s.accFits a.part (s.commitSet x a g).2 = true) →
    Does (.attendBwdCompute c) s fun t =>
      (∃ z ∈ t.cmd c, z.st = .done ∧ z.status = St.ok ∧ z.r0 % 2 ^ 32 = (a.dqRows g).length % 2 ^ 32 ∧
        (d.getD 3 0, (a.dqRows g).flatMap fun e => e.2.flatMap (leBytes 4)) ∈ z.outs) ∧
      t.attn c = none ∧ (∀ r ∈ t.part.runs, r.cmd ≠ c)) ∧
  -- attendBwdExport
  (∀ (s : State) (c : Nat) (x : Cmd) (g : Geom) (w : GSet) (d : List Nat) (recs : List Bytes),
    (s.runs c .bwd x) →
    (x.f 0x1C 1 = 1) →
    (s.gset x = some w) →
    (s.geom x.part = some g) →
    (x.bwdDesc = some (some d)) →
    (recs = (sortBy (fun (y : GAcc) => ((y.ph : Nat) : Int)) w.acc).map fun y => gradRecord g x.exportFmt y.ph y.layer y.first y.contrib y.dk y.dv) →
    (sumBy (fun r => r.length) recs ≤ d.getD 5 0) →
    ((s.detOf x && s.setMixed x.part w.num x.q) = false) →
    Does (.attendBwdExport c) s fun t =>
      t.ended c St.ok (recs.length * 2 ^ 32) 0 ∧ (∃ z ∈ t.cmd c, z.outs = x.outs ++ [(d.getD 4 0, recs.flatten)]) ∧
      (x.releases = true → t.gset x = none) ∧ (x.releases = false → t.gset x = some { w with queues := [] }) ∧ t.sq = s.sq) ∧
  -- attendBwdDiscard
  (∀ (s : State) (c : Nat) (x : Cmd) (w : GSet),
    (s.runs c .bwd x) →
    (x.f 0x1C 1 = 2) →
    (s.gset x = some w) →
    ((s.detOf x && s.setMixed x.part w.num x.q) = false) →
    Does (.attendBwdDiscard c) s fun t =>
      t.ended c St.ok 0 0 ∧ t.gset x = none ∧ t.att.views = s.att.views ∧ t.sq = s.sq) ∧
  -- attendBwdMixed
  (∀ (s : State) (c m : Nat) (i : Instr) (x : Cmd) (g : Geom) (w : GSet) (d : List Nat),
    ((i, m) ∈ [(Instr.attendBwdExport c, 1), (Instr.attendBwdDiscard c, 2)]) →
    (s.runs c .bwd x) →
    (x.f 0x1C 1 = m) →
    (s.gset x = some w) →
    (s.geom x.part = some g) →
    (x.bwdDesc = some (some d)) →
    ((s.detOf x && s.setMixed x.part w.num x.q) = true) →
    Does i s fun t => t.ended c St.badCmd 0 0 ∧ t.gset x = some w ∧ t.sq = s.sq) ∧
  -- viewExpire
  (∀ (s : State) (part view : Nat) (v : View),
    (s.view part view = some v) →
    (s.viewInUse part view = false) →
    Does (.viewExpire part view) s fun t =>
      t.view part view = none ∧ t.now = max s.now (v.lastUse + s.gp F.VIEW_MS part * 1000000) ∧ t.latched Ev.VIEW_EXPIRED ∧
      t.sq.granules = s.sq.granules ∧ t.sq.seqs = s.sq.seqs)

/-- The run that goes next is released, with its home and die, and its command counts as released; a released run that a free core of a die may run starts on it at once; when a core has run every tile of a run the run is gone; a partial that reaches its cluster's merge unit, which holds nothing of its item and has room, is held there or sent on to the root; a whole partial that reaches the root makes the item final; a core that has waited MERGE_STALL_US is marked once and MERGE_STALL raised; when the pre-emption wait expires the victims' runs end after their tile, or the victims' commands are killed where the partition has at most 64 cores. -/
def Obligations.RunsAndMerge : Prop :=
  -- runRelease
  (∀ (s : State) (part : Nat) (r : Run) (best : Bool),
    (s.paused 0x0F 0 = false) →
    (s.nextRelease part = some (r, best)) →
    Does (.runRelease part) s fun t =>
      (∀ y ∈ s.part.runs, y.id = r.id → ∃ z ∈ t.part.runs, z.id = r.id ∧ z.stage = 1 ∧ z.releasedT = s.now ∧ z.home = s.runHome r ∧
        z.die = s.dieFor r ∧ z.cmd = y.cmd ∧ z.item = y.item ∧ z.first = y.first ∧ z.count = y.count) ∧
      (∀ x, s.cmd r.cmd = some x → ∃ y ∈ t.cmd r.cmd, y.released = true) ∧ t.part.runs.length = s.part.runs.length ∧ t.att = s.att ∧ t.sq = s.sq) ∧
  -- runDispatch
  (∀ (s : State) (die part c : Nat) (r : Run),
    (((((s.coresOf part).filter fun c => c / 320 == die && s.coreFree part c && !s.paused 0x0C (die + 1))).findSome? fun c =>
      (s.runFor part die c).map fun r => (c, r)) = some (c, r)) →
    Does (.runDispatch die part) s fun t =>
      (∀ y ∈ s.part.runs, y.id = r.id → ∃ z ∈ t.part.runs, z.id = r.id ∧ z.stage = 2 ∧ z.die = die ∧ z.core = c ∧ z.startT = s.now ∧
        z.cut = false ∧ z.cmd = y.cmd ∧ z.item = y.item ∧ z.first = y.first ∧ z.count = y.count) ∧
      t.part.runs.length = s.part.runs.length ∧ t.att.attns = s.att.attns ∧ t.att.helds = s.att.helds ∧ t.q = s.q) ∧
  -- runEnd
  (∀ (s : State) (run : Nat) (r : Run) (x : Cmd) (a : Attn) (g : Geom) (it : Item),
    ((s.part.runs.find? fun y => y.id == run && y.stage == 2) = some r) →
    (r.leaf = none) →
    (s.cmd r.cmd = some x) →
    (s.attn r.cmd = some a) →
    (s.geom r.part = some g) →
    (a.items[r.item]? = some it) →
    (r.count ≠ 0 ∧ s.diesJoined r.srcDie r.die = true) →
    Does (.runEnd run ⟨r.count, 0⟩) s fun t =>
      (∀ y ∈ t.part.runs, y.id ≠ run) ∧ s.now ≤ t.now ∧ r.startT ≤ t.now) ∧
  -- runEndCrc
  (∀ (s : State) (run : Nat) (r : Run) (x : Cmd) (a : Attn) (g : Geom) (it : Item),
    ((s.part.runs.find? fun y => y.id == run && y.stage == 2) = some r) →
    (r.leaf = none) →
    (s.cmd r.cmd = some x) →
    (s.attn r.cmd = some a) →
    (s.geom r.part = some g) →
    (a.items[r.item]? = some it) →
    (r.count ≠ 0 ∧ s.diesJoined r.srcDie r.die = true ∧ r.src ≠ none) →
    Does (.runEnd run ⟨r.count, 1⟩) s fun t =>
      t.latched Ev.CRC_ERROR ∧ (∀ y ∈ t.part.runs, y.id = run → y.stage ≠ 2) ∧ t.now = s.now) ∧
  -- runEndSeal
  (∀ (s : State) (run : Nat) (r : Run),
    ((s.part.runs.find? fun y => y.id == run && y.stage == 2) = some r) →
    (r.leaf ≠ none) →
    Does (.runEnd run ⟨r.count, 0⟩) s fun t =>
      (∀ y ∈ t.part.runs, y.id ≠ run) ∧ s.now ≤ t.now ∧ r.startT ≤ t.now) ∧
  -- partialArriveCluster
  (∀ (s : State) (c item first : Nat) (a : Attn) (h : Held),
    (s.attn c = some a) →
    ((s.att.helds.find? fun h => h.cmd == c && h.item == item && h.first == first && (h.place == 0 || h.place == 2 || h.place == 3)) = some h) →
    (h.place ≠ 3) →
    (s.heldAt c item 1 h.cluster = []) →
    (s.mergeUsed h.cluster + h.bytes ≤ 524288) →
    Does (.partialArrive c item first) s fun t =>
      (∃ o ∈ t.att.helds, o.cmd = c ∧ o.item = item ∧ o.first = first ∧ o.count = h.count ∧ o.part = h.part ∧ o.cluster = h.cluster ∧ (o.place = 1 ∨ o.place = 3)) ∧
      t.attn c = some a ∧ Only [.att] s t) ∧
  -- partialArriveRoot
  (∀ (s : State) (c item first : Nat) (a : Attn) (h : Held) (it : Item),
    (s.attn c = some a) →
    ((s.att.helds.find? fun h => h.cmd == c && h.item == item && h.first == first && (h.place == 0 || h.place == 2 || h.place == 3)) = some h) →
    (h.place = 3 ∧ s.behindInFlow a h = false) →
    (s.heldAt c item 4 h.cluster = []) →
    (a.items[item]? = some it) →
    (h.count = it.tiles.length) →
    (s.mergeUsed a.root + h.bytes ≤ 524288) →
    Does (.partialArrive c item first) s fun t =>
      t.attn c = some { a with finals := a.finals ++ [(item, h.part)] } ∧ h ∉ t.att.helds ∧ Only [.att] s t) ∧
  -- mergeStall
  (∀ (s : State) (die cluster : Nat) (h : Held),
    ((s.att.helds.find? fun h => h.place == 2 && !h.stalled && h.cluster == 10 * die + cluster) = some h) →
    Does (.mergeStall die cluster) s fun t =>
      { h with stalled := true } ∈ t.att.helds ∧
      t.now = max s.now (h.since + s.gp F.MERGE_STALL_US (((s.attn h.cmd).map fun a => a.part).getD 0) * 1000) ∧
      t.latchedU Ev.MERGE_STALL die ∧ t.latched Ev.MERGE_STALL_ANY) ∧
  -- preemptWaitExpire
  (∀ (s : State) (run : Nat) (r : Run),
    ((s.part.runs.find? fun y => y.id == run && y.stage == 1) = some r) →
    (s.gp F.SCHED_CTRL_PREEMPT_EN r.part ≠ 0) →
    (r.lane = false ∧ r.leaf = none) →
    (s.shareOf r.part r.qg ≠ 0) →
    (64 < (s.coresOf r.part).length) →
    Does (.preemptWaitExpire run) s fun t =>
      t.now = max s.now (r.releasedT + s.gp F.PREEMPT_WAIT r.part * 1000) ∧ t.part.runs.length = s.part.runs.length ∧
      (∀ v ∈ s.victims r.part r.cls r.qg false s.part.runs.length [], ∀ y ∈ t.part.runs, y.id = v → y.cut = true)) ∧
  -- preemptKill
  (∀ (s : State) (run c : Nat) (r : Run) (x : Cmd) (a : Attn) (g : Geom),
    ((s.part.runs.find? fun y => y.id == run && y.stage == 1) = some r) →
    (s.gp F.SCHED_CTRL_PREEMPT_EN r.part ≠ 0) →
    (r.lane = false ∧ r.leaf = none) →
    (s.shareOf r.part r.qg ≠ 0) →
    ((s.coresOf r.part).length ≤ 64) →
    (s.victims r.part r.cls r.qg true s.part.runs.length [] = [c]) →
    (s.cmd c = some x) →
    (s.attn c = some a) →
    (s.geom x.part = some g) →
    Does (.preemptWaitExpire run) s fun t =>
      (∃ y ∈ t.cmd c, y.kills = x.kills + 1 ∧ y.released = x.released) ∧ (∀ h ∈ t.att.helds, h.cmd ≠ c) ∧
      (∀ y ∈ t.part.runs, y.cmd = c → y.stage = 0) ∧ t.latched Ev.PREEMPT)

/-- The monitor notes its prediction on a command that is in time and lets it be; a command predicted late that may neither run as sparse attention nor go to the reserved cores ends DEADLINE_MISS; when the deadline of an attention command passes after its first run was released, its runs not on a core are withdrawn, and with none on a core it ends DEADLINE_MISS. -/
def Obligations.MonitorAndDeadline : Prop :=
  -- monitorEval
  (∀ (s u : State) (c n : Nat) (x : Cmd),
    (s.cmd c = some x) →
    (s.monitored x = true) →
    (n = max s.now (x.evalT.elim 0 fun e => e + s.g F.MON_PERIOD * 1000)) →
    (u = ({ s with now := n } : State).setCmd c fun y => { y with evalT := some n }) →
    (x.is .decode = false ∨ x.fApprox = false ∨ x.approx = true) →
    ((s.partition x.part).desc.lane = 0 ∨ x.lane = true) →
    Does (.monitorEval c) s fun t =>
      t.now = n ∧ (((u.predictCmd x x.approx x.lane).1 : Int) ≤ (x.deadline : Int) - (s.gp F.MON_GUARD x.part : Int) * 1000 →
        t.cmd c = some { x with evalT := some n, pred := (u.predictCmd x x.approx x.lane).1 } ∧ Only [.now, .q, .free] s t) ∧
      ((x.deadline : Int) - (s.gp F.MON_GUARD x.part : Int) * 1000 < ((u.predictCmd x x.approx x.lane).1 : Int) → t.ended c St.deadlineMiss 0 0)) ∧
  -- deadlinePass
  (∀ (s : State) (c : Nat) (x : Cmd),
    (s.cmd c = some x) →
    (x.deadline ≠ 0) →
    (x.live = true) →
    (x.attn = true) →
    (x.released = true) →
    Does (.deadlinePass c) s fun t =>
      t.now = max s.now (x.deadline + 1) ∧ (∀ r ∈ t.part.runs, r.cmd = c → r.stage = 2) ∧
      ((∀ r ∈ s.part.runs, r.cmd = c → r.stage ≠ 2) → t.ended c St.deadlineMiss 0 0 ∧ t.latched Ev.DEADLINE_MISS))

/-- DELIVER or FETCH of handles whose pages all have near copies and are wanted as stored enters a delivery to its destination and queues pushes whose bytes, one after the other, are the page records; the push chosen leaves on its port; an acknowledged payload push adds its bytes to those written and leaves the queue; a host buffer read is kept with its command; a free codec lane takes the one block that waits; a failed lane gives its block back to the queue of its codec and raises LANE_FAIL. -/
def Obligations.Deliveries : Prop :=
  -- deliver
  (∀ (s : State) (c : Nat) (x : Cmd) (i : Instr) (o : Op) (e : Dest) (ps : List (Nat × Nat)) (ys : List Page) (recs : Bytes),
    ((i, o) ∈ [(Instr.deliver c, Op.deliver), (Instr.fetch c, Op.fetch)]) →
    (s.runs c o x) →
    (s.deliv c = none) →
    (s.dest x.part (x.f 0x28 4) = some e) →
    ((s.port e.port).st ≠ .down ∧ (e.port < 8 → (s.port e.port).st = .up → s.ideOk e.port = true)) →
    (bit (x.f 0x24 1) 0 = true ∧ bit (x.f 0x24 1) 1 = false) →
    ((s.pageList x).bind (·.toOption) = some ps) →
    (∀ q ∈ ps, s.near q.1 q.2 = true ∧ s.readable q.1 q.2 = true) →
    (ys = ps.filterMap fun q => s.page q.1 q.2) →
    (recs = ys.flatMap fun y => y.record false) →
    (recs ≠ []) →
    (x.f 0x30 8 + sumBy (fun q => ((s.page q.1 q.2).map fun y => (y.record false).length).getD 0) ps ≤ e.len) →
    (x.deadline = 0) →
    (∀ p ∈ s.dlv.pushes, p.cmd ≠ c) →
    (∀ k ∈ s.att.codecs, (∀ j ∈ k.queue, j.owner ≠ c) ∧ ∀ l ∈ k.lanes, ∀ j ∈ l, j.owner ≠ c) →
    Does (i) s fun t =>
      (∃ d ∈ t.deliv c, d.part = x.part ∧ d.dest = e.num ∧ d.port = e.port ∧ d.dq = x.f 0x20 2 ∧ d.fetch = (o == .fetch) ∧ d.cut = true ∧
        d.written = 0) ∧
      (t.dlv.pushes.filter fun p => p.cmd == c).flatMap (·.data) = recs ∧
      (∀ p ∈ t.dlv.pushes, p.cmd = c → p.port = e.port ∧ p.dq = x.f 0x20 2 ∧ p.dest = e.num ∧ p.data.length ≤ 4096 ∧ p.landing = false) ∧
      (∃ z ∈ t.cmd c, z.st = .started) ∧ t.sq.seqs = s.sq.seqs ∧ t.sq.granules = s.sq.granules ∧ t.tier = s.tier) ∧
  -- pushSend
  (∀ (s : State) (port : Nat) (hs es : List Push) (b x : Push) (d : Drr) (e : Dest),
    (hs = ((s.dlv.pushes.filter fun y => y.port == port && y.st == 0).map fun y => (y.part, y.dq)).eraseDups.filterMap
      fun f => s.flowHead port f.1 f.2) →
    (∀ y ∈ hs, s.pushLate y = false) →
    (s.paused 0x10 (port + 1) = false) →
    (es = hs.filter fun y => s.eligible y) →
    (argMin (fun y => (s.pushStep y : Int)) es = some b) →
    (s.drrPush ((s.port port).drr.prune (drrAlive es)) (es.filter fun y => s.pushStep y == s.pushStep b) = (d, some x)) →
    (s.dest x.part x.dest = some e) →
    (x.port < 8 → ∃ y ∈ s.dlv.pushes, y.cmd = x.cmd ∧ y.id ≠ x.id ∧ y.landing = false) →
    Does (.pushSend port) s fun t =>
      t.out = OutMsg.push x.port (if x.port < 8 then x.part + 1 else 0) (if x.port < 8 then 0 else e.conn) (e.base + x.off) x.data :: s.out ∧
      t.dlv.pushes = (if x.port < 8 then s.dlv.pushes.filter fun y => !(y.id == x.id)
        else s.dlv.pushes.map fun y => if y.id == x.id then { y with st := 1 } else y) ∧ Only [.q, .part, .dlv, .out] s t) ∧
  -- pushAck
  (∀ (s : State) (push : Nat) (x : Push) (d : Deliv),
    ((s.dlv.pushes.find? fun y => y.id == push && y.st == 1) = some x) →
    (x.landing = false) →
    (s.deliv x.cmd = some d) →
    (∃ y ∈ s.dlv.pushes, y.cmd = x.cmd ∧ y.id ≠ push ∧ y.landing = false) →
    Does (.pushAck push true) s fun t =>
      t.deliv x.cmd = some { d with written := d.written + x.data.length, lastT := s.now } ∧
      t.dlv.pushes = (s.dlv.pushes.filter fun y => !(y.id == push)) ∧ Only [.dlv] s t) ∧
  -- hostBufferReadDone
  (∀ (s : State) (c addr : Nat) (data : Bytes) (x : Cmd),
    (s.cmd c = some x) →
    (x.st ≠ .done) →
    (x.owed = false) →
    Does (.hostBufferReadDone c addr (some data)) s fun t =>
      (∃ y ∈ t.cmd c, (y.bufs.find? fun b => b.addr == addr) = some ⟨addr, some data⟩ ∧ y.st = x.st) ∧ Only [.q, .part] s t) ∧
  -- codecLaneTake
  (∀ (s : State) (b i : Nat) (k : Codec) (j : CodecJob),
    ((s.att.codecs.find? fun k => k.die == 8 + b) = some k) →
    (s.paused 0x0D (b + 1) = false) →
    (s.laneNext b = some i) →
    (k.lanes.getD i none = none) →
    (k.queue = [j]) →
    (j.qg < 256) →
    Does (.codecLaneTake ⟨b, true⟩) s fun t =>
      (t.codec b).queue = [] ∧
      (t.codec b).lanes.getD i none = some { j with endT := s.now + j.steps * 16000 / max 1 (s.pace (8 + b)) } ∧
      (∀ n, n ≠ i → (t.codec b).lanes.getD n none = k.lanes.getD n none) ∧ Only [.att, .regs] s t) ∧
  -- codecLaneFail
  (∀ (s : State) (b lane other : Nat) (k : Codec),
    ((s.att.codecs.find? fun k => k.die == 8 + b) = some k) →
    (k.okLanes.getD lane false = true) →
    (other ≠ lane ∧ k.okLanes.getD other false = true) →
    Does (.codecLaneFail b lane) s fun t =>
      (t.codec b).okLanes.getD lane false = false ∧ (t.codec b).lanes.getD lane none = none ∧
      (t.codec b).queue = ((k.lanes.getD lane none).map fun j => { j with first := false }).toList ++ k.queue ∧ t.latchedU Ev.LANE_FAIL b ∧ Only [.att, .regs, .tel, .pol] s t)

/-- A destination commit whose port is enabled and allowed, whose range and shaper are lawful takes all the settings, and is ENABLED or DISABLED as its control says, with the new shaper in force from the next refill; a commit that names a port not enabled or not allowed changes no setting, gives reason 1 and raises DEST_REFUSED; a destination disabled drains until its pushes and deliveries are gone; a refill adds each rate times its interval, up to the bucket's size; a sample publishes the bytes that wait and the longest wait; a gate list committed waits for a cycle start, and at that start it is the list in force; an interval's end brings the next entry, or the first one again. -/
def Obligations.DestinationsAndGates : Prop :=
  -- destCommit
  (∀ (s : State) (part dest port : Nat),
    (part < 64 ∧ dest < s.gp F.DEST_LIMIT part ∧ s.partFree part = false) →
    (port = s.gps F.DEST_CTRL_PORT part dest) →
    (bit (s.gp F.PORT_MASK part) port = true ∧ s.portEnabled port = true ∧ s.tdiHolds port (part + 1) = false) →
    (s.gps F.DEST_BASE part dest % 64 = 0 ∧ shaperOk (s.shaperRegs part dest) = true) →
    (s.gps F.DEST_CTRL_LAND_EN part dest = 1 →
      s.gps F.DEST_LAND part dest + 16 * s.gp F.DQ_LIMIT part ≤ s.gps F.DEST_LEN part dest) →
    Does (.destCommit part dest) s fun t =>
      (∃ d ∈ t.dest part dest, d.port = port ∧ d.conn = s.gps F.DEST_REMOTE part dest ∧ d.base = s.gps F.DEST_BASE part dest ∧
        d.len = s.gps F.DEST_LEN part dest ∧ d.land = s.gps F.DEST_LAND part dest ∧
        d.landEn = (s.gps F.DEST_CTRL_LAND_EN part dest == 1) ∧ d.st = (if s.gps F.DEST_CTRL_ENABLE part dest = 1 then 1
          else if ((s.dest part dest).any fun o => o.st == 1) && s.destBusy part dest then 2 else 3) ∧
        d.reason = 0 ∧ d.shpNext = s.shaperRegs part dest ∧ (∀ o ∈ s.dest part dest, d.shp = o.shp)) ∧
      t.reg F.DEST_CTRL_COMMIT 0 part dest 0 = 0 ∧ Only [.dlv, .regs] s t) ∧
  -- destRefused
  (∀ (s : State) (part dest : Nat) (o : Dest),
    (part < 64 ∧ dest < s.gp F.DEST_LIMIT part ∧ s.partFree part = false) →
    (bit (s.gp F.PORT_MASK part) (s.gps F.DEST_CTRL_PORT part dest) = false ∨ s.portEnabled (s.gps F.DEST_CTRL_PORT part dest) = false) →
    (s.dest part dest = some o) →
    Does (.destCommit part dest) s fun t =>
      t.dest part dest = some { o with reason := 1 } ∧ t.latched Ev.DEST_REFUSED ∧ Only [.dlv, .regs, .tel, .pol] s t) ∧
  -- destDisable
  (∀ (s : State) (part dest : Nat) (d : Dest),
    (s.dest part dest = some d) →
    (d.st = 1 ∧ s.partFree part = false) →
    Does (.destDisable part dest) s fun t =>
      t.dest part dest = some { d with st := if s.destBusy part dest then 2 else 3 } ∧
      t.reg F.DEST_CTRL_ENABLE 0 part dest 0 = 0 ∧ Only [.dlv, .regs] s t) ∧
  -- shaperRefill
  (∀ (s : State) (part dest : Nat) (d : Dest),
    (s.dest part dest = some d) →
    Does (.shaperRefill part dest) s fun t =>
      (∃ e ∈ t.dest part dest, e.shp = d.shpNext ∧
        e.committed.tokens = min ((d.shpNext.2.2.1 * 1000 : Nat) : Int) (d.committed.tokens + ((d.shpNext.1 * s.gu F.REFILL_NS d.port : Nat) : Int)) ∧
        e.peak.tokens = min ((d.shpNext.2.2.2 * 1000 : Nat) : Int) (d.peak.tokens + ((d.shpNext.2.1 * s.gu F.REFILL_NS d.port : Nat) : Int)) ∧
        e.committed.last = t.now) ∧ t.now = max s.now (d.committed.last + s.gu F.REFILL_NS d.port) ∧ Only [.now, .dlv] s t) ∧
  -- dlvSample
  (∀ (s : State) (part : Nat),
    Does (.dlvSample part .everyQueue) s fun t =>
      t.now = max s.now (alGetD part 0 s.dlv.sampleT + 2 ^ s.gp F.DLV_CTRL part * 1000) ∧ t.dlv = { s.dlv with sampleT := alSet part t.now s.dlv.sampleT } ∧
      (∀ dq < s.gp F.DQ_LIMIT part, ∀ mine, mine = (s.dlv.pushes.filter fun x => x.part == part && x.dq == dq && x.st == 0) →
        t.reg F.DQ_DEPTH 0 part dq 0 = min 0xFFFFFFFF (sumBy (·.charge) mine) ∧
        t.reg F.DQ_DELAY 0 part dq 0 = min 0xFFFFFFFF (maxBy (fun x => t.now - x.readyT) mine) ∧
        t.reg F.DQ_DEPTH_MAX 0 part dq 0 = max (t.reg F.DQ_DEPTH 0 part dq 0) (s.gps F.DQ_DEPTH_MAX part dq) % 2 ^ 32 ∧
        t.reg F.DQ_DELAY_MAX 0 part dq 0 = max (t.reg F.DQ_DELAY 0 part dq 0) (s.gps F.DQ_DELAY_MAX part dq) % 2 ^ 32) ∧
      Only [.now, .regs, .dlv] s t) ∧
  -- gateCommit
  (∀ (s : State) (port : Nat),
    (port < 16) →
    (∀ p ∈ s.part.parts, p.live = true → bit (s.gp F.PORT_MASK p.num) port = true → ∀ dq < s.gp F.DQ_LIMIT p.num,
      fitsIn (s.counted p.num dq 4096) (s.portRate port)
      (longestOpen (gateSpans (s.adminList port) (s.gu F.GATE_CYCLE_NS port)) (s.gps F.DQ_CFG_GATE_CLASS p.num dq)) = true) →
    (port < s.dlv.ports.length) →
    (0 < s.gu F.GATE_CYCLE_NS port) →
    Does (.gateCommit port) s fun t =>
      (t.port port).pending = some (s.adminList port) ∧ (t.port port).pendCycle = s.gu F.GATE_CYCLE_NS port ∧
      (t.port port).pendBase = s.gu F.GATE_BASE port ∧
      (∃ n : Int, ((t.port port).pendingT : Int) = s.gu F.GATE_BASE port + n * s.gu F.GATE_CYCLE_NS port) ∧
      max (s.gu F.GATE_CHANGE_TIME port) s.now ≤ (t.port port).pendingT ∧ (t.port port).gate = (s.port port).gate ∧
      t.reg F.GATE_CTRL_STATE (port + 1) 255 0 0 = 1 ∧ Only [.dlv, .regs] s t) ∧
  -- gateSwitch
  (∀ (s : State) (port : Nat) (l : List GateEnt),
    ((s.port port).pending = some l) →
    Does (.gateSwitch port) s fun t =>
      (t.port port).gate = l ∧ (t.port port).gateCycle = (s.port port).pendCycle ∧ (t.port port).gateBase = (s.port port).pendBase ∧
      (t.port port).gateCur = 0 ∧ (t.port port).gateT = (s.port port).pendingT ∧ (t.port port).pending = none ∧
      t.now = max s.now (s.port port).pendingT ∧ t.latchedU Ev.GATE_SWITCH port ∧ Only [.now, .dlv, .regs, .tel, .pol] s t) ∧
  -- gateIntervalEnd
  (∀ (s : State) (port : Nat) (e : Nat × Nat),
    ((s.port port).spans[(s.port port).gateCur]? = some e) →
    (port < s.dlv.ports.length) →
    Does (.gateIntervalEnd port) s fun t =>
      (t.port port).gateCur = (if (s.port port).gateCur + 1 < (s.port port).spans.length then (s.port port).gateCur + 1 else 0) ∧
      (t.port port).gateT = (s.port port).gateT + e.2 ∧ t.now = max s.now ((s.port port).gateT + e.2) ∧ Only [.now, .dlv] s t)

/-- A port that is up and loses its link, by itself, by a failure of IDE or by Viral, which also raises VIRAL, is held with the partner it had and LINK_HOLD is raised, or is down at once, what it held discarded, where its hold time is 0; a port that is not up only ceases to be trained; a port that was down and trains is up with its partner; a held CXL port that trains is up again, with HOLD_RELEASE for the partner it had, with what it held discarded for another one; a held Ethernet port that trains waits for its partner's LLDP frame; a hold that expires discards what the port holds, raises HOLD_DISCARD and leaves the port down; an LLDP frame gives an Ethernet port its partner and ends a hold with it, as for the same partner or another one; no frame within a second ends the hold as for another partner; a configuration request is answered, with success once a second has passed since training. -/
def Obligations.LinksAndHolds : Prop :=
  -- linkDown
  (∀ (s : State) (port : Nat) (i : Instr),
    (i = .linkDown port ∨ (i = .ideFailure port ∧ port < 8 ∧ (s.port port).ideUp = true) ∨ (i = .viralReceived port ∧ port < 8)) →
    (port < 16 ∧ port < s.dlv.ports.length) →
    ((s.port port).st = .up) →
    (∀ x ∈ s.sec.tdis, x.port ≠ port) →
    Does i s fun t =>
      t.port port = (s.port port).lost (s.gu F.HOLD_US port) s.now ∧
      (s.gu F.HOLD_US port ≠ 0 → t.latchedU Ev.LINK_HOLD port ∧ t.now = s.now ∧ t.q = s.q ∧ t.sq = s.sq ∧ t.cxl = s.cxl) ∧
      (s.gu F.HOLD_US port = 0 → t.latchedU Ev.HOLD_DISCARD port ∧ s.emptied t port) ∧
      ((s.port port).ideUp = true → s.gu F.PORT_CTRL_IDE_REQ port = 1 → t.latchedU Ev.IDE_DOWN port) ∧
      (8 ≤ port → t.latchedU Ev.NET_LINK_DOWN (port - 8)) ∧ (i = .viralReceived port → t.latchedU Ev.VIRAL port)) ∧
  -- linkDownNotUp
  (∀ (s : State) (port : Nat) (i : Instr),
    (i = .linkDown port ∨ (i = .ideFailure port ∧ port < 8 ∧ (s.port port).ideUp = true)) →
    (port < 16 ∧ port < s.dlv.ports.length) →
    ((s.port port).st ≠ .up) →
    Does i s fun t => t.port port = { s.port port with trained := false } ∧ (∀ n, n ≠ port → t.port n = s.port n) ∧ Only [.dlv] s t) ∧
  -- linkUp
  (∀ (s : State) (port rate width pp : Nat) (cxl ide : Bool) (partner : Option Nat) (loss : List Nat),
    (port < 16 ∧ port < s.dlv.ports.length) →
    ((s.port port).st = .down ∧ (s.port port).trained = false) →
    (s.hw.stopped = false ∧ s.boot.halted = false ∧ s.stepDone 2 = true ∧ s.bridgeUp (port / 4 % 2) = true) →
    Does (.linkUp port rate width cxl ide partner pp loss) s fun t =>
      (t.port port).st = .up ∧ (t.port port).trained = true ∧ (t.port port).rate = rate ∧ (t.port port).width = width ∧
      (t.port port).loss = loss ∧ (t.port port).linkT = s.now ∧ (t.port port).heldPartner = none ∧
      (port < 8 → (t.port port).cxl = cxl ∧ (t.port port).ideUp = ide ∧ (t.port port).partner = partner ∧ (t.port port).partnerPort = pp) ∧
      (8 ≤ port → (t.port port).cxl = false ∧ (t.port port).ideUp = false ∧ (t.port port).lldp = none) ∧ t.now = s.now ∧ t.sq = s.sq) ∧
  -- linkUpHeld
  (∀ (s : State) (port rate width pp : Nat) (cxl ide : Bool) (partner : Option Nat) (loss : List Nat),
    (port < 8 ∧ port < s.dlv.ports.length ∧ (s.port port).num = port) →
    ((s.port port).st = .holding ∧ (s.port port).trained = false) →
    (s.hw.stopped = false ∧ s.boot.halted = false ∧ s.stepDone 2 = true ∧ s.bridgeUp (port / 4 % 2) = true) →
    Does (.linkUp port rate width cxl ide partner pp loss) s fun t =>
      (t.port port).st = .up ∧ (t.port port).trained = true ∧ (t.port port).heldPartner = none ∧ (t.port port).partner = partner ∧
      (t.port port).partnerPort = pp ∧ (t.port port).linkT = s.now ∧
      (partner.isSome = true → (s.port port).heldPartner = partner.map (fun n => n * 256 + pp) → t.latchedU Ev.HOLD_RELEASE port) ∧
      (¬(partner.isSome = true ∧ (s.port port).heldPartner = partner.map (fun n => n * 256 + pp)) →
        t.latchedU Ev.HOLD_DISCARD port ∧ t.latchedU Ev.CXL_PARTNER_CHANGED port ∧ s.emptied t port)) ∧
  -- linkUpHeldNet
  (∀ (s : State) (port rate width pp : Nat) (cxl ide : Bool) (partner : Option Nat) (loss : List Nat),
    (8 ≤ port ∧ port < 16 ∧ port < s.dlv.ports.length) →
    ((s.port port).st = .holding ∧ (s.port port).trained = false) →
    (s.hw.stopped = false ∧ s.boot.halted = false ∧ s.stepDone 2 = true ∧ s.bridgeUp (port / 4 % 2) = true) →
    Does (.linkUp port rate width cxl ide partner pp loss) s fun t =>
      t.port port = { s.port port with
        trained := true, rate := rate, width := width, linkT := s.now, loss := loss, cxl := false, ideUp := false, partner := none
        partnerPort := 0, lldp := none, lldpT := s.now } ∧ Only [.dlv] s t) ∧
  -- holdExpire
  (∀ (s : State) (port : Nat),
    (port < s.dlv.ports.length) →
    ((s.port port).st = .holding ∧ (s.port port).trained = false) →
    Does (.holdExpire port) s fun t =>
      t.latchedU Ev.HOLD_DISCARD port ∧ t.port port = { s.port port with st := .down } ∧ s.emptied t port ∧
      ((∀ d ∈ s.dlv.delivs, d.port ≠ port) → (∀ x ∈ s.dlv.pushes, x.port ≠ port) → (∀ q ∈ s.q.queues, q.port ≠ port) →
        (∀ k ∈ s.net.conns, k.port ≠ port) → (∀ l ∈ s.cxl.leases, l.port ≠ port) → (∀ e ∈ s.cxl.extents, bit e.ports port = false) →
        t.now = max s.now ((s.port port).holdT + s.gu F.HOLD_US port * 1000) ∧ Only [.now, .dlv, .regs, .tel, .pol] s t)) ∧
  -- lldpReceive
  (∀ (s : State) (n id : Nat) (b : Bytes),
    (n < 8 ∧ 8 + n < s.dlv.ports.length) →
    ((s.port (8 + n)).trained = true) →
    (id = leNat ((Blake.hash 32 [] (lldpIds 128 b)).take 8)) →
    Does (.lldpReceive n b) s fun t =>
      (t.port (8 + n)).lldp = some id ∧ (t.port (8 + n)).lldpT = s.now ∧ ((s.port (8 + n)).st ≠ .holding → Only [.dlv] s t) ∧
      ((s.port (8 + n)).st = .holding → (t.port (8 + n)).st = .up ∧ (t.port (8 + n)).heldPartner = none ∧
        ((s.port (8 + n)).heldPartner = some id → t.latchedU Ev.HOLD_RELEASE (8 + n) ∧ t.dlv.pushes = s.dlv.pushes ∧ t.dlv.delivs = s.dlv.delivs) ∧
        ((s.port (8 + n)).heldPartner ≠ some id → t.latchedU Ev.HOLD_DISCARD (8 + n) ∧ t.latchedU Ev.NET_PARTNER_CHANGED n ∧ s.emptied t (8 + n)))) ∧
  -- lldpTimeout
  (∀ (s : State) (n : Nat),
    (n < 8 ∧ 8 + n < s.dlv.ports.length) →
    ((s.port (8 + n)).trained = true ∧ (s.port (8 + n)).lldp = none) →
    Does (.lldpTimeout n) s fun t =>
      ((s.port (8 + n)).st ≠ .holding → t = s.reach ((s.port (8 + n)).linkT + 1000000000)) ∧
      ((s.port (8 + n)).st = .holding → t.port (8 + n) = { s.port (8 + n) with st := .up, heldPartner := none } ∧
        t.latchedU Ev.HOLD_DISCARD (8 + n) ∧ t.latchedU Ev.NET_PARTNER_CHANGED n ∧ s.emptied t (8 + n))) ∧
  -- pcieConfigRequest
  (∀ (s : State) (port : Nat),
    (port < 8) →
    (s.boot.halted = false ∧ s.hw.stopped = false ∧ (s.port port).trained = true) →
    Does (.pcieConfigRequest port) s fun t =>
      (∃ r, t.out = OutMsg.config port r :: s.out ∧ ((s.port port).linkT + 1000000000 ≤ s.now → r = false)) ∧ Only [.out, .free] s t)

/-- A grant that the rule accepts enters an extent under the next lease epoch, at a free index, and is answered GRANTED; one refused is answered REFUSED with its reason; a message of a fabric manager that is not bound is dropped; a release request starts the release, a forced release is the revocation point, at which the copies of a tier extent cease to exist, and either is refused with reason 0 where it names no extent; an evacuation that is late loses the copies that T3 has not admitted, and the last step takes the extent out of the table and sends RELEASED; a window add that satisfies the rule enters a lease under the next epoch, any other is rejected; its graceful release is posted to the host, whose own release ends it, and a forced one revokes it: reads waiting are answered, its lines are back-invalidated, and it is gone when none is left, at the latest with the response for the last of them; a map commit that passes the checks is pending and takes effect at its commit point, one that does not is refused with its reason; a window read is answered with the line's bytes, or with poison where no lease covers it, a window write is completed, discarded and counted, a host snoop is answered. -/
def Obligations.ExtentsAndWindows : Prop :=
  -- extGrant
  (∀ (s : State) (msg : Nat),
    (s.fmBound = true) →
    (s.grantReason msg = 0) →
    Does (.extGrant msg) s fun t =>
      t.latched Ev.EXT_GRANTED ∧ (s.quiet → Only [.free, .cxl, .out, .regs, .tel, .pol] s t) ∧
      ∃ e, t.cxl.extents = s.cxl.extents ++ [e] ∧ e.idx < 4096 ∧ (∀ x ∈ s.cxl.extents, x.idx ≠ e.idx) ∧ e.kind = efld msg 2 1 ∧ e.part = efld msg 3 1 ∧ e.fmId = efld msg 4 4 ∧
        e.tray = efld msg 8 2 % 4096 ∧ e.ports = efld msg 0x0A 1 ∧ e.hdmDb = (efld msg 0x0B 1 == 1) ∧ e.dpa = efld msg 0x10 8 ∧
        e.len = efld msg 0x18 8 ∧ e.st = .held ∧ e.epoch = s.cxl.extEpoch + 1 ∧ t.cxl.extEpoch = e.epoch ∧
        OutMsg.fm (e.msg 0x0081 0 0) ∈ t.out) ∧
  -- extGrantRefused
  (∀ (s : State) (msg : Nat),
    (s.fmBound = true) →
    (s.grantReason msg ≠ 0) →
    Does (.extGrant msg) s fun t =>
      t.out = OutMsg.fm (extMsg 0x0082 (efld msg 2 1) (efld msg 3 1) (efld msg 4 4) (efld msg 8 2 % 4096) (efld msg 0x0A 1) (efld msg 0x0B 1) 0
        (s.grantReason msg) 0 (efld msg 0x10 8) (efld msg 0x18 8) 0) :: s.out ∧
      t.latched Ev.EXT_REFUSED ∧ Only [.out, .regs, .tel, .pol] s t) ∧
  -- fmUnbound
  (∀ (s : State) (msg : Nat) (i : Instr),
    (i ∈ [Instr.extGrant msg, .extReleaseReq msg, .extForceRelease msg, .windowExtentAdd msg, .windowReleaseReq msg, .windowForceRelease msg]) →
    (s.fmBound = false) →
    Does i s fun t =>
      t.g F.FM_REJECTS = min (s.g F.FM_REJECTS + 1) (2 ^ F.FM_REJECTS.bits - 1) ∧ Only [.regs] s t) ∧
  -- extUnknown
  (∀ (s : State) (msg : Nat) (i : Instr),
    (i ∈ [Instr.extReleaseReq msg, .extForceRelease msg]) →
    (s.fmBound = true) →
    (s.extNamed msg = none) →
    Does i s fun t =>
      t.out = OutMsg.fm (extMsg 0x0082 (efld msg 2 1) (efld msg 3 1) (efld msg 4 4) (efld msg 8 2) (efld msg 0x0A 1) (efld msg 0x0B 1) (efld msg 0x0C 2)
        0 0 (efld msg 0x10 8) (efld msg 0x18 8) 0) :: s.out ∧ Only [.out] s t) ∧
  -- extRelease
  (∀ (s : State) (msg : Nat) (e : Extent),
    (s.fmBound = true) →
    (s.extNamed msg = some e) →
    (e.st = .held) →
    Does (.extReleaseReq msg) s fun t =>
      t.extent e.idx = some { e with st := .releasing, evacUntil := s.now + s.gp F.EVAC_MS e.part * 1000000, relUid := s.q.nextUid } ∧
      (∀ i, i ≠ e.idx → t.extent i = s.extent i) ∧
      ((e.kind = 1 → ∀ k ∈ s.tier.copies, ¬(k.tier = 2 ∧ k.unit = e.idx)) → Only [.cxl] s t)) ∧
  -- extForceRelease
  (∀ (s : State) (msg : Nat) (e : Extent),
    (s.fmBound = true) →
    (s.extNamed msg = some e) →
    (e.st ≠ .revoking) →
    Does (.extForceRelease msg) s fun t =>
      t.extent e.idx = some { e with st := .revoking, relUid := s.q.nextUid } ∧ (∀ i, i ≠ e.idx → t.extent i = s.extent i) ∧
      t.latched Ev.REVOKED ∧ (e.kind ≠ 1 → Only [.cxl, .regs, .tel, .pol] s t) ∧
      (e.kind = 1 → s.tier.waits = [] → s.sq.seals = [] → ∀ k ∈ t.tier.copies, ¬(k.tier = 2 ∧ k.unit = e.idx))) ∧
  -- evacTimeout
  (∀ (s : State) (ext : Nat) (e : Extent),
    (s.extent ext = some e) →
    (e.st = .releasing ∧ e.kind = 1) →
    (s.extentEmpty ext = false) →
    (s.tier.waits = [] ∧ s.sq.seals = []) →
    Does (.evacTimeout ext) s fun t =>
      t.now = max s.now e.evacUntil ∧ t.extent ext = some e ∧
      (∀ k ∈ t.tier.copies, k.tier = 2 → k.unit = ext → 
        ∃ m ∈ s.moveOf k.part k.serial, m.dstTier = 3 ∧ m.replace = true ∧ m.srcTier = 2) ∧
      ((∀ m ∈ s.tier.moves, ¬(m.dstTier = 3 ∧ m.replace = true ∧ m.srcTier = 2)) → t.extentEmpty ext = true)) ∧
  -- extentReleased
  (∀ (s : State) (ext : Nat) (e : Extent),
    (s.extent ext = some e) →
    (e.st ≠ .held) →
    (e.st = .releasing → e.kind = 1 → s.extentEmpty ext = true) →
    (e.kind ≠ 1 ∨ e.st = .revoking → ∀ c ∈ s.q.cmds, c.live = true → c.nmNames ext = true → e.relUid ≤ c.uid) →
    Does (.extentReleased ext) s fun t =>
      t.extent ext = none ∧ (∀ i, i ≠ ext → t.extent i = s.extent i) ∧
      t.out = (if e.st = .releasing ∧ e.kind = 1 then [OutMsg.fm (e.msg 0x0083 0 1), OutMsg.trayZero e.tray ext]
        else [OutMsg.fm (e.msg 0x0083 0 0)]) ++ s.out ∧ Only [.cxl, .out] s t) ∧
  -- windowExtentAdd
  (∀ (s : State) (msg : Nat),
    (s.fmBound = true) →
    (s.windowOk msg = true) →
    Does (.windowExtentAdd msg) s fun t =>
      (∃ l, t.cxl.leases = s.cxl.leases ++ [l] ∧ l.part = efld msg 34 1 ∧ l.port = efld msg 0 1 ∧ l.pbr = efld msg 2 2 ∧
        l.base = efld msg 8 8 ∧ l.len = efld msg 16 8 ∧ l.fmId = efld msg 36 4 ∧ l.st = .active ∧ l.slots = [] ∧
        l.epoch = s.cxl.leaseEpoch + 1 ∧ (s.cxl.leases.length < 4096 → ∀ x ∈ s.cxl.leases, x.num ≠ l.num)) ∧
      t.out = OutMsg.dcd (efld msg 0 1) (efld msg 2 2) 1 (efld msg 36 4) :: s.out ∧ t.latched Ev.LEASE_ADDED ∧
      Only [.free, .cxl, .out, .regs, .tel, .pol] s t) ∧
  -- windowRejected
  (∀ (s : State) (msg : Nat),
    (s.fmBound = true) →
    (s.windowOk msg = false) →
    Does (.windowExtentAdd msg) s fun t =>
      t.out = OutMsg.dcd (efld msg 0 1) (efld msg 2 2) 2 (efld msg 36 4) :: s.out ∧ Only [.out] s t) ∧
  -- windowReleaseReq
  (∀ (s : State) (msg : Nat) (l : Lease),
    (s.fmBound = true) →
    (s.leaseNamed msg = some l) →
    (l.st = .active) →
    Does (.windowReleaseReq msg) s fun t =>
      t.cxl.leases = s.cxl.leases.map (fun x => if x.num == l.num then { x with st := .releasing } else x) ∧
      t.out = OutMsg.dcd l.port l.pbr 3 l.fmId :: s.out ∧ t.cxl.reads = s.cxl.reads ∧ t.cxl.sf = s.cxl.sf ∧ Only [.cxl, .out] s t) ∧
  -- hostExtentRelease
  (∀ (s : State) (msg : Nat) (l : Lease),
    (s.leaseNamed msg = some l) →
    (l.st = .releasing) →
    (∀ x ∈ s.cxl.leases, x.num = l.num → x = l) →
    Does (.hostExtentRelease msg) s fun t =>
      (∀ x ∈ t.cxl.leases, x.num = l.num → x.st = .ending ∧ x.pending = none) ∧ (∀ r ∈ t.cxl.reads, r.lease ≠ l.num) ∧
      (∀ r ∈ s.cxl.reads, r.lease = l.num → ∃ load data, OutMsg.cxlData r.port r.tag load data ∈ t.out) ∧
      (∀ f ∈ t.cxl.sf, f.lease = l.num → f.snooped = true) ∧
      ((∀ f ∈ s.cxl.sf, f.lease ≠ l.num) → (∀ x ∈ t.cxl.leases, x.num ≠ l.num) ∧ OutMsg.dcd l.port l.pbr 4 l.fmId ∈ t.out)) ∧
  -- windowForceRelease
  (∀ (s : State) (msg : Nat) (l : Lease),
    (s.fmBound = true) →
    (s.leaseNamed msg = some l) →
    (∀ x ∈ s.cxl.leases, x.num = l.num → x = l) →
    Does (.windowForceRelease msg) s fun t =>
      (∀ x ∈ t.cxl.leases, x.num = l.num → x.st = .revoking ∧ x.pending = none) ∧ (∀ r ∈ t.cxl.reads, r.lease ≠ l.num) ∧
      t.latched Ev.REVOKED ∧ (∀ r ∈ s.cxl.reads, r.lease = l.num → ∃ load data, OutMsg.cxlData r.port r.tag load data ∈ t.out) ∧
      (∀ f ∈ t.cxl.sf, f.lease = l.num → f.snooped = true) ∧
      ((∀ f ∈ s.cxl.sf, f.lease ≠ l.num) → (∀ x ∈ t.cxl.leases, x.num ≠ l.num) ∧ OutMsg.dcd l.port l.pbr 4 l.fmId ∈ t.out)) ∧
  -- birsp
  (∀ (s : State) (port lease line : Nat) (l : Lease),
    (l ∈ s.cxl.leases) →
    (l.num = lease ∧ l.port = port) →
    (s.cxl.reads = []) →
    Does (.birsp port lease line) s fun t =>
      (∀ f ∈ t.cxl.sf, ∃ g ∈ s.cxl.sf, g.lease = f.lease ∧ g.line = f.line ∧
        ¬ (g.lease = lease ∧ g.line / 4 = line / 4 ∧ g.snooped = true)) ∧
      (∀ g ∈ s.cxl.sf, ¬ (g.lease = lease ∧ g.line / 4 = line / 4 ∧ g.snooped = true) → ∃ f ∈ t.cxl.sf, f.lease = g.lease ∧ f.line = g.line) ∧
      ((l.st = .ending ∨ l.st = .revoking) → (∀ x ∈ s.cxl.leases, x.num = lease → x = l) →
        (∀ g ∈ s.cxl.sf, g.lease = lease → g.line / 4 = line / 4 ∧ g.snooped = true) →
        (∀ x ∈ t.cxl.leases, x.num ≠ lease) ∧ OutMsg.dcd l.port l.pbr 4 l.fmId ∈ t.out)) ∧
  -- windowMapCommit
  (∀ (s : State) (part lease : Nat) (e : Lease) (b : Bytes) (ws : List WinSlot),
    (s.lease part lease = some e) →
    ((e.st = .active ∨ e.st = .releasing) ∧ e.pending = none) →
    (s.tdiHolds e.port (part + 1) = false) →
    (16 * s.gps F.WIN_MAP_ENTRIES part lease ≤ b.length) →
    (ws = mapSlots b (s.gps F.WIN_MAP_ENTRIES part lease)) →
    (∀ w ∈ ws, s.resolve part w.handle (hOrder w.handle) = none) →
    (s.slotsBad e ws = false) →
    Does (.windowMapCommit part lease (some b)) s fun t =>
      t.lease part lease = some { e with pending := some ws, pendingT := s.now, reason := 0 } ∧ t.cxl.sf = s.cxl.sf ∧ t.sq = s.sq) ∧
  -- windowMapUnread
  (∀ (s : State) (part lease : Nat) (e : Lease) (map : Option Bytes),
    (s.lease part lease = some e) →
    ((e.st = .active ∨ e.st = .releasing) ∧ e.pending = none) →
    (s.tdiHolds e.port (part + 1) = false) →
    (∀ b ∈ map, b.length < 16 * s.gps F.WIN_MAP_ENTRIES part lease) →
    Does (.windowMapCommit part lease map) s fun t =>
      t.lease part lease = some { e with pending := none, reason := 4 } ∧ t.latched Ev.MAP_REFUSED ∧ Only [.cxl, .regs, .tel, .pol] s t) ∧
  -- windowMapRefused
  (∀ (s : State) (part lease n : Nat) (e : Lease) (b : Bytes) (ws : List WinSlot),
    (s.lease part lease = some e) →
    ((e.st = .active ∨ e.st = .releasing) ∧ e.pending = none) →
    (s.tdiHolds e.port (part + 1) = false) →
    (16 * s.gps F.WIN_MAP_ENTRIES part lease ≤ b.length) →
    (ws = mapSlots b (s.gps F.WIN_MAP_ENTRIES part lease)) →
    ((n = 1 ∧ ∃ w ∈ ws, s.resolve part w.handle (hOrder w.handle) ≠ none) ∨
      (n = 2 ∧ (∀ w ∈ ws, s.resolve part w.handle (hOrder w.handle) = none) ∧ s.slotsBad e ws = true)) →
    Does (.windowMapCommit part lease (some b)) s fun t =>
      t.lease part lease = some { e with pending := none, reason := n } ∧ t.latched Ev.MAP_REFUSED ∧ Only [.cxl, .regs, .tel, .pol] s t) ∧
  -- mapCommitPoint
  (∀ (s : State) (part lease : Nat) (e : Lease) (ws : List WinSlot),
    (s.lease part lease = some e) →
    (e.pending = some ws) →
    (∀ w ∈ ws, s.near (hPart w.handle) (hSerial w.handle) = true) →
    (∀ f ∈ s.cxl.sf, f.lease = lease → s.slotOf e.slots f.line = s.slotOf ws f.line) →
    Does (.mapCommitPoint part lease) s fun t =>
      ∃ l ∈ t.cxl.leases, l.part = part ∧ l.num = lease ∧ l.pending = none ∧ l.st = e.st ∧ (∀ w ∈ l.slots, w ∈ ws) ∧
        (t.sq.leaves = s.sq.leaves → l.slots = ws)) ∧
  -- windowRead
  (∀ (s : State) (port pbr addr tag : Nat) (e : Lease),
    (port < 8) →
    ((s.cxl.leases.find? fun l =>
      l.port == port && l.pbr == pbr && l.base ≤ addr && addr < l.base + l.len && (l.st == .active || l.st == .releasing)) = some e) →
    ((s.cxl.leases.find? fun l => l.num == e.num) = some e) →
    (s.ideOk port = true) →
    (s.cxl.reads = [] ∧ s.paused 0x11 (port + 1) = false) →
    (s.gp F.HOST_RATE e.part = 0) →
    (s.cxl.sf.length < sfMax) →
    (∀ w ∈ s.slotOf e.slots ((addr - e.base) / 64), s.near (hPart w.handle) (hSerial w.handle) = true) →
    Does (.windowRead port pbr addr tag) s fun t =>
      (∃ load, OutMsg.cxlData port tag load (s.lineData e ((addr - e.base) / 64)) ∈ t.out) ∧ t.cxl.reads = [] ∧
      ((s.lineData e ((addr - e.base) / 64)).isSome → ∃ f ∈ t.cxl.sf, f.lease = e.num ∧ f.line = (addr - e.base) / 64) ∧
      t.sq = s.sq ∧ t.tier = s.tier) ∧
  -- windowReadPoison
  (∀ (s : State) (port pbr addr tag : Nat),
    (port < 8) →
    (∀ l ∈ s.cxl.leases, ¬(l.port = port ∧ l.pbr = pbr ∧ l.base ≤ addr ∧ addr < l.base + l.len)) →
    Does (.windowRead port pbr addr tag) s fun t =>
      t.out = OutMsg.cxlData port tag (s.loadOf port false) none :: s.out ∧ t.latchedU Ev.POISON port ∧ Only [.out, .regs, .tel, .pol] s t) ∧
  -- windowWrite
  (∀ (s : State) (port pbr addr : Nat),
    Does (.windowWrite port pbr addr) s fun t =>
      t.out = OutMsg.cxlDone port (s.loadOf port false) :: s.out ∧ t.latched Ev.WIN_WRITE ∧
      (∀ e ∈ s.cxl.leases.find? (fun l => l.port == port && l.pbr == pbr && l.base ≤ addr && addr < l.base + l.len),
        t.gp F.WIN_WRITES e.part = min (s.gp F.WIN_WRITES e.part + 1) (2 ^ 32 - 1)) ∧ Only [.out, .regs, .tel, .pol] s t) ∧
  -- h2dSnoop
  (∀ (s : State) (port addr : Nat),
    Does (.h2dSnoop port addr) s fun t =>
      t.out = OutMsg.snoopReply port addr :: s.out ∧ Only [.out] s t)

/-- NM_FILL whose lines all fit its tray's limit writes its pattern over every line and ends OK with the bytes done; a command that reads enters its NM unit and reads before it writes; when every line is done a command ends OK with its bytes, and NM_COMPARE with the first offset that differs or all ones; a tray's answer lowers the requests outstanding there and moves the limit by its DevLoad, and the bytes it brings stand with the command that waits for them. -/
def Obligations.NearMemory : Prop :=
  -- fill
  (∀ (s : State) (c : Nat) (x : Cmd) (e : Extent) (v n : Nat),
    (s.runs c .nmFill x) →
    (s.nmJob c = none) →
    (s.nmCheck x = none) →
    (v = x.f 0x18 8 ∧ n = x.f 0x28 8 / 64) →
    (s.extent (nmExt v) = some e) →
    (e.st = .held) →
    (s.trayPort e ≠ none) →
    ((s.tray e.tray).outstanding + n ≤ (s.tray e.tray).limit) →
    ((s.cxl.jobs.filter fun k => k.die == s.nmDie x && k.running).length < 4 ∧ s.paused 0x16 (s.nmDie x + 1) = false) →
    Does (.nmFill c) s fun t =>
      t.ended c St.ok (64 * n) 0 ∧ t.nmJob c = none ∧ (t.tray e.tray).outstanding = (s.tray e.tray).outstanding + n ∧
      (∀ k < n, OutMsg.trayWrite e.tray (nmExt v) (nmOff v / 64 + k) ((List.range 8).flatMap fun _ => leBytes 8 (x.f 0x20 8)) ∈ t.out)) ∧
  -- enter
  (∀ (s : State) (c : Nat) (x : Cmd) (i : Instr) (o : Op),
    ((i, o) ∈ [(Instr.nmCopy c, Op.nmCopy), (Instr.nmCompare c, Op.nmCompare), (Instr.nmReduce c, Op.nmReduce)]) →
    (s.runs c o x) →
    (s.nmJob c = none) →
    (s.nmCheck x = none) →
    (∀ v ∈ x.nmOperands, ∃ e ∈ s.extent (nmExt v), e.st = .held) →
    ((s.cxl.jobs.filter fun k => k.die == s.nmDie x && k.running).length < 4 ∧ s.paused 0x16 (s.nmDie x + 1) = false) →
    Does (i) s fun t =>
      (∃ j ∈ t.nmJob c, j.op = x.op ∧ j.die = s.nmDie x ∧ j.running = true ∧ j.lines = x.f 0x28 8 / 64 ∧ j.next = 0 ∧ j.got = []) ∧
      t.cmd c = some x ∧ t.sq = s.sq ∧ t.tier = s.tier ∧ t.regs = s.regs) ∧
  -- done
  (∀ (s : State) (c : Nat) (x : Cmd) (i : Instr) (o : Op) (j : NmJob),
    ((i, o) ∈ [(Instr.nmFill c, Op.nmFill), (Instr.nmCopy c, Op.nmCopy), (Instr.nmCompare c, Op.nmCompare), (Instr.nmReduce c, Op.nmReduce)]) →
    (s.runs c o x) →
    (s.nmJob c = some j) →
    (j.running = true ∧ j.next = j.lines ∧ j.poison = none ∧ j.lines ≤ j.asked.1 ∧ j.lines ≤ j.asked.2) →
    (∀ v ∈ x.nmOperands, ∃ e ∈ s.extent (nmExt v), e.st = .held) →
    Does (i) s fun t =>
      t.ended c St.ok (64 * j.lines) (if o = .nmCompare then j.differ.getD (2 ^ 64 - 1) else 0) ∧ t.nmJob c = none ∧ t.sq = s.sq) ∧
  -- trayWriteAnswered
  (∀ (s : State) (tray ext line load : Nat) (data : Option Bytes),
    (∀ j ∈ s.cxl.jobs, j.out = []) →
    Does (.trayResponse tray ext line load data) s fun t =>
      (t.tray tray).outstanding = (s.tray tray).outstanding - 1 ∧
      (load = 0 → (t.tray tray).limit = min 512 ((s.tray tray).limit + 1)) ∧ (load = 1 → (t.tray tray).limit = (s.tray tray).limit) ∧
      (load = 2 → (t.tray tray).limit = max 8 ((s.tray tray).limit - (s.tray tray).limit / 16)) ∧
      (3 ≤ load → (s.tray tray).lastHalve + 1000 ≤ s.now → (t.tray tray).limit = max 8 ((s.tray tray).limit / 2)) ∧ Only [.cxl] s t) ∧
  -- trayReadAnswered
  (∀ (s : State) (tray ext line load : Nat) (data : Bytes) (j : NmJob) (x : Cmd) (r : Nat × Nat),
    ((s.cxl.jobs.findSome? fun j => (s.cmd j.cmd).bind fun x =>
      (j.out.find? fun r => (x.nmSrc r.1).any fun v => nmExt v == ext && nmOff v / 64 + r.2 == line).map fun r => (j, x, r)) = some (j, x, r)) →
    (s.nmJob j.cmd = some j) →
    (x.cancelled = false ∧ x.uid = j.cmd) →
    (j.running = true ∧ j.poison = none ∧ j.next < j.lines ∧ j.lines ≤ j.asked.1 ∧ j.lines ≤ j.asked.2) →
    (({ j with got := j.got ++ [(r, data)] } : NmJob).result x j.next = none) →
    (∀ v ∈ x.nmOperands, ∃ e ∈ s.extent (nmExt v), e.st = .held) →
    Does (.trayResponse tray ext line load (some data)) s fun t =>
      t.nmJob j.cmd = some { j with out := j.out.erase r, got := j.got ++ [(r, data)] } ∧
      (t.tray tray).outstanding = (s.tray tray).outstanding - 1 ∧ Only [.cxl] s t)

/-- A NEED hint plans a prefetch of each layer named for the time given and ends OK; a COLD hint makes the pages' scores read 0 until its time; a CADENCE hint sets the group's period and next start; a BATCH hint replaces the members of its group and takes them out of the partition's other groups; a LEAVE hint takes the sequence out of its group and ends the protections of its pages; a MIGRATE whose pages all stand at the tier ends OK with their number; EVICT leaves no cached copy of the pages at the tier but those a capo or a move keeps, and ends OK with the number it dropped. -/
def Obligations.TierCommands : Prop :=
  -- hintNeed
  (∀ (s : State) (c : Nat) (x : Cmd) (y : Seq) (ge : Geom),
    (s.hintOf c 0 = some x) →
    ((s.seqFor x.part x.seq c).toOption = some (y, ge)) →
    (x.layer + max 1 (x.f 0x24 2) ≤ y.lens.length) →
    Does (.hintNeed c) s fun t =>
      (∃ z ∈ t.cmd c, z.st = .done ∧ z.status = St.ok ∧ z.r1 = 0) ∧
      (∀ l < max 1 (x.f 0x24 2), ∃ q ∈ t.tier.prefetches, q.part = x.part ∧ q.seq = y.id ∧ q.layer = x.layer + l ∧ q.first = x.f 0x1C 4 ∧
        q.count = x.f 0x20 4 ∧ q.useT = x.f 0x28 8 ∧ q.issueT = x.f 0x28 8 - s.gp F.PREFETCH_LEAD x.part * 1000 ∧ q.t0 = bit (x.f 0x19 1) 0) ∧
      t.tier.copies = s.tier.copies ∧ t.tier.moves = s.tier.moves ∧ Only [.q, .part, .tier, .sq] s t) ∧
  -- hintCold
  (∀ (s : State) (c : Nat) (x : Cmd) (y : Seq) (ge : Geom),
    (s.hintOf c 1 = some x) →
    ((s.seqFor x.part x.seq c).toOption = some (y, ge)) →
    Does (.hintCold c) s fun t =>
      t.ended c St.ok 0 0 ∧
      (∀ k ∈ s.pagesOf (y.leavesIn (x.f 0x1C 4) (x.f 0x20 4)), ∀ z ∈ t.page k.1 k.2, z.coldUntil = x.f 0x28 8 ∧ z.coldSeq = y.id) ∧
      t.tier.copies = s.tier.copies ∧ t.tier.moves = s.tier.moves ∧
      t.sq.seqs = s.sq.seqs ∧ t.sq.granules = s.sq.granules ∧ t.sq.leaves = s.sq.leaves ∧ Only [.q, .part, .tier, .sq] s t) ∧
  -- hintCadence
  (∀ (s : State) (c : Nat) (x : Cmd),
    (s.hintOf c 2 = some x) →
    (x.f 0x1A 2 ≤ 255) →
    Does (.hintCadence c) s fun t =>
      (∃ g ∈ t.cadence x.part (x.f 0x1A 2), g.period = x.f 0x30 8 ∧ g.layers = x.f 0x1C 4 ∧ g.stepT = x.f 0x28 8 - x.f 0x30 8 ∧ g.qg = x.qg ∧
        g.misses = 0 ∧ g.hits = 0 ∧ g.suspended = false ∧ g.members = ((s.cadence x.part (x.f 0x1A 2)).map (·.members)).getD []) ∧
      (∃ z ∈ t.cmd c, z.st = .done ∧ z.status = St.ok ∧ z.r1 = 0) ∧ t.tier.copies = s.tier.copies ∧ Only [.q, .part, .tier] s t) ∧
  -- hintBatch
  (∀ (s : State) (c : Nat) (x : Cmd) (es : List LenEnt),
    (s.hintOf c 3 = some x) →
    (x.f 0x1A 2 ≤ 255) →
    (x.buffers [x.tableAddr] = some true) →
    ((x.bufAll x.tableAddr).bind lenTable = some es) →
    (∀ e ∈ es, ∃ y ∈ s.seq x.part e.seq, ∃ ge ∈ s.geom x.part, y.openTo c = true ∧ e.first + e.count ≤ y.length ∧ ge.id = y.geom) →
    Does (.hintBatch c) s fun t =>
      (∃ g ∈ t.cadence x.part (x.f 0x1A 2), g.members = es.map (·.seq) ∧ g.qg = x.qg) ∧
      (∀ g ∈ t.tier.cadences, g.part = x.part → g.num ≠ x.f 0x1A 2 → ∀ e ∈ es, e.seq ∉ g.members) ∧
      (∃ z ∈ t.cmd c, z.st = .done ∧ z.status = St.ok ∧ z.r1 = 0) ∧ t.tier.copies = s.tier.copies ∧ Only [.q, .part, .tier] s t) ∧
  -- hintLeave
  (∀ (s : State) (c : Nat) (x : Cmd) (g : Cadence) (y : Seq) (ge : Geom),
    (s.hintOf c 4 = some x) →
    (s.cadence x.part (x.f 0x1A 2) = some g) →
    ((s.seqFor x.part x.seq c).toOption = some (y, ge)) →
    (y.id ∈ g.members) →
    Does (.hintLeave c) s fun t =>
      (∃ h ∈ t.cadence x.part (x.f 0x1A 2), y.id ∉ h.members ∧ ∀ n, n ≠ y.id → (n ∈ h.members ↔ n ∈ g.members)) ∧
      (∀ k ∈ t.tier.copies, (k.part, k.serial) ∈ s.pagesOf (y.leaves.map (·.2)) → k.protUntil = 0) ∧
      t.ended c St.ok 0 0 ∧ Only [.q, .part, .tier] s t) ∧
  -- migrate
  (∀ (s : State) (c d : Nat) (x : Cmd) (hs : List Nat) (ns : List (Nat × Nat)),
    (s.runs c .migrate x) →
    (x.phase = 0) →
    ((s.leavesNamed x (bit (x.f 0x1A 1) 0) (x.f 0x1C 4) (x.f 0x20 4) (x.f 0x28 8)).bind (·.toOption) = some hs) →
    (ns = s.pagesNamed hs (bit (x.f 0x1A 1) 0) x.layer (x.f 0x24 2) ∧ ∀ n ∈ ns, n.2 < 2 ^ 64) →
    (if 2 ≤ x.f 0x18 1 then d = 15 else d = x.f 0x19 1 ∧ d < 8) →
    (x.f 0x18 1 = 2 → s.quota x.part 2 15 ≠ 0) →
    (∀ n ∈ ns, (∀ k ∈ s.capoTiers (s.leafHandle n.1 n.2), x.f 0x18 1 ≤ k) ∧ (∃ k ∈ s.copyAt n.1 n.2 (x.f 0x18 1) d, k.backing = true) ∧
      (∀ k ∈ s.copiesOf n.1 n.2, x.f 0x18 1 ≤ k.tier)) →
    (∀ n ∈ ns, ∀ k ∈ s.copiesOf n.1 n.2, k.backing = true → k.tier = x.f 0x18 1) →
    (∀ n ∈ ns, s.moveOf n.1 n.2 = none) →
    Does (.migrate c) s fun t =>
      t.ended c St.ok ns.length 0 ∧ t.tier = s.tier ∧ Only [.q, .part] s t) ∧
  -- evict
  (∀ (s : State) (c : Nat) (x : Cmd) (hs : List Nat) (ns : List (Nat × Nat)),
    (s.runs c .evict x) →
    ((s.leavesNamed x (bit (x.f 0x1A 1) 0) (x.f 0x1C 4) (x.f 0x20 4) (x.f 0x28 8)).bind (·.toOption) = some hs) →
    (ns = s.pagesNamed hs (bit (x.f 0x1A 1) 0) x.layer (x.f 0x24 2)) →
    (bit (x.f 0x1A 1) 1 = false ∧ ∀ n ∈ ns, s.pageKnown n.1 n.2 = true) →
    Does (.evict c) s fun t =>
      t.ended c St.ok (ns.flatMap fun n => (s.copiesOf n.1 n.2).filter fun k => k.tier == x.f 0x18 1 && !k.backing && !s.capoOnly k).length 0 ∧
      (∀ n ∈ ns, ∀ k ∈ t.copiesOf n.1 n.2, k.tier = x.f 0x18 1 → k.backing = true ∨ s.capoOnly k = true) ∧
      t.sq.seqs = s.sq.seqs ∧ t.sq.granules = s.sq.granules)

/-- A pool that needs room begins to demote and raises DEMOTE_START, a pool that is done is idle again, and a cached copy that is first among the candidates leaves; a move that is complete publishes its copy, which is the backing copy where the move carries it, and a replacing move takes the source away; a block that fails its check is read once more from another copy, a T3 copy being written anew, and a second failure leaves the source copy bad and takes the leaves coded against a page that has no other copy (BASE_LOST); a wait that expires ends its command NO_SPACE; a prefetch issued leaves the plan; pins and protections end at their times, and a window's pins are renewed; destage writes counted leaves to T3, where the backing copies then stand; a granule saved is marked so. -/
def Obligations.TierEvents : Prop :=
  -- demoteStart
  (∀ (s : State) (part tier die d : Nat),
    (part < 64 ∧ tier < 4 ∧ s.pst part ≠ .free ∧ s.paused 0x0B (if tier ≤ 1 then die + 1 else 0) = false) →
    (d = if 2 ≤ tier then 15 else die) →
    ((s.pool part tier d).st = .idle ∧ s.poolNeeds part tier d = true ∧ s.poolDone part tier d = false) →
    (s.victimLeaving part tier d = true) →
    Does (.tierEvaluate part tier die) s fun t =>
      (t.pool part tier d).st = .demoting ∧ t.latched Ev.DEMOTE_START ∧ t.tier.copies = s.tier.copies ∧ Only [.tier, .regs, .tel, .pol] s t) ∧
  -- demoteDone
  (∀ (s : State) (part tier die d : Nat),
    (part < 64 ∧ tier < 4 ∧ s.pst part ≠ .free ∧ s.paused 0x0B (if tier ≤ 1 then die + 1 else 0) = false) →
    (d = if 2 ≤ tier then 15 else die) →
    ((s.pool part tier d).st ≠ .idle ∧ s.poolDone part tier d = true) →
    Does (.tierEvaluate part tier die) s fun t =>
      (t.pool part tier d).st = .idle ∧ t.tier.copies = s.tier.copies ∧ Only [.tier] s t) ∧
  -- demoteCached
  (∀ (s : State) (part tier die d : Nat) (k : Copy) (ks : List Copy),
    (part < 64 ∧ tier < 4 ∧ s.pst part ≠ .free ∧ s.paused 0x0B (if tier ≤ 1 then die + 1 else 0) = false) →
    (d = if 2 ≤ tier then 15 else die) →
    ((s.pool part tier d).st = .demoting ∧ s.poolDone part tier d = false ∧ s.victimLeaving part tier d = false) →
    (s.hookBy part 3 = .fallback) →
    (s.candidates part tier d = k :: ks) →
    (k.backing = false ∧ s.page part k.serial ≠ none) →
    (s.quiet) →
    Does (.tierEvaluate part tier die) s fun t =>
      (∀ y ∈ t.copiesOf part k.serial, y.tier ≠ k.tier ∨ y.die ≠ k.die) ∧ (t.pool part tier d).st = .demoting ∧ t.sq = s.sq ∧ t.q = s.q) ∧
  -- moveComplete
  (∀ (s : State) (move : Nat) (m : Move),
    ((s.tier.moves.find? fun m => m.id == move) = some m) →
    (m.why ≠ 6) →
    (m.dstTier = 3 → s.t3Done m.part m.serial 0 = true) →
    ((m.srcTier, m.srcDie) ≠ (m.dstTier, m.dstDie)) →
    (m.reads.1 = 3 → s.t3Unread m.part m.serial = false) →
    (m.reads.1 ≤ 1 → m.dstTier ≤ 1 → s.diesJoined m.reads.2 m.dstDie = true) →
    (∀ l ∈ s.sq.leaves, l.holds m.part m.serial = true → l.freed = false) →
    (s.quiet) →
    Does (.moveComplete move true) s fun t =>
      (∃ k ∈ t.copyAt m.part m.serial m.dstTier m.dstDie, k.good = true ∧ (m.backing = true → k.backing = true)) ∧
      (m.replace = true → m.backing = true → ∀ k ∈ t.copyAt m.part m.serial m.srcTier m.srcDie, k.backing = false ∧ s.capoTiers (s.leafHandle m.part m.serial) ≠ []) ∧
      (m.backing = true → ∀ k ∈ t.copiesOf m.part m.serial, k.backing = true → k.tier = m.dstTier ∧ k.die = m.dstDie) ∧
      t.tier.moves = (s.tier.moves.filter fun y => !(y.id == move)) ∧ t.sq.seqs = s.sq.seqs ∧ t.sq.granules = s.sq.granules ∧ t.now = s.now) ∧
  -- moveAgain
  (∀ (s : State) (move : Nat) (m : Move) (k : Copy),
    ((s.tier.moves.find? fun m => m.id == move) = some m) →
    (m.attempt = 0 ∧ (m.reads.1 = 3 → s.t3Unread m.part m.serial = false)) →
    (((s.copiesOf m.part m.serial).find? fun k => k.good && !(k.tier == m.srcTier && k.die == m.srcDie)) = some k) →
    Does (.moveComplete move false) s fun t =>
      (t.tier.moves.find? fun m => m.id == move) = some { m with attempt := 1, again := some (k.tier, k.die) } ∧
      t.latched Ev.CRC_ERROR ∧ t.tier.copies = s.tier.copies ∧
      (m.dstTier = 3 → ∀ u ∈ t.ftl.units, u.part = m.part → u.serial = m.serial → u.what = 0 → s.ftl.nextLua ≤ u.lua) ∧
      (if m.dstTier = 3 then t.att = s.att else t.ftl = s.ftl) ∧ Only [.tier, .regs, .tel, .pol, .att, .ftl, .free, .out] s t) ∧
  -- moveFails
  (∀ (s : State) (move : Nat) (m : Move),
    ((s.tier.moves.find? fun m => m.id == move) = some m) →
    (m.attempt ≠ 0) →
    (∀ x ∈ s.sq.pages, x.base = 0 ∨ (hPart x.base, hSerial x.base) ≠ (m.part, m.serial)) →
    (s.quiet) →
    Does (.moveComplete move false) s fun t =>
      (∀ k ∈ t.copyAt m.part m.serial m.reads.1 m.reads.2, k.good = false) ∧ t.latched Ev.MOVE_FAIL ∧
      t.tier.moves = (s.tier.moves.filter fun y => !(y.id == move)) ∧ t.sq = s.sq) ∧
  -- moveFailsBase
  (∀ (s : State) (move : Nat) (m : Move) (l : Leaf) (x : Page),
    ((s.tier.moves.find? fun m => m.id == move) = some m) →
    (m.attempt ≠ 0) →
    (l ∈ s.leaves ∧ x ∈ s.leafPages l) →
    (x.base ≠ 0 ∧ (hPart x.base, hSerial x.base) = (m.part, m.serial)) →
    (∀ k ∈ s.tier.copies, k.part = m.part → k.serial = m.serial → k.good = true →
      k.leaving = false ∧ (k.tier, k.die) = m.reads) →
    (∀ y ∈ s.page m.part m.serial, y.cls ≠ 2) →
    Does (.moveComplete move false) s fun t =>
      t.latched Ev.MOVE_FAIL ∧ t.latched Ev.BASE_LOST) ∧
  -- admitWaitExpire
  (∀ (s : State) (wait : Nat) (w : AdmitWait) (x : Cmd),
    ((s.tier.waits.find? fun w => w.id == wait) = some w) →
    (w.why ≠ 7 ∧ w.cmd ≠ 0 ∧ s.moveOf w.part w.serial = none ∧ s.pageKnown w.part w.serial = true) →
    (s.cmd w.cmd = some x) →
    (x.st ≠ .done) →
    Does (.admitWaitExpire wait) s fun t =>
      t.ended w.cmd St.noSpace 0 0 ∧ (∀ y ∈ t.tier.waits, y.id ≠ wait) ∧ t.now = max s.now w.until_ ∧ t.latched Ev.ADMIT_REFUSED) ∧
  -- prefetchIssue
  (∀ (s : State) (part seq layer : Nat) (q : Prefetch),
    (s.paused 0x0B 0 = false ∧ s.gp F.TIER_CTRL_PREFETCH_EN part = 1) →
    (argMin (fun q => ((q.issueT : Nat) : Int)) ((s.tier.prefetches.filter fun q => q.part == part).filter fun q =>
      q.seq == seq && q.layer == layer) = some q) →
    (∀ r ∈ s.tier.prefetches, r.part = part → q.issueT ≤ r.issueT) →
    Does (.prefetchIssue part seq layer) s fun t =>
      t.tier.prefetches = s.tier.prefetches.filter (· != q) ∧ t.tier.copies = s.tier.copies ∧ t.sq = s.sq ∧ t.now = s.now) ∧
  -- protectExpire
  (∀ (s : State) (part serial tier die : Nat) (k : Copy),
    (s.copyAt part serial tier die = some k) →
    (k.protUntil ≠ 0) →
    Does (.protectExpire part serial tier die) s fun t =>
      t.copyAt part serial tier die = some { k with protUntil := 0 } ∧ t.now = max s.now k.protUntil ∧ Only [.now, .tier] s t) ∧
  -- pinExpire
  (∀ (s : State) (part serial tier die : Nat) (k : Copy),
    (s.copyAt part serial tier die = some k) →
    (k.pinUntil ≠ 0) →
    Does (.pinExpire part serial tier die) s fun t =>
      t.copyAt part serial tier die = some { k with pinUntil := 0 } ∧ t.now = max s.now k.pinUntil ∧ Only [.now, .tier] s t) ∧
  -- pinRenew
  (∀ (s : State) (part lease : Nat) (l : Lease),
    ((s.cxl.leases.find? fun l => l.part == part && l.num == lease) = some l) →
    Does (.pinRenew part lease) s fun t =>
      (∀ w ∈ l.slots, (∃ k ∈ s.copiesOf (hPart w.handle) (hSerial w.handle), k.tier ≤ 1 ∧ k.good = true) →
        ∃ k ∈ t.copiesOf (hPart w.handle) (hSerial w.handle), k.tier ≤ 1 ∧
          t.now + t.gp F.PIN_MAX_MS (hPart w.handle) * 1000000 ≤ k.pinUntil) ∧ s.now ≤ t.now ∧ Only [.now, .tier] s t) ∧
  -- destageWrite
  (∀ (s : State) (part serial v : Nat) (l : Leaf),
    (s.paused 0x0B 0 = false) →
    (s.gp F.TIER_CTRL_AUTO_DESTAGE part ≠ 0 ∨ s.overBudget = true) →
    (s.hookBy part 6 = .shipped v) →
    ((s.hookCount part 6).destageNext part v = some l) →
    (l.serial = serial) →
    Does (.destageWrite part serial) s fun t =>
      (∃ ms, t.tier.moves = s.tier.moves ++ ms ∧ ∀ m ∈ ms, m.part = l.part ∧ m.why = 6 ∧ m.srcTier = 1 ∧ m.dstTier = 3 ∧ m.backing = true ∧
        m.replace = false ∧ l.serial ≤ m.serial ∧ m.serial < l.serial + l.layers) ∧ t.tier.copies = s.tier.copies ∧ t.sq = s.sq ∧ t.q = s.q) ∧
  -- destageCommit
  (∀ (s : State) (part serial : Nat) (l : Leaf) (ms : List Move),
    ((s.sq.leaves.find? fun l => l.part == part && l.serial == serial) = some l) →
    (ms = s.tier.moves.filter fun m => m.part == part && m.why == 6 && l.serial ≤ m.serial && m.serial < l.serial + l.layers) →
    (ms ≠ []) →
    (∀ i < l.layers, (∃ m ∈ ms, m.serial = l.serial + i) ∨ ∀ k ∈ s.copiesOf part (l.serial + i), ¬ (k.backing = true ∧ k.tier = 1)) →
    (∀ m ∈ ms, s.t3Done part m.serial 0 = true ∧ m.dstTier = 3 ∧ m.dstDie = 15 ∧ m.backing = true ∧ m.replace = false) →
    (∀ y ∈ s.sq.leaves, ∀ m ∈ ms, y.holds part m.serial = true → y.freed = false) →
    (s.quiet) →
    Does (.destageCommit part serial) s fun t =>
      (∀ m ∈ ms, (∃ k ∈ t.copyAt part m.serial 3 15, k.backing = true) ∧
        ∀ k ∈ s.copiesOf part m.serial, ∃ y ∈ t.copiesOf part m.serial, y.tier = k.tier ∧ y.die = k.die ∧ (k.tier ≠ 3 → y.backing = false)) ∧
      t.sq.seqs = s.sq.seqs ∧ t.sq.granules = s.sq.granules ∧ t.now = s.now) ∧
  -- granuleSave
  (∀ (s : State) (part seq layer first : Nat) (g : Granule),
    (s.gran part seq layer first = some g) →
    (s.paused 0x07 0 = false ∧ s.overBudget = true ∧ g.counted = true) →
    (∀ x ∈ s.sq.granules, x.counted = true → g.time ≤ x.time) →
    (∀ p < 64, s.countedLeaves p = []) →
    Does (.granuleSave part seq layer first) s fun t =>
      t.gran part seq layer first = some { g with flash := true, savedRows := g.rows.length } ∧ t.sq.seqs = s.sq.seqs ∧
      t.sq.granules.map (·.rows) = s.sq.granules.map (·.rows) ∧ Only [.sq, .part] s t)

/-- PART_SET of a free or active partition with a lawful descriptor gives it the descriptor, and a partition that was free is ACTIVE and the command ends OK with its cores and T1 quota; PART_CLEAR makes it CLEARING; once its commands have ended it is SCRUBBING without content, and when the scrub is done it is FREE and the command that cleared it ends OK with the time; a scrub of resources taken away completes its PART_SET; GEOM_LOAD of a new geometry starts the switch, of the one in force ends OK at once, and the switch applied puts the new tables in force and ends it OK; a forced fault makes an active partition FAULTED. -/
def Obligations.PartitionLife : Prop :=
  -- partSet
  (∀ (s s1 : State) (c p : Nat) (x : Cmd) (b : Bytes) (q : Partition),
    (s.runs c .partSet x) →
    (p = x.f 0x18 1 ∧ p < 64) →
    (q ∈ s.part.parts ∧ q.num = p) →
    (s.sec.fuses.debug ≠ .invasive) →
    (∀ y ∈ s.q.cmds, y.is .partSet = true → y.live = true → y.f 0x18 1 = p → c ≤ y.uid) →
    ((s.partition p).leaveCmd = 0) →
    (x.buffers [x.f 0x20 8] = some true) →
    (x.buf (x.f 0x20 8) 768 = some b) →
    (rd b 0 2 = 0x0100 ∧ rd b 2 1 = p) →
    (s.pst p = .free ∨ (s.pst p = .active ∧ s.quotaShort p (parseDesc b) = false)) →
    (s.descBad p (parseDesc b) = false ∧ s.keysLeft p (parseDesc b) = false) →
    (s.journalled c = (s1, true)) →
    (∀ v ∈ s.sec.tdis, v.fn ≠ p + 1) →
    Does (.partSet c) s fun t =>
      (t.partition p).desc = parseDesc b ∧ (t.partition p).st = .active ∧ (t.partition p).t1 = (parseDesc b).t1 ∧
      (t.partition p).descDigest = Blake.hash 32 [] b ∧ t.part.setLead = x.f 0x3C 4 ∧
      (s.pst p = .free → t.ended c St.ok (parseDesc b).result 0) ∧ t.sq = s.sq ∧ t.now = s.now) ∧
  -- partClear
  (∀ (s s1 : State) (c p : Nat) (x : Cmd),
    (s.runs c .partClear x) →
    (p = x.f 0x18 1 ∧ p < 64) →
    ((s.partition p).clearCmd ≠ c) →
    (s.pst p = .active ∨ s.pst p = .faulted) →
    (bit (x.f 0x19 1) 0 = false ∧ s.foreignHolds p = false) →
    (s.journalled c = (s1, true)) →
    Does (.partClear c) s fun t =>
      (t.partition p).st = .clearing ∧ (t.partition p).clearCmd = c ∧ (t.partition p).clearT = x.acceptT ∧ (t.partition p).next = none) ∧
  -- partitionDrained
  (∀ (s : State) (p : Nat),
    (s.pst p = .clearing) →
    (∀ x ∈ s.q.cmds, x.part = p → x.live = false) →
    (∀ r ∈ s.part.runs, r.part ≠ p) →
    ((∀ l ∈ s.cxl.leases, l.part ≠ p) ∧ ∀ e ∈ s.cxl.extents, e.part ≠ p) →
    Does (.partitionDrained p) s fun t =>
      (t.partition p).st = .scrubbing ∧ (t.partition p).scrubT = s.now ∧ (∀ y ∈ t.sq.seqs, y.part ≠ p) ∧ (∀ g ∈ t.sq.granules, g.part ≠ p) ∧
      (∀ k ∈ t.pdir.capos, k.part ≠ p) ∧ (∀ m ∈ t.tier.moves, m.part ≠ p) ∧ (∀ d ∈ t.dlv.dests, d.part ≠ p) ∧
      (∀ g ∈ t.pol.programs, g.part ≠ p)) ∧
  -- scrubDone
  (∀ (s : State) (p : Nat) (x : Cmd),
    (s.pst p = .scrubbing) →
    (∀ k ∈ s.sweep.tier.copies, k.part = p → s.sweep.pageBusy p k.serial = false) →
    ((∀ l ∈ s.sweep.cxl.leases, l.part ≠ p) ∧ ∀ e ∈ s.sweep.cxl.extents, e.part ≠ p) →
    (s.cmd (s.partition p).clearCmd = some x) →
    (x.st ≠ .done ∧ (s.partition p).leaveCmd ≠ (s.partition p).clearCmd) →
    Does (.scrubDone p) s fun t =>
      (t.partition p).st = .free ∧ (t.partition p).desc = {} ∧ (t.partition p).geom = none ∧
      t.ended (s.partition p).clearCmd St.ok (s.now - (s.partition p).clearT) 0 ∧ (∀ l ∈ t.sq.leaves, l.part ≠ p) ∧
      (∀ k ∈ t.tier.copies, k.part ≠ p) ∧ (∀ y ∈ t.sec.sessions, y.fn ≠ p + 1) ∧
      ((s.partition p).leaveCmd ≠ 0 → ∀ y, s.cmd (s.partition p).leaveCmd = some y → y.st ≠ .done →
        t.ended (s.partition p).leaveCmd St.ok (s.partition p).desc.result 0)) ∧
  -- scrubTaken
  (∀ (s : State) (p : Nat) (x : Cmd),
    (s.pst p ≠ .scrubbing ∧ s.pst p ≠ .free) →
    ((s.partition p).leaveCmd ≠ 0 ∧ s.leavingRuns p = false) →
    (s.cmd (s.partition p).leaveCmd = some x) →
    (x.st ≠ .done) →
    Does (.scrubDone p) s fun t =>
      (t.partition p).leaving = 0 ∧ (t.partition p).leaveCmd = 0 ∧ (t.partition p).scrubGib = [] ∧
      t.ended (s.partition p).leaveCmd St.ok (s.partition p).desc.result 0 ∧ t.latched Ev.SCRUB_DONE ∧ Only [.q, .part, .regs, .tel, .pol] s t) ∧
  -- geomLoad
  (∀ (s s1 : State) (c p : Nat) (x : Cmd) (b : Bytes) (g : Geom),
    (s.runs c .geomLoad x) →
    (p = x.f 0x18 1 ∧ p < 64) →
    (s.pst p = .active ∧ x.f 0x28 4 ≤ 2 ^ 22) →
    (x.buffers [x.f 0x20 8] = some true) →
    (x.bufAll (x.f 0x20 8) = some b) →
    (s.gp F.SEC_CTRL p ≠ 1) →
    (parseGeom b (x.f 0x28 4) = some g) →
    (∀ o ∈ (s.partition p).geom, o.digest ≠ g.digest) →
    (s.journalled c = (s1, true)) →
    Does (.geomLoad c) s fun t =>
      (t.partition p).st = .switching ∧ (t.partition p).next = some g ∧ (t.partition p).switchCmd = c ∧ (t.partition p).switchT = s.now ∧
      (t.partition p).geom = (s.partition p).geom ∧ t.cmd c = some x ∧ Only [.part, .course] s t) ∧
  -- geomSame
  (∀ (s : State) (c p : Nat) (x : Cmd) (b : Bytes) (g o : Geom),
    (s.runs c .geomLoad x) →
    (p = x.f 0x18 1 ∧ p < 64) →
    (s.pst p = .active ∧ x.f 0x28 4 ≤ 2 ^ 22) →
    (x.buffers [x.f 0x20 8] = some true) →
    (x.bufAll (x.f 0x20 8) = some b) →
    (s.gp F.SEC_CTRL p ≠ 1) →
    (parseGeom b (x.f 0x28 4) = some g) →
    ((s.partition p).geom = some o ∧ o.digest = g.digest) →
    Does (.geomLoad c) s fun t =>
      t.ended c St.ok g.id 0 ∧ Only [.q, .part] s t) ∧
  -- geomSwitchApply
  (∀ (s : State) (p : Nat) (g : Geom) (x : Cmd),
    (s.pst p = .switching) →
    (∀ y ∈ s.q.cmds, y.part = p → y.st = .started → y.is .fence = true ∨ y.is .cancel = true) →
    (∀ j ∈ s.sq.seals, j.part = p → j.step ≠ 1 ∧ s.coding j = false) →
    (∀ k ∈ s.att.codecs, (∀ j ∈ k.queue, j.part ≠ p) ∧ ∀ l ∈ k.lanes, ∀ j ∈ l, j.part ≠ p) →
    ((s.partition p).next = some g) →
    (s.cmd (s.partition p).switchCmd = some x) →
    (x.st ≠ .done) →
    Does (.geomSwitchApply p) s fun t =>
      (t.partition p).st = .active ∧ (t.partition p).geom = some g ∧ (t.partition p).next = none ∧
      t.now = max s.now ((s.partition p).switchT + 40000) ∧
      t.ended (s.partition p).switchCmd St.ok g.id (min (t.now - (s.partition p).switchT) 0xFFFFFFFF) ∧ t.latched Ev.SWITCH_DONE ∧
      (∀ v ∈ t.att.views, v.part ≠ p) ∧ (∀ k ∈ t.tier.copies, k.part = p → k.tier = 0 → k.leaving = true) ∧ t.sq = s.sq) ∧
  -- partFaultForce
  (∀ (s : State) (p : Nat),
    (s.pst p = .active ∨ s.pst p = .switching) →
    Does (.partFaultForce p) s fun t =>
      (t.partition p).st = .faulted ∧ (t.partition p).next = none ∧ t.latched Ev.PART_FAULT ∧ t.now = s.now)

/-- The end of a share window gives a partition of each stack at least what it asks for within its reserve, raises RESERVE_SHORT for an ISOLATED one that received less than its reserve by more than the two transfers of the rule, and starts the next window under the reserves, the weight and the shares written; a latch copies the 20 counters of time and bytes of the record its selector names, and the time; a calibration, CAL_S after the last, publishes its coefficients and its error and raises CAL_DONE, and CAL_DRIFT above 50 per mille. -/
def Obligations.AccountsAndLimits : Prop :=
  -- shareWindowTick
  (∀ (s : State) (p : Nat) (asked : List Nat) (q : Partition),
    (q ∈ s.part.parts ∧ q.num = p) →
    (p < 64 ∧ s.pst p ≠ .free) →
    Does (.shareWindowTick p asked) s fun t =>
      t.now = max s.now ((s.partition p).winStart + s.g F.SHARE_WINDOW * 1000) ∧ (t.partition p).winStart = t.now ∧
      (t.partition p).rsvNow = (s.partition p).desc.rsv ∧ (t.partition p).weightNow = (s.partition p).desc.weight ∧
      (t.partition p).sharesNow = [] ∧ (t.partition p).desc = (s.partition p).desc ∧
      (∀ d < 8, min (asked.getD d 0) (s.reserveBytes p d) ≤ (t.partition p).got.getD d 0) ∧
      (bit (s.partition p).desc.flags 1 = true → (∃ d < 8, (t.partition p).got.getD d 0 + 8192 < s.reserveBytes p d) →
        t.latched Ev.RESERVE_SHORT) ∧
      Only [.now, .free, .part, .regs, .tel, .pol] s t) ∧
  -- acctLatch
  (∀ (s : State) (a : Agent) (n p k : Nat) (r : List Nat),
    (n = agentNo a) →
    (∀ v f, a ≠ .vf v f) →
    (p = s.reg F.ACCT_PSEL 0 255 n 0) →
    (k = s.reg F.ACCT_SEL_KIND 0 255 n 0 ∧ s.partFree p = false) →
    (r = alGetD (if k = 0 then AcctKey.group p (s.reg F.ACCT_SEL_QGROUP 0 255 n 0) else if k = 1 then .part p else if k = 2 then .idle p
      else .device) (List.replicate 21 0) s.part.acct) →
    Does (.acctLatch a) s fun t =>
      (∀ i < 20, t.reg F.Counters 0 p 0 i = r.getD i 0 % 2 ^ 64) ∧ t.reg F.LATCH_TIME 0 p 0 0 = s.now % 2 ^ 64 ∧
      t.part.parts = s.part.parts ∧ t.part.runs = s.part.runs ∧ Only [.free, .regs, .part] s t) ∧
  -- energyCalibrate
  (∀ (s : State) (coeffs : List Nat) (err : Nat),
    Does (.energyCalibrate coeffs err) s fun t =>
      (∀ i < 16, t.reg F.ENERGY_COEF 0 255 0 i = coeffs.getD i 0 % 2 ^ 64) ∧ t.reg F.CAL_ERR 0 255 0 0 = min err 1023 ∧
      t.latched Ev.CAL_DONE ∧ (50 < err → t.latched Ev.CAL_DRIFT) ∧
      t.now = max s.now (s.part.calT + max 1 (s.g F.ACCT_CTRL) * 10 ^ 9) ∧ t.part.calT = t.now ∧ t.part.dynUj = 0 ∧
      t.part.parts = s.part.parts ∧ Only [.now, .part, .regs, .tel, .pol] s t)

/-- KEY_SET of a key block that verifies under its session's key import key sets the slot to the key, its type and the next generation and ends OK with that generation, and one that does not verify ends PERM; KEY_ERASE leaves every slot named empty and ends OK with their number; an SPDM request is answered, and a key exchange opens a session with the next identifier where the limits leave room; measurements are answered with the block asked for; a session's end removes it and takes the interfaces locked through it out of LOCKED and RUN; a function-level reset disables the function's destinations on the port and clears its MSI-X table. -/
def Obligations.KeysAndSessions : Prop :=
  -- keySet
  (∀ (s s1 : State) (c slot p : Nat) (x : Cmd) (b : Bytes) (y : Session),
    (s.runs c .keySet x) →
    (slot = x.f 0x18 2 ∧ slot ≤ 4095 ∧ x.f 0x28 4 = 72) →
    (s.sec.fuses.debug ≠ .invasive) →
    (x.buffers [x.f 0x20 8] = some true) →
    (x.buf (x.f 0x20 8) 72 = some b) →
    (b.take 4 = [0x4C, 0x4B, 0x42, 0x31] ∧ rd b 7 1 = 32 ∧ (rd b 6 1 = 1 ∨ rd b 6 1 = 2) ∧ rd b 4 2 = slot) →
    ((s.keySlot slot).retired = false) →
    (s.keyOwner slot = some p ∧ rd b 8 1 = p) →
    ((s.sec.sessions.find? fun y => y.id == x.f 0x1C 4 && y.fn == p + 1) = some y) →
    (rd b 0x0A 2 = (s.keySlot slot).gen + 1) →
    (s.journalled c = (s1, true)) →
    Does (.keySet c) s fun t =>
      (∀ key, gcmOpen y.kik (slice b 0x0C 12) (slice b 0 24) (slice b 24 32) (slice b 0x38 16) = some key →
        (t.keySlot slot).st = .set ∧ (t.keySlot slot).typ = rd b 6 1 ∧ (t.keySlot slot).key = key ∧ (t.keySlot slot).gen = rd b 0x0A 2 ∧
        (∃ z ∈ t.cmd c, z.st = .done ∧ z.status = St.ok ∧ z.r0 = rd b 0x0A 2) ∧ t.sq = s.sq) ∧
      (gcmOpen y.kik (slice b 0x0C 12) (slice b 0 24) (slice b 24 32) (slice b 0x38 16) = none → t = s.fail c St.perm)) ∧
  -- keyErase
  (∀ (s s1 : State) (c lo n : Nat) (x : Cmd),
    (s.runs c .keyErase x) →
    (s.sole c) →
    (lo = x.f 0x18 2 ∧ n = x.f 0x1A 2 ∧ 0 < n ∧ lo + n ≤ 4096) →
    (s.journalled c = (s1, true)) →
    Does (.keyErase c) s fun t =>
      (∀ i < n, (t.keySlot (lo + i)).st = .empty) ∧ (∃ z ∈ t.cmd c, z.st = .done ∧ z.status = St.ok ∧ z.r0 = n)) ∧
  -- spdmRequest
  (∀ (s : State) (port fn : Nat) (msg : Bytes),
    (port < 8 ∧ fn ≤ 64) →
    Does (.spdmRequest port fn msg) s fun t =>
      (∃ r, t.out = OutMsg.spdm port r :: s.out) ∧
      (rd msg 1 1 = spdmGetCertificate → ∃ h, t.out = OutMsg.spdm port (h ++ slice s.certChain.flatten (rd msg 4 2) (rd msg 6 2)) :: s.out) ∧
      (rd msg 1 1 = spdmKeyExchange → (s.sec.sessions.filter fun x => x.port == port && x.fn == fn).length < 4 → s.sec.sessions.length < 512 →
        s.sec.fuses.life ≠ .returned → ∃ y, t.sec.sessions = s.sec.sessions ++ [y] ∧ y.port = port ∧ y.fn = fn ∧ ∀ z ∈ s.sec.sessions, z.id ≠ y.id) ∧
      (rd msg 1 1 ≠ spdmKeyExchange → t.sec = s.sec) ∧ Only [.out, .sec] s t) ∧
  -- spdmGetMeasurements
  (∀ (s : State) (session block : Nat) (nonce m : Bytes) (x : Session),
    ((s.sec.sessions.find? fun x => x.id == session) = some x) →
    (s.sec.fuses.life ≠ .returned) →
    (block ≠ 0xFF) →
    (s.measBlock x.fn block = some m) →
    Does (.spdmGetMeasurements session block nonce) s fun t =>
      (∃ sig, t.out = OutMsg.spdm x.port (leBytes 1 block ++ leBytes 2 m.length ++ m ++ sig) :: s.out) ∧ Only [.out, .regs] s t) ∧
  -- spdmSessionEnd
  (∀ (s : State) (session : Nat) (x : Session),
    (x ∈ s.sec.sessions ∧ x.id = session) →
    Does (.spdmSessionEnd session) s fun t =>
      (∀ y ∈ t.sec.sessions, y.id ≠ session) ∧ (∀ v ∈ t.sec.tdis, v.sess = session → v.st ≠ .locked ∧ v.st ≠ .run) ∧ t.now = s.now) ∧
  -- functionLevelReset
  (∀ (s : State) (port fn : Nat),
    (fn ≠ 0) →
    Does (.functionLevelReset port fn) s fun t =>
      (∀ d ∈ t.dlv.dests, d.port = port → d.part + 1 = fn → d.st = 3) ∧ (∀ v ∈ t.q.msix, v.port = port → v.fn ≠ fn) ∧ t.now = s.now ∧
      t.sec = s.sec)

/-- An unlocked interface of an active partition on a port with IDE is locked by the holder of a session, and a locked one runs once started; an IDE key refresh moves the stream to the other key set; a fabric manager with the pinned key is bound, and unbound when its session ends; a message no bound session carries is counted; a version counter rises to the running image's and a key slot other than the signer's is revoked while the fuse supply is present; a valid token with a fresh nonce spends the nonce and sets the state it names. -/
def Obligations.InterfacesAndFuses : Prop :=
  -- tdispLock
  (∀ (s : State) (port fn session : Nat) (y : Session),
    (1 ≤ fn ∧ fn ≤ 64) →
    ((s.tdi port fn).st = .unlocked ∧ s.pst (fn - 1) = .active ∧ (s.port port).ideUp = true) →
    (y ∈ s.sec.sessions ∧ y.id = session ∧ y.port = port ∧ y.fn = fn) →
    Does (.tdispLockInterface port fn session) s fun t =>
      (t.tdi port fn).st = .locked ∧ (t.tdi port fn).sess = session ∧ t.sec.sessions = s.sec.sessions ∧ t.sec.keys = s.sec.keys ∧ Only [.sec] s t) ∧
  -- tdispStart
  (∀ (s : State) (port fn : Nat) (nonce : Bytes),
    ((s.tdi port fn).st = .locked) →
    Does (.tdispStartInterface port fn nonce) s fun t =>
      (t.tdi port fn).st = .run ∧ (t.tdi port fn).nonce = nonce ∧ (t.tdi port fn).sess = (s.tdi port fn).sess ∧ t.sec.keys = s.sec.keys ∧ Only [.sec] s t) ∧
  -- ideKeyRefresh
  (∀ (s : State) (port stream set : Nat),
    (port < 8 ∧ stream < 9 ∧ set < 2 ∧ (s.port port).ideUp = true) →
    Does (.ideKeyRefresh port stream set) s fun t =>
      (∃ e ∈ t.sec.ides, e.port = port ∧ e.stream = stream ∧ e.keySet = set ∧ e.refreshT = s.now) ∧ t.sec.keys = s.sec.keys ∧ Only [.sec] s t) ∧
  -- fmSession
  (∀ (s : State) (port : Nat) (d : Bytes),
    (∃ b ∈ s.fmPin, b ≠ 0) →
    (d = s.fmPin) →
    Does (.fmSession port d true) s fun t =>
      t.fmBound = true ∧ t.sec.fuses.fmPort = port ∧ t.sec.fuses.svn = s.sec.fuses.svn ∧ t.sec.keys = s.sec.keys ∧ Only [.sec] s t) ∧
  -- fmSessionEnd
  (∀ (s : State) (d : Bytes),
    (s.fmBound = true) →
    Does (.fmSession s.sec.fuses.fmPort d false) s fun t =>
      t.fmBound = false ∧ t.latched Ev.FM_UNBOUND ∧ t.sec.keys = s.sec.keys ∧ Only [.sec, .regs, .tel, .pol] s t) ∧
  -- fmMessageReject
  (∀ (s : State) (port : Nat),
    Does (.fmMessageReject port) s fun t =>
      t.reg F.FM_REJECTS 0 255 0 0 = min (s.reg F.FM_REJECTS 0 255 0 0 + 1) (2 ^ 32 - 1) ∧ Only [.regs] s t) ∧
  -- svnCommit
  (∀ (s : State) (stage : Nat),
    (s.hw.pins.vfuseOk = true ∧ 1 ≤ stage ∧ stage ≤ 4) →
    Does (.svnCommit stage) s fun t =>
      (stage ≤ s.sec.fuses.svn.length →
        t.sec.fuses.svn.getD (stage - 1) 0 = max (s.sec.fuses.svn.getD (stage - 1) 0) (s.sec.fuses.runSvn.getD (stage - 1) 0)) ∧
      (∀ i, i ≠ stage - 1 → t.sec.fuses.svn.getD i 0 = s.sec.fuses.svn.getD i 0) ∧ t.sec.keys = s.sec.keys ∧ Only [.sec] s t) ∧
  -- keyRevoke
  (∀ (s : State) (slot : Nat),
    (s.hw.pins.vfuseOk = true ∧ slot ≤ 3 ∧ s.sec.fuses.runKey.getD 0 0 ≠ slot) →
    Does (.keyRevoke slot) s fun t =>
      bit t.sec.fuses.revoked slot = true ∧ (∀ i, i ≠ slot → bit t.sec.fuses.revoked i = bit s.sec.fuses.revoked i) ∧ Only [.sec] s t) ∧
  -- debugToken
  (∀ (s : State) (token nonce : Bytes) (n : Nat),
    (nonce ∉ s.sec.fuses.nonces) →
    (s.sec.fuses.life = .production ∧ s.sec.fuses.debug = .none) →
    ((n = 1) ∨ (n = 3 ∧ s.hw.pins.vfuseOk = true)) →
    Does (.debugToken token n nonce true) s fun t =>
      nonce ∈ t.sec.fuses.nonces ∧ (n = 1 → t.sec.fuses.debug = .telemetry ∧ t.latched Ev.DEBUG_CHANGE) ∧
      (n = 3 → t.sec.fuses.life = .returned) ∧ Only [.sec, .regs, .tel, .pol] s t) ∧
  -- debugInvasive
  (∀ (s : State) (token nonce : Bytes),
    (nonce ∉ s.sec.fuses.nonces) →
    (s.sec.fuses.life = .production ∧ s.sec.fuses.debug = .none) →
    ((∀ p < 64, s.pst p = .free) ∧ ∀ k ∈ s.sec.keys, k.st = .empty) →
    Does (.debugToken token 2 nonce true) s fun t =>
      t.sec.fuses.debug = .invasive ∧ nonce ∈ t.sec.fuses.nonces ∧ (∀ v ∈ t.sec.tdis, v.st ≠ .locked ∧ v.st ≠ .run))

/-- ENABLE of a disabled queue with lawful settings makes it ACTIVE with its pointers 0 and its version chosen, and before service begins it is held; DISABLE makes it DRAINING, and DISABLED once its commands have completed; RESET leaves it RESETTING with no command before its commit point, and the end of the reset DISABLED with its pointers 0; a doorbell within the ring moves the pointer, one beyond it puts an active queue into ERROR with reason 1; a pause of acceptance ends when there is room; the coalescing time sends the queue's message. -/
def Obligations.QueuesAndDoorbells : Prop :=
  -- queueEnable
  (∀ (s : State) (q port v : Nat) (x : Queue),
    (s.queue q = some x) →
    (s.serving = true) →
    (x.st = .disabled) →
    (s.queuePart q < 64 → s.pst (s.queuePart q) ≠ .free) →
    (([0x302, 0x301, 0x300, 0x201, 0x200].find? fun v => s.qreg F.QVER_OFFER_MIN q ≤ v && v ≤ s.qreg F.QVER_OFFER_MAX q) = some v) →
    (s.qreg F.QCTRL_SQ_INLINE q ≠ 1 ∧ s.qreg F.QCTRL_CQ_INLINE q ≠ 1) →
    (s.qreg F.SQ_BASE q % 4096 = 0 ∧ s.qreg F.CQ_BASE q % 4096 = 0) →
    (s.queuePart q < 64 → (s.q.queues.filter fun y => y.num < 65536 && y.st != .disabled && s.queuePart y.num == s.queuePart q).length <
      s.gp F.QP_LIMIT (s.queuePart q)) →
    (s.tdiHolds x.port x.fn = false) →
    Does (.queueEnable (.pf port) q) s fun t =>
      (∃ y ∈ t.queue q, y.st = .active ∧ y.ver = v ∧ y.reason = 0 ∧ y.sqHead = 0 ∧ y.sqTail = 0 ∧ y.cqHead = 0 ∧ y.cqTail = 0 ∧ y.phase = true ∧
        y.port = x.port ∧ y.fn = x.fn) ∧ t.qreg F.QVER_CHOSEN q = v ∧ t.q.cmds = s.q.cmds ∧ Only [.q, .regs] s t) ∧
  -- queueHeld
  (∀ (s : State) (q port : Nat) (x : Queue),
    (s.queue q = some x) →
    (s.serving = false) →
    Does (.queueEnable (.pf port) q) s fun t =>
      t.queue q = some { x with heldEnable := true } ∧ t.q.cmds = s.q.cmds ∧ Only [.q, .regs] s t) ∧
  -- queueDisable
  (∀ (s : State) (q : Nat) (x : Queue),
    (s.queue q = some x) →
    (x.st = .active ∧ q < 65536) →
    Does (.queueDisable q) s fun t =>
      t.queue q = some { x with st := .draining } ∧ t.q.cmds = s.q.cmds ∧ Only [.q, .regs] s t) ∧
  -- queueDrained
  (∀ (s : State) (q : Nat) (x : Queue),
    (s.queue q = some x) →
    (x.st = .draining) →
    (∀ c ∈ s.q.cmds, c.q ≠ q) →
    Does (.queueDrained q) s fun t =>
      t.queue q = some { x with st := .disabled, sqInline := none, cqInline := none } ∧ t.q.cmds = s.q.cmds ∧ Only [.q] s t) ∧
  -- queueReset
  (∀ (s : State) (q : Nat) (x : Queue),
    (s.queue q = some x) →
    (x.st = .active ∨ x.st = .draining ∨ x.st = .error) →
    Does (.queueReset q) s fun t =>
      (∃ y ∈ t.queue q, y.st = .resetting) ∧ (∀ c ∈ t.q.cmds, c.q = q → c.st = .done) ∧ (∀ y ∈ t.sq.seqs, y.holder ≠ some q) ∧ t.now = s.now) ∧
  -- queueResetDone
  (∀ (s : State) (q : Nat) (x : Queue),
    (s.queue q = some x) →
    (x.st = .resetting) →
    (∀ c ∈ s.q.cmds, c.q ≠ q) →
    Does (.queueResetDone q) s fun t =>
      (∃ y ∈ t.queue q, y.st = .disabled ∧ y.sqHead = 0 ∧ y.sqTail = 0 ∧ y.cqHead = 0 ∧ y.cqTail = 0 ∧ y.sqInline = none ∧ y.cqInline = none) ∧
      t.qreg F.QCTRL_RESET q = 0 ∧ t.qreg F.QCTRL_ENABLE q = 0 ∧ t.q.cmds = s.q.cmds ∧ Only [.q, .regs] s t) ∧
  -- sqDoorbell
  (∀ (s : State) (a : Agent) (n q tail : Nat) (x : Queue),
    (s.queueOf a n = some q ∧ s.queue q = some x) →
    (x.st = .active) →
    Does (.sqDoorbell ⟨a, n⟩ tail) s fun t =>
      (tail < s.sqSize q → t.queue q = some { x with sqTail := tail } ∧ Only [.q] s t) ∧
      (s.sqSize q ≤ tail → (∃ y ∈ t.queue q, y.st = .error ∧ y.reason = 1 ∧ y.sqTail = x.sqTail) ∧ t.latched Ev.QUEUE_ERROR ∧
        Only [.q, .regs, .tel, .pol] s t)) ∧
  -- cqDoorbell
  (∀ (s : State) (a : Agent) (n q head : Nat) (arm : Bool) (x : Queue) (e : MsixVec),
    (s.queueOf a n = some q ∧ s.queue q = some x) →
    (e = s.msixVec x.port x.fn (s.qreg F.QBIND_VECTOR q) ∧ s.qreg F.QBIND_VECTOR q < msixCount x.fn) →
    (x.st ≠ .disabled ∧ x.st ≠ .resetting) →
    (head < s.cqSize q) →
    ((head + s.cqSize q - x.cqHead) % s.cqSize q ≤ s.unconsumed x) →
    Does (.cqDoorbell ⟨a, n⟩ head arm) s fun t =>
      (∃ y ∈ t.queue q, y.cqHead = head ∧ y.cqTail = x.cqTail ∧ y.st = x.st) ∧
      (arm = true ∧ head ≠ x.cqTail ∧ s.qreg F.QCTRL_IRQ_EN q = 1 →
        (e.masked = false → t.out = OutMsg.msix x.port x.fn e.vec e.addr e.data :: s.out) ∧
        (e.masked = true → t.out = s.out ∧ t.msixVec x.port x.fn e.vec = { e with pending := true })) ∧
      (arm = false → t.out = s.out) ∧ Only [.q, .out] s t) ∧
  -- acceptResume
  (∀ (s : State) (q : Nat) (x : Queue),
    (s.queue q = some x) →
    (x.paused = true ∧ s.acceptRoom x = true) →
    Does (.acceptResume q) s fun t =>
      t.queue q = some { x with paused := false } ∧ Only [.q] s t) ∧
  -- irqAggTimeout
  (∀ (s : State) (q : Nat) (x : Queue) (e : MsixVec),
    (s.queue q = some x) →
    (e = s.msixVec x.port x.fn (s.qreg F.QBIND_VECTOR q) ∧ s.qreg F.QBIND_VECTOR q < msixCount x.fn) →
    (x.irqCount ≠ 0 ∧ s.qreg F.IRQ_AGG_US q ≠ 0 ∧ s.qreg F.QCTRL_IRQ_EN q ≠ 0) →
    Does (.irqAggTimeout q) s fun t =>
      t.queue q = some { x with irqCount := 0 } ∧ t.now = max s.now (x.irqFirst + s.qreg F.IRQ_AGG_US q * 1000) ∧
      (e.masked = false → t.out = OutMsg.msix x.port x.fn e.vec e.addr e.data :: s.out) ∧
      (e.masked = true → t.out = s.out ∧ t.msixVec x.port x.fn e.vec = { e with pending := true }) ∧ Only [.now, .q, .out] s t)

/-- An entry accepted is a command under the next number, of its queue and partition, and the SQ head moves on; one that fails a check of acceptance is done with that check's status; an entry that could not be read puts the queue into ERROR with reason 2; an entry with an unknown opcode is accepted and is done with VERSION; a command that may start is started; a FENCE with nothing left to wait for ends OK with its count; a CANCEL ends its targets that have not started, marks those that have, drops the queued payload of a delivery, and waits for them, and ends MISS without any; a completion is written at the CQ tail, which moves on, and the command is gone. -/
def Obligations.CommandLife : Prop :=
  -- entryAccept
  (∀ (s a : State) (q e : Nat) (x : Queue) (z : Cmd) (heads : List (Nat × Nat)),
    (s.queue q = some x) →
    (x.st = .active ∧ x.sqHead ≠ x.sqTail) →
    (q < 65536 ∧ s.paused 0x0E (s.qreg F.QCTRL_FE q + 1) = false) →
    (s.acceptRoom x = true ∧ (x.sqInline.isSome = true → s.inlineEntry x = e)) →
    (s.acceptStatus x e = none ∧ s.myTurn q e heads = true) →
    (∀ y ∈ s.q.cmds, y.uid ≠ s.q.nextUid) →
    (a = (s.tookTurn q).acceptEntry x e ∧ a.cmd s.q.nextUid = some z) →
    (z.owed = true ∨ (a.admitStatus z = none ∧ a.monitored z = false ∧ (z.is .policyLoad = true → z.loadBad = false))) →
    Does (.entryAccept q ⟨some e, heads⟩) s fun t =>
      (∃ y ∈ t.cmd s.q.nextUid, y.q = q ∧ y.part = s.queuePart q ∧ y.qg = s.qreg F.QBIND_QGROUP q ∧ y.acceptT = s.now ∧
        y.entry = z.entry ∧ (y.st = .waiting ∨ (y.st = .done ∧ y.status = St.rateDrop))) ∧
      (∀ y ∈ t.q.cmds, y.uid ≠ s.q.nextUid → ∃ z ∈ s.q.cmds, z.uid = y.uid ∧ z.st = y.st) ∧
      t.q.nextUid = s.q.nextUid + 1 ∧ (∃ y ∈ t.queue q, y.sqHead = (x.sqHead + 1) % s.sqSize q) ∧ t.sq = s.sq ∧ t.tier = s.tier ∧ t.now = s.now) ∧
  -- entryTurnedAway
  (∀ (s a : State) (q e st : Nat) (x : Queue) (z : Cmd) (heads : List (Nat × Nat)),
    (s.queue q = some x) →
    (x.st = .active ∧ (q < 65536 → x.sqHead ≠ x.sqTail ∧ s.paused 0x0E (s.qreg F.QCTRL_FE q + 1) = false)) →
    (s.acceptRoom x = true ∧ (x.sqInline.isSome = true → s.inlineEntry x = e)) →
    (s.acceptStatus x e = none ∧ s.myTurn q e heads = true) →
    (∀ y ∈ s.q.cmds, y.uid ≠ s.q.nextUid) →
    (a = (s.tookTurn q).acceptEntry x e ∧ a.cmd s.q.nextUid = some z) →
    (z.owed = false ∧ a.admitStatus z = some st) →
    Does (.entryAccept q ⟨some e, heads⟩) s fun t =>
      t.ended s.q.nextUid st 0 0 ∧ t.q.nextUid = s.q.nextUid + 1 ∧
      (st = St.badCmd → z.part < 64 → t.gp F.ENTRY_ERRORS z.part = (s.bumpP F.ENTRY_ERRORS z.part).gp F.ENTRY_ERRORS z.part) ∧
      (∃ y ∈ t.queue q, y.sqHead = (x.sqHead + 1) % s.sqSize q) ∧ t.sq = s.sq ∧ t.tier = s.tier ∧ t.now = s.now) ∧
  -- entryUnread
  (∀ (s : State) (q : Nat) (x : Queue) (heads : List (Nat × Nat)),
    (s.queue q = some x) →
    (x.st = .active ∧ x.sqHead ≠ x.sqTail ∧ x.sqInline = none) →
    (q < 65536 ∧ s.paused 0x0E (s.qreg F.QCTRL_FE q + 1) = false) →
    (s.acceptRoom x = true) →
    Does (.entryAccept q ⟨none, heads⟩) s fun t =>
      (∃ y ∈ t.queue q, y.st = .error ∧ y.reason = 2 ∧ y.sqHead = x.sqHead) ∧ t.latched Ev.QUEUE_ERROR ∧ t.q.cmds = s.q.cmds ∧
      Only [.q, .regs, .tel, .pol] s t) ∧
  -- unknownOpcode
  (∀ (s : State) (q e : Nat) (x : Queue) (heads : List (Nat × Nat)),
    (s.queue q = some x) →
    (x.st = .active ∧ (q < 65536 → x.sqHead ≠ x.sqTail)) →
    (s.acceptRoom x = true ∧ (x.sqInline.isSome = true → s.inlineEntry x = e)) →
    (Op.ofCode (efld e 0 1) = none ∧ s.myTurn q e heads = true) →
    Does (.unknownOpcode q ⟨e, heads⟩) s fun t =>
      (∃ y ∈ t.q.cmds, y.uid = s.q.nextUid ∧ y.q = q ∧ y.st = .done ∧ y.status = St.version ∧ y.r0 = 0 ∧ y.r1 = 0) ∧
      t.q.nextUid = s.q.nextUid + 1 ∧ (∃ y ∈ t.queue q, y.sqHead = (x.sqHead + 1) % s.sqSize q) ∧ t.sq = s.sq) ∧
  -- commandStart
  (∀ (s : State) (c : Nat) (x : Cmd),
    (s.cmd c = some x) →
    (s.mayStart x = true) →
    (s.sole c) →
    (x.is .fence = false ∨ x.waitFor ≠ []) →
    (x.is .cancel = false ∨ x.phase ≠ 1) →
    Does (.commandStart c) s fun t =>
      t.cmd c = some { x with st := .started } ∧ Only [.q, .part] s t) ∧
  -- fence
  (∀ (s : State) (c : Nat) (x : Cmd),
    (s.cmd c = some x) →
    (s.sole c) →
    (x.is .fence = true ∧ x.st = .started ∧ x.waitFor = []) →
    Does (.fence c) s fun t =>
      t.ended c St.ok x.count 0 ∧ Only [.q, .part] s t) ∧
  -- cancel
  (∀ (s : State) (c : Nat) (x : Cmd),
    (s.cmd c = some x) →
    (x.is .cancel = true ∧ x.st = .started ∧ x.phase = 0) →
    (s.cancelTargets x ≠ []) →
    (s.sole c ∧ ∀ d ∈ s.cancelTargets x, s.sole d.uid) →
    Does (.cancel c) s fun t =>
      t.cmd c = some { x with phase := 1, waitFor := (s.cancelTargets x).map (·.uid), count := 0 } ∧
      (∀ d ∈ s.cancelTargets x, ∃ y ∈ t.cmd d.uid, if d.st = .waiting ∨ d.is .fence = true then y.st = .done ∧ y.status = St.cancelled
        else if (s.deliv d.uid).isSome = true then y.st = d.st ∨ y.st = .done else y.st = d.st ∧ y.cancelled = true) ∧ t.now = s.now) ∧
  -- cancelDelivery
  (∀ (s : State) (c : Nat) (x d : Cmd) (v : Deliv),
    (s.cmd c = some x) →
    (x.is .cancel = true ∧ x.st = .started ∧ x.phase = 0) →
    (s.cancelTargets x = [d]) →
    (s.deliv d.uid = some v ∧ v.status = none) →
    Does (.cancel c) s fun t =>
      (∀ p ∈ t.dlv.pushes, p.cmd = d.uid → p.landing = false → p.st ≠ 0) ∧
      (∀ w ∈ t.deliv d.uid, w.status = some St.cancelled) ∧ t.now = s.now) ∧
  -- cancelMiss
  (∀ (s : State) (c : Nat) (x : Cmd),
    (s.cmd c = some x) →
    (x.is .cancel = true ∧ x.st = .started ∧ x.phase = 0) →
    (s.cancelTargets x = []) →
    Does (.cancel c) s fun t =>
      t.ended c St.miss 0 0 ∧ Only [.q, .part] s t) ∧
  -- completionPost
  (∀ (s : State) (c : Nat) (x : Cmd) (u : Queue),
    (s.cmd c = some x) →
    (x.st = .done ∧ x.outs = []) →
    (s.queue x.q = some u) →
    (u.num < 65536 → (s.port u.port).st ≠ .holding) →
    (u.cqFailed = false ∧ u.cqInline = none) →
    Does (.completionPost c true) s fun t =>
      OutMsg.hostWrite u.port u.fn (s.qreg F.CQ_BASE u.num + 32 * u.cqTail) (x.cqe u.phase (s.loadNow x.part)) ∈ t.out ∧
      (∃ y ∈ t.queue x.q, y.cqTail = (u.cqTail + 1) % s.cqSize u.num ∧
        y.phase = (if (u.cqTail + 1) % s.cqSize u.num = 0 then !u.phase else u.phase)) ∧
      t.cmd c = none ∧ t.now = s.now)

/-- A POLICY_LOAD of an image in range binds its program to the hook and ends OK with its instructions and the first bytes of its digest; with DEFAULT the hook has no program any more; an idle sequencer takes the oldest event, and a program that ends at once frees it; an event that runs too long ends with the fallback action; an event that finds its queue full is counted and raises OVERFLOW; a timer that has run counts its tick; a failed sequencer is retired. -/
def Obligations.PolicyPrograms : Prop :=
  -- policyLoad
  (∀ (s : State) (c p h slot : Nat) (x : Cmd) (b plain : Bytes) (g : Program),
    (s.runs c .policyLoad x) →
    (p = x.f 0x18 1 ∧ h = x.f 0x19 1) →
    (bit (x.f 0x1A 1) 0 = false) →
    (s.loadNames p h = true ∧ x.f 0x28 4 ≤ 65536 ∧ x.f 0x20 8 % 16 = 0) →
    (x.buffers [x.f 0x20 8] = some true) →
    (x.bufAll (x.f 0x20 8) = some b) →
    (if p < 64 ∧ s.gp F.SEC_CTRL p = 1 then (s.openEnvelope p b (x.f 0x28 4)).toOption = some (plain, slot) else plain = b.take (x.f 0x28 4)) →
    (parseProgram plain (Blake.hash 32 []) p h c = some g) →
    (∀ i ∈ g.code.zipIdx, g.accepts i.2 i.1 = true) →
    (s.storeFits g = true) →
    ((s.journalled c).2 = true) →
    Does (.policyLoad c) s fun t =>
      t.program p h = some g ∧ t.ended c St.ok g.code.length (leNat (g.digest.take 8)) ∧ t.latched Ev.LOAD_DONE ∧ t.sq = s.sq ∧ t.tier = s.tier) ∧
  -- policyLoadDefault
  (∀ (s : State) (c p h : Nat) (x : Cmd),
    (s.runs c .policyLoad x) →
    (p = x.f 0x18 1 ∧ h = x.f 0x19 1) →
    (bit (x.f 0x1A 1) 0 = true) →
    (s.loadNames p h = true) →
    ((s.journalled c).2 = true) →
    Does (.policyLoadDefault c) s fun t =>
      t.program p h = none ∧ t.ended c St.ok 0 0 ∧ t.latched Ev.LOAD_DONE ∧ t.sq = s.sq ∧ t.tier = s.tier) ∧
  -- policyEventRun
  (∀ (s : State) (die n w : Nat) (q : Sequencer) (e : PolEvent) (g : Program),
    (s.seqr die n = some q) →
    (q.retired = false ∧ q.running = none ∧ s.hw.stopped = false ∧ s.paused 0x15 (die + 1) = false) →
    (((s.eventsOn die).find? fun e => !s.excluded e) = some e) →
    (e.hook = 8) →
    (s.hookBy e.part 8 = .program ∧ s.program e.part 8 = some g) →
    (g.code[0]? = some w ∧ polOp w = 0x51) →
    (1 ≤ s.polBudget g) →
    (32000 / max 1 (s.pace die) ≤ s.eventMax e) →
    Does (.policyEventRun die n) s fun t =>
      t.pol.events = (s.pol.events.filter fun y => !(y.id == e.id)) ∧
      (∃ r ∈ t.seqr die n, r.running = none ∧ r.inst = none ∧ r.events = (q.events + 1) % 2 ^ 64) ∧
      t.now = s.now + 32000 / max 1 (s.pace die) ∧ Only [.now, .regs, .pol] s t) ∧
  -- eventMaxTimeout
  (∀ (s : State) (die n : Nat) (q : Sequencer) (e : PolEvent),
    (s.seqr die n = some q) →
    (q.running = some e) →
    (e.hook = 1 ∨ e.hook = 4 ∨ e.hook = 8) →
    Does (.eventMaxTimeout die n) s fun t =>
      (∃ r ∈ t.seqr die n, r.running = none ∧ r.inst = none ∧ r.events = (q.events + 1) % 2 ^ 64) ∧
      t.now = max s.now (q.startT + s.eventMax e) ∧ Only [.now, .regs, .pol] s t) ∧
  -- policyQueueFull
  (∀ (s : State) (die hook part : Nat),
    (1024 ≤ (s.eventsOn die).length) →
    (hook ≤ 8 ∧ part ≤ 64 ∧ hook ≠ 3) →
    Does (.policyQueueFull die hook part) s fun t =>
      t.latched Ev.OVERFLOW ∧ Only [.regs, .tel, .pol] s t) ∧
  -- policyTimer
  (∀ (s : State) (part last ticks us : Nat),
    (us = s.gps F.TIMER_PERIOD part 8 ∧ us ≠ 0) →
    (part ≤ 64 ∧ s.hw.stopped = false ∧ (part < 64 → s.pst part ≠ .free)) →
    ((s.pol.timers.find? fun t => t.1 == part) = some (part, last, ticks)) →
    Does (.policyTimer part) s fun t =>
      t.now = max s.now (last + us * 1000) ∧ (t.pol.timers.find? fun t => t.1 == part) = some (part, t.now, ticks + 1) ∧
      Only [.now, .regs, .tel, .pol] s t) ∧
  -- sequencerFail
  (∀ (s : State) (die n : Nat) (q : Sequencer),
    (s.seqr die n = some q) →
    (q.retired = false ∧ q.running = none) →
    Does (.sequencerFail die n) s fun t =>
      (∃ r ∈ t.seqr die n, r.retired = true) ∧ t.latchedU Ev.SQ_RETIRED die ∧ t.latched Ev.SQ_RETIRED_ANY ∧ Only [.regs, .tel, .pol] s t)

/-- An announce on an enabled port is held, and the best master decides the port and grandmaster in use; its loss gives the place to the next best; a Sync publishes delay and offset, never steps DEV_TIME, and moves TRACKING to LOCKED at the sixteenth near offset and LOCKED back to TRACKING at a far one; a PTM dialogue publishes the offset of its port; a Sync tests the lock too where PTM is the selected source; 2 s of silence (of the selected source, and from LOCKED of the Syncs) bring HOLDOVER and withdraw VALID of silent ports; the loss of the primary time base makes the other primary while the state stays, and DEV_TIME may hold for at most 5 ns. -/
def Obligations.DeviceTime : Prop :=
  -- ptpAnnounce
  (∀ (s : State) (port domain transport gm : Nat) (prio : List Nat) (interval : Nat),
    (port < 8 ∧ 8 + port < s.dlv.ports.length) →
    (s.g F.TIME_CTRL_PTP_EN ≠ 0 ∧ bit (s.g F.PTP_CTRL_PORTS) port = true ∧ s.ptpTakes domain transport = true) →
    Does (.ptpAnnounce ⟨port, domain, transport⟩ gm prio interval) s fun t =>
      (t.port (8 + port)).annT = some s.now ∧ (t.port (8 + port)).annGm = gm ∧ (t.port (8 + port)).annPrio = prio ∧
      (t.port (8 + port)).annInt = interval ∧ (∀ i, i ≠ 8 + port → t.port i = s.port i) ∧
      (∃ i, i < 8 ∧ t.bestMaster = some i ∧ t.g F.TIME_STATE_PTP_PORT = i ∧ t.g F.GM_ID % 2 ^ 64 = (t.port (8 + i)).annGm % 2 ^ 64) ∧
      Only [.dlv, .regs, .tel, .pol] s t) ∧
  -- announceTimeout
  (∀ (s : State) (port x : Nat),
    (port < 8) →
    ((s.port (8 + port)).annT = some x) →
    Does (.announceTimeout port) s fun t =>
      (t.port (8 + port)).annT = none ∧ t.now = max s.now (x + 2 * (s.port (8 + port)).annInt) ∧
      (t.bestMaster = none → t.g F.TIME_STATE_PTP_PORT = 15) ∧
      (∀ i, t.bestMaster = some i → t.g F.TIME_STATE_PTP_PORT = i ∧ t.g F.GM_ID % 2 ^ 64 = (t.port (8 + i)).annGm % 2 ^ 64) ∧
      Only [.now, .dlv, .regs, .tel, .pol] s t) ∧
  -- ptpSync
  (∀ (s : State) (port domain transport m delay logSync : Nat) (p2p two : Bool),
    (port < 8 ∧ s.g F.TIME_CTRL_PTP_EN ≠ 0 ∧ s.g F.TIME_STATE_PTP_PORT = port) →
    (s.ptpTakes domain transport = true ∧ p2p = decide (s.g F.PTP_CTRL_P2P = 1)) →
    (s.g F.TIME_CTRL_DISCIPLINE = 0) →
    Does (.ptpSync ⟨port, domain, transport⟩ m ⟨delay, p2p⟩ logSync two) s fun t =>
      t.reg F.PATH_DELAY_NS 0 255 0 0 = delay % 2 ^ F.PATH_DELAY_NS.bits ∧
      t.reg F.OFFSET_NS 0 255 0 0 = unsigned 32 (max (-2147483648) (min 2147483647 ((s.now : Int) - (m + delay : Nat)))) % 2 ^ F.OFFSET_NS.bits ∧
      t.time.lastSync = s.now ∧ t.time.lastHeard = s.now ∧
      (s.g F.TIME_STATE_STATE = 2 → t.g F.TIME_STATE_STATE = 3 ∨ t.g F.TIME_STATE_STATE = 4) ∧
      (s.g F.TIME_STATE_STATE = 3 → t.g F.TIME_STATE_STATE =
        if ((s.now : Int) - (m + delay : Nat)).natAbs ≤ 50 ∧ 16 ≤ s.time.good + 1 then 4 else 3) ∧
      (s.g F.TIME_STATE_STATE = 4 → t.g F.TIME_STATE_STATE = if ((s.now : Int) - (m + delay : Nat)).natAbs ≤ 50 then 4 else 3) ∧
      Only [.free, .time, .regs, .tel, .pol] s t) ∧
  -- ptpSyncObserved
  (∀ (s : State) (port domain transport m delay logSync : Nat) (p2p two : Bool),
    (port < 8 ∧ s.g F.TIME_CTRL_PTP_EN ≠ 0 ∧ s.g F.TIME_STATE_PTP_PORT = port) →
    (s.ptpTakes domain transport = true ∧ p2p = decide (s.g F.PTP_CTRL_P2P = 1)) →
    (s.g F.TIME_CTRL_DISCIPLINE ≠ 0) →
    Does (.ptpSync ⟨port, domain, transport⟩ m ⟨delay, p2p⟩ logSync two) s fun t =>
      t.reg F.PATH_DELAY_NS 0 255 0 0 = delay % 2 ^ F.PATH_DELAY_NS.bits ∧
      t.g F.TIME_STATE_STATE = (if s.g F.TIME_STATE_STATE = 4 ∧ 50 < ((s.now : Int) - (m + delay : Nat)).natAbs then 3
        else s.g F.TIME_STATE_STATE) ∧
      t.time = { s.time with lastSync := s.now } ∧ Only [.time, .regs, .tel, .pol] s t) ∧
  -- ptmDialogue
  (∀ (s : State) (port h : Nat),
    (port < 8 ∧ s.g F.TIME_CTRL_PTM_EN ≠ 0 ∧ (s.port port).st ≠ .down) →
    Does (.ptmDialogue port h) s fun t =>
      (t.port port).ptmEn = true ∧ (t.port port).ptmT = some t.now ∧ (t.port port).ptmOffset = (h : Int) - (t.now : Int) ∧
      (∀ i, i ≠ port → t.port i = s.port i) ∧ t.out = .ptm port :: s.out ∧
      (∀ x, (s.port port).ptmT = some x → t.now = max s.now (x + s.g F.TIME_CTRL_PTM_MS * 1000000)) ∧
      ((s.port port).ptmT = none → t.now = s.now) ∧
      (s.g F.TIME_CTRL_DISCIPLINE = 1 ∧ s.g F.TIME_CTRL_PTM_PORT = port → t.time.lastHeard = t.now) ∧ t.time.lastSync = s.time.lastSync ∧
      Only [.now, .free, .out, .time, .dlv, .regs, .tel, .pol] s t) ∧
  -- syncTimeout
  (∀ (s : State),
    (s.g F.TIME_STATE_STATE = 3 ∨ s.g F.TIME_STATE_STATE = 4) →
    Does (.syncTimeout) s fun t =>
      t.g F.TIME_STATE_STATE = 5 ∧ t.latched Ev.HOLDOVER ∧ t.latched Ev.TIME_STATE_CHANGE ∧
      t.now = max s.now ((if s.g F.TIME_STATE_STATE = 4 then s.time.lastSync else s.time.lastHeard) + 2000000000) ∧
      (∀ i x, i < 8 → (s.port i).ptmT = some x → (s.port i).ptmEn = true → x + 2000000000 ≤ t.now →
        (t.port i).ptmT = none ∧ t.latched Ev.PTM_LOST) ∧
      Only [.now, .time, .dlv, .regs, .tel, .pol] s t) ∧
  -- timeBaseLoss
  (∀ (s : State) (b : Nat),
    (b < 2 ∧ b ∉ s.time.tbLost ∧ s.g F.TIME_STATE_STATE ≠ 0) →
    Does (.timeBaseLoss b) s fun t =>
      t.time.tbLost = s.time.tbLost ++ [b] ∧ t.g F.TIME_STATE_STATE = s.g F.TIME_STATE_STATE ∧
      (s.time.primary = b → 1 - b ∉ s.time.tbLost → t.time.primary = 1 - b ∧ t.time.holdAt = s.now ∧ t.time.holdNs ≤ 5 ∧ t.latched Ev.PRIMARY_CHANGE) ∧
      (s.time.primary ≠ b → t.time.primary = s.time.primary) ∧ Only [.free, .time, .regs, .tel, .pol] s t)

/-- A request whose sender and number a kept reply has is answered with that reply and not executed: the answer and the count in DUP_DROPS are its only effects; a kept reply goes when its 10 ms have passed; a request not seen before is answered by one reply, which is kept (here of an UNPUBLISH of a joined device). -/
def Obligations.RepeatedRequests : Prop :=
  -- repeated
  (∀ (s : State) (m : MalMsg) (k : KeptReply),
    (s.g F.NET_CTRL_MALROTH_EN ≠ 0) →
    (s.net.kept.find? (fun k => k.src == m.src && k.msgId == m.msgId) = some k) →
    ∀ i ∈ [Instr.hello m, .heartbeat m, .shardQuery m, .publish m, .unpublish m, .holderStale m, .shardXfer m, .republish m, .groupDecl m,
        .malrothFetch m, .replica m, .incidentReport m, .incidentDecl m, .ringUpdate m, .ringPull m],
      Does i s fun t => t = (s.bump F.DUP_DROPS).emit (.malroth k.reply) ∧ t.out = .malroth k.reply :: s.out ∧ Only [.out, .regs] s t) ∧
  -- replyRetentionExpire
  (∀ (s : State) (src msgId : Nat) (k : KeptReply),
    (s.net.kept.find? (fun k => k.src == src && k.msgId == msgId) = some k) →
    Does (.replyRetentionExpire src msgId) s fun t =>
      t.now = max s.now (k.time + 10000000) ∧ t.net.kept = s.net.kept.filter (fun k => !(k.src == src && k.msgId == msgId)) ∧
      t.net.waits = s.net.waits ∧ Only [.now, .net] s t) ∧
  -- keptOnce
  (∀ (s : State) (m : MalMsg),
    (s.fresh m) →
    (s.joined = true ∧ 0x300 ≤ m.ver) →
    Does (.unpublish m) s fun t =>
      s.replies t m 0 [] ∧ (∀ k ∈ t.net.kept, k.src = m.src → k.msgId = m.msgId → k.time = s.now))

/-- Before the device has joined the domain every request but those that build the domain is answered BUSY; a type that came after the connection's version, and an unknown type, is answered VERSION; a device being retired answers no PROBE. -/
def Obligations.RequestsBeforeJoining : Prop :=
  -- beforeJoining
  (∀ (s : State) (m : MalMsg),
    (s.fresh m) →
    (s.joined = false ∧ 0x300 ≤ m.ver ∧ s.hw.retireReq = false) →
    ∀ i ∈ [Instr.shardQuery m, .publish m, .unpublish m, .holderStale m, .shardXfer m, .republish m, .groupDecl m, .malrothFetch m,
        .replica m, .incidentReport m, .probe m],
      Does i s fun t => s.replies t m 2 [] ∧ t.pdir = s.pdir ∧ t.sq = s.sq ∧ t.net.incidents = s.net.incidents ∧ Only [.net, .out, .free] s t) ∧
  -- newerType
  (∀ (s : State) (m : MalMsg),
    (s.fresh m) →
    (m.ver < 0x300 ∧ s.hw.retireReq = false) →
    ∀ i ∈ [Instr.heartbeat m, .holderStale m, .shardXfer m, .republish m, .replica m, .probe m, .incidentDecl m, .ringUpdate m, .ringPull m],
      Does i s fun t => s.replies t m 5 [] ∧ t.net.incidents = s.net.incidents ∧ Only [.net, .out, .free] s t) ∧
  -- malrothUnknownType
  (∀ (s : State) (m : MalMsg),
    (s.g F.NET_CTRL_MALROTH_EN ≠ 0) →
    (∀ v, typeSince m.typ = some v → m.ver < v) →
    Does (.malrothUnknownType m) s fun t =>
      (∃ r : MalMsg, t.out = .malroth r :: s.out ∧ r.reply = true ∧ r.status = 5 ∧ r.dst = m.src ∧ r.msgId = m.msgId) ∧ Only [.net, .out, .free] s t) ∧
  -- probe
  (∀ (s : State) (m : MalMsg),
    (s.fresh m) →
    (s.joined = true ∧ 0x300 ≤ m.ver) →
    Does (.probe m) s fun t =>
      (s.hw.retireReq = false → s.replies t m 0 s.healthBody ∧ Only [.net, .out, .free] s t) ∧ (s.hw.retireReq = true → t = s))

/-- A HELLO whose range meets the device's and whose domain is the same opens the connection under the highest common version and is answered; otherwise the connection closes and PEER_REFUSED is raised; a leader answers a member's heartbeat and keeps its time; a member names its leader; each HB_US a member sends its leader a heartbeat; three misses file an UNREACHABLE report; a request without a reply is sent again, and after its last attempt gone; a connection opens within its quota on a permitted port, closes when no push needs it, and a Malroth connection closes after 10 s of silence. -/
def Obligations.HellosAndHeartbeats : Prop :=
  -- hello
  (∀ (s : State) (m : MalMsg) (v : Nat),
    (s.g F.NET_CTRL_MALROTH_EN ≠ 0 ∧ ∀ k ∈ s.net.kept, ¬(k.src = m.src ∧ k.msgId = m.msgId)) →
    (commonVer (rd m.body 0 2, rd m.body 2 2) s.malRange = some v) →
    (rd m.body 8 4 = s.g F.DOMAIN_ID) →
    Does (.hello m) s fun t =>
      (∃ c ∈ t.net.conns, c.malroth = true ∧ c.peer = m.src ∧ c.st = .open_ ∧ c.ver = v) ∧ (∃ p ∈ t.net.peers, p.serial = m.src ∧ p.ver = v) ∧
      (∃ r : MalMsg, .malroth r ∈ t.out ∧ r.reply = true ∧ r.status = 0 ∧ r.dst = m.src ∧ r.msgId = m.msgId ∧ r.ver = v) ∧
      (s.listed m.src = false → t.latched Ev.JOIN_REFUSED) ∧ t.pdir = s.pdir ∧ t.now = s.now) ∧
  -- helloRefused
  (∀ (s : State) (m : MalMsg),
    (s.g F.NET_CTRL_MALROTH_EN ≠ 0 ∧ ∀ k ∈ s.net.kept, ¬(k.src = m.src ∧ k.msgId = m.msgId)) →
    (commonVer (rd m.body 0 2, rd m.body 2 2) s.malRange = none ∨ rd m.body 8 4 ≠ s.g F.DOMAIN_ID) →
    Does (.hello m) s fun t =>
      (∀ c ∈ t.net.conns, ¬(c.malroth = true ∧ c.peer = m.src)) ∧ t.latched Ev.PEER_REFUSED ∧ t.out = s.out ∧ t.net.peers = s.net.peers ∧
      Only [.net, .regs, .tel, .pol] s t) ∧
  -- heartbeatOfMember
  (∀ (s : State) (m : MalMsg),
    (s.fresh m) →
    (0x300 ≤ m.ver) →
    (s.net.leader = s.dev.serial ∧ m.src ∈ s.net.members) →
    Does (.heartbeat m) s fun t =>
      (∃ r : MalMsg, .malroth r ∈ t.out ∧ r.reply = true ∧ r.status = 0 ∧ r.dst = m.src ∧ r.msgId = m.msgId) ∧ t.net.members = s.net.members ∧
      (∀ p ∈ s.peer m.src, ∃ q ∈ t.peer m.src, q.lastHb = s.now ∧ q.misses = 0) ∧ t.now = s.now) ∧
  -- heartbeatRedirect
  (∀ (s : State) (m : MalMsg),
    (s.fresh m) →
    (0x300 ≤ m.ver) →
    (s.net.leader ≠ 0 ∧ s.net.leader ≠ s.dev.serial ∧ s.stepState 7 ≠ stepRunning) →
    Does (.heartbeat m) s fun t =>
      s.replies t m 3 (leBytes 8 s.net.leader) ∧ Only [.net, .out, .free] s t) ∧
  -- heartbeatTick
  (∀ (s : State),
    (s.g F.NET_CTRL_MALROTH_EN ≠ 0) →
    (s.net.leader ≠ 0 ∧ s.net.leader ≠ s.dev.serial) →
    Does (.heartbeatTick) s fun t =>
      t.now = max s.now (s.net.lastTick + s.g F.HB_US * 1000) ∧ t.net.lastTick = t.now ∧
      (∃ w ∈ t.net.waits, w.msg.typ = 2 ∧ w.msg.dst = s.net.leader) ∧ Only [.now, .net, .out, .free] s t) ∧
  -- heartbeatMiss
  (∀ (s : State) (n : Nat) (p : Peer),
    (s.peer n = some p) →
    (s.heartSenders.contains n = true ∧ p.reachable = true ∧ p.misses < 3) →
    (s.net.storm = none ∧ s.net.incidents.length < 1024) →
    Does (.heartbeatMiss n) s fun t =>
      t.now = max s.now (p.lastHb + 3 * s.g F.HB_US * 1000) ∧ (∃ q ∈ t.peer n, q.misses = 3) ∧
      (∃ i ∈ t.net.incidents, i.suspect = n ∧ i.cls = 1 ∧ i.unit = 0xFF ∧ s.dev.serial ∈ i.reporters) ∧ t.pdir = s.pdir) ∧
  -- msgTimeoutAgain
  (∀ (s u : State) (id : Nat) (w : MalWait),
    (s.net.waits.find? (fun w => w.msg.msgId == id && w.sent) = some w) →
    (w.tries % 16 < (if w.msg.typ = 0x10 then 2 else 4)) →
    (u = s.reach (w.sentT + if w.msg.typ = 0x10 then s.g F.PDIR_CTRL_SHARD_TO_US * 500 else s.g F.MSG_TO_US * 1000)) →
    Does (.msgTimeout id) s fun t =>
      t.now = u.now ∧ (∃ x ∈ t.net.waits, x.msg = u.stamped w.msg ∧ x.tries = w.tries + 1 ∧ x.sentT = t.now) ∧
      ((∃ i, i < 8 ∧ (s.port (8 + i)).st = .up) → t.out = .malroth (u.stamped w.msg) :: s.out) ∧ Only [.now, .net, .out, .free, .regs] s t) ∧
  -- msgTimeoutLast
  (∀ (s : State) (id : Nat) (w : MalWait),
    (s.net.waits.find? (fun w => w.msg.msgId == id && w.sent) = some w) →
    (w.tries % 16 ≥ (if w.msg.typ = 0x10 then 2 else 4)) →
    (w.msg.typ = 0x10 ∨ w.msg.typ = 0x31) →
    Does (.msgTimeout id) s fun t =>
      t.net.waits = s.net.waits.filter (fun x => !(x.msg.msgId == id)) ∧ (w.msg.typ = 0x10 → t.net.incidents = s.net.incidents) ∧
      t.net.incidents.map (·.st) = s.net.incidents.map (·.st) ∧ Only [.now, .net] s t) ∧
  -- connIdleClose
  (∀ (s : State) (n : Nat) (c : Conn),
    (s.net.conns.find? (fun c => c.num == n && c.malroth) = some c) →
    (∀ w ∈ s.net.waits, w.msg.dst ≠ c.peer) →
    Does (.connIdleClose n) s fun t =>
      t.now = max s.now (c.lastT + 10000000000) ∧ t.net.conns = s.net.conns.filter (fun x => !(x.num == n)) ∧ t.net.waits = s.net.waits ∧
      Only [.now, .net] s t) ∧
  -- connOpen
  (∀ (s : State) (part n : Nat) (ok : Bool),
    (part < 64 ∧ n < 65536) →
    (∀ c ∈ s.net.conns, c.num = n → c.malroth = false ∧ c.part = part ∧ c.st ≠ .open_ ∧ c.st ≠ .held) →
    (((s.connsOf part).filter fun c => c.num != n && c.st != .error).length < s.gp F.CONN_QUOTA part) →
    (bit (s.gp F.PORT_MASK part) (8 + s.gs F.CONN_CTRL_PORT n % 8) = true) →
    Does (.connOpen part n ok) s fun t =>
      (∃ c ∈ t.net.conns, c.num = n ∧ c.part = part ∧ c.malroth = false ∧ c.port = 8 + s.gs F.CONN_CTRL_PORT n % 8 ∧ c.lastT = s.now ∧
        (ok = true → c.st = .open_) ∧ (ok = false → c.st = .error ∧ c.reason = 3)) ∧
      (ok = false → t.latched Ev.CONN_ERROR) ∧ t.reg F.CONN_CTRL_OPEN 0 255 n 0 = 0 ∧ Only [.net, .regs, .tel, .pol] s t) ∧
  -- connOpenRefused
  (∀ (s : State) (part n : Nat) (ok : Bool),
    (part < 64 ∧ n < 65536) →
    (∀ c ∈ s.net.conns, c.num = n → c.malroth = false ∧ c.part = part ∧ c.st ≠ .open_ ∧ c.st ≠ .held) →
    (((s.connsOf part).filter fun c => c.num != n && c.st != .error).length ≥ s.gp F.CONN_QUOTA part) →
    Does (.connOpen part n ok) s fun t =>
      (∃ c ∈ t.net.conns, c.num = n ∧ c.part = part ∧ c.st = .error ∧ c.reason = 1) ∧ t.latched Ev.CONN_ERROR ∧ Only [.net, .regs, .tel, .pol] s t) ∧
  -- connClose
  (∀ (s : State) (n : Nat) (c : Conn),
    (s.net.conns.find? (fun c => c.num == n && !c.malroth) = some c) →
    Does (.connClose n) s fun t =>
      ((∀ p ∈ s.dlv.pushes, p.part ≠ c.part) → t.net.conns = s.net.conns.filter (fun x => !(x.num == n)) ∧ t.reg F.CONN_CTRL_CLOSE 0 255 n 0 = 0) ∧
      ((∃ p ∈ s.dlv.pushes, p.part = c.part ∧ ∃ d ∈ s.dlv.dests, d.part = p.part ∧ d.num = p.dest ∧ d.conn = n ∧ 8 ≤ d.port) →
        t.net = s.net ∧ t.reg F.CONN_CTRL_CLOSE 0 255 n 0 = 1) ∧ Only [.net, .regs] s t)

/-- Of a device that has joined the domain: a query under its own epoch for keys it owns is answered with the holders of each; one of an older epoch is redirected key by key; one of a newer epoch waits; a publication and a republished key add their holder to the entry; an UNPUBLISH removes the sender; a stale holder is removed or checked; a transferred entry is taken, with the last of its shard the device answers for it, and one under a newer ring waits; a group declaration is held or withdrawn; a fetch is answered as its body says, or BUSY; pieces of a 2.x transfer accumulate; a replica that fits is kept until its flash acknowledges it, one whose blocks fail their CRC is refused (the model's choice, assumption 84: no sentence says it), and either may be answered BUSY. -/
def Obligations.ShardRequests : Prop :=
  -- shardQuery
  (∀ (s : State) (m : MalMsg),
    (s.fresh m) →
    (s.joined = true ∧ 0x300 ≤ m.ver ∧ m.ringEpoch = s.pdir.ringEpoch) →
    (∀ k ∈ keyBs m.body, s.answers k.shard = true ∧ s.receiving k.shard = false) →
    Does (.shardQuery m) s fun t =>
      s.replies t m 0 ((keyBs m.body).flatMap fun k =>
        (s.heardFrom m).answer (if (s.listHolders s.pdir.shards k).isEmpty then 0 else 1) 0 0 (s.listHolders s.pdir.shards k)) ∧
      t.pdir = s.pdir ∧ Only [.net, .out, .free] s t) ∧
  -- shardRedirect
  (∀ (s : State) (m : MalMsg),
    (s.fresh m) →
    (s.joined = true ∧ 0x300 ≤ m.ver ∧ m.ringEpoch < s.pdir.ringEpoch) →
    ∀ i ∈ [Instr.shardQuery m, .publish m],
      Does i s fun t => s.replies t m 3 ((keyBs m.body).flatMap s.redirect) ∧ t.pdir = s.pdir ∧ Only [.net, .out, .free] s t) ∧
  -- shardLater
  (∀ (s : State) (m : MalMsg),
    (s.fresh m) →
    (s.joined = true ∧ 0x300 ≤ m.ver ∧ s.pdir.ringEpoch < m.ringEpoch) →
    ∀ i ∈ [Instr.shardQuery m, .publish m],
      Does i s fun t => t.net.later = s.net.later ++ [m] ∧ t.net.kept = s.net.kept ∧ t.pdir = s.pdir ∧
        (s.net.leader ≠ 0 ∧ s.net.leader ≠ s.dev.serial ∧ s.malWaiting 0x41 0 = false →
          ∃ w ∈ t.net.waits, w.msg.typ = 0x41 ∧ w.msg.dst = s.net.leader) ∧ Only [.net, .out, .free] s t) ∧
  -- publish
  (∀ (s : State) (m : MalMsg) (k : KeyB),
    (s.fresh m) →
    (s.joined = true ∧ 0x300 ≤ m.ver ∧ m.ringEpoch = s.pdir.ringEpoch) →
    (keyBs m.body = [k]) →
    (s.owns k.shard = true) →
    Does (.publish m) s fun t =>
      s.replies t m 0 [] ∧
      (∃ e ∈ t.pdir.shards, e.key = k.key ∧ ∃ h ∈ e.holders, h.serial = m.src ∧ h.handle = k.handle ∧ h.pubT = s.now ∧ h.geom = k.geom) ∧
      (∀ e ∈ s.pdir.shards, e.key ≠ k.key → e ∈ t.pdir.shards) ∧ Only [.net, .out, .free, .pdir] s t) ∧
  -- republish
  (∀ (s : State) (m : MalMsg) (k : KeyB),
    (s.fresh m) →
    (s.joined = true ∧ 0x300 ≤ m.ver) →
    (keyBs m.body = [k]) →
    Does (.republish m) s fun t =>
      s.replies t m 0 [] ∧
      (∃ e ∈ t.pdir.shards, e.key = k.key ∧ ∃ h ∈ e.holders, h.serial = m.src ∧ h.handle = k.handle ∧ h.pubT = s.now ∧ h.geom = k.geom) ∧
      (∀ e ∈ s.pdir.shards, e.key ≠ k.key → e ∈ t.pdir.shards) ∧ Only [.net, .out, .free, .pdir] s t) ∧
  -- unpublish
  (∀ (s : State) (m : MalMsg),
    (s.fresh m) →
    (s.joined = true ∧ 0x300 ≤ m.ver) →
    Does (.unpublish m) s fun t =>
      s.replies t m 0 [] ∧
      (∀ e ∈ t.pdir.shards, ∀ h ∈ e.holders, ∀ k ∈ keyBs m.body, e.key = k.key → h.handle = k.handle → h.serial ≠ m.src) ∧
      (∀ e ∈ s.pdir.shards, e.holders ≠ [] → (∀ k ∈ keyBs m.body, e.key ≠ k.key) → e ∈ t.pdir.shards) ∧ Only [.net, .out, .free, .pdir] s t) ∧
  -- holderStaleOwn
  (∀ (s : State) (m : MalMsg) (k : KeyB),
    (s.fresh m) →
    (s.joined = true ∧ 0x300 ≤ m.ver) →
    (keyBs m.body = [k]) →
    (k.holder = s.dev.serial ∧ s.leaf k.handle = none) →
    Does (.holderStale m) s fun t =>
      s.replies t m 0 [] ∧
      ((∃ e ∈ s.pdir.shards, ∃ h ∈ e.holders, e.key = k.key ∧ h.serial = s.dev.serial ∧ h.handle = k.handle) → t.latched Ev.STALE_HOLDER) ∧
      (∀ e ∈ t.pdir.shards, ∀ h ∈ e.holders, e.key = k.key → h.handle = k.handle → h.serial ≠ s.dev.serial) ∧ t.sq = s.sq) ∧
  -- holderStaleCheck
  (∀ (s : State) (m : MalMsg) (k : KeyB),
    (s.fresh m) →
    (s.joined = true ∧ 0x300 ≤ m.ver) →
    (keyBs m.body = [k]) →
    (k.holder ≠ s.dev.serial) →
    Does (.holderStale m) s fun t =>
      (∃ w ∈ t.net.waits, w.msg.typ = 0x20 ∧ w.msg.dst = k.holder ∧ w.why = (if bit k.flags 2 then 2 else 1) ∧
        w.msg.body = fetchBody k.handle k.chain k.ns k.order 0 0 0 0) ∧ t.pdir = s.pdir ∧ Only [.net, .out, .free] s t) ∧
  -- shardXfer
  (∀ (s : State) (m : MalMsg) (e : ShardEnt),
    (s.fresh m) →
    (s.joined = true ∧ 0x300 ≤ m.ver ∧ m.ringEpoch ≤ s.pdir.ringEpoch ∧ m.last = false) →
    (readXfer s.now m.body.length m.body = [e]) →
    (∀ x ∈ s.pdir.shards, x.key ≠ e.key) →
    Does (.shardXfer m) s fun t =>
      s.replies t m 0 [] ∧ t.pdir.shards = s.pdir.shards ++ [{ e with holders := e.holders.take (max 1 (s.g F.PDIR_HOLDER_MAX)) }] ∧
      t.pdir.moving = s.pdir.moving ∧ Only [.net, .out, .free, .pdir] s t) ∧
  -- shardXferLast
  (∀ (s : State) (m : MalMsg) (e : ShardEnt),
    (s.fresh m) →
    (s.joined = true ∧ 0x300 ≤ m.ver ∧ m.ringEpoch = s.pdir.ringEpoch ∧ m.last = true) →
    (readXfer s.now m.body.length m.body = [e]) →
    (∀ x ∈ s.pdir.shards, x.key ≠ e.key) →
    (s.net.later = [] ∧ ∀ l ∈ s.pdir.lookups, l.step ≠ 2) →
    Does (.shardXfer m) s fun t =>
      s.replies t m 0 [] ∧ t.pdir.shards = s.pdir.shards ++ [{ e with holders := e.holders.take (max 1 (s.g F.PDIR_HOLDER_MAX)) }] ∧
      t.receiving e.shard = false ∧ (∀ v ∈ s.pdir.moving, v.shard ≠ e.shard → v ∈ t.pdir.moving) ∧ Only [.net, .out, .free, .pdir] s t) ∧
  -- shardXferLater
  (∀ (s : State) (m : MalMsg),
    (s.fresh m) →
    (s.joined = true ∧ 0x300 ≤ m.ver ∧ s.pdir.ringEpoch < m.ringEpoch) →
    Does (.shardXfer m) s fun t =>
      t.net.later = s.net.later ++ [m] ∧ t.net.kept = s.net.kept ∧ t.pdir = s.pdir ∧ Only [.net, .out, .free] s t) ∧
  -- groupDecl
  (∀ (s : State) (m : MalMsg),
    (s.fresh m) →
    (s.joined = true ∧ 0x200 ≤ m.ver) →
    Does (.groupDecl m) s fun t =>
      s.replies t m 0 [] ∧
      (rd m.body 0x14 4 ≠ 0 → (⟨⟨rd m.body 0 8, rd m.body 8 1⟩, rd m.body 0x10 4, rd m.body 0x14 4, slice m.body 0x18 16, rd m.body 0x28 16⟩ : GrpDecl)
        ∈ t.pdir.decls) ∧
      (rd m.body 0x14 4 = 0 → ∀ d ∈ t.pdir.decls, ¬(d.member = ⟨rd m.body 0 8, rd m.body 8 1⟩ ∧ d.id = rd m.body 0x10 4)) ∧
      Only [.net, .out, .free, .pdir, .regs, .tel, .pol] s t) ∧
  -- malrothFetchNone
  (∀ (s : State) (m : MalMsg),
    (s.fresh m) →
    (s.joined = true ∧ 0x200 ≤ m.ver) →
    ((s.fetchAnswer m).1 ≠ 0 ∨ (s.fetchAnswer m).2.2 = []) →
    Does (.malrothFetch m) s fun t =>
      s.replies t m (s.fetchAnswer m).1 (s.fetchAnswer m).2.1 ∧ Only [.net, .out, .free] s t) ∧
  -- malrothFetch
  (∀ (s : State) (m : MalMsg),
    (s.fresh m) →
    (s.joined = true ∧ 0x300 ≤ m.ver) →
    ((s.fetchAnswer m).1 = 0 ∧ (s.fetchAnswer m).2.2 ≠ []) →
    Does (.malrothFetch m) s fun t =>
      (s.replies t m 2 [] ∨ s.replies t m 0 ((s.fetchAnswer m).2.1 ++ (s.fetchAnswer m).2.2)) ∧ Only [.net, .out, .free, .regs, .part] s t) ∧
  -- fetchData
  (∀ (s : State) (m : MalMsg) (w : MalWait),
    (s.net.waits.find? (fun w => w.msg.typ == 0x0020 && w.msg.dst == m.src && w.msg.ver < 0x300 && w.msg.msgId == m.msgId) = some w) →
    (∀ p ∈ s.peer m.src, p.timeBad ≠ 15) →
    (m.last = false) →
    Does (.fetchData m) s fun t =>
      (∃ x ∈ t.net.waits, x.msg = w.msg ∧ x.data = w.data ++ m.body ∧ x.sentT = s.now) ∧ Only [.net] s t) ∧
  -- replica
  (∀ (s : State) (m : MalMsg) (main : Bytes),
    (s.fresh m) →
    (s.joined = true ∧ 0x300 ≤ m.ver) →
    (∀ r ∈ s.plp.replicas, ¬(r.owner = m.src ∧ r.handle = rd m.body 0 8)) →
    (if hOrder (rd m.body 0 8) = 7 then main = m.body.drop 56
      else ∃ n ≤ m.body.length, leafRecBytes 4096 (m.body.drop 56) = some n ∧ main = (m.body.drop 56).take n) →
    (hOrder (rd m.body 0 8) = 7 ∨ baseNamed 4096 main = 0 ∨ ∃ r ∈ s.plp.replicas, r.owner = m.src ∧ r.handle = baseNamed 4096 main) →
    (s.replicaUsed + roundUp main.length 4096 ≤ s.g F.REPLICA_GIB * 2 ^ 30 ∧ roundUp main.length 4096 ≤ s.freeUser s.t3Bridge) →
    Does (.replica m) s fun t =>
      (s.replies t m 2 [] ∧ t.plp = s.plp) ∨
      (∃ r ∈ t.plp.replicas, r.owner = m.src ∧ r.handle = rd m.body 0 8 ∧ r.data = main ∧ r.ask = some m ∧ r.id = s.plp.nextReplica) ∧
        t.net.kept = s.net.kept) ∧
  -- replicaBad
  (∀ (s : State) (m : MalMsg),
    (s.fresh m) →
    (s.joined = true ∧ 0x300 ≤ m.ver) →
    (∀ r ∈ s.plp.replicas, ¬(r.owner = m.src ∧ r.handle = rd m.body 0 8)) →
    (hOrder (rd m.body 0 8) ≠ 7 ∧ leafRecBytes 4096 (m.body.drop 56) = none) →
    Does (.replica m) s fun t =>
      (s.replies t m 2 [] ∨ (s.replies t m 4 [] ∧ ∃ u, t.latchedU Ev.SC_CRC_ERROR u)) ∧ t.plp = s.plp ∧ t.ftl = s.ftl)

/-- A report merged into a declared entry is answered with its number and state 1; a new one makes an entry; an arbiter's probes go out one by one, and after the third the incident is declared or cleared; a declaration received is held once under its epoch and a clearing one clears it; an entry goes when its window has passed; a declared incident is probed again each second; a ring update not newer than the device's epoch changes nothing, the next one gives the ring, one further ahead makes the device pull the ring; RING_PULL is answered with the members; a reply ends the request that waits for it, and one for which none waits has no effect. -/
def Obligations.IncidentsAndTheRing : Prop :=
  -- incidentKnown
  (∀ (s : State) (m : MalMsg) (i : Incident),
    (s.fresh m) →
    (s.joined = true ∧ 0x200 ≤ m.ver ∧ s.net.storm = none) →
    (s.mergedInto (rd m.body 0 8) (rd m.body 8 1) (rd m.body 9 1) = some i) →
    (i.st = .declared) →
    Does (.incidentReport m) s fun t =>
      s.replies t m 0 (leBytes 4 i.incNo ++ leBytes 1 1 ++ leBytes 3 0) ∧ (∃ j ∈ t.net.incidents, j.num = i.num ∧ m.src ∈ j.reporters ∧ j.lastT = s.now) ∧
      t.net.incidents.length = s.net.incidents.length ∧ Only [.net, .out, .free, .regs] s t) ∧
  -- incidentReport
  (∀ (s : State) (m : MalMsg),
    (s.fresh m) →
    (s.joined = true ∧ 0x200 ≤ m.ver ∧ s.net.storm = none ∧ s.net.incidents.length < 1024) →
    (s.mergedInto (rd m.body 0 8) (rd m.body 8 1) (rd m.body 9 1) = none) →
    Does (.incidentReport m) s fun t =>
      (∃ i ∈ t.net.incidents, i.num = s.net.nextInc ∧ i.suspect = rd m.body 0 8 ∧ i.cls = rd m.body 8 1 ∧ i.unit = rd m.body 9 1 ∧
        i.reporters = [m.src] ∧ i.firstT = s.now ∧ (s.arbiterOf (rd m.body 0 8) ≠ some s.dev.serial → i.st = .open_)) ∧
      (∃ r : MalMsg, .malroth r ∈ t.out ∧ r.reply = true ∧ r.status = 0 ∧ r.dst = m.src ∧ r.msgId = m.msgId) ∧ Only [.net, .out, .free] s t) ∧
  -- storm
  (∀ (s : State) (m : MalMsg),
    (s.fresh m) →
    (s.joined = true ∧ 0x200 ≤ m.ver ∧ s.net.storm = none ∧ 1024 ≤ s.net.incidents.length) →
    (s.mergedInto (rd m.body 0 8) (rd m.body 8 1) (rd m.body 9 1) = none) →
    Does (.incidentReport m) s fun t =>
      t.net.storm.isSome = true ∧ t.latched Ev.STORM ∧ t.net.incidents = s.net.incidents ∧ s.replies t m 0 (leBytes 4 1 ++ leBytes 1 3 ++ leBytes 3 0)) ∧
  -- probeSend
  (∀ (s : State) (n : Nat) (i : Incident),
    (s.inc n = some i) →
    (i.st = .probing ∧ 0 < i.probes ∧ i.probes < 3) →
    Does (.probeSend n) s fun t =>
      t.now = max s.now (i.probeT + s.g F.INC_CFG_PROBE_GAP_US * 1000) ∧ (∃ j ∈ t.inc n, j.probes = i.probes + 1 ∧ j.probeT = t.now) ∧
      (∃ w ∈ t.net.waits, w.msg.dst = i.suspect ∧ (w.msg.typ = 0x31 ∨ w.msg.typ = 0x20)) ∧ Only [.now, .net, .out, .free] s t) ∧
  -- probeTimeoutCleared
  (∀ (s : State) (n : Nat) (i : Incident),
    (s.inc n = some i) →
    (i.st = .probing ∧ 3 ≤ i.probes ∧ (i.confirmed && s.mayConfirm i.suspect i.cls) = false) →
    Does (.probeTimeout n) s fun t =>
      t.now = max s.now (i.probeT + s.g F.INC_CFG_PROBE_TO_US * 1000) ∧ t.inc n = some { i with st := .cleared } ∧ t.out = s.out ∧
      Only [.now, .net] s t) ∧
  -- probeTimeout
  (∀ (s : State) (n : Nat) (i : Incident),
    (s.inc n = some i) →
    (i.st = .probing ∧ 3 ≤ i.probes ∧ (i.confirmed && s.mayConfirm i.suspect i.cls) = true ∧ i.cls ≠ 1) →
    Does (.probeTimeout n) s fun t =>
      (∃ j ∈ t.inc n, j.st = .declared ∧ j.arbiter = s.dev.serial ∧ j.epoch = s.pdir.ringEpoch ∧ j.suspect = i.suspect) ∧
      t.latched Ev.INCIDENT_DECLARED ∧ t.pdir = s.pdir ∧ Only [.now, .net, .out, .free, .regs, .tel, .pol] s t) ∧
  -- incidentDecl
  (∀ (s : State) (m : MalMsg),
    (s.fresh m) →
    (0x300 ≤ m.ver ∧ rd m.body 0x1C 1 ≠ 2 ∧ rd m.body 0x0C 1 ≠ 1 ∧ s.net.incidents.length < 1024) →
    (∀ i ∈ s.net.incidents, ¬(i.suspect = rd m.body 0x10 8 ∧ i.cls = rd m.body 0x0C 1 ∧ i.unit = rd m.body 0x0D 1 ∧ i.st = .declared ∧
      i.epoch = rd m.body 0x18 4)) →
    Does (.incidentDecl m) s fun t =>
      (∃ i ∈ t.net.incidents, i.suspect = rd m.body 0x10 8 ∧ i.cls = rd m.body 0x0C 1 ∧ i.unit = rd m.body 0x0D 1 ∧ i.st = .declared ∧
        i.incNo = rd m.body 8 4 ∧ i.arbiter = rd m.body 0 8 ∧ i.epoch = rd m.body 0x18 4) ∧ t.latched Ev.INCIDENT_DECLARED ∧
      (∃ r : MalMsg, .malroth r ∈ t.out ∧ r.reply = true ∧ r.status = 0 ∧ r.dst = m.src ∧ r.msgId = m.msgId) ∧
      Only [.net, .out, .free, .regs, .tel, .pol] s t) ∧
  -- incidentDeclAgain
  (∀ (s : State) (m : MalMsg) (i : Incident),
    (s.fresh m) →
    (0x300 ≤ m.ver ∧ rd m.body 0x1C 1 ≠ 2 ∧ i ∈ s.net.incidents) →
    (i.suspect = rd m.body 0x10 8 ∧ i.cls = rd m.body 0x0C 1 ∧ i.unit = rd m.body 0x0D 1 ∧ i.st = .declared ∧ i.epoch = rd m.body 0x18 4) →
    Does (.incidentDecl m) s fun t =>
      t.net.incidents = s.net.incidents ∧ s.replies t m 0 [] ∧ Only [.net, .out, .free] s t) ∧
  -- incidentDeclCleared
  (∀ (s : State) (m : MalMsg),
    (s.fresh m) →
    (0x300 ≤ m.ver ∧ rd m.body 0x1C 1 = 2) →
    Does (.incidentDecl m) s fun t =>
      (∀ i ∈ t.net.incidents, i.suspect = rd m.body 0x10 8 → i.cls = rd m.body 0x0C 1 → i.unit = rd m.body 0x0D 1 → i.st ≠ .declared) ∧
      t.net.incidents.length = s.net.incidents.length ∧ Only [.net, .out, .free] s t) ∧
  -- incidentWindowExpire
  (∀ (s : State) (n : Nat) (i : Incident),
    (s.inc n = some i) →
    (i.st = .open_ ∨ i.st = .cleared ∨ (i.st = .declared ∧ i.cls = 1)) →
    (s.net.storm = none) →
    Does (.incidentWindowExpire n) s fun t =>
      t.now = max s.now (i.lastT + s.windowNs) ∧ t.net.incidents = s.net.incidents.filter (fun x => !(x.num == n)) ∧ t.out = s.out ∧
      Only [.now, .net] s t) ∧
  -- incidentReprobe
  (∀ (s : State) (n : Nat) (i : Incident),
    (s.inc n = some i) →
    (i.st = .declared ∧ i.cls ≠ 1 ∧ i.arbiter = s.dev.serial) →
    Does (.incidentReprobe n) s fun t =>
      t.now = max s.now (i.reprobeT + 1000000000) ∧ (∃ j ∈ t.inc n, j.reprobeT = t.now ∧ j.st = .declared) ∧
      (∃ w ∈ t.net.waits, w.msg.typ = 0x31 ∧ w.msg.dst = i.suspect ∧ w.ctx = n) ∧ Only [.now, .net, .out, .free] s t) ∧
  -- ringUpdateOld
  (∀ (s : State) (m : MalMsg),
    (s.fresh m) →
    (0x300 ≤ m.ver ∧ rd m.body 0 4 ≤ s.pdir.ringEpoch) →
    Does (.ringUpdate m) s fun t =>
      s.replies t m 0 [] ∧ t.pdir = s.pdir ∧ Only [.net, .out, .free] s t) ∧
  -- ringUpdate
  (∀ (s : State) (m : MalMsg),
    (s.fresh m) →
    (0x300 ≤ m.ver ∧ rd m.body 0 4 = s.pdir.ringEpoch + 1 ∧ s.pdir.ring ≠ []) →
    Does (.ringUpdate m) s fun t =>
      t.pdir.ringEpoch = rd m.body 0 4 ∧
      t.pdir.ring = sortNat ((s.pdir.ring.filter fun n => !(u64s (m.body.drop (16 + 8 * rd m.body 4 4)) (rd m.body 8 4)).contains n) ++
        (u64s (m.body.drop 16) (rd m.body 4 4)).filter fun n => !s.pdir.ring.contains n) ∧ t.latched Ev.RING_CHANGE ∧ t.now = s.now) ∧
  -- ringUpdateAhead
  (∀ (s : State) (m : MalMsg),
    (s.fresh m) →
    (0x300 ≤ m.ver ∧ s.pdir.ringEpoch + 1 < rd m.body 0 4 ∧ s.pdir.ring ≠ [] ∧ s.malWaiting 0x41 0 = false) →
    Does (.ringUpdate m) s fun t =>
      t.pdir = s.pdir ∧
      (∃ w ∈ t.net.waits, w.msg.typ = 0x41 ∧ w.msg.dst = if s.net.leader = 0 ∨ s.net.leader = s.dev.serial then m.src else s.net.leader) ∧
      Only [.net, .out, .free] s t) ∧
  -- ringPull
  (∀ (s : State) (m : MalMsg),
    (s.fresh m) →
    (0x300 ≤ m.ver ∧ m.body.length < 8) →
    Does (.ringPull m) s fun t =>
      s.replies t m 0 (memberBody s.pdir.ringEpoch s.pdir.ring) ∧ t.pdir = s.pdir ∧ Only [.net, .out, .free] s t) ∧
  -- malrothReply
  (∀ (s : State) (m : MalMsg) (w : MalWait),
    (s.net.waits.find? (fun w => w.msg.msgId == m.msgId && w.msg.dst == m.src && w.msg.typ == m.typ) = some w) →
    (∀ p ∈ s.peer m.src, p.timeBad ≠ 15) →
    (m.typ = 0x30 ∧ s.relayOf m.msgId = none) →
    Does (.malrothReply m) s fun t =>
      t.net.waits = s.net.waits.filter (fun x => !(x.msg.msgId == m.msgId)) ∧ t.net.incidents = s.net.incidents ∧ t.out = s.out ∧ Only [.net] s t) ∧
  -- malrothReplyLate
  (∀ (s : State) (m : MalMsg),
    (∀ w ∈ s.net.waits, w.msg.msgId ≠ m.msgId) →
    Does (.malrothReply m) s fun t =>
      t = s)

/-- A core that fails idle gives its logical core to a spare, or the logical core is retired; a correctable error is counted, and at the limit its row is spared; an uncorrectable error poisons its granule; a pseudo-channel, stack or die that fails is retired under a lead and waits for one otherwise; a die-to-die link that fails is down; a fenced bridge die is no longer up and its half is down, a restart made in time brings it up with its half in RESYNC, one that is late loses it; handshake timeouts, SRAM errors and the patrol act on the unit they name; every fault is recorded. -/
def Obligations.FaultsOfUnits : Prop :=
  -- coreFailSpare
  (∀ (s : State) (die cl phys j i : Nat) (x : Cluster),
    (die < 8 ∧ cl < 10 ∧ phys < 34 ∧ s.dieOk die = true) →
    (s.hw.clusters[10 * die + cl]? = some x ∧ bit x.physOk phys = true) →
    ((List.range 32).find? (fun j => x.map.getD j none == some phys) = some j) →
    ((List.range 34).find? (fun i => bit x.physOk i && i != phys && !x.map.contains (some i)) = some i) →
    (s.workOn (32 * (10 * die + cl) + j) = []) →
    Does (.coreFail die cl phys) s fun t =>
      (∃ y ∈ t.hw.clusters[10 * die + cl]?, y.map = nthUpd j (fun _ => some i) x.map ∧ bit y.physOk phys = false) ∧
      t.recorded 1 1 (faultUnit die (32 * (10 * die + cl) + j)) ∧ t.latchedU Ev.SPARE_USED die ∧ Only [.hw, .regs, .tel, .pol] s t) ∧
  -- coreFailRetired
  (∀ (s : State) (die cl phys j : Nat) (x : Cluster),
    (die < 8 ∧ cl < 10 ∧ phys < 34 ∧ s.dieOk die = true) →
    (s.hw.clusters[10 * die + cl]? = some x ∧ bit x.physOk phys = true) →
    ((List.range 32).find? (fun j => x.map.getD j none == some phys) = some j) →
    ((List.range 34).find? (fun i => bit x.physOk i && i != phys && !x.map.contains (some i)) = none) →
    (s.workOn (32 * (10 * die + cl) + j) = [] ∧ s.q.cmds = []) →
    Does (.coreFail die cl phys) s fun t =>
      (∃ y ∈ t.hw.clusters[10 * die + cl]?, y.map = nthUpd j (fun _ => none) x.map) ∧ t.recorded 1 2 (faultUnit die (32 * (10 * die + cl) + j)) ∧
      t.part.parts.length = s.part.parts.length ∧
      t.latched Ev.CORE_RETIRED_ANY) ∧
  -- hbmCe
  (∀ (s : State) (n bank row : Nat) (old : HbmRow),
    (s.stackOk n = true) →
    (((s.stack n).rows.find? fun r => r.bank == bank && r.row == row).getD { bank := bank, row := row } = old) →
    ((old.ces.filter fun x => s.now < x + 86400000000000).length + 1 < s.g F.CE_ROW_LIMIT) →
    Does (.hbmCe n bank row) s fun t =>
      (∃ r ∈ (t.stack n).rows, r = { old with ces := (old.ces.filter fun x => s.now < x + 86400000000000) ++ [s.now] }) ∧
      t.latchedU Ev.CE n ∧ t.tel.nextFault = s.tel.nextFault ∧ Only [.hw, .regs, .tel, .pol] s t) ∧
  -- hbmCeSpared
  (∀ (s : State) (n bank row : Nat) (old : HbmRow),
    (s.stackOk n = true) →
    (((s.stack n).rows.find? fun r => r.bank == bank && r.row == row).getD { bank := bank, row := row } = old) →
    (old.spared = false ∧ s.g F.CE_ROW_LIMIT ≤ (old.ces.filter fun x => s.now < x + 86400000000000).length + 1) →
    (s.spareRows n bank ≠ 0 ∧ s.leadHalf ≠ none) →
    Does (.hbmCe n bank row) s fun t =>
      (∃ r ∈ (t.stack n).rows, r.bank = bank ∧ r.row = row ∧ r.spared = true) ∧ t.spareRows n bank = s.spareRows n bank - 1 ∧
      t.boot.repairLog = s.boot.repairLog ++ [(n, bank, row)] ∧ t.recorded 5 1 (faultUnit n row) ∧ t.latchedU Ev.ROW_SPARED n ∧
      Only [.free, .hw, .boot, .regs, .tel, .pol] s t) ∧
  -- hbmUe
  (∀ (s : State) (n addr bank row : Nat),
    (s.stackOk n = true) →
    Does (.hbmUe n addr bank row) s fun t =>
      addr / 4096 ∈ (t.stack n).poisoned ∧ (∃ a, t.recorded 5 a (faultUnit n row)) ∧ t.now = s.now) ∧
  -- pcFail
  (∀ (s : State) (n pc : Nat),
    (n < 8 ∧ pc < 32 ∧ s.stackOk n = true ∧ bit (s.stack n).pcOk pc = true) →
    Does (.pcFail n pc) s fun t =>
      t.recorded 6 2 (faultUnit n pc) ∧
      (s.leadHalf ≠ none → bit (t.stack n).pcOk pc = false ∧ (t.stack n).st = .degraded ∧ (t.stack n).reason = 3) ∧
      (s.leadHalf = none → t.stack n = s.stack n ∧ t.hw.deferred = s.hw.deferred ++ [.pseudoChannel n pc] ∧ Only [.hw, .regs, .tel, .pol] s t)) ∧
  -- stackFail
  (∀ (s : State) (n : Nat),
    (n < 8 ∧ s.stackOk n = true) →
    Does (.stackFail n false) s fun t =>
      t.recorded 7 2 (faultUnit n n) ∧
      (s.leadHalf ≠ none → (t.stack n).st = .retired ∧ (t.stack n).reason = 4 ∧ (t.stack n).pcOk = 0 ∧ t.dev = s.dev) ∧
      (s.leadHalf = none → t.stack n = s.stack n ∧ t.hw.deferred = s.hw.deferred ++ [.stack n 4 false] ∧ Only [.hw, .regs, .tel, .pol] s t)) ∧
  -- dieFail
  (∀ (s : State) (n : Nat),
    (n < 8 ∧ s.dieOk n = true) →
    Does (.stackFail n true) s fun t =>
      t.recorded 7 2 (faultUnit n n) ∧ (s.leadHalf ≠ none → bit t.dev.retired n = true) ∧
      (s.leadHalf = none → t.dev = s.dev ∧ t.hw.deferred = s.hw.deferred ++ [.stack n 4 true] ∧ Only [.hw, .regs, .tel, .pol] s t)) ∧
  -- d2dLinkFail
  (∀ (s : State) (die b : Nat),
    (die < 8 ∧ b < 2 ∧ bit s.dev.dies die = true ∧ s.hw.d2dDown.contains (die, b) = false) →
    Does (.d2dLinkFail die b) s fun t =>
      t.hw.d2dDown = s.hw.d2dDown ++ [(die, b)] ∧ t.recorded 8 6 (faultUnit die (8 + b)) ∧ t.now = s.now) ∧
  -- bridgeFence
  (∀ (s : State) (b : Nat),
    (b < 2 ∧ (s.bridge b).st = .up ∧ b < s.course.halves.length ∧ b < s.hw.bridges.length) →
    Does (.bridgeFence b) s fun t =>
      (t.bridge b).st ≠ .up ∧ (t.half b).st = .down ∧ t.bridge (1 - b) = s.bridge (1 - b) ∧ t.recorded 10 3 (faultUnit (8 + b) b) ∧ t.now = s.now) ∧
  -- bridgeRestartDone
  (∀ (s : State) (b : Nat),
    (b < 2 ∧ (s.bridge b).st = .restarting ∧ b < s.course.halves.length ∧ s.hw.retireWait = false) →
    (s.now ≤ (s.bridge b).fencedAt + s.g F.BRIDGE_CFG_RESTART_S * 1000000000) →
    Does (.bridgeRestartDone b true) s fun t =>
      (t.bridge b).st = .up ∧ (t.half b).st = .resync ∧ (t.half b).resyncT = s.now ∧ t.g F.RESET_CAUSE_KIND = 2 ∧
      t.recorded 10 4 (faultUnit (8 + b) b) ∧ Only [.hw, .ftl, .course, .free, .out, .regs, .tel, .pol] s t) ∧
  -- bridgeRestartLate
  (∀ (s : State) (b : Nat) (ok : Bool),
    (b < 2 ∧ (s.bridge b).st = .restarting) →
    (ok = false ∨ (s.bridge b).fencedAt + s.g F.BRIDGE_CFG_RESTART_S * 1000000000 < s.now) →
    Does (.bridgeRestartDone b ok) s fun t =>
      (t.bridge b).st = .lost ∧ t.recorded 10 2 (faultUnit (8 + b) b) ∧ t.now = s.now) ∧
  -- bridgeLost
  (∀ (s : State) (b : Nat),
    (b < 2 ∧ (s.bridge b).st = .restarting) →
    Does (.bridgeLost b) s fun t =>
      (t.bridge b).st = .lost ∧ t.now = max s.now ((s.bridge b).fencedAt + s.g F.BRIDGE_CFG_RESTART_S * 1000000000) ∧
      t.recorded 10 2 (faultUnit (8 + b) b)) ∧
  -- handshakeMerge
  (∀ (s : State) (die unit : Nat) (x : Cluster),
    (die < 8 ∧ unit < 10 ∧ s.hw.stopped = false ∧ s.boot.halted = false) →
    (s.hw.clusters[10 * die + unit]? = some x ∧ x.mergeOk = true) →
    Does (.handshakeTimeout 2 unit die) s fun t =>
      (∃ y ∈ t.hw.clusters[10 * die + unit]?, y = { x with mergeOk := false }) ∧ t.recorded 2 2 (faultUnit die (10 * die + unit)) ∧ t.now = s.now) ∧
  -- handshakeHalf
  (∀ (s : State) (die unit : Nat),
    (die < 10 ∧ unit < 2 ∧ s.hw.stopped = false ∧ s.boot.halted = false ∧ unit < s.course.halves.length) →
    Does (.handshakeTimeout 9 unit die) s fun t =>
      (t.half unit).st = .down ∧ t.recorded 9 4 (faultUnit die unit) ∧ Only [.course, .regs, .tel, .pol] s t) ∧
  -- handshakeOther
  (∀ (s : State) (kind die unit : Nat),
    (die < 10 ∧ s.hw.stopped = false ∧ s.boot.halted = false) →
    (kind ∉ [1, 2, 3, 4, 6, 7, 8, 9, 10, 11, 12, 14]) →
    Does (.handshakeTimeout kind unit die) s fun t =>
      t.recorded kind 6 (faultUnit die unit) ∧ Only [.regs, .tel, .pol] s t) ∧
  -- sramT0
  (∀ (s : State) (die unit part : Nat) (x : Cluster),
    (s.dieOk die = true ∧ unit < 10 ∧ s.hw.clusters[10 * die + unit]? = some x) →
    Does (.sramUncorrectableError 3 die unit part) s fun t =>
      (∃ y ∈ t.hw.clusters[10 * die + unit]?, y = { x with t0Units := x.t0Units - 1 }) ∧ t.recorded 3 2 (faultUnit die (10 * die + unit)) ∧ t.sq = s.sq) ∧
  -- sramBuffer
  (∀ (s : State) (die unit part : Nat),
    (s.dieOk die = true ∧ s.hw.bufRetired.contains die = false) →
    Does (.sramUncorrectableError 4 die unit part) s fun t =>
      t.hw.bufRetired = s.hw.bufRetired ++ [die] ∧ t.recorded 4 2 (faultUnit die die) ∧ t.now = s.now) ∧
  -- hbmPatrol
  (∀ (s : State) (n : Nat),
    (s.stackOk n = true ∧ s.g F.PATROL_H ≠ 0) →
    Does (.hbmPatrol n) s fun t =>
      t.stack n = { s.stack n with patrolT := s.now } ∧ Only [.hw] s t)

/-- A joined device whose partitions are all FREE begins its retirement with RETIRE set and files an UNREACHABLE report against itself, during a bridge-die restart once its outcome is known; RETIRED follows it. -/
def Obligations.RetiringTheDevice : Prop :=
  -- deviceRetire
  (∀ (s : State),
    (s.hw.retireReq = false ∧ s.joined = true ∧ (List.range 64).all (fun p => s.pst p == .free) = true ∧ s.bridgeRestarting = false) →
    (s.net.storm = none ∧ s.net.incidents.length < 1024) →
    Does (.deviceRetire) s fun t =>
      t.hw.retireReq = true ∧ t.reg F.FLT_CTRL_RETIRE 0 255 0 0 = 1 ∧
      (∃ i ∈ t.net.incidents, i.suspect = s.dev.serial ∧ i.cls = 1 ∧ i.unit = 0xFF ∧ s.dev.serial ∈ i.reporters) ∧ t.now = s.now) ∧
  -- deviceRetireWaits
  (∀ (s : State),
    (s.hw.retireReq = false ∧ s.joined = true ∧ (List.range 64).all (fun p => s.pst p == .free) = true ∧ s.bridgeRestarting = true) →
    Does (.deviceRetire) s fun t =>
      t.hw = { s.hw with retireWait := true } ∧ t.reg F.FLT_CTRL_RETIRE 0 255 0 0 = 1 ∧ Only [.regs, .hw] s t) ∧
  -- retiresAfterRestart
  (∀ (s : State) (b : Nat),
    (b < 2 ∧ (s.bridge b).st = .restarting ∧ (s.bridge (1 - b)).st ≠ .restarting ∧ s.hw.retireWait = true) →
    (s.now ≤ (s.bridge b).fencedAt + s.g F.BRIDGE_CFG_RESTART_S * 1000000000 ∧ s.net.storm = none ∧ s.net.incidents.length < 1024) →
    Does (.bridgeRestartDone b true) s fun t =>
      t.hw.retireReq = true ∧ t.hw.retireWait = false ∧
      (∃ i ∈ t.net.incidents, i.suspect = s.dev.serial ∧ i.cls = 1 ∧ i.unit = 0xFF ∧ s.dev.serial ∈ i.reporters)) ∧
  -- deviceRetired
  (∀ (s : State),
    (s.hw.retireReq = true) →
    Does (.deviceRetired) s fun t =>
      t.reg F.FLT_CTRL_RETIRED 0 255 0 0 = 1 ∧ Only [.regs] s t)

/-- A window whose sensors all count publishes the least reading as the die's pace, the median, and a package pace no greater; a core rail moves at most 10 mV towards its target no sooner than 20 µs after its last step; a read-back within 15 mV of the target ends the step and one outside begins a mismatch, which after 1 ms halts stepping and raises the alarm; samples outside a rail's range and regulator faults raise the alarm of their rail; a junction above 95 °C lowers the setpoint by 10 mV, a stack above its thresholds raises their events. -/
def Obligations.PaceRailsAndHeat : Prop :=
  -- paceWindow
  (∀ (s : State) (die : Nat) (rs : List Nat) (ys : List Sensor),
    (die < 10 ∧ s.paceDie die = true ∧ s.hw.pins.pwrgd = true ∧ die < s.hw.winT.length ∧ die < s.hw.sensors.length) →
    (ys = (s.hw.sensors.getD die []).zipIdx.map fun e => e.1.window (rs.getD e.2 0) (median ((s.hw.sensors.getD die []).zipIdx.map fun e => rs.getD e.2 0))) →
    (ys ≠ [] ∧ ∀ y ∈ ys, y.included = true ∧ y.reading ≠ 0) →
    Does (.paceWindow die rs) s fun t =>
      t.hw.sensors.getD die [] = ys ∧ t.now = max s.now (s.hw.winT.getD die 0 + 1024) ∧ t.hw.winT.getD die 0 = t.now ∧
      t.reg F.CUR_PACE (die + 1) 255 0 0 = ((ys.map fun y => y.reading).min?).getD 0 % 2 ^ 16 ∧
      t.reg F.MEDIAN_PACE (die + 1) 255 0 0 = median ((s.hw.sensors.getD die []).zipIdx.map fun e => rs.getD e.2 0) % 2 ^ 16 ∧
      t.g F.PKG_PACE ≤ t.gu F.CUR_PACE die ∧ Only [.now, .hw, .regs, .tel, .pol] s t) ∧
  -- vcoreStep
  (∀ (s : State) (die : Nat) (r : Rail),
    (die < 10 ∧ s.hw.stopped = false ∧ s.paceDie die = true ∧ s.hw.rails[die]? = some r) →
    (r.halted = false ∧ r.readPending = false ∧ r.mv ≠ r.target) →
    Does (.vcoreStep die) s fun t =>
      t.now = max s.now (r.lastStep + 20000) ∧
      t.rail die = { r with mv := if r.mv < r.target then min (r.mv + 10) r.target else max (r.mv - 10) r.target, lastStep := t.now, readPending := true } ∧
      t.out = .pmbus die (t.rail die).mv :: s.out ∧ Only [.now, .hw, .out] s t) ∧
  -- pmbusPoll
  (∀ (s : State) (die mv ma : Nat) (r : Rail),
    (die < 10 ∧ s.hw.rails[die]? = some r) →
    Does (.pmbusPoll die mv ma true) s fun t =>
      t.reg F.VREAD_MV (die + 1) 255 0 0 = mv % 2 ^ F.VREAD_MV.bits ∧ (t.rail die).readPending = false ∧
      (mv ≤ r.mv + 15 ∧ r.mv ≤ mv + 15 → (t.rail die).mismatchSince = none ∧ (r.readPending = true ∧ r.mv = r.target → t.latchedU Ev.VSET_REACHED die)) ∧
      (¬(mv ≤ r.mv + 15 ∧ r.mv ≤ mv + 15) → (t.rail die).mismatchSince = some (r.mismatchSince.getD s.now)) ∧
      (t.rail die).mv = r.mv ∧ Only [.hw, .regs, .tel, .pol] s t) ∧
  -- pmbusSilent
  (∀ (s : State) (i mv ma : Nat) (r : Rail),
    (i < 24 ∧ s.hw.rails[i]? = some r) →
    Does (.pmbusPoll i mv ma false) s fun t =>
      t.rail i = { r with mismatchSince := some (r.mismatchSince.getD s.now) } ∧ Only [.hw] s t) ∧
  -- railMismatch
  (∀ (s : State) (i x : Nat),
    (i < 24 ∧ (s.rail i).mismatchSince = some x ∧ (s.rail i).halted = false) →
    Does (.railMismatch i) s fun t =>
      (t.rail i).halted = true ∧ t.now = max s.now (x + 1000000) ∧ (i < 10 → t.latchedU Ev.RAIL_MISMATCH i) ∧ (10 ≤ i → t.latched Ev.PKG_RAIL_MISMATCH) ∧
      Only [.now, .hw, .regs, .tel, .pol] s t) ∧
  -- railSample
  (∀ (s : State) (vs : List Nat),
    (s.hw.meas.length = 24) →
    Does (.railSample vs) s fun t =>
      t.now = max s.now (s.hw.sampleT + 1000000) ∧ t.hw.sampleT = t.now ∧
      (∀ i v : Nat, vs[i]? = some v → i < 24 → (t.hw.meas.getD i {}).value = (v : Int) ∧
        ((t.hw.meas.getD i {}).out = true ↔ v < (s.railRange i).1 ∨ (s.railRange i).2 < v) ∧
        ((t.hw.meas.getD i {}).out = true → (s.hw.meas.getD i {}).out = false → (i < 10 → t.latchedU Ev.RAIL_MISMATCH i) ∧ (10 ≤ i → t.latched Ev.PKG_RAIL_MISMATCH))) ∧
      t.hw.rails = s.hw.rails ∧ Only [.now, .hw, .regs, .tel, .pol] s t) ∧
  -- alertN
  (∀ (s : State) (ws : List Nat),
    Does (.alertN ws) s fun t =>
      (∀ i w, ws[i]? = some w → i < 24 → w ≠ 0 → (i < 10 → t.latchedU Ev.RAIL_MISMATCH i) ∧ (10 ≤ i → t.latched Ev.PKG_RAIL_MISMATCH)) ∧
      Only [.regs, .tel, .pol] s t) ∧
  -- thermalStep
  (∀ (s : State) (die : Nat) (temp : Int) (r : Rail),
    (die < 10 ∧ s.paceDie die = true ∧ s.hw.rails[die]? = some r) →
    (temp > 950) →
    Does (.thermalStep die temp) s fun t =>
      (t.rail die).target = max (s.g F.VCORE_RANGE_MIN_MV) (r.target - 10) ∧ (t.rail die).thermal = some (r.thermal.getD r.target) ∧
      (t.rail die).mv = r.mv ∧ (r.thermal ≠ none → t.now = max s.now (r.thermT + 1000000)) ∧ (r.thermal = none → t.now = s.now) ∧
      t.reg F.JUNCTION (die + 1) 255 0 0 = unsigned 16 temp % 2 ^ F.JUNCTION.bits ∧ Only [.now, .hw, .regs, .tel, .pol] s t) ∧
  -- thermalRestore
  (∀ (s : State) (die goal : Nat) (temp : Int) (r : Rail),
    (die < 10 ∧ s.paceDie die = true ∧ s.hw.rails[die]? = some r) →
    (temp ≤ 930 ∧ r.thermal = some goal) →
    Does (.thermalStep die temp) s fun t =>
      (t.rail die).target = min goal (r.target + 10) ∧ ((t.rail die).thermal = none ↔ goal ≤ r.target + 10) ∧ t.now = max s.now (r.thermT + 1000000) ∧
      Only [.now, .hw, .regs] s t) ∧
  -- hbmTemp
  (∀ (s : State) (n : Nat) (temp : Int),
    (n < 8 ∧ n < s.hw.hbmTemps.length) →
    Does (.hbmTemp n temp) s fun t =>
      t.hw.hbmTemps.getD n 0 = temp ∧ t.reg F.TEMP (n + 1) 255 0 0 = unsigned 16 temp % 2 ^ F.TEMP.bits ∧
      (s.hw.hbmTemps.getD n 0 ≤ 850 → 850 < temp → t.latchedU Ev.TEMP_HIGH n) ∧
      (s.hw.hbmTemps.getD n 0 ≤ 1050 → 1050 < temp → t.latchedU Ev.TEMP_LIMIT n) ∧ Only [.hw, .regs, .tel, .pol] s t)

/-- A measurement begins with the bank voltage and the charger off; its first step records the droop of 50 ms; its second gives capacitance and leakage and ends it, or fails it; a failed or aborted measurement, and one during which a sample shows the bank below 0.995 of its charged voltage, leaves the budget 0; a rehearsal sets rate and energy, and every sample of the bank voltage recomputes the budget; an audit asks the owner of each replica; a replica of an unreachable owner goes when KEEP_H has passed. -/
def Obligations.HoldUpAndBudget : Prop :=
  -- holdupMeasure
  (∀ (s : State),
    (s.plp.meas.phase = 0 ∧ s.g F.PLP_CTRL_HU_PRESENT ≠ 0 ∧ s.hw.stopped = false ∧ s.stepDone 0 = true) →
    Does (.holdupMeasure) s fun t =>
      t.plp.meas = { s.plp.meas with phase := 1, startT := t.now, vc0 := s.hw.bankUv } ∧ t.hw.pins.huCharge = false ∧ s.now ≤ t.now ∧
      (∀ x, s.plp.meas.sinkT = some x → x + 9950000000 ≤ t.now) ∧ Only [.now, .plp, .hw] s t) ∧
  -- measDroop
  (∀ (s : State) (uv : Nat),
    (s.plp.meas.phase = 1 ∧ 995 * s.plp.meas.vc0 ≤ 1000 * uv) →
    Does (.holdupMeasStep uv) s fun t =>
      t.now = max s.now (s.plp.meas.startT + 50000000) ∧ t.plp.meas.phase = 2 ∧ t.plp.meas.droop = s.plp.meas.vc0 - uv ∧ t.plp.meas.startT = t.now ∧
      t.plp.meas.sinkT = some t.now ∧ t.hw.bankUv = uv ∧ Only [.now, .plp, .hw] s t) ∧
  -- measDone
  (∀ (s : State) (uv d : Nat),
    (s.plp.meas.phase = 2 ∧ 995 * s.plp.meas.vc0 ≤ 1000 * uv ∧ d = 5 * (s.plp.meas.vc0 - s.plp.meas.droop - uv) - 2 * s.plp.meas.droop) →
    (d ≠ 0 ∧ d ≤ 10000000 ∧ 1000 ≤ s.plp.meas.vc0 - s.plp.meas.droop - uv) →
    Does (.holdupMeasStep uv) s fun t =>
      t.now = max s.now (s.plp.meas.startT + 20000000) ∧ t.plp.meas.phase = 0 ∧ t.plp.meas.fault = false ∧ t.plp.meas.fall = d ∧
      t.plp.meas.leak = s.plp.meas.droop ∧ t.reg F.HU_CAP 0 255 0 0 = min (100000000 / d) (2 ^ 20 - 1) ∧
      t.reg F.HU_LEAK 0 255 0 0 = min (2 * s.plp.meas.vc0 * s.plp.meas.droop / (1000 * d)) 65535 ∧ t.plp.meas.vc = s.plp.meas.vc0 ∧ t.hw.pins.huCharge = true ∧
      t.plp.budget = t.budgetNow ∧ t.latched Ev.MEAS_DONE ∧ Only [.now, .plp, .hw, .regs, .tel, .pol] s t) ∧
  -- measFails
  (∀ (s : State) (uv : Nat),
    (s.plp.meas.phase = 2 ∧ s.plp.meas.vc0 - s.plp.meas.droop ≤ uv) →
    Does (.holdupMeasStep uv) s fun t =>
      t.plp.meas.phase = 0 ∧ t.plp.meas.fault = true ∧ t.plp.budget = 0 ∧ t.latched Ev.HOLDUP_FAULT ∧ Only [.now, .free, .plp, .hw, .regs, .tel, .pol] s t) ∧
  -- measSags
  (∀ (s : State) (uv : Nat),
    (s.plp.meas.phase ≠ 0 ∧ 1000 * uv < 995 * s.plp.meas.vc0) →
    Does (.holdupMeasStep uv) s fun t =>
      t.plp.meas.phase = 0 ∧ t.plp.meas.fault = true ∧ t.plp.budget = 0 ∧ t.hw.pins.huCharge = true ∧ t.hw.bankUv = uv ∧ t.latched Ev.HOLDUP_FAULT ∧
      t.now = s.now ∧ Only [.plp, .hw, .regs, .tel, .pol] s t) ∧
  -- holdupAbort
  (∀ (s : State),
    (s.plp.meas.phase ≠ 0) →
    Does (.holdupAbort) s fun t =>
      t.plp.meas.phase = 0 ∧ t.plp.meas.fault = true ∧ t.plp.budget = 0 ∧ t.hw.pins.huCharge = true ∧ t.latched Ev.HOLDUP_FAULT ∧
      Only [.plp, .hw, .regs, .tel, .pol] s t) ∧
  -- flushRehearsal
  (∀ (s : State) (rate eb : Nat),
    (s.hw.stopped = false ∧ rate ≠ 0 ∧ s.stepDone 2 = true) →
    Does (.flushRehearsal rate eb true) s fun t =>
      t.plp.meas = { s.plp.meas with rate := rate, eb := eb, chans := s.activeChans, rehearsed := true } ∧ t.plp.budget = t.budgetNow ∧
      t.reg F.FLUSH_EB 0 255 0 0 = eb % 2 ^ F.FLUSH_EB.bits ∧ t.latched Ev.MEAS_DONE ∧ Only [.plp, .regs, .tel, .pol] s t) ∧
  -- budgetRecompute
  (∀ (s : State) (uv : Nat),
    (s.hw.stopped = false ∧ (s.plp.meas.phase = 0 ∨ 995 * s.plp.meas.vc0 ≤ 1000 * uv)) →
    Does (.budgetRecompute uv) s fun t =>
      t.hw.bankUv = uv ∧ t.plp.budget = t.budgetNow ∧ t.reg F.D_BUDGET 0 255 0 0 = min t.budgetNow (2 ^ 20 - 1) % 2 ^ F.D_BUDGET.bits ∧
      t.plp.meas = s.plp.meas ∧ Only [.hw, .plp, .regs, .tel, .pol] s t) ∧
  -- budgetSags
  (∀ (s : State) (uv : Nat),
    (s.hw.stopped = false ∧ s.plp.meas.phase ≠ 0 ∧ 1000 * uv < 995 * s.plp.meas.vc0) →
    Does (.budgetRecompute uv) s fun t =>
      t.plp.meas.phase = 0 ∧ t.plp.meas.fault = true ∧ t.plp.budget = 0 ∧ t.hw.pins.huCharge = true ∧ t.hw.bankUv = uv ∧ t.latched Ev.HOLDUP_FAULT ∧
      t.now = s.now ∧ Only [.plp, .hw, .regs, .tel, .pol] s t) ∧
  -- replicaAudit
  (∀ (s : State),
    (s.hw.stopped = false) →
    Does (.replicaAudit) s fun t =>
      t.now = max s.now (s.plp.lastAudit + s.g F.REPLICA_CFG_AUDIT_H * 3600000000000) ∧ t.plp.lastAudit = t.now ∧
      (∀ r ∈ t.plp.replicas, r.ask = none → r.remnant = false → r.unknownSince = none → r.auditT = t.now) ∧
      (∀ r ∈ s.plp.replicas, r.ask = none → r.remnant = false → r.unknownSince = none → ∃ w ∈ t.net.waits, w.msg.typ = 0x20 ∧ w.msg.dst = r.owner ∧ w.ctx = r.id ∧ w.why = 3) ∧
      Only [.now, .plp, .net, .out, .free] s t) ∧
  -- replicaKeepExpire
  (∀ (s : State) (owner h : Nat) (r : Replica),
    (s.plp.replicas.find? (fun r => r.owner == owner && r.handle == h && r.unknownSince.isSome) = some r) →
    Does (.replicaKeepExpire owner h) s fun t =>
      t.now = max s.now (r.unknownSince.getD 0 + s.g F.REPLICA_CFG_KEEP_H * 3600000000000) ∧
      (∀ x ∈ t.plp.replicas, ¬(x.owner = owner ∧ x.handle = h ∧ x.unknownSince ≠ none)) ∧ Only [.now, .plp, .ftl] s t)

/-- At the power-fail point all work ends, every port goes down and a flush begins with FLUSH_BUSY; the end of the flush releases FLUSH_BUSY no sooner than its bytes allow; a return of power during it lets it end first; over-temperature stops everything and ends a flush; the fall of power good leaves the pins low and no command; power good makes a cold reset and SYS_RST_N low a warm one, neither with a command, and only the supervisor queues stand; at the release of SYS_RST_N the boot begins with step 0. -/
def Obligations.PowerAndResets : Prop :=
  -- powerFail
  (∀ (s : State),
    (s.hw.stopped = false ∧ s.hw.pins.pwrgd = true) →
    Does (.powerFail) s fun t =>
      t.hw.stopped = true ∧ t.plp.flush.passed = true ∧ t.plp.flush.active = true ∧ t.plp.flush.startT = s.now ∧ t.hw.pins.flushBusy = true ∧
      t.hw.pins.pfailN = false ∧ t.q.cmds = [] ∧ (∀ x ∈ t.q.queues, x.st = .disabled) ∧ (∀ p ∈ t.dlv.ports, p.st = .down) ∧ t.dlv.pushes = [] ∧
      t.att.attns = [] ∧ t.sq.granules = s.sq.granules ∧ t.sq.leaves = s.sq.leaves ∧ t.out = s.out ∧ t.now = s.now) ∧
  -- flushDone
  (∀ (s : State),
    (s.plp.flush.active = true ∧ s.plp.flush.returned = false) →
    Does (.flushDone) s fun t =>
      t.plp.flush.active = false ∧ t.plp.flush.done = true ∧ t.hw.pins.flushBusy = false ∧
      t.now = max s.now (s.plp.flush.startT + 500000 + if s.g F.FLUSH_RATE = 0 then 0 else s.plp.flush.bytes * 1000 / max 1 (s.g F.FLUSH_RATE)) ∧
      t.plp.flush.ns = t.now - s.plp.flush.startT) ∧
  -- powerReturnFlush
  (∀ (s : State),
    (s.plp.flush.passed = true ∧ s.hw.stopped = true ∧ s.plp.flush.active = true) →
    Does (.powerReturnFlush) s fun t =>
      t.plp.flush = { s.plp.flush with returned := true } ∧ t.hw.pins = { s.hw.pins with pfailN := true } ∧ t.hw.stopped = true ∧ Only [.plp, .hw] s t) ∧
  -- thermtrip
  (∀ (s : State),
    (s.hw.pins.pwrgd = true) →
    ((∃ x ∈ s.hw.temps, x ≥ 1050) ∨ ∃ x ∈ s.hw.hbmTemps, x ≥ 1100) →
    Does (.thermtrip) s fun t =>
      t.hw.stopped = true ∧ t.hw.pins.thermtrip = true ∧ t.hw.pins.flushBusy = false ∧ t.plp.flush.active = false ∧ t.q.cmds = [] ∧
      (∀ p ∈ t.dlv.ports, p.st = .down) ∧ t.now = s.now) ∧
  -- pwrgdFall
  (∀ (s : State),
    (s.hw.pins.pwrgd = true) →
    (∀ p ∈ s.part.parts, p.st ≠ .clearing ∧ p.st ≠ .scrubbing) →
    Does (.pwrgdFall) s fun t =>
      t.hw.pins.pwrgd = false ∧ t.hw.pins.sysRstN = false ∧ t.hw.pins.flushBusy = false ∧ t.plp.flush.active = false ∧ t.q.cmds = [] ∧ t.q.queues = State.reset.q.queues ∧
      t.net.conns = [] ∧ t.dev = s.dev ∧ t.boot.slots = s.boot.slots ∧ (∀ c ∈ t.tier.copies, c.tier = 3)) ∧
  -- powerGood
  (∀ (s : State),
    (s.hw.pins.pwrgd = false) →
    (∀ p ∈ s.part.parts, p.st ≠ .clearing ∧ p.st ≠ .scrubbing) →
    Does (.powerGood) s fun t =>
      t.hw.pins.pwrgd = true ∧ t.hw.pins.pfailN = true ∧ t.now = 0 ∧ t.g F.RESET_CAUSE_KIND = 0 ∧ t.hw.stopped = false ∧ t.q.cmds = [] ∧ t.q.queues = State.reset.q.queues ∧
      t.boot.cold = true ∧ t.g F.TIME_STATE_STATE = 1 ∧ t.dev = s.dev ∧ (∀ c ∈ t.tier.copies, c.tier = 3) ∧
      (t.boot.begun = true ↔ s.hw.pins.sysRstN = true)) ∧
  -- warmReset
  (∀ (s : State),
    (s.hw.pins.pwrgd = true ∧ s.plp.flush.active = false) →
    (∀ p ∈ s.part.parts, p.st ≠ .clearing ∧ p.st ≠ .scrubbing) →
    Does (.warmReset) s fun t =>
      t.hw.pins.sysRstN = false ∧ t.now = s.now ∧ t.g F.RESET_CAUSE_KIND = 1 ∧ t.hw.stopped = false ∧ t.q.cmds = [] ∧ t.q.queues = State.reset.q.queues ∧ t.boot.cold = false ∧
      t.boot.begun = false ∧ t.tel.faults = s.tel.faults ∧ t.dev = s.dev ∧ (∀ c ∈ t.tier.copies, c.tier = 3)) ∧
  -- warmResetInFlush
  (∀ (s : State),
    (s.hw.pins.pwrgd = true ∧ s.plp.flush.active = true) →
    Does (.warmReset) s fun t =>
      t.hw.pins = { s.hw.pins with sysRstN := false } ∧ t.plp.flush = { s.plp.flush with returned := true } ∧ Only [.hw, .plp] s t) ∧
  -- sysRstNRelease
  (∀ (s : State),
    (s.hw.pins.pwrgd = true ∧ s.boot.begun = false ∧ s.boot.halted = false ∧ s.hw.stopped = false) →
    Does (.sysRstNRelease) s fun t =>
      t.hw.pins = { s.hw.pins with sysRstN := true } ∧ t.boot.begun = true ∧ t.stepState 0 = stepRunning ∧ (∀ n, 0 < n → n < 10 → t.stepState n = 0) ∧
      Only [.hw, .boot, .regs] s t)

/-- A program that ends well maps the units in its block; one that fails makes the block bad; a read counts for its block's limit and clears the die's silence; a patrol read also notes its time; an erase that ends well adds the wear of its mode; a missing status counts; units read with a wrong CRC are found so; a class P page fetched back from its replica is a good copy again. -/
def Obligations.FlashProgramsReadsErases : Prop :=
  -- nandProgramDone
  (∀ (s : State) (ch tg b : Nat) (d : NDie) (x : SuperBlk),
    (s.ndie ch tg = some d) →
    (s.ftl.sbs.find? (fun x => x.members.contains (ch, tg, b)) = some x) →
    Does (.nandProgramDone ch tg b true) s fun t =>
      (∀ u ∈ s.ftl.units, s.unitAt u = some (ch, tg, b) → u.to_ = none → ∃ v ∈ t.ftl.units, v.lua = u.lua ∧ v.mapped = true) ∧
      (∃ y ∈ t.ndie ch tg, y = { d with noStatus := 0 }) ∧ Only [.ftl, .out, .free, .plp, .net, .regs] s t) ∧
  -- nandProgramFailed
  (∀ (s : State) (ch tg b : Nat) (d : NDie) (x : SuperBlk),
    (s.ndie ch tg = some d) →
    (s.ftl.sbs.find? (fun x => x.members.contains (ch, tg, b)) = some x) →
    Does (.nandProgramDone ch tg b false) s fun t =>
      (∃ y ∈ t.ndie ch tg, b ∈ y.bad ∧ y.peFails = d.peFails ++ [s.now]) ∧ Only [.ftl, .out, .free, .regs] s t) ∧
  -- nandReadDone
  (∀ (s : State) (ch tg b step bits lua : Nat) (d : NDie),
    (s.ndie ch tg = some d ∧ d.serves = true) →
    (1 ≤ step ∧ step ≤ 4) →
    Does (.nandReadDone ch tg b step bits lua) s fun t =>
      (t.nblock ch tg b).reads = (s.nblock ch tg b).reads + 1 ∧ (t.nblock ch tg b).wear = (s.nblock ch tg b).wear ∧
      (2 ≤ step ∨ (s.nblock ch tg b).refresh = true → (t.nblock ch tg b).refresh = true) ∧ (∃ y ∈ t.ndie ch tg, y.noStatus = 0 ∧ y.st = d.st) ∧
      t.ftl.units = s.ftl.units ∧ Only [.ftl, .regs] s t) ∧
  -- nandReadCrc
  (∀ (s : State) (ch tg b bits lua : Nat) (d : NDie) (u : NUnit),
    (s.ndie ch tg = some d ∧ d.serves = true) →
    (u ∈ s.ftl.units ∧ u.lua = lua ∧ u.what = 0) →
    Does (.nandReadDone ch tg b 6 bits lua) s fun t =>
      t.latched Ev.CRC_ERROR ∧ t.latchedU Ev.SC_CRC_ERROR d.bridge ∧ t.now = s.now) ∧
  -- nandReadFailed
  (∀ (s : State) (ch tg b bits lua : Nat) (d : NDie),
    (s.ndie ch tg = some d ∧ d.st = .failed) →
    (∀ u ∈ s.ftl.units, u.lua = lua → s.unitGone3 u = false) →
    Does (.nandReadDone ch tg b 4 bits lua) s fun t =>
      t.reg F.DIE_PARITY_RD (ch + 1) 255 tg 0 = (s.bumpUS F.DIE_PARITY_RD ch tg).reg F.DIE_PARITY_RD (ch + 1) 255 tg 0 ∧
      t.ndie ch tg = some d ∧ t.ftl.units = s.ftl.units ∧ Only [.ftl, .regs] s t) ∧
  -- patrolRead
  (∀ (s : State) (ch tg b step bits lua : Nat) (d : NDie),
    (s.ndie ch tg = some d ∧ d.serves = true) →
    (1 ≤ step ∧ step ≤ 4 ∧ s.g F.FTL_CTRL_DRONE_EN ≠ 0 ∧ s.paused 0x14 (ch + 1) = false ∧ (s.nblock ch tg b).inUse = true ∧
      s.bgTurn d.bridge false = true) →
    Does (.patrolRead ch tg b step bits lua) s fun t =>
      (t.nblock ch tg b).reads = (s.nblock ch tg b).reads + 1 ∧ (t.nblock ch tg b).patrolT = s.now ∧ t.ftl.units = s.ftl.units ∧ Only [.ftl, .part, .regs] s t) ∧
  -- nandEraseDone
  (∀ (s : State) (ch tg b since : Nat) (x : SuperBlk),
    (s.ftl.sbs.find? (fun x => x.members.contains (ch, tg, b)) = some x ∧ x.erasing = some since) →
    (∀ m ∈ s.tier.moves, m.srcTier = 3 → since < m.startT) →
    Does (.nandEraseDone ch tg b true) s fun t =>
      (t.nblock ch tg b).wear = (s.nblock ch tg b).wear + (if x.pslc then 1 else 10) ∧ (t.nblock ch tg b).reads = 0 ∧
      (t.nblock ch tg b).refresh = false ∧ Only [.ftl, .out, .free] s t) ∧
  -- nandStatusTimeout
  (∀ (s : State) (ch tg : Nat) (d : NDie),
    (s.ndie ch tg = some d ∧ d.serves = true) →
    Does (.nandStatusTimeout ch tg) s fun t =>
      t.ndie ch tg = some { d with noStatus := d.noStatus + 1 } ∧ t.ftl.units = s.ftl.units ∧ Only [.ftl] s t) ∧
  -- classPRestore
  (∀ (s : State) (p n : Nat) (x : Page) (l : Leaf),
    (s.page p n = some x ∧ s.leafAt p n = some l ∧ s.restoring p n = true ∧ s.malWaiting 0x20 (leafCtx l.part l.serial) = false) →
    (∃ c ∈ s.tier.copies, c.part = p ∧ c.serial = n ∧ c.tier = 3 ∧ c.die = 15) →
    Does (.classPRestore p n true) s fun t =>
      (∃ c ∈ t.tier.copies, c.part = p ∧ c.serial = n ∧ c.tier = 3 ∧ c.good = true) ∧
      t.reg F.RESTORES 0 255 0 0 = (s.bump F.RESTORES).reg F.RESTORES 0 255 0 0 ∧ t.sq = s.sq ∧ t.now = s.now)

/-- A fold marks the rows folded and sends every unit of them to its place in TLC; garbage collection is on below GC_LOW until GC_HIGH; static levelling and a refresh close the superblock they empty, a refresh clearing its blocks' flags; the pSLC target follows the used capacity each second; a row of a die that failed or drains is relocated; a die whose last unit has gone is RETIRED. -/
def Obligations.FlashUpkeep : Prop :=
  -- fold
  (∀ (s u : State) (b k : Nat) (x y : SuperBlk),
    (argMin (fun (x : SuperBlk) => (x.seqNo : Int)) (s.ftl.sbs.filter fun x =>
      x.bridge == b && x.set == k && x.pslc && decide (x.foldable > 0) && !s.paused 0x13 (b + 1) && s.bgMay b s.foldUrgent) = some x) →
    (∀ v ∈ s.ftl.units, v.inSb x = true → v.mapped = true) →
    (∃ v ∈ s.ftl.units, v.inSb x = true ∧ v.to_ = none ∧ x.folded ≤ v.group / x.rowGroups ∧ v.group / x.rowGroups < x.folded + x.foldable) →
    ((s.setSb x.bridge x.set x.num fun y => { y with folded := y.folded + x.foldable }).foldTarget x = some (u, y)) →
    Does (.fold b k) s fun t =>
      (∀ v ∈ s.ftl.units, v.inSb x = true → v.to_ = none → x.folded ≤ v.group / x.rowGroups → v.group / x.rowGroups < x.folded + x.foldable →
        ∃ w ∈ t.ftl.units, w.lua = v.lua ∧ w.to_ ≠ none) ∧ t.ftl.units.length = s.ftl.units.length ∧ t.tier = s.tier ∧ Only [.ftl, .out, .part] s t) ∧
  -- gcRun
  (∀ (s : State) (b k : Nat) (x : StripeSet),
    (s.sset b k = some x) →
    Does (.gcRun b k) s fun t =>
      (∃ y ∈ t.sset b k, y.gc = (x.st != 3 && (decide (s.freeSb b k < s.gcMarks.1) || (x.gc && decide (s.freeSb b k < s.gcMarks.2)))) ∧ y.st = x.st) ∧
      t.ftl.units.length = s.ftl.units.length ∧ Only [.ftl, .out, .free, .part] s t) ∧
  -- refresh
  (∀ (s : State) (ch tg b : Nat) (x : SuperBlk),
    ((s.nblock ch tg b).refresh = true ∧ s.paused 0x13 (ch / 16 + 1) = false) →
    (s.ftl.sbs.find? (fun x => x.members.contains (ch, tg, b)) = some x ∧ x.erasing = none ∧ s.numbered x ∧ s.bgTurn x.bridge false = true) →
    Does (.refresh ch tg b) s fun t =>
      (∃ y ∈ t.ftl.sbs, y.bridge = x.bridge ∧ y.set = x.set ∧ y.num = x.num ∧ y.open_ = false) ∧ t.ftl.units.length = s.ftl.units.length ∧
      t.reg F.REFRESHES 0 255 0 0 = (s.bump F.REFRESHES).reg F.REFRESHES 0 255 0 0 ∧ Only [.ftl, .out, .free, .part, .regs] s t) ∧
  -- staticLevel
  (∀ (s : State) (b k : Nat) (d : NDie) (m : NBlock) (x : SuperBlk),
    (s.g F.FTL_CTRL_STATIC_WL_EN ≠ 0 ∧ s.bgTurn b false = true) →
    (((s.members b k).filter (·.serves)).find? (fun d => decide (s.leastWear d + s.g F.WEAR_SPREAD < maxBy (·.wear) (s.usedBlocks d))) = some d) →
    (argMin (fun (b : NBlock) => (b.wear : Int)) ((s.usedBlocks d).filter (·.inUse)) = some m) →
    (s.ftl.sbs.find? (fun x => x.members.contains (m.chan, m.target, m.num)) = some x ∧ x.erasing = none ∧ s.numbered x) →
    Does (.staticLevel b k) s fun t =>
      (∃ y ∈ t.ftl.sbs, y.bridge = x.bridge ∧ y.set = x.set ∧ y.num = x.num ∧ y.open_ = false) ∧ t.ftl.units.length = s.ftl.units.length ∧
      Only [.ftl, .out, .free, .part] s t) ∧
  -- pslcTargetRecompute
  (∀ (s : State) (b : Nat),
    (b < 2 ∧ b < s.ftl.targets.length ∧ b < s.ftl.targetT.length) →
    Does (.pslcTargetRecompute b) s fun t =>
      t.now = max s.now (s.ftl.targetT.getD b 0 + 1000000000) ∧ t.ftl.targetT.getD b 0 = t.now ∧ t.ftl.targets.getD b 0 = s.pslcTarget b ∧
      Only [.now, .ftl, .out, .free, .regs, .tel, .pol] s t) ∧
  -- rebuildRow
  (∀ (s : State) (b k : Nat) (r : Nat × Nat × Nat) (y : StripeSet) (x : SuperBlk),
    (argMin (fun (r : Nat × Nat × Nat) => ((r.1 * 2 ^ 20 + r.2.2 : Nat) : Int)) (s.rowsLeft b k) = some r) →
    (s.sset b k = some y ∧ y.st ≠ 3 ∧ s.sbOf b k r.2.1 = some x) →
    (s.cannotSupply x (if x.pslc then r.2.2 else r.2.2 / 3) < 2 ∧ s.bgTurn b true = true) →
    Does (.rebuildRow b k true) s fun t =>
      t = s.relocateAll ((s.ftl.units.filter fun u => u.inSb x && u.mapped && u.to_.isNone && u.group / x.rowGroups == r.2.2 &&
          (s.unitAt u).any fun m => (s.ndie m.1 m.2.1).any fun d => d.st == .draining) ++
        s.ftl.units.filter fun u => u.inSb x && u.mapped && u.to_.isNone && u.group / x.rowGroups == r.2.2 &&
          (s.unitAt u).any fun m => (s.ndie m.1 m.2.1).any fun d => d.st == .failed) false true ∧
      t.ftl.units.length = s.ftl.units.length ∧
      Only [.ftl, .out, .free, .part] s t) ∧
  -- drainDone
  (∀ (s : State) (ch tg : Nat) (d : NDie),
    (s.ndie ch tg = some d ∧ (d.st = .draining ∨ d.st = .failed)) →
    (∀ u ∈ s.ftl.units, onDie ch tg (s.unitAt u) = false ∧ onDie ch tg (s.unitTo u) = false) →
    Does (.drainDone ch tg) s fun t =>
      (∃ y ∈ t.ndie ch tg, y.st = .retired) ∧ t.latched Ev.NDIE_RETIRED ∧ (d.st = .failed → t.latched Ev.REBUILD_DONE) ∧ t.ftl.units = s.ftl.units ∧
      Only [.ftl, .regs, .tel, .pol] s t)

/-- The spare engine of a bridge die takes over the first channel whose engine fails, and its fault is recorded; a channel that fails is marked failed; a die that meets a criterion of failure enters FAILED and its rebuild starts; an active die that is worn out drains. -/
def Obligations.FlashFailures : Prop :=
  -- channelEngineFail
  (∀ (s : State) (c : Nat),
    (c < 32 ∧ (∀ x ∈ s.ftl.chans, x.num = c → x.st ≠ 2) ∧ s.ftl.spareUsed.contains (c / 16) = false) →
    Does (.channelEngineFail c) s fun t =>
      t.ftl.spareUsed = s.ftl.spareUsed ++ [c / 16] ∧ (∀ x ∈ t.ftl.chans, x.num = c → x.st = 1) ∧ t.recorded 12 1 (faultUnit (8 + c / 16) c) ∧
      t.latchedU Ev.SPARE_ENGINE c ∧ t.ftl.dies = s.ftl.dies ∧ Only [.ftl, .regs, .tel, .pol] s t) ∧
  -- channelFail
  (∀ (s : State) (c : Nat),
    (c < 32 ∧ ∀ x ∈ s.ftl.chans, x.num = c → x.st ≠ 2) →
    Does (.channelFail c) s fun t =>
      (∀ x ∈ t.ftl.chans, x.num = c → x.st = 2) ∧ t.recorded 12 2 (faultUnit (8 + c / 16) c) ∧ Only [.ftl, .out, .free, .regs, .tel, .pol] s t) ∧
  -- dieFail
  (∀ (s : State) (ch tg reason : Nat) (d : NDie),
    (s.ndie ch tg = some d ∧ d.serves = true) →
    (reason = 2 ∨ (reason = 1 ∧ 2 ≤ d.noStatus)) →
    Does (.dieFail ch tg reason) s fun t =>
      (∃ y ∈ t.ndie ch tg, y.st = .failed) ∧ t.recorded 12 2 (faultUnit (8 + d.bridge) (ch * 16 + tg)) ∧ t.latched Ev.DIE_FAILED ∧
      t.latched Ev.REBUILD_START ∧ Only [.ftl, .out, .free, .regs, .tel, .pol] s t) ∧
  -- dieRetireStart
  (∀ (s : State) (ch tg : Nat) (d : NDie),
    (s.ndie ch tg = some d ∧ d.st = .active ∧ s.wornOut d = true) →
    Does (.dieRetireStart ch tg) s fun t =>
      (∃ y ∈ t.ndie ch tg, y.st = .draining) ∧ t.ftl.units = s.ftl.units ∧ Only [.ftl, .regs, .tel, .pol] s t)

/-- A half whose Shuarn starts enters RESYNC, and STANDBY once it has caught up with a lead; a half that may claim begins a claim round under the highest epoch plus 1, at its start, at a poll or after its back-off, and at the last epoch the round fails with HEADLESS; a fenced half that sees a lead under a higher epoch enters RESYNC; an arbiter grants a claim above its epoch when its lease is free, and no other; a majority in time makes the half LEAD under the epoch claimed, publishes it, issues the commands begun and not committed again on its own queue and holds the others of the old lead's queue as never submitted; a claim without one releases what it won and backs off; the lead renews each 25 µs the arbiters it holds, and no other; a lease that expires is free; a lead without a majority for 75 µs is FENCED and releases its arbiters; a watchdog takes its half DOWN and a headless millisecond raises HEADLESS; a mirrored record is committed at its acknowledgement, or after 20 µs with the standby set to RESYNC. -/
def Obligations.CourseAndLead : Prop :=
  -- shuarnStart
  (∀ (s : State) (h : Nat),
    (h < 2 ∧ h < s.course.halves.length ∧ (s.half h).st = .down ∧ (s.half h).loaded = true ∧ s.bridgeUp h = true) →
    (s.boot.begun = true ∧ s.boot.halted = false ∧ s.hw.stopped = false) →
    (s.boot.settled.contains (0, 0) = true ∧ s.boot.settled.contains (0, 1) = true) →
    Does (.shuarnStart h) s fun t =>
      (t.half h).st = .resync ∧ (t.half h).resyncT = s.now ∧ (t.half h).epoch = max (s.half h).epoch s.topEpoch ∧ t.half (1 - h) = s.half (1 - h) ∧
      t.now = s.now ∧ Only [.course, .boot, .regs, .tel, .pol] s t) ∧
  -- journalCaughtUp
  (∀ (s : State) (h : Nat),
    (h < 2 ∧ (s.half h).st = .resync ∧ s.holdsLead (1 - h) = true ∧ h < s.course.halves.length) →
    Does (.journalCaughtUp h) s fun t =>
      t.half h = { s.half h with st := .standby, synced := true, lag := 0, seq := s.course.nextRec - 1 } ∧ t.half (1 - h) = s.half (1 - h) ∧
      t.course.arbs = s.course.arbs ∧ t.course.journal = s.course.journal ∧ Only [.course] s t) ∧
  -- claimRound
  (∀ (s : State) (h : Nat),
    (s.mayClaim h = true ∧ s.topEpoch < 2 ^ 32 - 1 ∧ h < s.course.halves.length) →
    ∀ i ∈ [Instr.claimRound h, .standbyPoll h],
      Does i s fun t => (t.half h).st = .claiming ∧ (t.half h).claimE = s.topEpoch + 1 ∧ (t.half h).claimT = s.now ∧
        (t.half h).backoffEnd = 0 ∧
        t.half (1 - h) = s.half (1 - h) ∧ t.course.arbs = s.course.arbs ∧ Only [.course, .regs] s t) ∧
  -- standbyResync
  (∀ (s : State) (h : Nat),
    (h < 2 ∧ (s.half h).st = .fenced ∧ s.holdsLead (1 - h) = true ∧ (s.half h).epoch < (s.half (1 - h)).epoch) →
    Does (.standbyPoll h) s fun t =>
      t.half h = { s.half h with st := .resync, synced := false, stale := false, resyncT := s.now, epoch := (s.half (1 - h)).epoch } ∧
      t.half (1 - h) = s.half (1 - h) ∧ t.course.arbs = s.course.arbs ∧ Only [.course] s t) ∧
  -- claimAtTheLast
  (∀ (s : State) (h : Nat) (i : Instr),
    (i = .claimRound h ∨ i = .standbyPoll h) →
    (s.mayClaim h = true ∧ 2 ^ 32 - 1 ≤ s.topEpoch ∧ h < s.course.halves.length) →
    Does i s fun t =>
      (t.half h).st = (s.half h).st ∧ t.latched Ev.HEADLESS ∧ (t.half h).backoffEnd = s.now + (if h = 0 then 5000 else 15000) ∧
      Only [.course, .regs, .tel, .pol] s t) ∧
  -- claimStartTimeout
  (∀ (s : State) (h : Nat),
    (s.course.everLed = false) →
    (argMin (fun h => (((s.half h).resyncT : Nat) : Int)) ([0, 1].filter fun h => (s.half h).st == .resync) = some h) →
    Does (.claimStartTimeout) s fun t =>
      t.now = max s.now ((s.half h).resyncT + 50000000) ∧
      ((s.reach ((s.half h).resyncT + 50000000)).mayClaim h = true → s.topEpoch < 2 ^ 32 - 1 → (t.half h).st = .claiming ∧ (t.half h).claimT = t.now) ∧
      ((s.reach ((s.half h).resyncT + 50000000)).mayClaim h = false → t.course = s.course) ∧ Only [.now, .course, .regs, .tel, .pol] s t) ∧
  -- arbiterClaim
  (∀ (s : State) (die h e : Nat),
    (h < 2 ∧ s.arbDies.contains die = true ∧ (s.half h).st = .claiming ∧ (s.half h).claimE = e ∧ die < s.course.arbs.length) →
    Does (.arbiterClaim die h e) s fun t =>
      (s.arbFree die = true ∧ (s.arb die).epoch < e → t.arb die = ⟨some h, e, s.now + 100000⟩ ∧ (∀ d, d ≠ die → t.arb d = s.arb d)) ∧
      (¬(s.arbFree die = true ∧ (s.arb die).epoch < e) → t = s) ∧ Only [.course] s t) ∧
  -- claimGranted
  (∀ (s : State) (h : Nat),
    (h < 2 ∧ (s.half h).st = .claiming ∧ s.majority (s.heldBy h (s.half h).claimE).length = true ∧ s.now ≤ (s.half h).claimT + 2000) →
    (s.hw.deferred = [] ∧ h < s.course.halves.length) →
    Does (.claimGranted h) s fun t =>
      (t.half h).st = .lead ∧ (t.half h).epoch = (s.half h).claimE ∧ (t.half h).lastRenew = s.now ∧ t.course.pubEpoch = (s.half h).claimE ∧
      t.course.headlessSince = none ∧ t.course.everLed = true ∧ t.time.primary = (if h ∈ s.time.tbLost then s.time.primary else h) ∧ t.latched Ev.FAILOVER ∧ t.course.mirror = [] ∧ t.now = s.now ∧
      t.half (1 - h) = s.half (1 - h) ∧ t.course.arbs = s.course.arbs ∧ t.course.headlessRaised = false ∧
      (∀ r ∈ t.course.journal, r ∈ s.course.journal ∧ r.committed = true) ∧ (∀ y ∈ t.q.cmds, y.q ≠ 65537 - h) ∧
      (∀ c, s.cmd c.uid = some c → 65536 ≤ c.q → (∃ r ∈ s.course.journal, r.cmd = c.uid ∧ r.begun = true ∧ r.committed = false) →
        ∃ y ∈ t.cmd c.uid, y.q = 65536 + h ∧ y.st = .waiting ∧ y.phase = 0 ∧ y.entry = c.entry)) ∧
  -- claimTimeout
  (∀ (s : State) (h : Nat),
    (h < 2 ∧ (s.half h).st = .claiming) →
    Does (.claimTimeout h) s fun t =>
      t.now = max s.now ((s.half h).claimT + 2000) ∧ (t.half h).st = (if (s.half h).synced then .standby else .resync) ∧
      (t.half h).backoffEnd = t.now + (if h = 0 then 5000 else 15000) ∧ (∀ a ∈ t.course.arbs, a.holder ≠ some h) ∧
      (∀ d, (s.arb d).holder ≠ some h → t.arb d = s.arb d) ∧ t.half (1 - h) = s.half (1 - h) ∧ Only [.now, .course] s t) ∧
  -- claimBackoff
  (∀ (s : State) (h : Nat),
    (h < 2 ∧ (s.half h).backoffEnd ≠ 0 ∧ ((s.half h).st = .resync ∨ (s.half h).st = .standby)) →
    Does (.claimBackoff h) s fun t =>
      t.now = max s.now (s.half h).backoffEnd ∧
      ((s.reach (s.half h).backoffEnd).mayClaim h = true → s.topEpoch < 2 ^ 32 - 1 → (t.half h).st = .claiming ∧ (t.half h).claimE = s.topEpoch + 1) ∧
      ((s.reach (s.half h).backoffEnd).mayClaim h = false → (t.half h).st = (s.half h).st ∧ (t.half h).backoffEnd = 0) ∧
      Only [.now, .course, .regs, .tel, .pol] s t) ∧
  -- leaseRenew
  (∀ (s : State) (h : Nat),
    (h < 2 ∧ (s.half h).st = .lead) →
    Does (.leaseRenew h) s fun t =>
      t.now = max s.now ((s.half h).lastRenew + 25000) ∧
      (∀ d ∈ (s.reach ((s.half h).lastRenew + 25000)).heldBy h (s.half h).epoch, d < s.course.arbs.length → t.arb d = { s.arb d with expiry := t.now + 100000 }) ∧
      (∀ d, d ∉ (s.reach ((s.half h).lastRenew + 25000)).heldBy h (s.half h).epoch → t.arb d = s.arb d) ∧
      (s.majority ((s.reach ((s.half h).lastRenew + 25000)).heldBy h (s.half h).epoch).length = true → (t.half h).lastRenew = t.now) ∧
      (s.majority ((s.reach ((s.half h).lastRenew + 25000)).heldBy h (s.half h).epoch).length = false → t.half h = s.half h) ∧ Only [.now, .course] s t) ∧
  -- arbiterExpire
  (∀ (s : State) (d : Nat),
    (d < 8 ∧ (s.arb d).holder ≠ none) →
    Does (.arbiterExpire d) s fun t =>
      t.now = max s.now (s.arb d).expiry ∧ (t.arb d).holder = none ∧ (t.arb d).epoch = (s.arb d).epoch ∧ (∀ e, e ≠ d → t.arb e = s.arb e) ∧
      (t.leadHalf = none → t.course.headlessSince ≠ none) ∧ Only [.now, .course] s t) ∧
  -- leadFence
  (∀ (s : State) (h : Nat),
    (h < 2 ∧ (s.half h).st = .lead) →
    Does (.leadFence h) s fun t =>
      (t.half h).st = .fenced ∧ (∀ a ∈ t.course.arbs, a.holder ≠ some h) ∧ (∀ d, (s.arb d).holder ≠ some h → t.arb d = s.arb d) ∧
      (t.leadHalf = none → t.course.headlessSince ≠ none) ∧ t.recorded 9 3 (faultUnit (8 + h) h) ∧
      ((s.half h).stale = true → t.now = s.now) ∧ ((s.half h).stale = false → t.now = max s.now ((s.half h).lastRenew + 75000)) ∧
      Only [.now, .course, .regs, .tel, .pol] s t) ∧
  -- halfWatchdog
  (∀ (s : State) (h : Nat),
    (h < 2 ∧ (s.half h).st ≠ .down) →
    Does (.halfWatchdog h) s fun t =>
      (t.half h).st = .down ∧ (t.half h).loaded = (s.half h).loaded ∧ (t.half h).synced = false ∧ t.recorded 9 4 (faultUnit (8 + h) h) ∧ ((s.half h).st = .standby → t.latched Ev.STANDBY_LOST) ∧
      t.half (1 - h) = s.half (1 - h) ∧ Only [.course, .regs, .tel, .pol] s t) ∧
  -- mirrorRecord
  (∀ (s : State) (n h : Nat) (m : MirrorWait),
    (s.leadHalf = some h ∧ s.course.mirror.find? (fun m => m.num == n) = some m) →
    Does (.mirrorRecord n) s fun t =>
      (∀ r ∈ t.course.journal, r.num = n → r.committed = true) ∧ (∀ r ∈ s.course.journal, r.num ≠ n → r ∈ t.course.journal) ∧
      t.course.mirror = s.course.mirror.filter (fun m => !(m.num == n)) ∧
      t.course.journal.length = s.course.journal.length ∧ Only [.course] s t) ∧
  -- mirrorTimeout
  (∀ (s : State) (h : Nat) (m : MirrorWait),
    (s.leadHalf = some h ∧ argMin (fun (m : MirrorWait) => ((m.sent : Nat) : Int)) s.course.mirror = some m) →
    (1 - h < s.course.halves.length) →
    Does (.mirrorTimeout) s fun t =>
      t.now = max s.now (m.sent + 20000) ∧ t.course.mirror = [] ∧ (t.half (1 - h)).st = .resync ∧ t.latched Ev.STANDBY_LOST ∧
      (∀ x ∈ s.course.mirror, ∀ r ∈ t.course.journal, r.num = x.num → r.committed = true) ∧ Only [.now, .course, .regs, .tel, .pol] s t) ∧
  -- headlessTimeout
  (∀ (s : State) (x : Nat),
    (s.course.headlessSince = some x ∧ s.course.headlessRaised = false ∧ (s.reach (x + 1000000)).leadHalf = none) →
    Does (.headlessTimeout) s fun t =>
      t.now = max s.now (x + 1000000) ∧ t.latched Ev.HEADLESS ∧ t.course = { s.course with headlessRaised := true } ∧
      Only [.now, .course, .regs, .tel, .pol] s t)

/-- A read is answered with the window's value and clears the RC fields it reads; a read of the lower word of a 64-bit register latches the upper word; a write of a plain field leaves its bits with the value written and nothing else changed, but for the share a group has in the window under way and the filling of a policer up to now; a write of the words that say which ports PTP may use chooses the port in use again; a host driver's access to BAR2 or BAR4 (which BAR stands above the offset: the model's choice, assumption 88) rings the doorbell of its own queue, reads and writes the rings of its own function alone, and unmasking a vector sends what was pending; the Quinbel port writes nothing and a half's write under a stale epoch only raises the report; SYS_SEAL seals; a forced event is latched, and a latch written with 1 is cleared; QUIESCE follows its write, a soft reset of a quiesced instance returns plain fields to reset; an enabled port has its ENABLE. -/
def Obligations.RegisterAccesses : Prop :=
  -- registerWrite
  (∀ (s : State) (port addr value epoch b page off : Nat) (f : Fld),
    (addr % 4 = 0 ∧ s.hw.stopped = false) →
    (s.access (.pf port) addr true = (s, some (b, page, off)) ∧ s.unitGone b page = false ∧ b ≠ 0x0E) →
    (fieldsAt b page off 4 = [(f, 0)] ∧ f.off = off ∧ 0x80 ≤ off ∧ f.width = 4 ∧ f.acc = .rw ∧ f ≠ F.HOOK_SEL) →
    (barred (.pf port) addr = false ∧ (b = 0x03 → off / 8 ≠ F.PTP_CTRL_PORTS.off / 8 ∧ off / 8 ≠ F.TIME_CTRL_PTP_DOMAIN.off / 8)) →
    (ownRow.contains f = false ∧ zeroRow.contains f = false ∧ s.freeScoped f (s.pageScope (.pf port) b page off) = false ∧
      s.writeAllowed f (s.pageScope (.pf port) b page off) = true) →
    Does (.registerWrite (.pf port) addr 4 value epoch) s fun t =>
      t.reg f page (s.pageScope (.pf port) b page off) (s.selValue (.pf port) f page) 0 =
        f.written (s.reg f page (s.pageScope (.pf port) b page off) (s.selValue (.pf port) f page) 0) (min f.hi 31 - f.lo) 0 (value >>> f.lo) % 2 ^ f.bits ∧
      (∀ k, k ≠ f.key page (s.pageScope (.pf port) b page off) (s.selValue (.pf port) f page) 0 → alGet k t.regs = alGet k s.regs) ∧ (f ≠ F.QG_SHARE → t.part = s.part) ∧
      ([F.PLC_CIR, F.PLC_PIR, F.PLC_BURST_CBS_KIB, F.PLC_BURST_PBS_KIB].contains f = false → t.dlv = s.dlv) ∧ Only [.regs, .part, .dlv] s t) ∧
  -- ptpChosen
  (∀ (s : State) (port addr size value epoch page off : Nat),
    (accessOk addr size = true ∧ 4 ≤ size ∧ s.hw.stopped = false ∧ barred (.pf port) addr = false) →
    (s.access (.pf port) addr true = (s, some (0x03, page, off)) ∧ s.unitGone 0x03 page = false ∧
      (off / 8 = F.PTP_CTRL_PORTS.off / 8 ∨ off / 8 = F.TIME_CTRL_PTP_DOMAIN.off / 8)) →
    Does (.registerWrite (.pf port) addr size value epoch) s fun t =>
      (t.bestMaster = none → t.g F.TIME_STATE_PTP_PORT = 15) ∧ (∀ i, t.bestMaster = some i → t.g F.TIME_STATE_PTP_PORT = i) ∧
      Only [.regs, .tel, .pol] s t) ∧
  -- barDoorbell
  (∀ (s : State) (a : Agent) (addr value epoch q : Nat) (x : Queue),
    (s.hw.stopped = false ∧ barred a addr = true ∧ barOf addr = 2 ∧ addr % 2 ^ 32 < 0x80000 ∧ addr % 8 = 0) →
    (s.queueOf a (addr % 2 ^ 32 / 8) = some q ∧ s.queue q = some x ∧ x.st = .active ∧ value % 2 ^ 16 < s.sqSize q) →
    Does (.registerWrite a addr 4 value epoch) s fun t =>
      t.queue q = some { x with sqTail := value % 2 ^ 16 } ∧ Only [.q] s t) ∧
  -- barRing
  (∀ (s : State) (a : Agent) (addr value epoch : Nat),
    (s.hw.stopped = false ∧ barred a addr = true ∧ barOf addr = 4 ∧ addr % 8 = 0 ∧ Memory.wf s.q.ring = true) →
    (∀ i, i < 8 → s.inRing (agentPort a) (agentFn a) (addr % 2 ^ 32 + i) = true) →
    Does (.registerWrite a addr 8 value epoch) s fun t =>
      t.barRead (agentPort a) (agentFn a) addr 8 = value % 2 ^ 64 ∧ t.q = { s.q with ring := t.q.ring } ∧ Only [.q] s t) ∧
  -- barNoRing
  (∀ (s : State) (a : Agent) (addr size value epoch : Nat),
    (barred a addr = true ∧ barOf addr = 4 ∧ s.inRing (agentPort a) (agentFn a) (addr % 2 ^ 32) = false) →
    Does (.registerWrite a addr size value epoch) s fun t =>
      t = s) ∧
  -- msixUnmask
  (∀ (s : State) (a : Agent) (addr epoch v : Nat) (e : MsixVec),
    (s.hw.stopped = false ∧ barred a addr = true ∧ barOf addr = 2 ∧ addr % 2 ^ 32 = 0x80000 + 16 * v + 12) →
    (v < msixCount (agentFn a) ∧ e = s.msixVec (agentPort a) (agentFn a) v ∧ e.masked = true ∧ e.pending = true) →
    Does (.registerWrite a addr 4 0 epoch) s fun t =>
      t.out = .msix (agentPort a) (agentFn a) v e.addr e.data :: s.out ∧
      t.msixVec (agentPort a) (agentFn a) v = { e with masked := false, pending := false } ∧ t.q.queues = s.q.queues ∧ Only [.q, .out] s t) ∧
  -- staleWrite
  (∀ (s : State) (h addr value epoch : Nat),
    (addr % 4 = 0 ∧ s.hw.stopped = false ∧ s.epochOk h epoch = false) →
    Does (.registerWrite (.half h) addr 4 value epoch) s fun t =>
      t.latched Ev.STALE_EPOCH ∧ ((s.half h).st = .lead → (t.half h).stale = true) ∧ ((s.half h).st ≠ .lead → t.course = s.course) ∧
      Only [.course, .regs, .tel, .pol] s t) ∧
  -- quinbelWrite
  (∀ (s : State) (addr size value epoch : Nat),
    Does (.registerWrite .quinbel addr size value epoch) s fun t =>
      t = s) ∧
  -- rcRead
  (∀ (s : State) (a : Agent) (addr b page off : Nat) (f : Fld),
    (s.hw.stopped = false ∧ barred a addr = false ∧ s.access a addr false = (s, some (b, page, off)) ∧ addr % 8 = 0 ∧ s.unitGone b page = false) →
    (fieldsAt b page off 8 = [(f, 0)] ∧ f.acc = .rc ∧ measuredFields.contains f = false ∧ s.freeScoped f (s.pageScope a b page off) = false) →
    Does (.rcRead a addr 8) s fun t =>
      t.out = .readReply a (s.readWin a b page off 8) :: s.out ∧
      t.reg f page (s.pageScope a b page off) (s.selValue a f page) 0 =
        s.rcFrom f page (s.pageScope a b page off) (s.selValue a f page) % 2 ^ f.bits ∧ Only [.out, .regs] s t) ∧
  -- barRead
  (∀ (s : State) (a : Agent) (addr size : Nat),
    (s.hw.stopped = false ∧ barred a addr = true ∧ accessOk addr size = true) →
    Does (.rcRead a addr size) s fun t =>
      t.out = .readReply a (s.barRead (agentPort a) (agentFn a) addr size) :: s.out ∧ Only [.out] s t) ∧
  -- smallRead
  (∀ (s : State) (a : Agent) (addr size b page off : Nat),
    (s.hw.stopped = false ∧ barred a addr = false ∧ s.access a addr false = (s, some (b, page, off)) ∧ (size = 1 ∨ size = 2) ∧ addr % size = 0) →
    Does (.rcRead a addr size) s fun t =>
      t.out = .readReply a (s.readWin a b page (off / 4 * 4) 4 >>> (8 * (off % 4)) % 2 ^ (8 * size)) :: s.out ∧ Only [.out] s t) ∧
  -- lowWordRead
  (∀ (s : State) (a : Agent) (addr b page off : Nat),
    (s.hw.stopped = false ∧ barred a addr = false ∧ s.access a addr false = (s, some (b, page, off)) ∧ addr % 8 = 0 ∧ off % 8 = 0) →
    ((fieldsAt b page off 4).any (fun fi => fi.1.width = 8) = true) →
    Does (.lowWordRead a addr) s fun t =>
      t.latches.head? = some (agentNo a, addr + 4, s.readWin a b page (off + 4) 4) ∧ (∃ v, t.out = .readReply a v :: s.out) ∧
      Only [.out, .regs, .free, .latches] s t) ∧
  -- sysSeal
  (∀ (s : State),
    (s.g F.SYS_SEAL ≠ 1) →
    Does (.sysSeal) s fun t =>
      t.g F.SYS_SEAL = 1 ∧ t.latched Ev.SEALED ∧ Only [.regs, .tel, .pol] s t) ∧
  -- evtForceWrite
  (∀ (s : State) (blk page v : Nat),
    (s.pagePresent blk page = true ∧ s.unitGone blk page = false) →
    Does (.evtForceWrite blk page v) s fun t =>
      (∀ i, i < 64 → bit v i = true → eventBit blk page i = true → bit (t.cm (Fld.evtLatch blk (pageUnit page)) page 255) i = true) ∧
      (page ≠ 0 → ∀ m ∈ Ev.mirrors, m.1.blk = blk → m.1.bit < 64 → bit v m.1.bit = true → eventBit blk page m.1.bit = true → t.latched m.2) ∧
      ((∀ i, i < 64 → bit v i = true → eventBit blk page i = false) → t = s) ∧ Only [.regs, .tel, .pol] s t) ∧
  -- evtLatchClear
  (∀ (s : State) (blk page part v : Nat),
    (s.pagePresent blk page = true ∧ s.unitGone blk page = false ∧ s.partFree part = false) →
    Does (.evtLatchClear blk page part v) s fun t =>
      (∀ i, i < 64 → bit (t.cm (Fld.evtLatch blk (pageUnit page)) page part) i =
        (bit (s.cm (Fld.evtLatch blk (pageUnit page)) page part) i && !bit v i)) ∧ Only [.regs] s t) ∧
  -- blkQuiesce
  (∀ (s : State) (blk page : Nat) (on : Bool),
    (s.pagePresent blk page = true ∧ s.unitGone blk page = false) →
    Does (.blkQuiesce blk page on) s fun t =>
      t.cm (Fld.blkQuiesce blk (pageUnit page)) page 255 = (if on then 1 else 0) ∧ Only [.regs] s t) ∧
  -- blkSoftReset
  (∀ (s : State) (blk page part sel idx : Nat) (f : Fld),
    (s.quiesced blk page = true ∧ s.unitGone blk page = false) →
    ((F.table blk).contains f = true ∧ f.blk = blk ∧ f.unit = (page != 0) ∧ f.isSel = false ∧ (f.acc = .rw ∨ f.acc = .rwpf ∨ f.acc = .rc) ∧
      0x100 ≤ f.off ∧ idx < f.count ∧ 0 < f.width) →
    Does (.blkSoftReset blk page) s fun t =>
      t.reg f page part sel idx = f.resetAt page idx sel ∧ (∀ e ∈ s.regs, e.1.blk ≠ blk → e ∈ t.regs) ∧ Only [.regs] s t) ∧
  -- blkPortEnable
  (∀ (s : State) (blk page : Nat),
    ((blk = 0x11 ∨ blk = 0x12) ∧ page ≠ 0 ∧ s.quiesced blk page = true) →
    Does (.blkPortEnable blk page true) s fun t =>
      t.cm (Fld.blkEnable blk 1) page 255 = 1 ∧ Only [.regs] s t)

/-- A setpoint is clamped to the range and replaces the target; a range within the fused bounds is taken and every die's target stands within it, any other leaves the fused bounds and raises VRANGE_REFUSED, and none is taken under the seal; a sample is the unit's level, and one above HIGH counts a crossing and raises the event; a log ring enabled starts empty, disabled drops what was queued, and a HEAD within it frees its slots; an alarm with room on its path is sent first; trace thins out when its share fills. -/
def Obligations.RangesSamplesAndTelemetry : Prop :=
  -- vsetWrite
  (∀ (s : State) (die mv : Nat) (r : Rail),
    (s.paceDie die = true ∧ s.hw.rails[die]? = some r) →
    Does (.vsetWrite die mv) s fun t =>
      (r.thermal = none → (t.rail die).target = min (s.g F.VCORE_RANGE_MAX_MV) (max (s.g F.VCORE_RANGE_MIN_MV) mv)) ∧
      (r.thermal ≠ none → (t.rail die).target = min r.target (min (s.g F.VCORE_RANGE_MAX_MV) (max (s.g F.VCORE_RANGE_MIN_MV) mv))) ∧
      (t.rail die).halted = false ∧ (t.rail die).mv = r.mv ∧ t.reg F.VSET (die + 1) 255 0 0 = (t.rail die).target % 2 ^ F.VSET.bits ∧ Only [.hw, .regs] s t) ∧
  -- vcoreRangeWrite
  (∀ (s : State) (lo hi : Nat),
    (s.g F.SYS_SEAL ≠ 1) →
    Does (.vcoreRangeWrite lo hi) s fun t =>
      (680 ≤ lo ∧ s.dev.fuseMin ≤ lo ∧ lo ≤ hi ∧ hi ≤ 920 ∧ hi ≤ s.dev.fuseMax →
        t.reg F.VCORE_RANGE_MIN_MV 0 255 0 0 = lo % 2 ^ F.VCORE_RANGE_MIN_MV.bits ∧ t.reg F.VCORE_RANGE_MAX_MV 0 255 0 0 = hi % 2 ^ F.VCORE_RANGE_MAX_MV.bits ∧
        ∀ d, d < 10 → d < s.hw.rails.length → s.paceDie d = true → lo ≤ (t.rail d).target ∧ (t.rail d).target ≤ hi) ∧
      (¬(680 ≤ lo ∧ s.dev.fuseMin ≤ lo ∧ lo ≤ hi ∧ hi ≤ 920 ∧ hi ≤ s.dev.fuseMax) →
        t.reg F.VCORE_RANGE_MIN_MV 0 255 0 0 = s.dev.fuseMin % 2 ^ F.VCORE_RANGE_MIN_MV.bits ∧
        t.reg F.VCORE_RANGE_MAX_MV 0 255 0 0 = s.dev.fuseMax % 2 ^ F.VCORE_RANGE_MAX_MV.bits ∧ t.latched Ev.VRANGE_REFUSED) ∧
      Only [.hw, .regs, .tel, .pol] s t) ∧
  -- rangeSealed
  (∀ (s : State) (lo hi : Nat),
    (s.g F.SYS_SEAL = 1) →
    Does (.vcoreRangeWrite lo hi) s fun t =>
      t.hw = s.hw ∧ t.g F.VCORE_RANGE_MIN_MV = s.g F.VCORE_RANGE_MIN_MV ∧ t.g F.VCORE_RANGE_MAX_MV = s.g F.VCORE_RANGE_MAX_MV ∧
      t.latched Ev.LOCKED_WRITE ∧ Only [.regs, .tel, .pol] s t) ∧
  -- wmSample
  (∀ (s : State) (blk page part u level : Nat),
    (u < wmUnits blk page ∧ (blk = 1 → measIndex (s.cm (Fld.wmSource 1 0 u) 0 255) = true) ∧ wmOfPart blk page u = decide (part < 64)) →
    (s.cm (Fld.wmEnable blk (pageUnit page) u) page part = 0) →
    Does (.wmSample blk page part u level) s fun t =>
      t.cm (Fld.wmLevel blk (pageUnit page) u) page part = s.wmSampled blk page part u level % 2 ^ (Fld.wmLevel blk (pageUnit page) u).bits ∧ Only [.regs] s t) ∧
  -- wmCross
  (∀ (s : State) (blk page part u level : Nat),
    (u < 4 ∧ u < wmUnits blk page ∧ (blk = 1 → measIndex (s.cm (Fld.wmSource 1 0 u) 0 255) = true) ∧ wmOfPart blk page u = decide (part < 64)) →
    (s.cm (Fld.wmEnable blk (pageUnit page) u) page part ≠ 0 ∧ s.cm (Fld.wmAbove blk (pageUnit page) u) page part = 0 ∧
      s.cm (Fld.wmUp blk (pageUnit page) u) page part = 0 ∧ s.cm (Fld.wmHigh blk (pageUnit page) u) page part < s.wmSampled blk page part u level) →
    Does (.wmSample blk page part u level) s fun t =>
      t.cm (Fld.wmAbove blk (pageUnit page) u) page part = 1 ∧ t.cm (Fld.wmUp blk (pageUnit page) u) page part = 1 ∧
      bit (t.cm (Fld.evtLatch blk (pageUnit page)) page 255) (56 + 2 * u) = true ∧ Only [.regs, .tel, .pol] s t) ∧
  -- logEnable
  (∀ (s : State) (p : Nat),
    (s.gp F.LOG_CTRL_ENABLE p ≠ 1 ∧ s.partFree p = false) →
    Does (.logEnable p) s fun t =>
      t.gp F.LOG_CTRL_ENABLE p = 1 ∧ t.gp F.LOG_PTRS_HEAD p = 0 ∧ t.gp F.LOG_PTRS_TAIL p = 0 ∧
      t.path p = { s.path p with phase := true, slots := [], logq := [] } ∧ Only [.regs, .tel] s t) ∧
  -- logDisable
  (∀ (s : State) (p : Nat),
    (s.partFree p = false) →
    Does (.logDisable p) s fun t =>
      t.gp F.LOG_CTRL_ENABLE p = 0 ∧ t.path p = { s.path p with logq := [] } ∧ Only [.regs, .tel] s t) ∧
  -- logHeadWrite
  (∀ (s : State) (p head : Nat),
    (head < s.ringSlots p ∧ s.partFree p = false) →
    ((head + s.ringSlots p - s.gp F.LOG_PTRS_HEAD p) % s.ringSlots p ≤
      (s.gp F.LOG_PTRS_TAIL p + s.ringSlots p - s.gp F.LOG_PTRS_HEAD p) % s.ringSlots p) →
    Does (.logHeadWrite p head) s fun t =>
      t.reg F.LOG_PTRS_HEAD 0 p 0 0 = head % 2 ^ F.LOG_PTRS_HEAD.bits ∧
      (t.path p).slots = (s.path p).slots.drop ((head + s.ringSlots p - s.gp F.LOG_PTRS_HEAD p) % s.ringSlots p) ∧ Only [.regs, .tel] s t) ∧
  -- telemetryPost
  (∀ (s : State) (i : Nat) (a : AlarmEnt) (rest : List AlarmEnt),
    (64 < i ∨ s.pathOpen i = true) →
    ((s.path i).alarms = a :: rest ∧ s.room i a.toRec false = true) →
    Does (.telemetryPost i) s fun t =>
      (t.path i).alarms = rest ∧ (64 < i → t.out = .telemetry i a.toRec :: s.out) ∧
      (i ≤ 64 → ∃ fn, t.out.head? = some (.msix 255 fn (s.gp F.LOG_CTRL_VECTOR i) 0 0)) ∧ Only [.out, .regs, .tel] s t) ∧
  -- traceAdjust
  (∀ (s : State) (i : Nat),
    (i ≤ 64 ∧ logShare (s.ringSlots i) * 8 < ((s.path i).slots.filter id).length * 10) →
    Does (.traceAdjust i) s fun t =>
      (t.path i).traceK = max (s.path i).traceK (s.gp F.TRACE_CTRL_LOG2_MIN i) + 1 ∧ t.latched Ev.TRACE_SLOW ∧ Only [.regs, .tel, .pol] s t) ∧
  -- traceEasier
  (∀ (s : State) (i : Nat),
    (i ≤ 64 ∧ ((s.path i).slots.filter id).length * 10 < logShare (s.ringSlots i) * 4 ∧ 100000000 ≤ s.now - (s.path i).lowSince) →
    Does (.traceAdjust i) s fun t =>
      (t.path i).traceK = max (s.gp F.TRACE_CTRL_LOG2_MIN i) (max (s.path i).traceK (s.gp F.TRACE_CTRL_LOG2_MIN i) - 1) ∧ (t.path i).lowSince = s.now ∧
      Only [.regs, .tel] s t)

/-- The first half to read its images is noted and the other waits for it; the device halts when neither half has a Shuarn; measurements in range end step 1, one beyond an absolute maximum halts; a stack that trains is in service; recovery ends step 3 with nothing left to report of the flush; links and time end step 4 with DEV_TIME set; an attempt that fails is counted, and the last one of a step whose plan is to halt halts the device; step 5 ends with the fabric manager bound, waived or waited for; an image is written into its slot. -/
def Obligations.StartUpSteps : Prop :=
  -- bootFirmware
  (∀ (s : State) (h : Nat),
    (h < 2 ∧ s.unitOwed 0 h = true ∧ s.boot.settled.contains (0, 1 - h) = false) →
    Does (.bootFirmware h) s fun t =>
      t.boot.settled = s.boot.settled ++ [(0, h)] ∧ t.half (1 - h) = s.half (1 - h) ∧ (s.bridgeUp h = false → Only [.boot] s t) ∧ t.now = s.now) ∧
  -- bootFirmwareNone
  (∀ (s : State) (h : Nat),
    (h < 2 ∧ s.unitOwed 0 h = true ∧ s.boot.settled.contains (0, 1 - h) = true) →
    (s.bridgeUp h = false ∧ (s.half 0).loaded = false ∧ (s.half 1).loaded = false) →
    Does (.bootFirmware h) s fun t =>
      t.boot.halted = true ∧ t.stepState 0 = stepFailed ∧ t.latched Ev.STEP_FAIL ∧ Only [.boot, .regs, .tel, .pol] s t) ∧
  -- bootMeasure
  (∀ (s : State) (mv : List Nat) (temps : List Int),
    (s.leadStep 1 = true ∧ s.plp.meas.phase = 0 ∧ (s.g F.PLP_CTRL_HU_PRESENT = 0 ∨ s.plp.meas.doneT ≠ 0)) →
    (∀ i, i < 24 → (s.railRange i).1 ≤ mv.getD i 0 ∧ mv.getD i 0 ≤ (s.railRange i).2 ∧ mv.getD i 0 ≤ railMax i) →
    (∀ x ∈ temps, x ≤ 950) →
    Does (.bootMeasure mv temps) s fun t =>
      1 ∈ t.boot.ended ∧ t.hw.temps = (List.range 10).map (fun d => temps.getD d 0) ∧ t.hw.sampleT = s.now ∧ t.boot.halted = false ∧
      Only [.boot, .hw, .regs, .tel, .pol] s t) ∧
  -- bootMeasureOver
  (∀ (s : State) (mv : List Nat) (temps : List Int) (i : Nat),
    (s.leadStep 1 = true ∧ s.plp.meas.phase = 0 ∧ (s.g F.PLP_CTRL_HU_PRESENT = 0 ∨ s.plp.meas.doneT ≠ 0)) →
    (i < 24 ∧ railMax i < mv.getD i 0) →
    Does (.bootMeasure mv temps) s fun t =>
      t.boot.halted = true ∧ t.stepState 1 = stepFailed ∧ t.latched Ev.STEP_FAIL ∧ Only [.boot, .hw, .regs, .tel, .pol] s t) ∧
  -- bootHbm
  (∀ (s : State) (n vendor height : Nat),
    (s.enabledDies.contains n = true ∧ s.leadStep 2 = true ∧ s.boot.settled.contains (2, n) = false ∧ (s.stack n).st ≠ .retired) →
    (n < s.hw.hbm.length ∧ ((s.stack n).pcOk = 0 ∨ (s.stack n).pcOk = 2 ^ 32 - 1)) →
    Does (.bootHbm n true vendor height) s fun t =>
      (t.stack n).st = .active ∧ (t.stack n).pcOk = 2 ^ 32 - 1 ∧ (t.stack n).vendor = vendor ∧ (t.stack n).height = height ∧ (t.stack n).pendingRepair = [] ∧
      t.boot.settled = s.boot.settled ++ [(2, n)] ∧ t.now = s.now) ∧
  -- bootNand
  (∀ (s : State) (found : List NandFound),
    (s.leadStep 3 = true) →
    Does (.bootNand found) s fun t =>
      3 ∈ t.boot.ended ∧ t.boot.counted = false ∧ t.plp.flush = {}) ∧
  -- bootLinks
  (∀ (s : State) (source x : Nat),
    (s.leadStep 4 = true ∧ s.g F.TIME_STATE_STATE < 2) →
    (s.timeFrom source = true) →
    Does (.bootLinks source x) s fun t =>
      4 ∈ t.boot.ended ∧ t.g F.TIME_STATE_STATE = 2 ∧ t.g F.TIME_STATE_SET_SOURCE = source ∧
      t.now = (if source = 0 then s.now else max s.now x) ∧ t.sq = s.sq ∧ t.q = s.q) ∧
  -- bootStepFail
  (∀ (s : State) (n u r : Nat),
    (n ∈ [1, 2, 3, 4, 5] ∧ s.leadStep n = true ∧ s.stepUnit n u = true ∧ s.boot.settled.contains (n, u) = false ∧ s.stepState n = stepRunning) →
    (alGetD (n, u) 0 s.boot.failed + 1 < max 1 (s.gi F.BOOT_PLAN_ATTEMPTS n)) →
    Does (.bootStepFail n u r) s fun t =>
      alGetD (n, u) 0 t.boot.failed = alGetD (n, u) 0 s.boot.failed + 1 ∧ t.stepState n = stepRunning ∧
      t.reg F.STEP_STATE_RESULT 0 255 n 0 = r % 2 ^ F.STEP_STATE_RESULT.bits ∧ t.reg F.STEP_STATE_UNIT 0 255 n 0 = u % 2 ^ F.STEP_STATE_UNIT.bits ∧
      Only [.boot, .regs] s t) ∧
  -- bootStepHalts
  (∀ (s : State) (n u r : Nat),
    (n ∈ [1, 2, 3, 4, 5] ∧ s.leadStep n = true ∧ s.stepUnit n u = true ∧ s.boot.settled.contains (n, u) = false ∧ s.stepState n = stepRunning) →
    (max 1 (s.gi F.BOOT_PLAN_ATTEMPTS n) ≤ alGetD (n, u) 0 s.boot.failed + 1 ∧ s.gi F.BOOT_PLAN_ON_FAIL n = 0) →
    Does (.bootStepFail n u r) s fun t =>
      t.boot.halted = true ∧ t.stepState n = stepFailed ∧ t.latched Ev.STEP_FAIL ∧ Only [.boot, .regs, .tel, .pol] s t) ∧
  -- fmBind
  (∀ (s : State),
    (s.leadStep 5 = true ∧ (s.noFm = true ∨ s.sec.fuses.fmBound = true)) →
    Does (.fmBind) s fun t =>
      5 ∈ t.boot.ended ∧ t.stepState 5 = stepOk ∧ Only [.boot, .regs, .tel, .pol] s t) ∧
  -- fmWaitTimeout
  (∀ (s : State),
    (s.leadStep 5 = true) →
    Does (.fmWaitTimeout) s fun t =>
      5 ∈ t.boot.ended ∧ t.stepState 5 = stepSkipped ∧ t.latched Ev.STEP_SKIPPED ∧
      t.now = max s.now (s.gs F.STEP_START 5 + s.g F.FM_WAIT * 1000000000) ∧ Only [.now, .boot, .regs, .tel, .pol] s t) ∧
  -- fmWaive
  (∀ (s : State),
    Does (.fmWaive) s fun t =>
      (s.leadStep 5 = true → 5 ∈ t.boot.ended ∧ t.stepState 5 = stepSkipped ∧ t.g F.BOOT_CTRL_FM_WAIVE = 0) ∧
      (s.leadStep 5 = false → t.g F.BOOT_CTRL_FM_WAIVE = 1 ∧ t.boot = s.boot) ∧ Only [.boot, .regs, .tel, .pol] s t) ∧
  -- quinbelImageWrite
  (∀ (s : State) (die slot stage : Nat) (im : Image),
    (die < 2 ∧ slot < 2 ∧ 1 ≤ stage ∧ stage ≤ 4 ∧ s.hw.stopped = false ∧ s.hw.pins.pwrgd = true) →
    Does (.quinbelImageWrite die slot stage im) s fun t =>
      alGet (4 * stage + die * 2 + slot) t.boot.slots = some im ∧
      (∀ k, k ≠ 4 * stage + die * 2 + slot → alGet k t.boot.slots = alGet k s.boot.slots) ∧ Only [.boot] s t)

/-- Local service seals the SYS block and ends step 6; a map refused degrades step 7, one accepted begins the join in the device's group; the back-off ends with a gathering, the gathering with the best-ranked device as leader; an attached member ends step 7 and a retry begins it again; the gathering of the ring ends with a ring under the next epoch, as does a batch of joins; warm-up brings full service; a checkpoint journals the device's own shards with the ring. -/
def Obligations.ServiceJoinAndRing : Prop :=
  -- localServiceRefused
  (∀ (s : State) (b : Bytes),
    (s.leadStep 6 = true ∧ (∀ m ∈ s.restoreCapos.tier.moves, ¬(m.why = 5 ∧ m.cmd = 0)) ∧ ∀ x ∈ s.q.queues, x.heldEnable = false) →
    (∀ m, parseMap b = some m → s.mapGood m = false) →
    Does (.localService b) s fun t =>
      t.g F.SYS_SEAL = 1 ∧ 6 ∈ t.boot.ended ∧ t.stepState 7 = stepDegraded ∧ t.boot.map = none ∧ t.latched Ev.JOIN_REFUSED ∧ t.now = s.now) ∧
  -- localService
  (∀ (s : State) (b : Bytes) (m : DomainMap),
    (s.leadStep 6 = true ∧ (∀ m ∈ s.restoreCapos.tier.moves, ¬(m.why = 5 ∧ m.cmd = 0)) ∧ ∀ x ∈ s.q.queues, x.heldEnable = false) →
    (parseMap b = some m ∧ s.mapGood m = true) →
    Does (.localService b) s fun t =>
      t.g F.SYS_SEAL = 1 ∧ 6 ∈ t.boot.ended ∧ t.boot.map = some m ∧
      t.net.group = ((m.entries.find? fun e => e.serial == s.dev.serial).map fun (e : MapEnt) => e.group).getD 0 ∧ t.boot.gatherEnd = 0 ∧ t.now = s.now) ∧
  -- joinBackoffExpire
  (∀ (s : State),
    (s.joining = true ∧ s.boot.gatherEnd = 0) →
    Does (.joinBackoffExpire) s fun t =>
      t.now = max s.now s.boot.backoffEnd ∧ t.boot = { s.boot with gatherEnd := t.now + s.gatherNs, lastChange := t.now } ∧
      Only [.now, .boot, .net, .out, .free] s t) ∧
  -- joinGatherExpire
  (∀ (s : State) (n : Nat),
    (s.joining = true ∧ s.boot.gatherEnd ≠ 0 ∧ s.net.leader = 0) →
    (s.bestOfGroup = some n ∧ n ≠ 0) →
    Does (.joinGatherExpire) s fun t =>
      t.net.leader = n ∧ t.now = max s.now s.boot.gatherEnd ∧ t.g F.LEADER_SERIAL = n % 2 ^ F.LEADER_SERIAL.bits ∧
      (n ≠ s.dev.serial → ∃ w ∈ t.net.waits, w.msg.typ = 2 ∧ w.msg.dst = n) ∧ Only [.now, .boot, .net, .out, .free, .regs] s t) ∧
  -- joinSettled
  (∀ (s : State),
    (s.joining = true ∧ s.net.leader ≠ 0 ∧ s.net.leader ≠ s.dev.serial ∧ ∀ w ∈ s.net.waits, ¬(w.msg.typ = 2 ∧ w.msg.dst = s.net.leader)) →
    Does (.joinSettled) s fun t =>
      7 ∈ t.boot.ended ∧ (((s.peer s.net.leader).any fun p => p.ringMember) = true → t.now = s.now) ∧
      (((s.peer s.net.leader).any fun p => p.ringMember) = false → t.now = max s.now (s.boot.lastChange + s.gatherNs)) ∧
      Only [.now, .boot, .regs, .tel, .pol] s t) ∧
  -- joinRetry
  (∀ (s : State) (m : DomainMap),
    (s.mayStep 7 = true ∧ s.stepState 7 = stepDegraded ∧ s.leadHalf ≠ none ∧ s.boot.map = some m) →
    Does (.joinRetry) s fun t =>
      t.stepState 7 = stepRunning ∧ t.net.leader = 0 ∧ t.net.members = [] ∧ t.boot.gatherEnd = 0 ∧
      (s.g F.BOOT_CTRL_JOIN_NOW = 1 → t.now = s.now ∧ t.g F.BOOT_CTRL_JOIN_NOW = 0) ∧
      (s.g F.BOOT_CTRL_JOIN_NOW ≠ 1 → t.now = max s.now s.boot.joinRetryAt) ∧ Only [.now, .boot, .net, .free, .regs] s t) ∧
  -- ringGatherExpire
  (∀ (s : State),
    (s.mayStep 8 = true ∧ s.net.leader = s.dev.serial ∧ s.boot.ringGatherEnd ≠ 0 ∧ s.net.peers = []) →
    Does (.ringGatherExpire) s fun t =>
      t.now = max s.now s.boot.ringGatherEnd ∧ t.pdir.ringEpoch = s.pdir.ringEpoch + 1 ∧ t.net.coordinator = s.dev.serial ∧ 8 ∈ t.boot.ended ∧
      t.boot.ringGatherEnd = 0 ∧ t.latched Ev.RING_CHANGE) ∧
  -- joinBatchExpire
  (∀ (s : State),
    (s.boot.batch ≠ [] ∧ s.net.coordinator = s.dev.serial ∧ s.stepDone 8 = true) →
    Does (.joinBatchExpire) s fun t =>
      t.now = max s.now s.boot.batchEnd ∧ t.pdir.ringEpoch = s.pdir.ringEpoch + 1 ∧ t.boot.batch = [] ∧
      (∀ n ∈ s.boot.batch, s.listed n = true → n ∈ t.pdir.ring) ∧ (∀ n ∈ s.pdir.ring, n ∈ t.pdir.ring) ∧ t.latched Ev.RING_CHANGE) ∧
  -- warmUp
  (∀ (s : State),
    (s.leadStep 9 = true ∧ s.boot.republish = [] ∧ (∀ w ∈ s.net.waits, w.msg.typ ≠ 0x11) ∧ s.g F.BOOT_PHASE_SERVICE < 3) →
    Does (.warmUp) s fun t =>
      9 ∈ t.boot.ended ∧ t.g F.BOOT_PHASE_SERVICE = 3 ∧ t.latched Ev.SERVICE_FULL ∧ t.stepState 9 = stepOk ∧ Only [.boot, .regs, .tel, .pol] s t) ∧
  -- shardCheckpoint
  (∀ (s : State),
    (s.joined = true ∧ s.hw.stopped = false) →
    Does (.shardCheckpoint) s fun t =>
      t.now = max s.now (s.boot.shardCkptT + s.g F.SHARD_CKPT * 1000000000) ∧ t.boot.shardCkptT = t.now ∧ t.pdir.journalRing = s.pdir.ring ∧
      (∀ e ∈ t.pdir.journalled, s.shardOwner e.shard = some s.dev.serial ∧ e.holders ≠ [] ∧ ∀ h ∈ e.holders, h.serial ∈ s.pdir.ring ∨ h.ver < 0x30) ∧
      t.pdir.shards = s.pdir.shards ∧ Only [.now, .boot, .pdir] s t)

/-- With command i in front of the waiting commands q, a step is exec of i on the state whose waiting commands are q: nothing is added around it, and the queue is served first in, first out (the queue is the block model's own). -/
def Obligations.StepRunsTheCommand : Prop :=
  ∀ (s : State) (i : Instr) (q : List Instr), step { s with pending := i :: q } = exec i { s with pending := q }

/-- With no command waiting a step answers a next state in which DEV_TIME is one nanosecond later, or as it was while the time base that took over lags, and nothing waits (the model's choice, assumption 2); with power gone, or with no window read queued and every page holding its summary, that is all it changes. -/
def Obligations.StepWithNothingWaiting : Prop :=
  ∀ (s : State), s.pending = [] →
    (∃ t, step s = .next t ∧ t.pending = [] ∧
      (s.time.holdNs = 0 ∨ s.time.holdAt ≠ s.now → t.now = s.now + 1 ∧ t.time = s.time) ∧
      (s.time.holdNs ≠ 0 ∧ s.time.holdAt = s.now → t.now = s.now ∧ t.time = { s.time with holdNs := s.time.holdNs - 1 })) ∧
    (s.hw.stopped = true ∨ (s.cxl.reads = [] ∧ ∀ x ∈ s.sq.pages, x.summary ≠ none) → step s = .next s.nanosecond)

/-- At reset every field of the register map holds its reset value, SYS is not sealed, no command waits or runs, the supervisor queues are the only ones, no sequence, page, lease, connection, key or program exists, every partition is FREE and power is not yet good. -/
def Obligations.AfterReset : Prop :=
  (∀ (f : Fld) (page part sel idx : Nat), State.reset.reg f page part sel idx = f.resetAt page idx sel) ∧
  State.reset.g F.SYS_SEAL = 0 ∧ State.reset.pending = [] ∧ State.reset.q.cmds = [] ∧ State.reset.q.queues.map (·.num) = [65536, 65537] ∧
  State.reset.sq.seqs = [] ∧ State.reset.sq.pages = [] ∧ State.reset.cxl.leases = [] ∧ State.reset.net.conns = [] ∧
  State.reset.sec.keys = [] ∧ State.reset.pol.programs = [] ∧ (∀ p < 64, State.reset.pst p = .free) ∧
  State.reset.hw.pins.pwrgd = false ∧ State.reset.boot.begun = false ∧ State.reset.now = 0

/-- At reset the ring memory behind BAR4 lists nothing, so it has the canonical form, and every byte of it reads 0 (the model's choice, assumption 3), and the numbers of the ring commands are in order. -/
def Obligations.RingMemoryAtReset : Prop :=
  Memory.wf State.reset.q.ring = true ∧ (∀ a, Memory.read State.reset.q.ring a = 0) ∧ State.reset.numbersRise

/-- Every command in every state answers a next state: what the spec calls a fault or an error of the device is a record, an event and a state of the unit, and a command whose conditions do not hold leaves the state as its rules say. So does every step. -/
def Obligations.EveryCommandAnswers : Prop :=
  (∀ (i : Instr) (s : State), ∃ t, exec i s = .next t) ∧ ∀ s : State, ∃ t, step s = .next t

/-- A command leaves the queue of waiting commands as it was, resets among them, so a step takes its front away and does nothing else to it. -/
def Obligations.WaitingCommandsKept : Prop :=
  (∀ (i : Instr) (s t : State), exec i s = .next t → t.pending = s.pending) ∧
  ∀ (s t : State), step s = .next t → t.pending = s.pending.tail

/-- A byte written is read back, every other address reads as before, a string of bytes is read back at its addresses and nowhere else, every write keeps the canonical form, and two memories in canonical form that read alike are equal. -/
def Obligations.RingMemoryReads : Prop :=
  (∀ (m : List Host.Cell) (a b : Nat) (v : Byte), Memory.wf m = true →
    Memory.wf (Memory.write a v m) = true ∧ Memory.read (Memory.write a v m) b = if b = a then v else Memory.read m b) ∧
  (∀ (m : List Host.Cell) (a b : Nat) (d : Bytes), Memory.wf m = true →
    Memory.wf (Memory.writeAll a d m) = true ∧
    Memory.read (Memory.writeAll a d m) b = if a ≤ b ∧ b < a + d.length then d.getD (b - a) 0 else Memory.read m b) ∧
  (∀ (m : List Host.Cell) (p : Nat → Bool), Memory.wf m = true →
    Memory.wf (m.filter fun c => p c.1) = true ∧ ∀ b, Memory.read (m.filter fun c => p c.1) b = if p b then Memory.read m b else 0) ∧
  ∀ m n : List Host.Cell, Memory.wf m = true → Memory.wf n = true → (∀ a, Memory.read m a = Memory.read n a) → m = n

/-- From every state whose ring memory has the canonical form (addresses strictly rising, no zero byte listed), every step leaves it in that form. -/
def Obligations.RingMemoryCanonical : Prop :=
  ∀ s t : State, Memory.wf s.q.ring = true → step s = .next t → Memory.wf t.q.ring = true

/-- If the numbers of the ring commands are all different and below the next one to be given, then so they are after every step; and a number then names one command, as the statements about a command's end assume. -/
def Obligations.CommandNumbersUnique : Prop :=
  (∀ s t : State, s.numbersRise → step s = .next t → t.numbersRise) ∧ ∀ s : State, s.numbersRise → ∀ c, s.sole c

/-- No step changes the serial number, the units present, the fused ranges or any other part of the device's identity; the set of retired dies alone changes, and a die once retired stays so. -/
def Obligations.DeviceIdentityKept : Prop :=
  ∀ s t : State, step s = .next t →
    t.dev = { s.dev with retired := t.dev.retired } ∧ ∀ d, bit s.dev.retired d = true → bit t.dev.retired d = true

/-- A page of an unused type code, of a block without an instance there, or of a unit whose die is absent or disabled reads as zero, ignores writes, and an access raises no event: a write leaves the whole state as it was, an aligned read changes nothing but the answer of zero. -/
def Obligations.UnusedRegions : Prop :=
  -- write
  (∀ (s : State) (a : Agent) (addr size value epoch b page off : Nat),
    (decodeAddr a addr = some (b, page, off) ∧ barred a addr = false) →
    (b = 0 ∨ 0x17 < b ∨ unitCount b < page ∨
      (1 ≤ page ∧ page ≤ 8 ∧ b ∈ [0x02, 0x08, 0x0B, 0x0C, 0x15] ∧ bit s.dev.dies (page - 1) = false)) →
    (∀ h, a = .half h → s.epochOk h epoch = true) →
    exec (.registerWrite a addr size value epoch) s = .next s) ∧
  -- read
  (∀ (s : State) (a : Agent) (addr size b page off : Nat),
    (decodeAddr a addr = some (b, page, off) ∧ barred a addr = false ∧ s.hw.stopped = false ∧ accessOk addr size = true) →
    (b = 0 ∨ 0x17 < b ∨ unitCount b < page ∨
      (1 ≤ page ∧ page ≤ 8 ∧ b ∈ [0x02, 0x08, 0x0B, 0x0C, 0x15] ∧ bit s.dev.dies (page - 1) = false)) →
    exec (.rcRead a addr size) s = .next (s.emit (.readReply a 0))) ∧
  -- common
  (∀ (s : State) (b page part v : Nat) (on : Bool),
    (b = 0 ∨ 0x17 < b ∨ unitCount b < page ∨
      (1 ≤ page ∧ page ≤ 8 ∧ b ∈ [0x02, 0x08, 0x0B, 0x0C, 0x15] ∧ bit s.dev.dies (page - 1) = false)) →
    exec (.evtForceWrite b page v) s = .next s ∧ exec (.evtLatchClear b page part v) s = .next s ∧ exec (.blkQuiesce b page on) s = .next s)

/-- A write of a window that holds partition-scoped fields of a FREE partition leaves the state as it was; a read of such a field that can be read gives its reset value and clears nothing; and the writes that have rows of their own are ignored too. -/
def Obligations.FreePartitionRegisters : Prop :=
  -- write
  (∀ (s : State) (a : Agent) (addr size value epoch b page off : Nat),
    (s.access a addr true = (s, some (b, page, off)) ∧ barred a addr = false ∧ b ≠ 0x0E ∧ 0x80 ≤ off) →
    (fieldsAt b page off size ≠ [] ∧ ∀ fi ∈ fieldsAt b page off size, fi.1.part = true ∧ 0x80 ≤ fi.1.off) →
    (s.pageScope a b page off < 64 ∧ s.pst (s.pageScope a b page off) = .free) →
    (∀ h, a = .half h → s.epochOk h epoch = true) →
    exec (.registerWrite a addr size value epoch) s = .next s) ∧
  -- read
  (∀ (s : State) (a : Agent) (f : Fld) (page part idx : Nat),
    (f.part = true ∧ f.acc ≠ .wo) →
    (part < 64 ∧ s.pst part = .free) →
    s.readFld a f page part idx = f.resetAt page idx (s.selValue a f page)) ∧
  -- readWindow
  (∀ (s : State) (a : Agent) (addr b page off : Nat),
    (s.hw.stopped = false ∧ barred a addr = false ∧ s.access a addr false = (s, some (b, page, off)) ∧ addr % 8 = 0 ∧ s.unitGone b page = false) →
    (∀ fi ∈ fieldsAt b page off 8, fi.1.part = true ∧ measuredFields.contains fi.1 = false) →
    (s.pageScope a b page off < 64 ∧ s.pst (s.pageScope a b page off) = .free) →
    exec (.rcRead a addr 8) s = .next (s.emit (.readReply a (s.readWin a b page off 8)))) ∧
  -- ownRows
  (∀ (s : State) (p n v : Nat) (l : Option Bytes),
    (p < 64 ∧ s.pst p = .free) →
    exec (.logEnable p) s = .next s ∧ exec (.logDisable p) s = .next s ∧ exec (.logHeadWrite p n) s = .next s ∧
    exec (.groupDeclareCommit p n l) s = .next s ∧ exec (.groupWithdraw p n) s = .next s ∧ exec (.destCommit p n) s = .next s ∧
    exec (.destDisable p n) s = .next s ∧ exec (.partFaultForce p) s = .next s ∧ ∀ b page, exec (.evtLatchClear b page p v) s = .next s)

/-- While an APPEND or TRUNCATE of the holder that names the sequence, and started under the unexpired lease or took it, has not been completed, the lease counts as held whatever the time, and its expiry changes nothing; a command that starts notes the sequences it names whose unexpired lease its queue holds. -/
def Obligations.LeaseWhileExecuting : Prop :=
  -- busy
  (∀ (s : State) (part seq : Nat) (x : Seq) (c : Cmd),
    (s.seq part seq = some x) →
    (c ∈ s.q.cmds ∧ x.holder = some c.q ∧ c.part = x.part ∧ c.st ≠ .waiting ∧ (x.id ∈ c.keeps ∨ x.id ∈ c.took)) →
    (c.is .append = true ∨ c.is .truncate = true) →
    s.leaseHeld x = true ∧ exec (.appendLeaseExpire part seq) s = .next s) ∧
  -- noted
  (∀ (s : State) (c : Nat) (x : Cmd) (y : Seq),
    (s.cmd c = some x ∧ x.uid = c) →
    (s.mayStart x = true) →
    (x.is .append = true ∨ x.is .truncate = true) →
    (y.id ∈ x.names ∧ s.seq x.part y.id = some y ∧ y.holder = some x.q ∧ s.now < y.expiry) →
    Does (.commandStart c) s fun t => ∃ z ∈ t.cmd c, z.st = .started ∧ y.id ∈ z.keeps ∧ t.now = s.now)

/-- A queue that is enabled starts at the CQ's first slot with PHASE 1; a completion is one write of 32 bytes at the tail's slot, its sixth byte the phase; the tail moves on and the phase inverts exactly when it wraps. In a ring behind BAR4 the 32 bytes stand at the slot and every other byte of the ring memory reads as before. -/
def Obligations.CompletionPhase : Prop :=
  -- firstPass
  (∀ (s : State) (q port v : Nat) (x : Queue),
    (s.queue q = some x) →
    (s.serving = true) →
    (x.st = .disabled) →
    (s.queuePart q < 64 → s.pst (s.queuePart q) ≠ .free) →
    (([0x302, 0x301, 0x300, 0x201, 0x200].find? fun v => s.qreg F.QVER_OFFER_MIN q ≤ v && v ≤ s.qreg F.QVER_OFFER_MAX q) = some v) →
    (s.qreg F.QCTRL_SQ_INLINE q ≠ 1 ∧ s.qreg F.QCTRL_CQ_INLINE q ≠ 1) →
    (s.qreg F.SQ_BASE q % 4096 = 0 ∧ s.qreg F.CQ_BASE q % 4096 = 0) →
    (s.queuePart q < 64 → (s.q.queues.filter fun y => y.num < 65536 && y.st != .disabled && s.queuePart y.num == s.queuePart q).length <
      s.gp F.QP_LIMIT (s.queuePart q)) →
    (s.tdiHolds x.port x.fn = false) →
    Does (.queueEnable (.pf port) q) s fun t =>
      ∃ y ∈ t.queue q, y.st = .active ∧ y.cqTail = 0 ∧ y.phase = true) ∧
  -- hostRing
  (∀ (s : State) (c : Nat) (x : Cmd) (u : Queue),
    (s.cmd c = some x) →
    (x.st = .done ∧ x.outs = []) →
    (s.queue x.q = some u) →
    (u.num < 65536 → (s.port u.port).st ≠ .holding) →
    (u.cqFailed = false ∧ u.cqInline = none) →
    Does (.completionPost c true) s fun t =>
      (∃ d : Bytes, d.length = 32 ∧ d.getD 5 0 = (if u.phase then 1 else 0) ∧ d = x.cqe u.phase (s.loadNow x.part) ∧
        t.out.filter (fun m => match m with | .msix _ _ _ _ _ => false | _ => true) =
          .hostWrite u.port u.fn (s.qreg F.CQ_BASE u.num + 32 * u.cqTail) d ::
          s.out.filter (fun m => match m with | .msix _ _ _ _ _ => false | _ => true)) ∧
      ∃ y ∈ t.queue x.q, y.cqTail = (u.cqTail + 1) % s.cqSize u.num ∧
        y.phase = (if (u.cqTail + 1) % s.cqSize u.num = 0 then !u.phase else u.phase)) ∧
  -- ringMemory
  (∀ (s : State) (c o n : Nat) (x : Cmd) (u : Queue),
    (s.cmd c = some x ∧ Memory.wf s.q.ring = true) →
    (x.st = .done ∧ x.outs = []) →
    (s.queue x.q = some u) →
    (u.num < 65536 → (s.port u.port).st ≠ .holding) →
    (u.cqFailed = false ∧ u.cqInline = some (o, n)) →
    Does (.completionPost c true) s fun t =>
      (∀ a, Memory.read t.q.ring a =
        if o + 32 * u.cqTail ≤ a ∧ a < o + 32 * u.cqTail + 32 then (x.cqe u.phase (s.loadNow x.part)).getD (a - (o + 32 * u.cqTail)) 0
        else Memory.read s.q.ring a) ∧
      ∃ y ∈ t.queue x.q, y.cqTail = (u.cqTail + 1) % s.cqSize u.num ∧
        y.phase = (if (u.cqTail + 1) % s.cqSize u.num = 0 then !u.phase else u.phase))

/-- A register write by one agent leaves every select register of every block as every other agent holds it, whatever it writes and wherever. -/
def Obligations.SelectsAreHeldApart : Prop :=
  -- apart
  (∀ (s t : State) (a b : Agent) (f : Fld) (addr size value epoch page part : Nat),
    (agentNo a ≠ agentNo b) →
    (f ∈ F.table f.blk ∧ f.isSel = true) →
    (exec (.registerWrite a addr size value epoch) s = .next t) →
    t.reg f page part (agentNo b) 0 = s.reg f page part (agentNo b) 0)

/-- Each form goes through at the state it finds: TIER_EVALUATE of a pool that is not done lets one victim go, unless one is still leaving; a move whose data are good is published whatever waits, and one that fails with no copy left to repeat from, or again, ends as failed; a prefetch in its turn is handed to its program or fetched ahead; a leaf whose last page has reached T3 is backed there; a wait that no command stands behind ends with ADMIT_REFUSED; an idle sequencer takes the oldest event and one whose event waits goes on with it; an event that runs too long, or whose sequencer fails, ends with its fallback action; a full queue is counted for every hook; a core that fails at work hands its logical core to a spare and its fault is recorded; the last piece of a transfer that no lookup waits for ends it. -/
def Obligations.TierAndPolicyEventsComplete : Prop :=
  -- victimNext
  (∀ (s s1 : State) (part tier die d : Nat),
    (part < 64 ∧ tier < 4 ∧ s.pst part ≠ .free ∧ s.paused 0x0B (if tier ≤ 1 then die + 1 else 0) = false) →
    (d = if 2 ≤ tier then 15 else die) →
    (s.poolDone part tier d = false) →
    (((s.pool part tier d).st = .idle ∧ s.poolNeeds part tier d = true ∧ s1 = s.poolDemotes part tier d) ∨ ((s.pool part tier d).st ≠ .idle ∧ s1 = s)) →
    Does (.tierEvaluate part tier die) s fun t =>
      t = if s1.victimLeaving part tier d = true then s1 else (s1.demoteOne part tier d).pump) ∧
  -- movePublished
  (∀ (s : State) (move : Nat) (m : Move),
    ((s.tier.moves.find? fun m => m.id == move) = some m) →
    (m.why ≠ 6 ∧ (m.dstTier = 3 → s.t3Done m.part m.serial 0 = true)) →
    (m.reads.1 = 3 → s.t3Unread m.part m.serial = false) →
    (m.reads.1 ≤ 1 → m.dstTier ≤ 1 → s.diesJoined m.reads.2 m.dstDie = true) →
    (∀ l ∈ s.sq.leaves, l.holds m.part m.serial = true → l.freed = false) →
    Does (.moveComplete move true) s fun t =>
      t = (s.publishMove m).settleMoves ∧
      ((m.srcTier, m.srcDie) ≠ (m.dstTier, m.dstDie) → ∃ k ∈ (s.publishMove m).tier.copies, k.part = m.part ∧ k.serial = m.serial ∧ k.tier = m.dstTier ∧ k.die = m.dstDie)) ∧
  -- moveEnds
  (∀ (s : State) (move : Nat) (ok : Bool) (m : Move),
    ((s.tier.moves.find? fun m => m.id == move) = some m) →
    (ok = false ∨ (m.reads.1 = 3 ∧ s.t3Unread m.part m.serial = true)) →
    (m.attempt ≠ 0 ∨ ∀ k ∈ s.copiesOf m.part m.serial, k.good = true → k.tier = m.srcTier ∧ k.die = m.srcDie) →
    Does (.moveComplete move ok) s fun t =>
      t = ((if m.reads.1 = 3 ∧ s.t3Unread m.part m.serial = true then s else s.crcError m).moveFailed m).settleMoves) ∧
  -- prefetchFetched
  (∀ (s s1 : State) (part seq layer v : Nat) (q : Prefetch) (x : Seq),
    (s.paused 0x0B 0 = false ∧ s.gp F.TIER_CTRL_PREFETCH_EN part = 1) →
    (argMin (fun q => ((q.issueT : Nat) : Int)) ((s.tier.prefetches.filter fun q => q.part == part).filter fun q =>
      q.seq == seq && q.layer == layer) = some q) →
    (∀ r ∈ s.tier.prefetches, r.part = part → q.issueT ≤ r.issueT) →
    (s1 = { s with tier := { s.tier with prefetches := s.tier.prefetches.filter (· != q) } }) →
    (s1.hookBy part 5 = .shipped v ∨ (s1.hookBy part 5 = .fallback ∧ v = 0)) →
    ((s1.hookCount part 5).seq part seq = some x) →
    Does (.prefetchIssue part seq layer) s fun t =>
      t = (s1.hookCount part 5).fetchAhead x q.layer q.first q.count q.useT q.qg (q.t0 || v == 1)) ∧
  -- prefetchAsked
  (∀ (s s1 s2 : State) (part seq layer : Nat) (q : Prefetch),
    (s.paused 0x0B 0 = false ∧ s.gp F.TIER_CTRL_PREFETCH_EN part = 1) →
    (argMin (fun q => ((q.issueT : Nat) : Int)) ((s.tier.prefetches.filter fun q => q.part == part).filter fun q =>
      q.seq == seq && q.layer == layer) = some q) →
    (∀ r ∈ s.tier.prefetches, r.part = part → q.issueT ≤ r.issueT) →
    (s1 = { s with tier := { s.tier with prefetches := s.tier.prefetches.filter (· != q) } }) →
    (s1.hookBy part 5 = .program) →
    (s1.hookRaise 5 part 8 [if q.group < 256 then q.group else 0xFFFF, seq, layer, q.first, q.count, q.useT, if q.t0 then 1 else 0] 0 q.qg = (s2, true)) →
    Does (.prefetchIssue part seq layer) s fun t => t = s2) ∧
  -- destageEnds
  (∀ (s : State) (part serial : Nat) (l : Leaf) (ms : List Move),
    ((s.sq.leaves.find? fun l => l.part == part && l.serial == serial) = some l) →
    (ms = s.tier.moves.filter fun m => m.part == part && m.why == 6 && l.serial ≤ m.serial && m.serial < l.serial + l.layers) →
    (ms ≠ []) →
    (∀ i < l.layers, (∃ m ∈ ms, m.serial = l.serial + i) ∨ ∀ k ∈ s.copiesOf part (l.serial + i), ¬ (k.backing = true ∧ k.tier = 1)) →
    (∀ m ∈ ms, s.t3Done part m.serial 0 = true) →
    Does (.destageCommit part serial) s fun t => t = (ms.foldl (fun (a : State) m => a.publishMove m) s).settleMoves) ∧
  -- destageFirst
  (∀ (s : State) (part serial : Nat) (l : Leaf),
    (s.paused 0x0B 0 = false) →
    (s.gp F.TIER_CTRL_AUTO_DESTAGE part ≠ 0 ∨ s.overBudget = true) →
    (s.hookBy part 6 = .fallback) →
    ((s.hookCount part 6).destageNext part 0 = some l ∧ l.serial = serial) →
    Does (.destageWrite part serial) s fun t => t = (s.hookCount part 6).destage l) ∧
  -- waitEnds
  (∀ (s : State) (wait : Nat) (w : AdmitWait),
    ((s.tier.waits.find? fun w => w.id == wait) = some w) →
    (w.why ≠ 7 ∧ w.cmd = 0 ∧ s.moveOf w.part w.serial = none ∧ s.pageKnown w.part w.serial = true) →
    Does (.admitWaitExpire wait) s fun t =>
      t.tier.waits = (s.tier.waits.filter fun y => !(y.id == wait)) ∧ t.now = max s.now w.until_ ∧ t.latched Ev.ADMIT_REFUSED ∧
      t.tier.copies = s.tier.copies ∧ Only [.now, .tier, .regs, .tel, .pol] s t) ∧
  -- eventTaken
  (∀ (s : State) (die n : Nat) (q : Sequencer) (e : PolEvent),
    (s.seqr die n = some q) →
    (q.retired = false ∧ q.running = none ∧ s.hw.stopped = false ∧ s.paused 0x15 (die + 1) = false) →
    (((s.eventsOn die).find? fun e => !s.excluded e) = some e) →
    Does (.policyEventRun die n) s fun t => t = s.takeEvent die n e) ∧
  -- eventGoesOn
  (∀ (s : State) (die n : Nat) (q : Sequencer) (e : PolEvent) (x : PolInst),
    (s.seqr die n = some q) →
    (q.retired = false ∧ q.running = some e ∧ s.hw.stopped = false) →
    (q.inst = some x ∧ x.late = false) →
    Does (.policyEventRun die n) s fun t => t = State.runEvent die n e q.startT 4224 s { x with base := max x.base s.now }) ∧
  -- eventTooLong
  (∀ (s : State) (die n : Nat) (q : Sequencer) (e : PolEvent),
    (s.seqr die n = some q) →
    (q.running = some e) →
    Does (.eventMaxTimeout die n) s fun t => t = (s.reach (q.startT + s.eventMax e)).endByFallback die n) ∧
  -- queueFull
  (∀ (s s1 : State) (die hook part : Nat),
    (1024 ≤ (s.eventsOn die).length ∧ hook ≤ 8 ∧ part ≤ 64) →
    (s1 = ((s.bumpU F.SQ_OVERFLOW die).raise Ev.OVERFLOW (if part < 64 then part else 255)).bumpPS F.HOOK_FALLBACKS part hook) →
    Does (.policyQueueFull die hook part) s fun t =>
      s1.latched Ev.OVERFLOW ∧ (hook ≠ 3 → t = s1) ∧
      (hook = 3 → s1.tier.pools.find? (fun (x : Pool) => x.part == part && x.st == .demoting &&
          s1.hookDie part (if x.tier ≤ 1 then x.die else 8) == die) = none → t = s1) ∧
      (hook = 3 → ∀ x, s1.tier.pools.find? (fun (x : Pool) => x.part == part && x.st == .demoting &&
          s1.hookDie part (if x.tier ≤ 1 then x.die else 8) == die) = some x →
        (∀ s2, s1.firstVictim (s1.candidates part x.tier x.die) = some s2 → t = s2.pump) ∧
        (s1.firstVictim (s1.candidates part x.tier x.die) = none → t = s1.poolBlocked part x.tier x.die))) ∧
  -- sequencerFails
  (∀ (s s1 : State) (die n : Nat) (q : Sequencer),
    (s.seqr die n = some q) →
    (q.retired = false) →
    (s1 = ((s.setSeqr die n fun x => { x with retired := true }).endByFallback die n).raiseBoth Ev.SQ_RETIRED die) →
    Does (.sequencerFail die n) s fun t =>
      s1.latchedU Ev.SQ_RETIRED die ∧ s1.latched Ev.SQ_RETIRED_ANY ∧ (s1.seqrsOn die ≠ [] → t = s1) ∧ (s1.seqrsOn die = [] → t = s1.moveHooks die)) ∧
  -- coreFailAtWork
  (∀ (s : State) (die cl phys j i : Nat) (x : Cluster),
    (die < 8 ∧ cl < 10 ∧ phys < 34 ∧ s.dieOk die = true) →
    (s.hw.clusters[10 * die + cl]? = some x ∧ bit x.physOk phys = true) →
    ((List.range 32).find? (fun j => x.map.getD j none == some phys) = some j) →
    ((List.range 34).find? (fun i => bit x.physOk i && i != phys && !x.map.contains (some i)) = some i) →
    Does (.coreFail die cl phys) s fun t => t.recorded 1 1 (faultUnit die (32 * (10 * die + cl) + j))) ∧
  -- fetchDataLast
  (∀ (s : State) (m : MalMsg) (w : MalWait),
    (s.net.waits.find? (fun w => w.msg.typ == 0x0020 && w.msg.dst == m.src && w.msg.ver < 0x300 && w.msg.msgId == m.msgId) = some w) →
    (m.last = true ∧ w.why ≠ 4) →
    Does (.fetchData m) s fun t => t = (s.heardFrom m).dropWait w.msg.msgId)
end

