-- ==== Sys2Proof/Laws/State.lean ====
section
/-! SUPPORT. What each update of the state leaves as it was, field by field. -/

namespace Sys2Proof.Machine

/-! ### setReg -/

@[simp] theorem State.setReg_pending (s : State) (f : Fld) (g p x i v : Nat) : (s.setReg f g p x i v).pending = s.pending := rfl
@[simp] theorem State.setReg_now (s : State) (f : Fld) (g p x i v : Nat) : (s.setReg f g p x i v).now = s.now := rfl
@[simp] theorem State.setReg_free (s : State) (f : Fld) (g p x i v : Nat) : (s.setReg f g p x i v).free = s.free := rfl
@[simp] theorem State.setReg_dev (s : State) (f : Fld) (g p x i v : Nat) : (s.setReg f g p x i v).dev = s.dev := rfl
@[simp] theorem State.setReg_latches (s : State) (f : Fld) (g p x i v : Nat) : (s.setReg f g p x i v).latches = s.latches := rfl
@[simp] theorem State.setReg_out (s : State) (f : Fld) (g p x i v : Nat) : (s.setReg f g p x i v).out = s.out := rfl
@[simp] theorem State.setReg_time (s : State) (f : Fld) (g p x i v : Nat) : (s.setReg f g p x i v).time = s.time := rfl
@[simp] theorem State.setReg_tel (s : State) (f : Fld) (g p x i v : Nat) : (s.setReg f g p x i v).tel = s.tel := rfl
@[simp] theorem State.setReg_course (s : State) (f : Fld) (g p x i v : Nat) : (s.setReg f g p x i v).course = s.course := rfl
@[simp] theorem State.setReg_hw (s : State) (f : Fld) (g p x i v : Nat) : (s.setReg f g p x i v).hw = s.hw := rfl
@[simp] theorem State.setReg_boot (s : State) (f : Fld) (g p x i v : Nat) : (s.setReg f g p x i v).boot = s.boot := rfl
@[simp] theorem State.setReg_q (s : State) (f : Fld) (g p x i v : Nat) : (s.setReg f g p x i v).q = s.q := rfl
@[simp] theorem State.setReg_part (s : State) (f : Fld) (g p x i v : Nat) : (s.setReg f g p x i v).part = s.part := rfl
@[simp] theorem State.setReg_sq (s : State) (f : Fld) (g p x i v : Nat) : (s.setReg f g p x i v).sq = s.sq := rfl
@[simp] theorem State.setReg_pdir (s : State) (f : Fld) (g p x i v : Nat) : (s.setReg f g p x i v).pdir = s.pdir := rfl
@[simp] theorem State.setReg_tier (s : State) (f : Fld) (g p x i v : Nat) : (s.setReg f g p x i v).tier = s.tier := rfl
@[simp] theorem State.setReg_att (s : State) (f : Fld) (g p x i v : Nat) : (s.setReg f g p x i v).att = s.att := rfl
@[simp] theorem State.setReg_dlv (s : State) (f : Fld) (g p x i v : Nat) : (s.setReg f g p x i v).dlv = s.dlv := rfl
@[simp] theorem State.setReg_cxl (s : State) (f : Fld) (g p x i v : Nat) : (s.setReg f g p x i v).cxl = s.cxl := rfl
@[simp] theorem State.setReg_net (s : State) (f : Fld) (g p x i v : Nat) : (s.setReg f g p x i v).net = s.net := rfl
@[simp] theorem State.setReg_ftl (s : State) (f : Fld) (g p x i v : Nat) : (s.setReg f g p x i v).ftl = s.ftl := rfl
@[simp] theorem State.setReg_plp (s : State) (f : Fld) (g p x i v : Nat) : (s.setReg f g p x i v).plp = s.plp := rfl
@[simp] theorem State.setReg_sec (s : State) (f : Fld) (g p x i v : Nat) : (s.setReg f g p x i v).sec = s.sec := rfl
@[simp] theorem State.setReg_pol (s : State) (f : Fld) (g p x i v : Nat) : (s.setReg f g p x i v).pol = s.pol := rfl

/-! ### bumpReg -/

@[simp] theorem State.bumpReg_pending (s : State) (f : Fld) (g p x i n : Nat) : (s.bumpReg f g p x i n).pending = s.pending := rfl
@[simp] theorem State.bumpReg_now (s : State) (f : Fld) (g p x i n : Nat) : (s.bumpReg f g p x i n).now = s.now := rfl
@[simp] theorem State.bumpReg_free (s : State) (f : Fld) (g p x i n : Nat) : (s.bumpReg f g p x i n).free = s.free := rfl
@[simp] theorem State.bumpReg_dev (s : State) (f : Fld) (g p x i n : Nat) : (s.bumpReg f g p x i n).dev = s.dev := rfl
@[simp] theorem State.bumpReg_latches (s : State) (f : Fld) (g p x i n : Nat) : (s.bumpReg f g p x i n).latches = s.latches := rfl
@[simp] theorem State.bumpReg_out (s : State) (f : Fld) (g p x i n : Nat) : (s.bumpReg f g p x i n).out = s.out := rfl
@[simp] theorem State.bumpReg_time (s : State) (f : Fld) (g p x i n : Nat) : (s.bumpReg f g p x i n).time = s.time := rfl
@[simp] theorem State.bumpReg_tel (s : State) (f : Fld) (g p x i n : Nat) : (s.bumpReg f g p x i n).tel = s.tel := rfl
@[simp] theorem State.bumpReg_course (s : State) (f : Fld) (g p x i n : Nat) : (s.bumpReg f g p x i n).course = s.course := rfl
@[simp] theorem State.bumpReg_hw (s : State) (f : Fld) (g p x i n : Nat) : (s.bumpReg f g p x i n).hw = s.hw := rfl
@[simp] theorem State.bumpReg_boot (s : State) (f : Fld) (g p x i n : Nat) : (s.bumpReg f g p x i n).boot = s.boot := rfl
@[simp] theorem State.bumpReg_q (s : State) (f : Fld) (g p x i n : Nat) : (s.bumpReg f g p x i n).q = s.q := rfl
@[simp] theorem State.bumpReg_part (s : State) (f : Fld) (g p x i n : Nat) : (s.bumpReg f g p x i n).part = s.part := rfl
@[simp] theorem State.bumpReg_sq (s : State) (f : Fld) (g p x i n : Nat) : (s.bumpReg f g p x i n).sq = s.sq := rfl
@[simp] theorem State.bumpReg_pdir (s : State) (f : Fld) (g p x i n : Nat) : (s.bumpReg f g p x i n).pdir = s.pdir := rfl
@[simp] theorem State.bumpReg_tier (s : State) (f : Fld) (g p x i n : Nat) : (s.bumpReg f g p x i n).tier = s.tier := rfl
@[simp] theorem State.bumpReg_att (s : State) (f : Fld) (g p x i n : Nat) : (s.bumpReg f g p x i n).att = s.att := rfl
@[simp] theorem State.bumpReg_dlv (s : State) (f : Fld) (g p x i n : Nat) : (s.bumpReg f g p x i n).dlv = s.dlv := rfl
@[simp] theorem State.bumpReg_cxl (s : State) (f : Fld) (g p x i n : Nat) : (s.bumpReg f g p x i n).cxl = s.cxl := rfl
@[simp] theorem State.bumpReg_net (s : State) (f : Fld) (g p x i n : Nat) : (s.bumpReg f g p x i n).net = s.net := rfl
@[simp] theorem State.bumpReg_ftl (s : State) (f : Fld) (g p x i n : Nat) : (s.bumpReg f g p x i n).ftl = s.ftl := rfl
@[simp] theorem State.bumpReg_plp (s : State) (f : Fld) (g p x i n : Nat) : (s.bumpReg f g p x i n).plp = s.plp := rfl
@[simp] theorem State.bumpReg_sec (s : State) (f : Fld) (g p x i n : Nat) : (s.bumpReg f g p x i n).sec = s.sec := rfl
@[simp] theorem State.bumpReg_pol (s : State) (f : Fld) (g p x i n : Nat) : (s.bumpReg f g p x i n).pol = s.pol := rfl

/-! ### w -/

@[simp] theorem State.w_pending (s : State) (f : Fld) (v : Nat) : (s.w f v).pending = s.pending := rfl
@[simp] theorem State.w_now (s : State) (f : Fld) (v : Nat) : (s.w f v).now = s.now := rfl
@[simp] theorem State.w_free (s : State) (f : Fld) (v : Nat) : (s.w f v).free = s.free := rfl
@[simp] theorem State.w_dev (s : State) (f : Fld) (v : Nat) : (s.w f v).dev = s.dev := rfl
@[simp] theorem State.w_latches (s : State) (f : Fld) (v : Nat) : (s.w f v).latches = s.latches := rfl
@[simp] theorem State.w_out (s : State) (f : Fld) (v : Nat) : (s.w f v).out = s.out := rfl
@[simp] theorem State.w_time (s : State) (f : Fld) (v : Nat) : (s.w f v).time = s.time := rfl
@[simp] theorem State.w_tel (s : State) (f : Fld) (v : Nat) : (s.w f v).tel = s.tel := rfl
@[simp] theorem State.w_course (s : State) (f : Fld) (v : Nat) : (s.w f v).course = s.course := rfl
@[simp] theorem State.w_hw (s : State) (f : Fld) (v : Nat) : (s.w f v).hw = s.hw := rfl
@[simp] theorem State.w_boot (s : State) (f : Fld) (v : Nat) : (s.w f v).boot = s.boot := rfl
@[simp] theorem State.w_q (s : State) (f : Fld) (v : Nat) : (s.w f v).q = s.q := rfl
@[simp] theorem State.w_part (s : State) (f : Fld) (v : Nat) : (s.w f v).part = s.part := rfl
@[simp] theorem State.w_sq (s : State) (f : Fld) (v : Nat) : (s.w f v).sq = s.sq := rfl
@[simp] theorem State.w_pdir (s : State) (f : Fld) (v : Nat) : (s.w f v).pdir = s.pdir := rfl
@[simp] theorem State.w_tier (s : State) (f : Fld) (v : Nat) : (s.w f v).tier = s.tier := rfl
@[simp] theorem State.w_att (s : State) (f : Fld) (v : Nat) : (s.w f v).att = s.att := rfl
@[simp] theorem State.w_dlv (s : State) (f : Fld) (v : Nat) : (s.w f v).dlv = s.dlv := rfl
@[simp] theorem State.w_cxl (s : State) (f : Fld) (v : Nat) : (s.w f v).cxl = s.cxl := rfl
@[simp] theorem State.w_net (s : State) (f : Fld) (v : Nat) : (s.w f v).net = s.net := rfl
@[simp] theorem State.w_ftl (s : State) (f : Fld) (v : Nat) : (s.w f v).ftl = s.ftl := rfl
@[simp] theorem State.w_plp (s : State) (f : Fld) (v : Nat) : (s.w f v).plp = s.plp := rfl
@[simp] theorem State.w_sec (s : State) (f : Fld) (v : Nat) : (s.w f v).sec = s.sec := rfl
@[simp] theorem State.w_pol (s : State) (f : Fld) (v : Nat) : (s.w f v).pol = s.pol := rfl

/-! ### wi -/

@[simp] theorem State.wi_pending (s : State) (f : Fld) (i v : Nat) : (s.wi f i v).pending = s.pending := rfl
@[simp] theorem State.wi_now (s : State) (f : Fld) (i v : Nat) : (s.wi f i v).now = s.now := rfl
@[simp] theorem State.wi_free (s : State) (f : Fld) (i v : Nat) : (s.wi f i v).free = s.free := rfl
@[simp] theorem State.wi_dev (s : State) (f : Fld) (i v : Nat) : (s.wi f i v).dev = s.dev := rfl
@[simp] theorem State.wi_latches (s : State) (f : Fld) (i v : Nat) : (s.wi f i v).latches = s.latches := rfl
@[simp] theorem State.wi_out (s : State) (f : Fld) (i v : Nat) : (s.wi f i v).out = s.out := rfl
@[simp] theorem State.wi_time (s : State) (f : Fld) (i v : Nat) : (s.wi f i v).time = s.time := rfl
@[simp] theorem State.wi_tel (s : State) (f : Fld) (i v : Nat) : (s.wi f i v).tel = s.tel := rfl
@[simp] theorem State.wi_course (s : State) (f : Fld) (i v : Nat) : (s.wi f i v).course = s.course := rfl
@[simp] theorem State.wi_hw (s : State) (f : Fld) (i v : Nat) : (s.wi f i v).hw = s.hw := rfl
@[simp] theorem State.wi_boot (s : State) (f : Fld) (i v : Nat) : (s.wi f i v).boot = s.boot := rfl
@[simp] theorem State.wi_q (s : State) (f : Fld) (i v : Nat) : (s.wi f i v).q = s.q := rfl
@[simp] theorem State.wi_part (s : State) (f : Fld) (i v : Nat) : (s.wi f i v).part = s.part := rfl
@[simp] theorem State.wi_sq (s : State) (f : Fld) (i v : Nat) : (s.wi f i v).sq = s.sq := rfl
@[simp] theorem State.wi_pdir (s : State) (f : Fld) (i v : Nat) : (s.wi f i v).pdir = s.pdir := rfl
@[simp] theorem State.wi_tier (s : State) (f : Fld) (i v : Nat) : (s.wi f i v).tier = s.tier := rfl
@[simp] theorem State.wi_att (s : State) (f : Fld) (i v : Nat) : (s.wi f i v).att = s.att := rfl
@[simp] theorem State.wi_dlv (s : State) (f : Fld) (i v : Nat) : (s.wi f i v).dlv = s.dlv := rfl
@[simp] theorem State.wi_cxl (s : State) (f : Fld) (i v : Nat) : (s.wi f i v).cxl = s.cxl := rfl
@[simp] theorem State.wi_net (s : State) (f : Fld) (i v : Nat) : (s.wi f i v).net = s.net := rfl
@[simp] theorem State.wi_ftl (s : State) (f : Fld) (i v : Nat) : (s.wi f i v).ftl = s.ftl := rfl
@[simp] theorem State.wi_plp (s : State) (f : Fld) (i v : Nat) : (s.wi f i v).plp = s.plp := rfl
@[simp] theorem State.wi_sec (s : State) (f : Fld) (i v : Nat) : (s.wi f i v).sec = s.sec := rfl
@[simp] theorem State.wi_pol (s : State) (f : Fld) (i v : Nat) : (s.wi f i v).pol = s.pol := rfl

/-! ### wp -/

@[simp] theorem State.wp_pending (s : State) (f : Fld) (p v : Nat) : (s.wp f p v).pending = s.pending := rfl
@[simp] theorem State.wp_now (s : State) (f : Fld) (p v : Nat) : (s.wp f p v).now = s.now := rfl
@[simp] theorem State.wp_free (s : State) (f : Fld) (p v : Nat) : (s.wp f p v).free = s.free := rfl
@[simp] theorem State.wp_dev (s : State) (f : Fld) (p v : Nat) : (s.wp f p v).dev = s.dev := rfl
@[simp] theorem State.wp_latches (s : State) (f : Fld) (p v : Nat) : (s.wp f p v).latches = s.latches := rfl
@[simp] theorem State.wp_out (s : State) (f : Fld) (p v : Nat) : (s.wp f p v).out = s.out := rfl
@[simp] theorem State.wp_time (s : State) (f : Fld) (p v : Nat) : (s.wp f p v).time = s.time := rfl
@[simp] theorem State.wp_tel (s : State) (f : Fld) (p v : Nat) : (s.wp f p v).tel = s.tel := rfl
@[simp] theorem State.wp_course (s : State) (f : Fld) (p v : Nat) : (s.wp f p v).course = s.course := rfl
@[simp] theorem State.wp_hw (s : State) (f : Fld) (p v : Nat) : (s.wp f p v).hw = s.hw := rfl
@[simp] theorem State.wp_boot (s : State) (f : Fld) (p v : Nat) : (s.wp f p v).boot = s.boot := rfl
@[simp] theorem State.wp_q (s : State) (f : Fld) (p v : Nat) : (s.wp f p v).q = s.q := rfl
@[simp] theorem State.wp_part (s : State) (f : Fld) (p v : Nat) : (s.wp f p v).part = s.part := rfl
@[simp] theorem State.wp_sq (s : State) (f : Fld) (p v : Nat) : (s.wp f p v).sq = s.sq := rfl
@[simp] theorem State.wp_pdir (s : State) (f : Fld) (p v : Nat) : (s.wp f p v).pdir = s.pdir := rfl
@[simp] theorem State.wp_tier (s : State) (f : Fld) (p v : Nat) : (s.wp f p v).tier = s.tier := rfl
@[simp] theorem State.wp_att (s : State) (f : Fld) (p v : Nat) : (s.wp f p v).att = s.att := rfl
@[simp] theorem State.wp_dlv (s : State) (f : Fld) (p v : Nat) : (s.wp f p v).dlv = s.dlv := rfl
@[simp] theorem State.wp_cxl (s : State) (f : Fld) (p v : Nat) : (s.wp f p v).cxl = s.cxl := rfl
@[simp] theorem State.wp_net (s : State) (f : Fld) (p v : Nat) : (s.wp f p v).net = s.net := rfl
@[simp] theorem State.wp_ftl (s : State) (f : Fld) (p v : Nat) : (s.wp f p v).ftl = s.ftl := rfl
@[simp] theorem State.wp_plp (s : State) (f : Fld) (p v : Nat) : (s.wp f p v).plp = s.plp := rfl
@[simp] theorem State.wp_sec (s : State) (f : Fld) (p v : Nat) : (s.wp f p v).sec = s.sec := rfl
@[simp] theorem State.wp_pol (s : State) (f : Fld) (p v : Nat) : (s.wp f p v).pol = s.pol := rfl

/-! ### ws -/

@[simp] theorem State.ws_pending (s : State) (f : Fld) (x v : Nat) : (s.ws f x v).pending = s.pending := rfl
@[simp] theorem State.ws_now (s : State) (f : Fld) (x v : Nat) : (s.ws f x v).now = s.now := rfl
@[simp] theorem State.ws_free (s : State) (f : Fld) (x v : Nat) : (s.ws f x v).free = s.free := rfl
@[simp] theorem State.ws_dev (s : State) (f : Fld) (x v : Nat) : (s.ws f x v).dev = s.dev := rfl
@[simp] theorem State.ws_latches (s : State) (f : Fld) (x v : Nat) : (s.ws f x v).latches = s.latches := rfl
@[simp] theorem State.ws_out (s : State) (f : Fld) (x v : Nat) : (s.ws f x v).out = s.out := rfl
@[simp] theorem State.ws_time (s : State) (f : Fld) (x v : Nat) : (s.ws f x v).time = s.time := rfl
@[simp] theorem State.ws_tel (s : State) (f : Fld) (x v : Nat) : (s.ws f x v).tel = s.tel := rfl
@[simp] theorem State.ws_course (s : State) (f : Fld) (x v : Nat) : (s.ws f x v).course = s.course := rfl
@[simp] theorem State.ws_hw (s : State) (f : Fld) (x v : Nat) : (s.ws f x v).hw = s.hw := rfl
@[simp] theorem State.ws_boot (s : State) (f : Fld) (x v : Nat) : (s.ws f x v).boot = s.boot := rfl
@[simp] theorem State.ws_q (s : State) (f : Fld) (x v : Nat) : (s.ws f x v).q = s.q := rfl
@[simp] theorem State.ws_part (s : State) (f : Fld) (x v : Nat) : (s.ws f x v).part = s.part := rfl
@[simp] theorem State.ws_sq (s : State) (f : Fld) (x v : Nat) : (s.ws f x v).sq = s.sq := rfl
@[simp] theorem State.ws_pdir (s : State) (f : Fld) (x v : Nat) : (s.ws f x v).pdir = s.pdir := rfl
@[simp] theorem State.ws_tier (s : State) (f : Fld) (x v : Nat) : (s.ws f x v).tier = s.tier := rfl
@[simp] theorem State.ws_att (s : State) (f : Fld) (x v : Nat) : (s.ws f x v).att = s.att := rfl
@[simp] theorem State.ws_dlv (s : State) (f : Fld) (x v : Nat) : (s.ws f x v).dlv = s.dlv := rfl
@[simp] theorem State.ws_cxl (s : State) (f : Fld) (x v : Nat) : (s.ws f x v).cxl = s.cxl := rfl
@[simp] theorem State.ws_net (s : State) (f : Fld) (x v : Nat) : (s.ws f x v).net = s.net := rfl
@[simp] theorem State.ws_ftl (s : State) (f : Fld) (x v : Nat) : (s.ws f x v).ftl = s.ftl := rfl
@[simp] theorem State.ws_plp (s : State) (f : Fld) (x v : Nat) : (s.ws f x v).plp = s.plp := rfl
@[simp] theorem State.ws_sec (s : State) (f : Fld) (x v : Nat) : (s.ws f x v).sec = s.sec := rfl
@[simp] theorem State.ws_pol (s : State) (f : Fld) (x v : Nat) : (s.ws f x v).pol = s.pol := rfl

/-! ### wps -/

@[simp] theorem State.wps_pending (s : State) (f : Fld) (p x v : Nat) : (s.wps f p x v).pending = s.pending := rfl
@[simp] theorem State.wps_now (s : State) (f : Fld) (p x v : Nat) : (s.wps f p x v).now = s.now := rfl
@[simp] theorem State.wps_free (s : State) (f : Fld) (p x v : Nat) : (s.wps f p x v).free = s.free := rfl
@[simp] theorem State.wps_dev (s : State) (f : Fld) (p x v : Nat) : (s.wps f p x v).dev = s.dev := rfl
@[simp] theorem State.wps_latches (s : State) (f : Fld) (p x v : Nat) : (s.wps f p x v).latches = s.latches := rfl
@[simp] theorem State.wps_out (s : State) (f : Fld) (p x v : Nat) : (s.wps f p x v).out = s.out := rfl
@[simp] theorem State.wps_time (s : State) (f : Fld) (p x v : Nat) : (s.wps f p x v).time = s.time := rfl
@[simp] theorem State.wps_tel (s : State) (f : Fld) (p x v : Nat) : (s.wps f p x v).tel = s.tel := rfl
@[simp] theorem State.wps_course (s : State) (f : Fld) (p x v : Nat) : (s.wps f p x v).course = s.course := rfl
@[simp] theorem State.wps_hw (s : State) (f : Fld) (p x v : Nat) : (s.wps f p x v).hw = s.hw := rfl
@[simp] theorem State.wps_boot (s : State) (f : Fld) (p x v : Nat) : (s.wps f p x v).boot = s.boot := rfl
@[simp] theorem State.wps_q (s : State) (f : Fld) (p x v : Nat) : (s.wps f p x v).q = s.q := rfl
@[simp] theorem State.wps_part (s : State) (f : Fld) (p x v : Nat) : (s.wps f p x v).part = s.part := rfl
@[simp] theorem State.wps_sq (s : State) (f : Fld) (p x v : Nat) : (s.wps f p x v).sq = s.sq := rfl
@[simp] theorem State.wps_pdir (s : State) (f : Fld) (p x v : Nat) : (s.wps f p x v).pdir = s.pdir := rfl
@[simp] theorem State.wps_tier (s : State) (f : Fld) (p x v : Nat) : (s.wps f p x v).tier = s.tier := rfl
@[simp] theorem State.wps_att (s : State) (f : Fld) (p x v : Nat) : (s.wps f p x v).att = s.att := rfl
@[simp] theorem State.wps_dlv (s : State) (f : Fld) (p x v : Nat) : (s.wps f p x v).dlv = s.dlv := rfl
@[simp] theorem State.wps_cxl (s : State) (f : Fld) (p x v : Nat) : (s.wps f p x v).cxl = s.cxl := rfl
@[simp] theorem State.wps_net (s : State) (f : Fld) (p x v : Nat) : (s.wps f p x v).net = s.net := rfl
@[simp] theorem State.wps_ftl (s : State) (f : Fld) (p x v : Nat) : (s.wps f p x v).ftl = s.ftl := rfl
@[simp] theorem State.wps_plp (s : State) (f : Fld) (p x v : Nat) : (s.wps f p x v).plp = s.plp := rfl
@[simp] theorem State.wps_sec (s : State) (f : Fld) (p x v : Nat) : (s.wps f p x v).sec = s.sec := rfl
@[simp] theorem State.wps_pol (s : State) (f : Fld) (p x v : Nat) : (s.wps f p x v).pol = s.pol := rfl

/-! ### wu -/

@[simp] theorem State.wu_pending (s : State) (f : Fld) (u v : Nat) : (s.wu f u v).pending = s.pending := rfl
@[simp] theorem State.wu_now (s : State) (f : Fld) (u v : Nat) : (s.wu f u v).now = s.now := rfl
@[simp] theorem State.wu_free (s : State) (f : Fld) (u v : Nat) : (s.wu f u v).free = s.free := rfl
@[simp] theorem State.wu_dev (s : State) (f : Fld) (u v : Nat) : (s.wu f u v).dev = s.dev := rfl
@[simp] theorem State.wu_latches (s : State) (f : Fld) (u v : Nat) : (s.wu f u v).latches = s.latches := rfl
@[simp] theorem State.wu_out (s : State) (f : Fld) (u v : Nat) : (s.wu f u v).out = s.out := rfl
@[simp] theorem State.wu_time (s : State) (f : Fld) (u v : Nat) : (s.wu f u v).time = s.time := rfl
@[simp] theorem State.wu_tel (s : State) (f : Fld) (u v : Nat) : (s.wu f u v).tel = s.tel := rfl
@[simp] theorem State.wu_course (s : State) (f : Fld) (u v : Nat) : (s.wu f u v).course = s.course := rfl
@[simp] theorem State.wu_hw (s : State) (f : Fld) (u v : Nat) : (s.wu f u v).hw = s.hw := rfl
@[simp] theorem State.wu_boot (s : State) (f : Fld) (u v : Nat) : (s.wu f u v).boot = s.boot := rfl
@[simp] theorem State.wu_q (s : State) (f : Fld) (u v : Nat) : (s.wu f u v).q = s.q := rfl
@[simp] theorem State.wu_part (s : State) (f : Fld) (u v : Nat) : (s.wu f u v).part = s.part := rfl
@[simp] theorem State.wu_sq (s : State) (f : Fld) (u v : Nat) : (s.wu f u v).sq = s.sq := rfl
@[simp] theorem State.wu_pdir (s : State) (f : Fld) (u v : Nat) : (s.wu f u v).pdir = s.pdir := rfl
@[simp] theorem State.wu_tier (s : State) (f : Fld) (u v : Nat) : (s.wu f u v).tier = s.tier := rfl
@[simp] theorem State.wu_att (s : State) (f : Fld) (u v : Nat) : (s.wu f u v).att = s.att := rfl
@[simp] theorem State.wu_dlv (s : State) (f : Fld) (u v : Nat) : (s.wu f u v).dlv = s.dlv := rfl
@[simp] theorem State.wu_cxl (s : State) (f : Fld) (u v : Nat) : (s.wu f u v).cxl = s.cxl := rfl
@[simp] theorem State.wu_net (s : State) (f : Fld) (u v : Nat) : (s.wu f u v).net = s.net := rfl
@[simp] theorem State.wu_ftl (s : State) (f : Fld) (u v : Nat) : (s.wu f u v).ftl = s.ftl := rfl
@[simp] theorem State.wu_plp (s : State) (f : Fld) (u v : Nat) : (s.wu f u v).plp = s.plp := rfl
@[simp] theorem State.wu_sec (s : State) (f : Fld) (u v : Nat) : (s.wu f u v).sec = s.sec := rfl
@[simp] theorem State.wu_pol (s : State) (f : Fld) (u v : Nat) : (s.wu f u v).pol = s.pol := rfl

/-! ### wus -/

@[simp] theorem State.wus_pending (s : State) (f : Fld) (u x v : Nat) : (s.wus f u x v).pending = s.pending := rfl
@[simp] theorem State.wus_now (s : State) (f : Fld) (u x v : Nat) : (s.wus f u x v).now = s.now := rfl
@[simp] theorem State.wus_free (s : State) (f : Fld) (u x v : Nat) : (s.wus f u x v).free = s.free := rfl
@[simp] theorem State.wus_dev (s : State) (f : Fld) (u x v : Nat) : (s.wus f u x v).dev = s.dev := rfl
@[simp] theorem State.wus_latches (s : State) (f : Fld) (u x v : Nat) : (s.wus f u x v).latches = s.latches := rfl
@[simp] theorem State.wus_out (s : State) (f : Fld) (u x v : Nat) : (s.wus f u x v).out = s.out := rfl
@[simp] theorem State.wus_time (s : State) (f : Fld) (u x v : Nat) : (s.wus f u x v).time = s.time := rfl
@[simp] theorem State.wus_tel (s : State) (f : Fld) (u x v : Nat) : (s.wus f u x v).tel = s.tel := rfl
@[simp] theorem State.wus_course (s : State) (f : Fld) (u x v : Nat) : (s.wus f u x v).course = s.course := rfl
@[simp] theorem State.wus_hw (s : State) (f : Fld) (u x v : Nat) : (s.wus f u x v).hw = s.hw := rfl
@[simp] theorem State.wus_boot (s : State) (f : Fld) (u x v : Nat) : (s.wus f u x v).boot = s.boot := rfl
@[simp] theorem State.wus_q (s : State) (f : Fld) (u x v : Nat) : (s.wus f u x v).q = s.q := rfl
@[simp] theorem State.wus_part (s : State) (f : Fld) (u x v : Nat) : (s.wus f u x v).part = s.part := rfl
@[simp] theorem State.wus_sq (s : State) (f : Fld) (u x v : Nat) : (s.wus f u x v).sq = s.sq := rfl
@[simp] theorem State.wus_pdir (s : State) (f : Fld) (u x v : Nat) : (s.wus f u x v).pdir = s.pdir := rfl
@[simp] theorem State.wus_tier (s : State) (f : Fld) (u x v : Nat) : (s.wus f u x v).tier = s.tier := rfl
@[simp] theorem State.wus_att (s : State) (f : Fld) (u x v : Nat) : (s.wus f u x v).att = s.att := rfl
@[simp] theorem State.wus_dlv (s : State) (f : Fld) (u x v : Nat) : (s.wus f u x v).dlv = s.dlv := rfl
@[simp] theorem State.wus_cxl (s : State) (f : Fld) (u x v : Nat) : (s.wus f u x v).cxl = s.cxl := rfl
@[simp] theorem State.wus_net (s : State) (f : Fld) (u x v : Nat) : (s.wus f u x v).net = s.net := rfl
@[simp] theorem State.wus_ftl (s : State) (f : Fld) (u x v : Nat) : (s.wus f u x v).ftl = s.ftl := rfl
@[simp] theorem State.wus_plp (s : State) (f : Fld) (u x v : Nat) : (s.wus f u x v).plp = s.plp := rfl
@[simp] theorem State.wus_sec (s : State) (f : Fld) (u x v : Nat) : (s.wus f u x v).sec = s.sec := rfl
@[simp] theorem State.wus_pol (s : State) (f : Fld) (u x v : Nat) : (s.wus f u x v).pol = s.pol := rfl

/-! ### wcm -/

@[simp] theorem State.wcm_pending (s : State) (f : Fld) (g p v : Nat) : (s.wcm f g p v).pending = s.pending := rfl
@[simp] theorem State.wcm_now (s : State) (f : Fld) (g p v : Nat) : (s.wcm f g p v).now = s.now := rfl
@[simp] theorem State.wcm_free (s : State) (f : Fld) (g p v : Nat) : (s.wcm f g p v).free = s.free := rfl
@[simp] theorem State.wcm_dev (s : State) (f : Fld) (g p v : Nat) : (s.wcm f g p v).dev = s.dev := rfl
@[simp] theorem State.wcm_latches (s : State) (f : Fld) (g p v : Nat) : (s.wcm f g p v).latches = s.latches := rfl
@[simp] theorem State.wcm_out (s : State) (f : Fld) (g p v : Nat) : (s.wcm f g p v).out = s.out := rfl
@[simp] theorem State.wcm_time (s : State) (f : Fld) (g p v : Nat) : (s.wcm f g p v).time = s.time := rfl
@[simp] theorem State.wcm_tel (s : State) (f : Fld) (g p v : Nat) : (s.wcm f g p v).tel = s.tel := rfl
@[simp] theorem State.wcm_course (s : State) (f : Fld) (g p v : Nat) : (s.wcm f g p v).course = s.course := rfl
@[simp] theorem State.wcm_hw (s : State) (f : Fld) (g p v : Nat) : (s.wcm f g p v).hw = s.hw := rfl
@[simp] theorem State.wcm_boot (s : State) (f : Fld) (g p v : Nat) : (s.wcm f g p v).boot = s.boot := rfl
@[simp] theorem State.wcm_q (s : State) (f : Fld) (g p v : Nat) : (s.wcm f g p v).q = s.q := rfl
@[simp] theorem State.wcm_part (s : State) (f : Fld) (g p v : Nat) : (s.wcm f g p v).part = s.part := rfl
@[simp] theorem State.wcm_sq (s : State) (f : Fld) (g p v : Nat) : (s.wcm f g p v).sq = s.sq := rfl
@[simp] theorem State.wcm_pdir (s : State) (f : Fld) (g p v : Nat) : (s.wcm f g p v).pdir = s.pdir := rfl
@[simp] theorem State.wcm_tier (s : State) (f : Fld) (g p v : Nat) : (s.wcm f g p v).tier = s.tier := rfl
@[simp] theorem State.wcm_att (s : State) (f : Fld) (g p v : Nat) : (s.wcm f g p v).att = s.att := rfl
@[simp] theorem State.wcm_dlv (s : State) (f : Fld) (g p v : Nat) : (s.wcm f g p v).dlv = s.dlv := rfl
@[simp] theorem State.wcm_cxl (s : State) (f : Fld) (g p v : Nat) : (s.wcm f g p v).cxl = s.cxl := rfl
@[simp] theorem State.wcm_net (s : State) (f : Fld) (g p v : Nat) : (s.wcm f g p v).net = s.net := rfl
@[simp] theorem State.wcm_ftl (s : State) (f : Fld) (g p v : Nat) : (s.wcm f g p v).ftl = s.ftl := rfl
@[simp] theorem State.wcm_plp (s : State) (f : Fld) (g p v : Nat) : (s.wcm f g p v).plp = s.plp := rfl
@[simp] theorem State.wcm_sec (s : State) (f : Fld) (g p v : Nat) : (s.wcm f g p v).sec = s.sec := rfl
@[simp] theorem State.wcm_pol (s : State) (f : Fld) (g p v : Nat) : (s.wcm f g p v).pol = s.pol := rfl

/-! ### wq -/

@[simp] theorem State.wq_pending (s : State) (f : Fld) (q v : Nat) : (s.wq f q v).pending = s.pending := rfl
@[simp] theorem State.wq_now (s : State) (f : Fld) (q v : Nat) : (s.wq f q v).now = s.now := rfl
@[simp] theorem State.wq_free (s : State) (f : Fld) (q v : Nat) : (s.wq f q v).free = s.free := rfl
@[simp] theorem State.wq_dev (s : State) (f : Fld) (q v : Nat) : (s.wq f q v).dev = s.dev := rfl
@[simp] theorem State.wq_latches (s : State) (f : Fld) (q v : Nat) : (s.wq f q v).latches = s.latches := rfl
@[simp] theorem State.wq_out (s : State) (f : Fld) (q v : Nat) : (s.wq f q v).out = s.out := rfl
@[simp] theorem State.wq_time (s : State) (f : Fld) (q v : Nat) : (s.wq f q v).time = s.time := rfl
@[simp] theorem State.wq_tel (s : State) (f : Fld) (q v : Nat) : (s.wq f q v).tel = s.tel := rfl
@[simp] theorem State.wq_course (s : State) (f : Fld) (q v : Nat) : (s.wq f q v).course = s.course := rfl
@[simp] theorem State.wq_hw (s : State) (f : Fld) (q v : Nat) : (s.wq f q v).hw = s.hw := rfl
@[simp] theorem State.wq_boot (s : State) (f : Fld) (q v : Nat) : (s.wq f q v).boot = s.boot := rfl
@[simp] theorem State.wq_q (s : State) (f : Fld) (q v : Nat) : (s.wq f q v).q = s.q := rfl
@[simp] theorem State.wq_part (s : State) (f : Fld) (q v : Nat) : (s.wq f q v).part = s.part := rfl
@[simp] theorem State.wq_sq (s : State) (f : Fld) (q v : Nat) : (s.wq f q v).sq = s.sq := rfl
@[simp] theorem State.wq_pdir (s : State) (f : Fld) (q v : Nat) : (s.wq f q v).pdir = s.pdir := rfl
@[simp] theorem State.wq_tier (s : State) (f : Fld) (q v : Nat) : (s.wq f q v).tier = s.tier := rfl
@[simp] theorem State.wq_att (s : State) (f : Fld) (q v : Nat) : (s.wq f q v).att = s.att := rfl
@[simp] theorem State.wq_dlv (s : State) (f : Fld) (q v : Nat) : (s.wq f q v).dlv = s.dlv := rfl
@[simp] theorem State.wq_cxl (s : State) (f : Fld) (q v : Nat) : (s.wq f q v).cxl = s.cxl := rfl
@[simp] theorem State.wq_net (s : State) (f : Fld) (q v : Nat) : (s.wq f q v).net = s.net := rfl
@[simp] theorem State.wq_ftl (s : State) (f : Fld) (q v : Nat) : (s.wq f q v).ftl = s.ftl := rfl
@[simp] theorem State.wq_plp (s : State) (f : Fld) (q v : Nat) : (s.wq f q v).plp = s.plp := rfl
@[simp] theorem State.wq_sec (s : State) (f : Fld) (q v : Nat) : (s.wq f q v).sec = s.sec := rfl
@[simp] theorem State.wq_pol (s : State) (f : Fld) (q v : Nat) : (s.wq f q v).pol = s.pol := rfl

/-! ### bump -/

@[simp] theorem State.bump_pending (s : State) (f : Fld) (n : Nat) : (s.bump f n).pending = s.pending := rfl
@[simp] theorem State.bump_now (s : State) (f : Fld) (n : Nat) : (s.bump f n).now = s.now := rfl
@[simp] theorem State.bump_free (s : State) (f : Fld) (n : Nat) : (s.bump f n).free = s.free := rfl
@[simp] theorem State.bump_dev (s : State) (f : Fld) (n : Nat) : (s.bump f n).dev = s.dev := rfl
@[simp] theorem State.bump_latches (s : State) (f : Fld) (n : Nat) : (s.bump f n).latches = s.latches := rfl
@[simp] theorem State.bump_out (s : State) (f : Fld) (n : Nat) : (s.bump f n).out = s.out := rfl
@[simp] theorem State.bump_time (s : State) (f : Fld) (n : Nat) : (s.bump f n).time = s.time := rfl
@[simp] theorem State.bump_tel (s : State) (f : Fld) (n : Nat) : (s.bump f n).tel = s.tel := rfl
@[simp] theorem State.bump_course (s : State) (f : Fld) (n : Nat) : (s.bump f n).course = s.course := rfl
@[simp] theorem State.bump_hw (s : State) (f : Fld) (n : Nat) : (s.bump f n).hw = s.hw := rfl
@[simp] theorem State.bump_boot (s : State) (f : Fld) (n : Nat) : (s.bump f n).boot = s.boot := rfl
@[simp] theorem State.bump_q (s : State) (f : Fld) (n : Nat) : (s.bump f n).q = s.q := rfl
@[simp] theorem State.bump_part (s : State) (f : Fld) (n : Nat) : (s.bump f n).part = s.part := rfl
@[simp] theorem State.bump_sq (s : State) (f : Fld) (n : Nat) : (s.bump f n).sq = s.sq := rfl
@[simp] theorem State.bump_pdir (s : State) (f : Fld) (n : Nat) : (s.bump f n).pdir = s.pdir := rfl
@[simp] theorem State.bump_tier (s : State) (f : Fld) (n : Nat) : (s.bump f n).tier = s.tier := rfl
@[simp] theorem State.bump_att (s : State) (f : Fld) (n : Nat) : (s.bump f n).att = s.att := rfl
@[simp] theorem State.bump_dlv (s : State) (f : Fld) (n : Nat) : (s.bump f n).dlv = s.dlv := rfl
@[simp] theorem State.bump_cxl (s : State) (f : Fld) (n : Nat) : (s.bump f n).cxl = s.cxl := rfl
@[simp] theorem State.bump_net (s : State) (f : Fld) (n : Nat) : (s.bump f n).net = s.net := rfl
@[simp] theorem State.bump_ftl (s : State) (f : Fld) (n : Nat) : (s.bump f n).ftl = s.ftl := rfl
@[simp] theorem State.bump_plp (s : State) (f : Fld) (n : Nat) : (s.bump f n).plp = s.plp := rfl
@[simp] theorem State.bump_sec (s : State) (f : Fld) (n : Nat) : (s.bump f n).sec = s.sec := rfl
@[simp] theorem State.bump_pol (s : State) (f : Fld) (n : Nat) : (s.bump f n).pol = s.pol := rfl

/-! ### bumpP -/

@[simp] theorem State.bumpP_pending (s : State) (f : Fld) (p n : Nat) : (s.bumpP f p n).pending = s.pending := rfl
@[simp] theorem State.bumpP_now (s : State) (f : Fld) (p n : Nat) : (s.bumpP f p n).now = s.now := rfl
@[simp] theorem State.bumpP_free (s : State) (f : Fld) (p n : Nat) : (s.bumpP f p n).free = s.free := rfl
@[simp] theorem State.bumpP_dev (s : State) (f : Fld) (p n : Nat) : (s.bumpP f p n).dev = s.dev := rfl
@[simp] theorem State.bumpP_latches (s : State) (f : Fld) (p n : Nat) : (s.bumpP f p n).latches = s.latches := rfl
@[simp] theorem State.bumpP_out (s : State) (f : Fld) (p n : Nat) : (s.bumpP f p n).out = s.out := rfl
@[simp] theorem State.bumpP_time (s : State) (f : Fld) (p n : Nat) : (s.bumpP f p n).time = s.time := rfl
@[simp] theorem State.bumpP_tel (s : State) (f : Fld) (p n : Nat) : (s.bumpP f p n).tel = s.tel := rfl
@[simp] theorem State.bumpP_course (s : State) (f : Fld) (p n : Nat) : (s.bumpP f p n).course = s.course := rfl
@[simp] theorem State.bumpP_hw (s : State) (f : Fld) (p n : Nat) : (s.bumpP f p n).hw = s.hw := rfl
@[simp] theorem State.bumpP_boot (s : State) (f : Fld) (p n : Nat) : (s.bumpP f p n).boot = s.boot := rfl
@[simp] theorem State.bumpP_q (s : State) (f : Fld) (p n : Nat) : (s.bumpP f p n).q = s.q := rfl
@[simp] theorem State.bumpP_part (s : State) (f : Fld) (p n : Nat) : (s.bumpP f p n).part = s.part := rfl
@[simp] theorem State.bumpP_sq (s : State) (f : Fld) (p n : Nat) : (s.bumpP f p n).sq = s.sq := rfl
@[simp] theorem State.bumpP_pdir (s : State) (f : Fld) (p n : Nat) : (s.bumpP f p n).pdir = s.pdir := rfl
@[simp] theorem State.bumpP_tier (s : State) (f : Fld) (p n : Nat) : (s.bumpP f p n).tier = s.tier := rfl
@[simp] theorem State.bumpP_att (s : State) (f : Fld) (p n : Nat) : (s.bumpP f p n).att = s.att := rfl
@[simp] theorem State.bumpP_dlv (s : State) (f : Fld) (p n : Nat) : (s.bumpP f p n).dlv = s.dlv := rfl
@[simp] theorem State.bumpP_cxl (s : State) (f : Fld) (p n : Nat) : (s.bumpP f p n).cxl = s.cxl := rfl
@[simp] theorem State.bumpP_net (s : State) (f : Fld) (p n : Nat) : (s.bumpP f p n).net = s.net := rfl
@[simp] theorem State.bumpP_ftl (s : State) (f : Fld) (p n : Nat) : (s.bumpP f p n).ftl = s.ftl := rfl
@[simp] theorem State.bumpP_plp (s : State) (f : Fld) (p n : Nat) : (s.bumpP f p n).plp = s.plp := rfl
@[simp] theorem State.bumpP_sec (s : State) (f : Fld) (p n : Nat) : (s.bumpP f p n).sec = s.sec := rfl
@[simp] theorem State.bumpP_pol (s : State) (f : Fld) (p n : Nat) : (s.bumpP f p n).pol = s.pol := rfl

/-! ### bumpPS -/

@[simp] theorem State.bumpPS_pending (s : State) (f : Fld) (p x n : Nat) : (s.bumpPS f p x n).pending = s.pending := rfl
@[simp] theorem State.bumpPS_now (s : State) (f : Fld) (p x n : Nat) : (s.bumpPS f p x n).now = s.now := rfl
@[simp] theorem State.bumpPS_free (s : State) (f : Fld) (p x n : Nat) : (s.bumpPS f p x n).free = s.free := rfl
@[simp] theorem State.bumpPS_dev (s : State) (f : Fld) (p x n : Nat) : (s.bumpPS f p x n).dev = s.dev := rfl
@[simp] theorem State.bumpPS_latches (s : State) (f : Fld) (p x n : Nat) : (s.bumpPS f p x n).latches = s.latches := rfl
@[simp] theorem State.bumpPS_out (s : State) (f : Fld) (p x n : Nat) : (s.bumpPS f p x n).out = s.out := rfl
@[simp] theorem State.bumpPS_time (s : State) (f : Fld) (p x n : Nat) : (s.bumpPS f p x n).time = s.time := rfl
@[simp] theorem State.bumpPS_tel (s : State) (f : Fld) (p x n : Nat) : (s.bumpPS f p x n).tel = s.tel := rfl
@[simp] theorem State.bumpPS_course (s : State) (f : Fld) (p x n : Nat) : (s.bumpPS f p x n).course = s.course := rfl
@[simp] theorem State.bumpPS_hw (s : State) (f : Fld) (p x n : Nat) : (s.bumpPS f p x n).hw = s.hw := rfl
@[simp] theorem State.bumpPS_boot (s : State) (f : Fld) (p x n : Nat) : (s.bumpPS f p x n).boot = s.boot := rfl
@[simp] theorem State.bumpPS_q (s : State) (f : Fld) (p x n : Nat) : (s.bumpPS f p x n).q = s.q := rfl
@[simp] theorem State.bumpPS_part (s : State) (f : Fld) (p x n : Nat) : (s.bumpPS f p x n).part = s.part := rfl
@[simp] theorem State.bumpPS_sq (s : State) (f : Fld) (p x n : Nat) : (s.bumpPS f p x n).sq = s.sq := rfl
@[simp] theorem State.bumpPS_pdir (s : State) (f : Fld) (p x n : Nat) : (s.bumpPS f p x n).pdir = s.pdir := rfl
@[simp] theorem State.bumpPS_tier (s : State) (f : Fld) (p x n : Nat) : (s.bumpPS f p x n).tier = s.tier := rfl
@[simp] theorem State.bumpPS_att (s : State) (f : Fld) (p x n : Nat) : (s.bumpPS f p x n).att = s.att := rfl
@[simp] theorem State.bumpPS_dlv (s : State) (f : Fld) (p x n : Nat) : (s.bumpPS f p x n).dlv = s.dlv := rfl
@[simp] theorem State.bumpPS_cxl (s : State) (f : Fld) (p x n : Nat) : (s.bumpPS f p x n).cxl = s.cxl := rfl
@[simp] theorem State.bumpPS_net (s : State) (f : Fld) (p x n : Nat) : (s.bumpPS f p x n).net = s.net := rfl
@[simp] theorem State.bumpPS_ftl (s : State) (f : Fld) (p x n : Nat) : (s.bumpPS f p x n).ftl = s.ftl := rfl
@[simp] theorem State.bumpPS_plp (s : State) (f : Fld) (p x n : Nat) : (s.bumpPS f p x n).plp = s.plp := rfl
@[simp] theorem State.bumpPS_sec (s : State) (f : Fld) (p x n : Nat) : (s.bumpPS f p x n).sec = s.sec := rfl
@[simp] theorem State.bumpPS_pol (s : State) (f : Fld) (p x n : Nat) : (s.bumpPS f p x n).pol = s.pol := rfl

/-! ### bumpU -/

@[simp] theorem State.bumpU_pending (s : State) (f : Fld) (u n : Nat) : (s.bumpU f u n).pending = s.pending := rfl
@[simp] theorem State.bumpU_now (s : State) (f : Fld) (u n : Nat) : (s.bumpU f u n).now = s.now := rfl
@[simp] theorem State.bumpU_free (s : State) (f : Fld) (u n : Nat) : (s.bumpU f u n).free = s.free := rfl
@[simp] theorem State.bumpU_dev (s : State) (f : Fld) (u n : Nat) : (s.bumpU f u n).dev = s.dev := rfl
@[simp] theorem State.bumpU_latches (s : State) (f : Fld) (u n : Nat) : (s.bumpU f u n).latches = s.latches := rfl
@[simp] theorem State.bumpU_out (s : State) (f : Fld) (u n : Nat) : (s.bumpU f u n).out = s.out := rfl
@[simp] theorem State.bumpU_time (s : State) (f : Fld) (u n : Nat) : (s.bumpU f u n).time = s.time := rfl
@[simp] theorem State.bumpU_tel (s : State) (f : Fld) (u n : Nat) : (s.bumpU f u n).tel = s.tel := rfl
@[simp] theorem State.bumpU_course (s : State) (f : Fld) (u n : Nat) : (s.bumpU f u n).course = s.course := rfl
@[simp] theorem State.bumpU_hw (s : State) (f : Fld) (u n : Nat) : (s.bumpU f u n).hw = s.hw := rfl
@[simp] theorem State.bumpU_boot (s : State) (f : Fld) (u n : Nat) : (s.bumpU f u n).boot = s.boot := rfl
@[simp] theorem State.bumpU_q (s : State) (f : Fld) (u n : Nat) : (s.bumpU f u n).q = s.q := rfl
@[simp] theorem State.bumpU_part (s : State) (f : Fld) (u n : Nat) : (s.bumpU f u n).part = s.part := rfl
@[simp] theorem State.bumpU_sq (s : State) (f : Fld) (u n : Nat) : (s.bumpU f u n).sq = s.sq := rfl
@[simp] theorem State.bumpU_pdir (s : State) (f : Fld) (u n : Nat) : (s.bumpU f u n).pdir = s.pdir := rfl
@[simp] theorem State.bumpU_tier (s : State) (f : Fld) (u n : Nat) : (s.bumpU f u n).tier = s.tier := rfl
@[simp] theorem State.bumpU_att (s : State) (f : Fld) (u n : Nat) : (s.bumpU f u n).att = s.att := rfl
@[simp] theorem State.bumpU_dlv (s : State) (f : Fld) (u n : Nat) : (s.bumpU f u n).dlv = s.dlv := rfl
@[simp] theorem State.bumpU_cxl (s : State) (f : Fld) (u n : Nat) : (s.bumpU f u n).cxl = s.cxl := rfl
@[simp] theorem State.bumpU_net (s : State) (f : Fld) (u n : Nat) : (s.bumpU f u n).net = s.net := rfl
@[simp] theorem State.bumpU_ftl (s : State) (f : Fld) (u n : Nat) : (s.bumpU f u n).ftl = s.ftl := rfl
@[simp] theorem State.bumpU_plp (s : State) (f : Fld) (u n : Nat) : (s.bumpU f u n).plp = s.plp := rfl
@[simp] theorem State.bumpU_sec (s : State) (f : Fld) (u n : Nat) : (s.bumpU f u n).sec = s.sec := rfl
@[simp] theorem State.bumpU_pol (s : State) (f : Fld) (u n : Nat) : (s.bumpU f u n).pol = s.pol := rfl

/-! ### bumpUS -/

@[simp] theorem State.bumpUS_pending (s : State) (f : Fld) (u x n : Nat) : (s.bumpUS f u x n).pending = s.pending := rfl
@[simp] theorem State.bumpUS_now (s : State) (f : Fld) (u x n : Nat) : (s.bumpUS f u x n).now = s.now := rfl
@[simp] theorem State.bumpUS_free (s : State) (f : Fld) (u x n : Nat) : (s.bumpUS f u x n).free = s.free := rfl
@[simp] theorem State.bumpUS_dev (s : State) (f : Fld) (u x n : Nat) : (s.bumpUS f u x n).dev = s.dev := rfl
@[simp] theorem State.bumpUS_latches (s : State) (f : Fld) (u x n : Nat) : (s.bumpUS f u x n).latches = s.latches := rfl
@[simp] theorem State.bumpUS_out (s : State) (f : Fld) (u x n : Nat) : (s.bumpUS f u x n).out = s.out := rfl
@[simp] theorem State.bumpUS_time (s : State) (f : Fld) (u x n : Nat) : (s.bumpUS f u x n).time = s.time := rfl
@[simp] theorem State.bumpUS_tel (s : State) (f : Fld) (u x n : Nat) : (s.bumpUS f u x n).tel = s.tel := rfl
@[simp] theorem State.bumpUS_course (s : State) (f : Fld) (u x n : Nat) : (s.bumpUS f u x n).course = s.course := rfl
@[simp] theorem State.bumpUS_hw (s : State) (f : Fld) (u x n : Nat) : (s.bumpUS f u x n).hw = s.hw := rfl
@[simp] theorem State.bumpUS_boot (s : State) (f : Fld) (u x n : Nat) : (s.bumpUS f u x n).boot = s.boot := rfl
@[simp] theorem State.bumpUS_q (s : State) (f : Fld) (u x n : Nat) : (s.bumpUS f u x n).q = s.q := rfl
@[simp] theorem State.bumpUS_part (s : State) (f : Fld) (u x n : Nat) : (s.bumpUS f u x n).part = s.part := rfl
@[simp] theorem State.bumpUS_sq (s : State) (f : Fld) (u x n : Nat) : (s.bumpUS f u x n).sq = s.sq := rfl
@[simp] theorem State.bumpUS_pdir (s : State) (f : Fld) (u x n : Nat) : (s.bumpUS f u x n).pdir = s.pdir := rfl
@[simp] theorem State.bumpUS_tier (s : State) (f : Fld) (u x n : Nat) : (s.bumpUS f u x n).tier = s.tier := rfl
@[simp] theorem State.bumpUS_att (s : State) (f : Fld) (u x n : Nat) : (s.bumpUS f u x n).att = s.att := rfl
@[simp] theorem State.bumpUS_dlv (s : State) (f : Fld) (u x n : Nat) : (s.bumpUS f u x n).dlv = s.dlv := rfl
@[simp] theorem State.bumpUS_cxl (s : State) (f : Fld) (u x n : Nat) : (s.bumpUS f u x n).cxl = s.cxl := rfl
@[simp] theorem State.bumpUS_net (s : State) (f : Fld) (u x n : Nat) : (s.bumpUS f u x n).net = s.net := rfl
@[simp] theorem State.bumpUS_ftl (s : State) (f : Fld) (u x n : Nat) : (s.bumpUS f u x n).ftl = s.ftl := rfl
@[simp] theorem State.bumpUS_plp (s : State) (f : Fld) (u x n : Nat) : (s.bumpUS f u x n).plp = s.plp := rfl
@[simp] theorem State.bumpUS_sec (s : State) (f : Fld) (u x n : Nat) : (s.bumpUS f u x n).sec = s.sec := rfl
@[simp] theorem State.bumpUS_pol (s : State) (f : Fld) (u x n : Nat) : (s.bumpUS f u x n).pol = s.pol := rfl

/-! ### emit -/

@[simp] theorem State.emit_pending (s : State) (m : OutMsg) : (s.emit m).pending = s.pending := rfl
@[simp] theorem State.emit_now (s : State) (m : OutMsg) : (s.emit m).now = s.now := rfl
@[simp] theorem State.emit_free (s : State) (m : OutMsg) : (s.emit m).free = s.free := rfl
@[simp] theorem State.emit_dev (s : State) (m : OutMsg) : (s.emit m).dev = s.dev := rfl
@[simp] theorem State.emit_regs (s : State) (m : OutMsg) : (s.emit m).regs = s.regs := rfl
@[simp] theorem State.emit_latches (s : State) (m : OutMsg) : (s.emit m).latches = s.latches := rfl
@[simp] theorem State.emit_time (s : State) (m : OutMsg) : (s.emit m).time = s.time := rfl
@[simp] theorem State.emit_tel (s : State) (m : OutMsg) : (s.emit m).tel = s.tel := rfl
@[simp] theorem State.emit_course (s : State) (m : OutMsg) : (s.emit m).course = s.course := rfl
@[simp] theorem State.emit_hw (s : State) (m : OutMsg) : (s.emit m).hw = s.hw := rfl
@[simp] theorem State.emit_boot (s : State) (m : OutMsg) : (s.emit m).boot = s.boot := rfl
@[simp] theorem State.emit_q (s : State) (m : OutMsg) : (s.emit m).q = s.q := rfl
@[simp] theorem State.emit_part (s : State) (m : OutMsg) : (s.emit m).part = s.part := rfl
@[simp] theorem State.emit_sq (s : State) (m : OutMsg) : (s.emit m).sq = s.sq := rfl
@[simp] theorem State.emit_pdir (s : State) (m : OutMsg) : (s.emit m).pdir = s.pdir := rfl
@[simp] theorem State.emit_tier (s : State) (m : OutMsg) : (s.emit m).tier = s.tier := rfl
@[simp] theorem State.emit_att (s : State) (m : OutMsg) : (s.emit m).att = s.att := rfl
@[simp] theorem State.emit_dlv (s : State) (m : OutMsg) : (s.emit m).dlv = s.dlv := rfl
@[simp] theorem State.emit_cxl (s : State) (m : OutMsg) : (s.emit m).cxl = s.cxl := rfl
@[simp] theorem State.emit_net (s : State) (m : OutMsg) : (s.emit m).net = s.net := rfl
@[simp] theorem State.emit_ftl (s : State) (m : OutMsg) : (s.emit m).ftl = s.ftl := rfl
@[simp] theorem State.emit_plp (s : State) (m : OutMsg) : (s.emit m).plp = s.plp := rfl
@[simp] theorem State.emit_sec (s : State) (m : OutMsg) : (s.emit m).sec = s.sec := rfl
@[simp] theorem State.emit_pol (s : State) (m : OutMsg) : (s.emit m).pol = s.pol := rfl

/-! ### reach -/

@[simp] theorem State.reach_pending (s : State) (t : Nat) : (s.reach t).pending = s.pending := rfl
@[simp] theorem State.reach_free (s : State) (t : Nat) : (s.reach t).free = s.free := rfl
@[simp] theorem State.reach_dev (s : State) (t : Nat) : (s.reach t).dev = s.dev := rfl
@[simp] theorem State.reach_regs (s : State) (t : Nat) : (s.reach t).regs = s.regs := rfl
@[simp] theorem State.reach_latches (s : State) (t : Nat) : (s.reach t).latches = s.latches := rfl
@[simp] theorem State.reach_out (s : State) (t : Nat) : (s.reach t).out = s.out := rfl
@[simp] theorem State.reach_time (s : State) (t : Nat) : (s.reach t).time = s.time := rfl
@[simp] theorem State.reach_tel (s : State) (t : Nat) : (s.reach t).tel = s.tel := rfl
@[simp] theorem State.reach_course (s : State) (t : Nat) : (s.reach t).course = s.course := rfl
@[simp] theorem State.reach_hw (s : State) (t : Nat) : (s.reach t).hw = s.hw := rfl
@[simp] theorem State.reach_boot (s : State) (t : Nat) : (s.reach t).boot = s.boot := rfl
@[simp] theorem State.reach_q (s : State) (t : Nat) : (s.reach t).q = s.q := rfl
@[simp] theorem State.reach_part (s : State) (t : Nat) : (s.reach t).part = s.part := rfl
@[simp] theorem State.reach_sq (s : State) (t : Nat) : (s.reach t).sq = s.sq := rfl
@[simp] theorem State.reach_pdir (s : State) (t : Nat) : (s.reach t).pdir = s.pdir := rfl
@[simp] theorem State.reach_tier (s : State) (t : Nat) : (s.reach t).tier = s.tier := rfl
@[simp] theorem State.reach_att (s : State) (t : Nat) : (s.reach t).att = s.att := rfl
@[simp] theorem State.reach_dlv (s : State) (t : Nat) : (s.reach t).dlv = s.dlv := rfl
@[simp] theorem State.reach_cxl (s : State) (t : Nat) : (s.reach t).cxl = s.cxl := rfl
@[simp] theorem State.reach_net (s : State) (t : Nat) : (s.reach t).net = s.net := rfl
@[simp] theorem State.reach_ftl (s : State) (t : Nat) : (s.reach t).ftl = s.ftl := rfl
@[simp] theorem State.reach_plp (s : State) (t : Nat) : (s.reach t).plp = s.plp := rfl
@[simp] theorem State.reach_sec (s : State) (t : Nat) : (s.reach t).sec = s.sec := rfl
@[simp] theorem State.reach_pol (s : State) (t : Nat) : (s.reach t).pol = s.pol := rfl

/-! ### setPath -/

@[simp] theorem State.setPath_pending (s : State) (p : TPath) : (s.setPath p).pending = s.pending := rfl
@[simp] theorem State.setPath_now (s : State) (p : TPath) : (s.setPath p).now = s.now := rfl
@[simp] theorem State.setPath_free (s : State) (p : TPath) : (s.setPath p).free = s.free := rfl
@[simp] theorem State.setPath_dev (s : State) (p : TPath) : (s.setPath p).dev = s.dev := rfl
@[simp] theorem State.setPath_regs (s : State) (p : TPath) : (s.setPath p).regs = s.regs := rfl
@[simp] theorem State.setPath_latches (s : State) (p : TPath) : (s.setPath p).latches = s.latches := rfl
@[simp] theorem State.setPath_out (s : State) (p : TPath) : (s.setPath p).out = s.out := rfl
@[simp] theorem State.setPath_time (s : State) (p : TPath) : (s.setPath p).time = s.time := rfl
@[simp] theorem State.setPath_course (s : State) (p : TPath) : (s.setPath p).course = s.course := rfl
@[simp] theorem State.setPath_hw (s : State) (p : TPath) : (s.setPath p).hw = s.hw := rfl
@[simp] theorem State.setPath_boot (s : State) (p : TPath) : (s.setPath p).boot = s.boot := rfl
@[simp] theorem State.setPath_q (s : State) (p : TPath) : (s.setPath p).q = s.q := rfl
@[simp] theorem State.setPath_part (s : State) (p : TPath) : (s.setPath p).part = s.part := rfl
@[simp] theorem State.setPath_sq (s : State) (p : TPath) : (s.setPath p).sq = s.sq := rfl
@[simp] theorem State.setPath_pdir (s : State) (p : TPath) : (s.setPath p).pdir = s.pdir := rfl
@[simp] theorem State.setPath_tier (s : State) (p : TPath) : (s.setPath p).tier = s.tier := rfl
@[simp] theorem State.setPath_att (s : State) (p : TPath) : (s.setPath p).att = s.att := rfl
@[simp] theorem State.setPath_dlv (s : State) (p : TPath) : (s.setPath p).dlv = s.dlv := rfl
@[simp] theorem State.setPath_cxl (s : State) (p : TPath) : (s.setPath p).cxl = s.cxl := rfl
@[simp] theorem State.setPath_net (s : State) (p : TPath) : (s.setPath p).net = s.net := rfl
@[simp] theorem State.setPath_ftl (s : State) (p : TPath) : (s.setPath p).ftl = s.ftl := rfl
@[simp] theorem State.setPath_plp (s : State) (p : TPath) : (s.setPath p).plp = s.plp := rfl
@[simp] theorem State.setPath_sec (s : State) (p : TPath) : (s.setPath p).sec = s.sec := rfl
@[simp] theorem State.setPath_pol (s : State) (p : TPath) : (s.setPath p).pol = s.pol := rfl

/-! ### hold -/

@[simp] theorem State.hold_pending (s : State) (i : Nat) (r : TRec) : (s.hold i r).pending = s.pending := rfl
@[simp] theorem State.hold_now (s : State) (i : Nat) (r : TRec) : (s.hold i r).now = s.now := rfl
@[simp] theorem State.hold_free (s : State) (i : Nat) (r : TRec) : (s.hold i r).free = s.free := rfl
@[simp] theorem State.hold_dev (s : State) (i : Nat) (r : TRec) : (s.hold i r).dev = s.dev := rfl
@[simp] theorem State.hold_regs (s : State) (i : Nat) (r : TRec) : (s.hold i r).regs = s.regs := rfl
@[simp] theorem State.hold_latches (s : State) (i : Nat) (r : TRec) : (s.hold i r).latches = s.latches := rfl
@[simp] theorem State.hold_out (s : State) (i : Nat) (r : TRec) : (s.hold i r).out = s.out := rfl
@[simp] theorem State.hold_time (s : State) (i : Nat) (r : TRec) : (s.hold i r).time = s.time := rfl
@[simp] theorem State.hold_course (s : State) (i : Nat) (r : TRec) : (s.hold i r).course = s.course := rfl
@[simp] theorem State.hold_hw (s : State) (i : Nat) (r : TRec) : (s.hold i r).hw = s.hw := rfl
@[simp] theorem State.hold_boot (s : State) (i : Nat) (r : TRec) : (s.hold i r).boot = s.boot := rfl
@[simp] theorem State.hold_q (s : State) (i : Nat) (r : TRec) : (s.hold i r).q = s.q := rfl
@[simp] theorem State.hold_part (s : State) (i : Nat) (r : TRec) : (s.hold i r).part = s.part := rfl
@[simp] theorem State.hold_sq (s : State) (i : Nat) (r : TRec) : (s.hold i r).sq = s.sq := rfl
@[simp] theorem State.hold_pdir (s : State) (i : Nat) (r : TRec) : (s.hold i r).pdir = s.pdir := rfl
@[simp] theorem State.hold_tier (s : State) (i : Nat) (r : TRec) : (s.hold i r).tier = s.tier := rfl
@[simp] theorem State.hold_att (s : State) (i : Nat) (r : TRec) : (s.hold i r).att = s.att := rfl
@[simp] theorem State.hold_dlv (s : State) (i : Nat) (r : TRec) : (s.hold i r).dlv = s.dlv := rfl
@[simp] theorem State.hold_cxl (s : State) (i : Nat) (r : TRec) : (s.hold i r).cxl = s.cxl := rfl
@[simp] theorem State.hold_net (s : State) (i : Nat) (r : TRec) : (s.hold i r).net = s.net := rfl
@[simp] theorem State.hold_ftl (s : State) (i : Nat) (r : TRec) : (s.hold i r).ftl = s.ftl := rfl
@[simp] theorem State.hold_plp (s : State) (i : Nat) (r : TRec) : (s.hold i r).plp = s.plp := rfl
@[simp] theorem State.hold_sec (s : State) (i : Nat) (r : TRec) : (s.hold i r).sec = s.sec := rfl
@[simp] theorem State.hold_pol (s : State) (i : Nat) (r : TRec) : (s.hold i r).pol = s.pol := rfl

/-! ### setPart -/

@[simp] theorem State.setPart_pending (s : State) (p : Nat) (f : Partition → Partition) : (s.setPart p f).pending = s.pending := rfl
@[simp] theorem State.setPart_now (s : State) (p : Nat) (f : Partition → Partition) : (s.setPart p f).now = s.now := rfl
@[simp] theorem State.setPart_free (s : State) (p : Nat) (f : Partition → Partition) : (s.setPart p f).free = s.free := rfl
@[simp] theorem State.setPart_dev (s : State) (p : Nat) (f : Partition → Partition) : (s.setPart p f).dev = s.dev := rfl
@[simp] theorem State.setPart_regs (s : State) (p : Nat) (f : Partition → Partition) : (s.setPart p f).regs = s.regs := rfl
@[simp] theorem State.setPart_latches (s : State) (p : Nat) (f : Partition → Partition) : (s.setPart p f).latches = s.latches := rfl
@[simp] theorem State.setPart_out (s : State) (p : Nat) (f : Partition → Partition) : (s.setPart p f).out = s.out := rfl
@[simp] theorem State.setPart_time (s : State) (p : Nat) (f : Partition → Partition) : (s.setPart p f).time = s.time := rfl
@[simp] theorem State.setPart_tel (s : State) (p : Nat) (f : Partition → Partition) : (s.setPart p f).tel = s.tel := rfl
@[simp] theorem State.setPart_course (s : State) (p : Nat) (f : Partition → Partition) : (s.setPart p f).course = s.course := rfl
@[simp] theorem State.setPart_hw (s : State) (p : Nat) (f : Partition → Partition) : (s.setPart p f).hw = s.hw := rfl
@[simp] theorem State.setPart_boot (s : State) (p : Nat) (f : Partition → Partition) : (s.setPart p f).boot = s.boot := rfl
@[simp] theorem State.setPart_q (s : State) (p : Nat) (f : Partition → Partition) : (s.setPart p f).q = s.q := rfl
@[simp] theorem State.setPart_sq (s : State) (p : Nat) (f : Partition → Partition) : (s.setPart p f).sq = s.sq := rfl
@[simp] theorem State.setPart_pdir (s : State) (p : Nat) (f : Partition → Partition) : (s.setPart p f).pdir = s.pdir := rfl
@[simp] theorem State.setPart_tier (s : State) (p : Nat) (f : Partition → Partition) : (s.setPart p f).tier = s.tier := rfl
@[simp] theorem State.setPart_att (s : State) (p : Nat) (f : Partition → Partition) : (s.setPart p f).att = s.att := rfl
@[simp] theorem State.setPart_dlv (s : State) (p : Nat) (f : Partition → Partition) : (s.setPart p f).dlv = s.dlv := rfl
@[simp] theorem State.setPart_cxl (s : State) (p : Nat) (f : Partition → Partition) : (s.setPart p f).cxl = s.cxl := rfl
@[simp] theorem State.setPart_net (s : State) (p : Nat) (f : Partition → Partition) : (s.setPart p f).net = s.net := rfl
@[simp] theorem State.setPart_ftl (s : State) (p : Nat) (f : Partition → Partition) : (s.setPart p f).ftl = s.ftl := rfl
@[simp] theorem State.setPart_plp (s : State) (p : Nat) (f : Partition → Partition) : (s.setPart p f).plp = s.plp := rfl
@[simp] theorem State.setPart_sec (s : State) (p : Nat) (f : Partition → Partition) : (s.setPart p f).sec = s.sec := rfl
@[simp] theorem State.setPart_pol (s : State) (p : Nat) (f : Partition → Partition) : (s.setPart p f).pol = s.pol := rfl

/-! ### setPins -/

@[simp] theorem State.setPins_pending (s : State) (f : Pins → Pins) : (s.setPins f).pending = s.pending := rfl
@[simp] theorem State.setPins_now (s : State) (f : Pins → Pins) : (s.setPins f).now = s.now := rfl
@[simp] theorem State.setPins_free (s : State) (f : Pins → Pins) : (s.setPins f).free = s.free := rfl
@[simp] theorem State.setPins_dev (s : State) (f : Pins → Pins) : (s.setPins f).dev = s.dev := rfl
@[simp] theorem State.setPins_regs (s : State) (f : Pins → Pins) : (s.setPins f).regs = s.regs := rfl
@[simp] theorem State.setPins_latches (s : State) (f : Pins → Pins) : (s.setPins f).latches = s.latches := rfl
@[simp] theorem State.setPins_out (s : State) (f : Pins → Pins) : (s.setPins f).out = s.out := rfl
@[simp] theorem State.setPins_time (s : State) (f : Pins → Pins) : (s.setPins f).time = s.time := rfl
@[simp] theorem State.setPins_tel (s : State) (f : Pins → Pins) : (s.setPins f).tel = s.tel := rfl
@[simp] theorem State.setPins_course (s : State) (f : Pins → Pins) : (s.setPins f).course = s.course := rfl
@[simp] theorem State.setPins_boot (s : State) (f : Pins → Pins) : (s.setPins f).boot = s.boot := rfl
@[simp] theorem State.setPins_q (s : State) (f : Pins → Pins) : (s.setPins f).q = s.q := rfl
@[simp] theorem State.setPins_part (s : State) (f : Pins → Pins) : (s.setPins f).part = s.part := rfl
@[simp] theorem State.setPins_sq (s : State) (f : Pins → Pins) : (s.setPins f).sq = s.sq := rfl
@[simp] theorem State.setPins_pdir (s : State) (f : Pins → Pins) : (s.setPins f).pdir = s.pdir := rfl
@[simp] theorem State.setPins_tier (s : State) (f : Pins → Pins) : (s.setPins f).tier = s.tier := rfl
@[simp] theorem State.setPins_att (s : State) (f : Pins → Pins) : (s.setPins f).att = s.att := rfl
@[simp] theorem State.setPins_dlv (s : State) (f : Pins → Pins) : (s.setPins f).dlv = s.dlv := rfl
@[simp] theorem State.setPins_cxl (s : State) (f : Pins → Pins) : (s.setPins f).cxl = s.cxl := rfl
@[simp] theorem State.setPins_net (s : State) (f : Pins → Pins) : (s.setPins f).net = s.net := rfl
@[simp] theorem State.setPins_ftl (s : State) (f : Pins → Pins) : (s.setPins f).ftl = s.ftl := rfl
@[simp] theorem State.setPins_plp (s : State) (f : Pins → Pins) : (s.setPins f).plp = s.plp := rfl
@[simp] theorem State.setPins_sec (s : State) (f : Pins → Pins) : (s.setPins f).sec = s.sec := rfl
@[simp] theorem State.setPins_pol (s : State) (f : Pins → Pins) : (s.setPins f).pol = s.pol := rfl

/-! ### setPort -/

@[simp] theorem State.setPort_pending (s : State) (n : Nat) (f : Port → Port) : (s.setPort n f).pending = s.pending := rfl
@[simp] theorem State.setPort_now (s : State) (n : Nat) (f : Port → Port) : (s.setPort n f).now = s.now := rfl
@[simp] theorem State.setPort_free (s : State) (n : Nat) (f : Port → Port) : (s.setPort n f).free = s.free := rfl
@[simp] theorem State.setPort_dev (s : State) (n : Nat) (f : Port → Port) : (s.setPort n f).dev = s.dev := rfl
@[simp] theorem State.setPort_regs (s : State) (n : Nat) (f : Port → Port) : (s.setPort n f).regs = s.regs := rfl
@[simp] theorem State.setPort_latches (s : State) (n : Nat) (f : Port → Port) : (s.setPort n f).latches = s.latches := rfl
@[simp] theorem State.setPort_out (s : State) (n : Nat) (f : Port → Port) : (s.setPort n f).out = s.out := rfl
@[simp] theorem State.setPort_time (s : State) (n : Nat) (f : Port → Port) : (s.setPort n f).time = s.time := rfl
@[simp] theorem State.setPort_tel (s : State) (n : Nat) (f : Port → Port) : (s.setPort n f).tel = s.tel := rfl
@[simp] theorem State.setPort_course (s : State) (n : Nat) (f : Port → Port) : (s.setPort n f).course = s.course := rfl
@[simp] theorem State.setPort_hw (s : State) (n : Nat) (f : Port → Port) : (s.setPort n f).hw = s.hw := rfl
@[simp] theorem State.setPort_boot (s : State) (n : Nat) (f : Port → Port) : (s.setPort n f).boot = s.boot := rfl
@[simp] theorem State.setPort_q (s : State) (n : Nat) (f : Port → Port) : (s.setPort n f).q = s.q := rfl
@[simp] theorem State.setPort_part (s : State) (n : Nat) (f : Port → Port) : (s.setPort n f).part = s.part := rfl
@[simp] theorem State.setPort_sq (s : State) (n : Nat) (f : Port → Port) : (s.setPort n f).sq = s.sq := rfl
@[simp] theorem State.setPort_pdir (s : State) (n : Nat) (f : Port → Port) : (s.setPort n f).pdir = s.pdir := rfl
@[simp] theorem State.setPort_tier (s : State) (n : Nat) (f : Port → Port) : (s.setPort n f).tier = s.tier := rfl
@[simp] theorem State.setPort_att (s : State) (n : Nat) (f : Port → Port) : (s.setPort n f).att = s.att := rfl
@[simp] theorem State.setPort_cxl (s : State) (n : Nat) (f : Port → Port) : (s.setPort n f).cxl = s.cxl := rfl
@[simp] theorem State.setPort_net (s : State) (n : Nat) (f : Port → Port) : (s.setPort n f).net = s.net := rfl
@[simp] theorem State.setPort_ftl (s : State) (n : Nat) (f : Port → Port) : (s.setPort n f).ftl = s.ftl := rfl
@[simp] theorem State.setPort_plp (s : State) (n : Nat) (f : Port → Port) : (s.setPort n f).plp = s.plp := rfl
@[simp] theorem State.setPort_sec (s : State) (n : Nat) (f : Port → Port) : (s.setPort n f).sec = s.sec := rfl
@[simp] theorem State.setPort_pol (s : State) (n : Nat) (f : Port → Port) : (s.setPort n f).pol = s.pol := rfl

/-! ### setHalf -/

@[simp] theorem State.setHalf_pending (s : State) (h : Nat) (f : Half → Half) : (s.setHalf h f).pending = s.pending := rfl
@[simp] theorem State.setHalf_now (s : State) (h : Nat) (f : Half → Half) : (s.setHalf h f).now = s.now := rfl
@[simp] theorem State.setHalf_free (s : State) (h : Nat) (f : Half → Half) : (s.setHalf h f).free = s.free := rfl
@[simp] theorem State.setHalf_dev (s : State) (h : Nat) (f : Half → Half) : (s.setHalf h f).dev = s.dev := rfl
@[simp] theorem State.setHalf_regs (s : State) (h : Nat) (f : Half → Half) : (s.setHalf h f).regs = s.regs := rfl
@[simp] theorem State.setHalf_latches (s : State) (h : Nat) (f : Half → Half) : (s.setHalf h f).latches = s.latches := rfl
@[simp] theorem State.setHalf_out (s : State) (h : Nat) (f : Half → Half) : (s.setHalf h f).out = s.out := rfl
@[simp] theorem State.setHalf_time (s : State) (h : Nat) (f : Half → Half) : (s.setHalf h f).time = s.time := rfl
@[simp] theorem State.setHalf_tel (s : State) (h : Nat) (f : Half → Half) : (s.setHalf h f).tel = s.tel := rfl
@[simp] theorem State.setHalf_hw (s : State) (h : Nat) (f : Half → Half) : (s.setHalf h f).hw = s.hw := rfl
@[simp] theorem State.setHalf_boot (s : State) (h : Nat) (f : Half → Half) : (s.setHalf h f).boot = s.boot := rfl
@[simp] theorem State.setHalf_q (s : State) (h : Nat) (f : Half → Half) : (s.setHalf h f).q = s.q := rfl
@[simp] theorem State.setHalf_part (s : State) (h : Nat) (f : Half → Half) : (s.setHalf h f).part = s.part := rfl
@[simp] theorem State.setHalf_sq (s : State) (h : Nat) (f : Half → Half) : (s.setHalf h f).sq = s.sq := rfl
@[simp] theorem State.setHalf_pdir (s : State) (h : Nat) (f : Half → Half) : (s.setHalf h f).pdir = s.pdir := rfl
@[simp] theorem State.setHalf_tier (s : State) (h : Nat) (f : Half → Half) : (s.setHalf h f).tier = s.tier := rfl
@[simp] theorem State.setHalf_att (s : State) (h : Nat) (f : Half → Half) : (s.setHalf h f).att = s.att := rfl
@[simp] theorem State.setHalf_dlv (s : State) (h : Nat) (f : Half → Half) : (s.setHalf h f).dlv = s.dlv := rfl
@[simp] theorem State.setHalf_cxl (s : State) (h : Nat) (f : Half → Half) : (s.setHalf h f).cxl = s.cxl := rfl
@[simp] theorem State.setHalf_net (s : State) (h : Nat) (f : Half → Half) : (s.setHalf h f).net = s.net := rfl
@[simp] theorem State.setHalf_ftl (s : State) (h : Nat) (f : Half → Half) : (s.setHalf h f).ftl = s.ftl := rfl
@[simp] theorem State.setHalf_plp (s : State) (h : Nat) (f : Half → Half) : (s.setHalf h f).plp = s.plp := rfl
@[simp] theorem State.setHalf_sec (s : State) (h : Nat) (f : Half → Half) : (s.setHalf h f).sec = s.sec := rfl
@[simp] theorem State.setHalf_pol (s : State) (h : Nat) (f : Half → Half) : (s.setHalf h f).pol = s.pol := rfl

/-! ### setCmd -/

@[simp] theorem State.setCmd_pending (s : State) (c : Nat) (f : Cmd → Cmd) : (s.setCmd c f).pending = s.pending := rfl
@[simp] theorem State.setCmd_now (s : State) (c : Nat) (f : Cmd → Cmd) : (s.setCmd c f).now = s.now := rfl
@[simp] theorem State.setCmd_free (s : State) (c : Nat) (f : Cmd → Cmd) : (s.setCmd c f).free = s.free := rfl
@[simp] theorem State.setCmd_dev (s : State) (c : Nat) (f : Cmd → Cmd) : (s.setCmd c f).dev = s.dev := rfl
@[simp] theorem State.setCmd_regs (s : State) (c : Nat) (f : Cmd → Cmd) : (s.setCmd c f).regs = s.regs := rfl
@[simp] theorem State.setCmd_latches (s : State) (c : Nat) (f : Cmd → Cmd) : (s.setCmd c f).latches = s.latches := rfl
@[simp] theorem State.setCmd_out (s : State) (c : Nat) (f : Cmd → Cmd) : (s.setCmd c f).out = s.out := rfl
@[simp] theorem State.setCmd_time (s : State) (c : Nat) (f : Cmd → Cmd) : (s.setCmd c f).time = s.time := rfl
@[simp] theorem State.setCmd_tel (s : State) (c : Nat) (f : Cmd → Cmd) : (s.setCmd c f).tel = s.tel := rfl
@[simp] theorem State.setCmd_course (s : State) (c : Nat) (f : Cmd → Cmd) : (s.setCmd c f).course = s.course := rfl
@[simp] theorem State.setCmd_hw (s : State) (c : Nat) (f : Cmd → Cmd) : (s.setCmd c f).hw = s.hw := rfl
@[simp] theorem State.setCmd_boot (s : State) (c : Nat) (f : Cmd → Cmd) : (s.setCmd c f).boot = s.boot := rfl
@[simp] theorem State.setCmd_part (s : State) (c : Nat) (f : Cmd → Cmd) : (s.setCmd c f).part = s.part := rfl
@[simp] theorem State.setCmd_sq (s : State) (c : Nat) (f : Cmd → Cmd) : (s.setCmd c f).sq = s.sq := rfl
@[simp] theorem State.setCmd_pdir (s : State) (c : Nat) (f : Cmd → Cmd) : (s.setCmd c f).pdir = s.pdir := rfl
@[simp] theorem State.setCmd_tier (s : State) (c : Nat) (f : Cmd → Cmd) : (s.setCmd c f).tier = s.tier := rfl
@[simp] theorem State.setCmd_att (s : State) (c : Nat) (f : Cmd → Cmd) : (s.setCmd c f).att = s.att := rfl
@[simp] theorem State.setCmd_dlv (s : State) (c : Nat) (f : Cmd → Cmd) : (s.setCmd c f).dlv = s.dlv := rfl
@[simp] theorem State.setCmd_cxl (s : State) (c : Nat) (f : Cmd → Cmd) : (s.setCmd c f).cxl = s.cxl := rfl
@[simp] theorem State.setCmd_net (s : State) (c : Nat) (f : Cmd → Cmd) : (s.setCmd c f).net = s.net := rfl
@[simp] theorem State.setCmd_ftl (s : State) (c : Nat) (f : Cmd → Cmd) : (s.setCmd c f).ftl = s.ftl := rfl
@[simp] theorem State.setCmd_plp (s : State) (c : Nat) (f : Cmd → Cmd) : (s.setCmd c f).plp = s.plp := rfl
@[simp] theorem State.setCmd_sec (s : State) (c : Nat) (f : Cmd → Cmd) : (s.setCmd c f).sec = s.sec := rfl
@[simp] theorem State.setCmd_pol (s : State) (c : Nat) (f : Cmd → Cmd) : (s.setCmd c f).pol = s.pol := rfl

/-! ### setQueue -/

@[simp] theorem State.setQueue_pending (s : State) (n : Nat) (f : Queue → Queue) : (s.setQueue n f).pending = s.pending := rfl
@[simp] theorem State.setQueue_now (s : State) (n : Nat) (f : Queue → Queue) : (s.setQueue n f).now = s.now := rfl
@[simp] theorem State.setQueue_free (s : State) (n : Nat) (f : Queue → Queue) : (s.setQueue n f).free = s.free := rfl
@[simp] theorem State.setQueue_dev (s : State) (n : Nat) (f : Queue → Queue) : (s.setQueue n f).dev = s.dev := rfl
@[simp] theorem State.setQueue_regs (s : State) (n : Nat) (f : Queue → Queue) : (s.setQueue n f).regs = s.regs := rfl
@[simp] theorem State.setQueue_latches (s : State) (n : Nat) (f : Queue → Queue) : (s.setQueue n f).latches = s.latches := rfl
@[simp] theorem State.setQueue_out (s : State) (n : Nat) (f : Queue → Queue) : (s.setQueue n f).out = s.out := rfl
@[simp] theorem State.setQueue_time (s : State) (n : Nat) (f : Queue → Queue) : (s.setQueue n f).time = s.time := rfl
@[simp] theorem State.setQueue_tel (s : State) (n : Nat) (f : Queue → Queue) : (s.setQueue n f).tel = s.tel := rfl
@[simp] theorem State.setQueue_course (s : State) (n : Nat) (f : Queue → Queue) : (s.setQueue n f).course = s.course := rfl
@[simp] theorem State.setQueue_hw (s : State) (n : Nat) (f : Queue → Queue) : (s.setQueue n f).hw = s.hw := rfl
@[simp] theorem State.setQueue_boot (s : State) (n : Nat) (f : Queue → Queue) : (s.setQueue n f).boot = s.boot := rfl
@[simp] theorem State.setQueue_part (s : State) (n : Nat) (f : Queue → Queue) : (s.setQueue n f).part = s.part := rfl
@[simp] theorem State.setQueue_sq (s : State) (n : Nat) (f : Queue → Queue) : (s.setQueue n f).sq = s.sq := rfl
@[simp] theorem State.setQueue_pdir (s : State) (n : Nat) (f : Queue → Queue) : (s.setQueue n f).pdir = s.pdir := rfl
@[simp] theorem State.setQueue_tier (s : State) (n : Nat) (f : Queue → Queue) : (s.setQueue n f).tier = s.tier := rfl
@[simp] theorem State.setQueue_att (s : State) (n : Nat) (f : Queue → Queue) : (s.setQueue n f).att = s.att := rfl
@[simp] theorem State.setQueue_dlv (s : State) (n : Nat) (f : Queue → Queue) : (s.setQueue n f).dlv = s.dlv := rfl
@[simp] theorem State.setQueue_cxl (s : State) (n : Nat) (f : Queue → Queue) : (s.setQueue n f).cxl = s.cxl := rfl
@[simp] theorem State.setQueue_net (s : State) (n : Nat) (f : Queue → Queue) : (s.setQueue n f).net = s.net := rfl
@[simp] theorem State.setQueue_ftl (s : State) (n : Nat) (f : Queue → Queue) : (s.setQueue n f).ftl = s.ftl := rfl
@[simp] theorem State.setQueue_plp (s : State) (n : Nat) (f : Queue → Queue) : (s.setQueue n f).plp = s.plp := rfl
@[simp] theorem State.setQueue_sec (s : State) (n : Nat) (f : Queue → Queue) : (s.setQueue n f).sec = s.sec := rfl
@[simp] theorem State.setQueue_pol (s : State) (n : Nat) (f : Queue → Queue) : (s.setQueue n f).pol = s.pol := rfl

/-! ### output -/

@[simp] theorem State.output_pending (s : State) (c a : Nat) (d : Bytes) : (s.output c a d).pending = s.pending := rfl
@[simp] theorem State.output_now (s : State) (c a : Nat) (d : Bytes) : (s.output c a d).now = s.now := rfl
@[simp] theorem State.output_free (s : State) (c a : Nat) (d : Bytes) : (s.output c a d).free = s.free := rfl
@[simp] theorem State.output_dev (s : State) (c a : Nat) (d : Bytes) : (s.output c a d).dev = s.dev := rfl
@[simp] theorem State.output_regs (s : State) (c a : Nat) (d : Bytes) : (s.output c a d).regs = s.regs := rfl
@[simp] theorem State.output_latches (s : State) (c a : Nat) (d : Bytes) : (s.output c a d).latches = s.latches := rfl
@[simp] theorem State.output_out (s : State) (c a : Nat) (d : Bytes) : (s.output c a d).out = s.out := rfl
@[simp] theorem State.output_time (s : State) (c a : Nat) (d : Bytes) : (s.output c a d).time = s.time := rfl
@[simp] theorem State.output_tel (s : State) (c a : Nat) (d : Bytes) : (s.output c a d).tel = s.tel := rfl
@[simp] theorem State.output_course (s : State) (c a : Nat) (d : Bytes) : (s.output c a d).course = s.course := rfl
@[simp] theorem State.output_hw (s : State) (c a : Nat) (d : Bytes) : (s.output c a d).hw = s.hw := rfl
@[simp] theorem State.output_boot (s : State) (c a : Nat) (d : Bytes) : (s.output c a d).boot = s.boot := rfl
@[simp] theorem State.output_part (s : State) (c a : Nat) (d : Bytes) : (s.output c a d).part = s.part := rfl
@[simp] theorem State.output_sq (s : State) (c a : Nat) (d : Bytes) : (s.output c a d).sq = s.sq := rfl
@[simp] theorem State.output_pdir (s : State) (c a : Nat) (d : Bytes) : (s.output c a d).pdir = s.pdir := rfl
@[simp] theorem State.output_tier (s : State) (c a : Nat) (d : Bytes) : (s.output c a d).tier = s.tier := rfl
@[simp] theorem State.output_att (s : State) (c a : Nat) (d : Bytes) : (s.output c a d).att = s.att := rfl
@[simp] theorem State.output_dlv (s : State) (c a : Nat) (d : Bytes) : (s.output c a d).dlv = s.dlv := rfl
@[simp] theorem State.output_cxl (s : State) (c a : Nat) (d : Bytes) : (s.output c a d).cxl = s.cxl := rfl
@[simp] theorem State.output_net (s : State) (c a : Nat) (d : Bytes) : (s.output c a d).net = s.net := rfl
@[simp] theorem State.output_ftl (s : State) (c a : Nat) (d : Bytes) : (s.output c a d).ftl = s.ftl := rfl
@[simp] theorem State.output_plp (s : State) (c a : Nat) (d : Bytes) : (s.output c a d).plp = s.plp := rfl
@[simp] theorem State.output_sec (s : State) (c a : Nat) (d : Bytes) : (s.output c a d).sec = s.sec := rfl
@[simp] theorem State.output_pol (s : State) (c a : Nat) (d : Bytes) : (s.output c a d).pol = s.pol := rfl

/-! ### setSeq -/

@[simp] theorem State.setSeq_pending (s : State) (p i : Nat) (f : Seq → Seq) : (s.setSeq p i f).pending = s.pending := rfl
@[simp] theorem State.setSeq_now (s : State) (p i : Nat) (f : Seq → Seq) : (s.setSeq p i f).now = s.now := rfl
@[simp] theorem State.setSeq_free (s : State) (p i : Nat) (f : Seq → Seq) : (s.setSeq p i f).free = s.free := rfl
@[simp] theorem State.setSeq_dev (s : State) (p i : Nat) (f : Seq → Seq) : (s.setSeq p i f).dev = s.dev := rfl
@[simp] theorem State.setSeq_regs (s : State) (p i : Nat) (f : Seq → Seq) : (s.setSeq p i f).regs = s.regs := rfl
@[simp] theorem State.setSeq_latches (s : State) (p i : Nat) (f : Seq → Seq) : (s.setSeq p i f).latches = s.latches := rfl
@[simp] theorem State.setSeq_out (s : State) (p i : Nat) (f : Seq → Seq) : (s.setSeq p i f).out = s.out := rfl
@[simp] theorem State.setSeq_time (s : State) (p i : Nat) (f : Seq → Seq) : (s.setSeq p i f).time = s.time := rfl
@[simp] theorem State.setSeq_tel (s : State) (p i : Nat) (f : Seq → Seq) : (s.setSeq p i f).tel = s.tel := rfl
@[simp] theorem State.setSeq_course (s : State) (p i : Nat) (f : Seq → Seq) : (s.setSeq p i f).course = s.course := rfl
@[simp] theorem State.setSeq_hw (s : State) (p i : Nat) (f : Seq → Seq) : (s.setSeq p i f).hw = s.hw := rfl
@[simp] theorem State.setSeq_boot (s : State) (p i : Nat) (f : Seq → Seq) : (s.setSeq p i f).boot = s.boot := rfl
@[simp] theorem State.setSeq_q (s : State) (p i : Nat) (f : Seq → Seq) : (s.setSeq p i f).q = s.q := rfl
@[simp] theorem State.setSeq_part (s : State) (p i : Nat) (f : Seq → Seq) : (s.setSeq p i f).part = s.part := rfl
@[simp] theorem State.setSeq_pdir (s : State) (p i : Nat) (f : Seq → Seq) : (s.setSeq p i f).pdir = s.pdir := rfl
@[simp] theorem State.setSeq_tier (s : State) (p i : Nat) (f : Seq → Seq) : (s.setSeq p i f).tier = s.tier := rfl
@[simp] theorem State.setSeq_att (s : State) (p i : Nat) (f : Seq → Seq) : (s.setSeq p i f).att = s.att := rfl
@[simp] theorem State.setSeq_dlv (s : State) (p i : Nat) (f : Seq → Seq) : (s.setSeq p i f).dlv = s.dlv := rfl
@[simp] theorem State.setSeq_cxl (s : State) (p i : Nat) (f : Seq → Seq) : (s.setSeq p i f).cxl = s.cxl := rfl
@[simp] theorem State.setSeq_net (s : State) (p i : Nat) (f : Seq → Seq) : (s.setSeq p i f).net = s.net := rfl
@[simp] theorem State.setSeq_ftl (s : State) (p i : Nat) (f : Seq → Seq) : (s.setSeq p i f).ftl = s.ftl := rfl
@[simp] theorem State.setSeq_plp (s : State) (p i : Nat) (f : Seq → Seq) : (s.setSeq p i f).plp = s.plp := rfl
@[simp] theorem State.setSeq_sec (s : State) (p i : Nat) (f : Seq → Seq) : (s.setSeq p i f).sec = s.sec := rfl
@[simp] theorem State.setSeq_pol (s : State) (p i : Nat) (f : Seq → Seq) : (s.setSeq p i f).pol = s.pol := rfl

/-! ### setLeaf -/

@[simp] theorem State.setLeaf_pending (s : State) (h : Nat) (f : Leaf → Leaf) : (s.setLeaf h f).pending = s.pending := rfl
@[simp] theorem State.setLeaf_now (s : State) (h : Nat) (f : Leaf → Leaf) : (s.setLeaf h f).now = s.now := rfl
@[simp] theorem State.setLeaf_free (s : State) (h : Nat) (f : Leaf → Leaf) : (s.setLeaf h f).free = s.free := rfl
@[simp] theorem State.setLeaf_dev (s : State) (h : Nat) (f : Leaf → Leaf) : (s.setLeaf h f).dev = s.dev := rfl
@[simp] theorem State.setLeaf_regs (s : State) (h : Nat) (f : Leaf → Leaf) : (s.setLeaf h f).regs = s.regs := rfl
@[simp] theorem State.setLeaf_latches (s : State) (h : Nat) (f : Leaf → Leaf) : (s.setLeaf h f).latches = s.latches := rfl
@[simp] theorem State.setLeaf_out (s : State) (h : Nat) (f : Leaf → Leaf) : (s.setLeaf h f).out = s.out := rfl
@[simp] theorem State.setLeaf_time (s : State) (h : Nat) (f : Leaf → Leaf) : (s.setLeaf h f).time = s.time := rfl
@[simp] theorem State.setLeaf_tel (s : State) (h : Nat) (f : Leaf → Leaf) : (s.setLeaf h f).tel = s.tel := rfl
@[simp] theorem State.setLeaf_course (s : State) (h : Nat) (f : Leaf → Leaf) : (s.setLeaf h f).course = s.course := rfl
@[simp] theorem State.setLeaf_hw (s : State) (h : Nat) (f : Leaf → Leaf) : (s.setLeaf h f).hw = s.hw := rfl
@[simp] theorem State.setLeaf_boot (s : State) (h : Nat) (f : Leaf → Leaf) : (s.setLeaf h f).boot = s.boot := rfl
@[simp] theorem State.setLeaf_q (s : State) (h : Nat) (f : Leaf → Leaf) : (s.setLeaf h f).q = s.q := rfl
@[simp] theorem State.setLeaf_part (s : State) (h : Nat) (f : Leaf → Leaf) : (s.setLeaf h f).part = s.part := rfl
@[simp] theorem State.setLeaf_pdir (s : State) (h : Nat) (f : Leaf → Leaf) : (s.setLeaf h f).pdir = s.pdir := rfl
@[simp] theorem State.setLeaf_tier (s : State) (h : Nat) (f : Leaf → Leaf) : (s.setLeaf h f).tier = s.tier := rfl
@[simp] theorem State.setLeaf_att (s : State) (h : Nat) (f : Leaf → Leaf) : (s.setLeaf h f).att = s.att := rfl
@[simp] theorem State.setLeaf_dlv (s : State) (h : Nat) (f : Leaf → Leaf) : (s.setLeaf h f).dlv = s.dlv := rfl
@[simp] theorem State.setLeaf_cxl (s : State) (h : Nat) (f : Leaf → Leaf) : (s.setLeaf h f).cxl = s.cxl := rfl
@[simp] theorem State.setLeaf_net (s : State) (h : Nat) (f : Leaf → Leaf) : (s.setLeaf h f).net = s.net := rfl
@[simp] theorem State.setLeaf_ftl (s : State) (h : Nat) (f : Leaf → Leaf) : (s.setLeaf h f).ftl = s.ftl := rfl
@[simp] theorem State.setLeaf_plp (s : State) (h : Nat) (f : Leaf → Leaf) : (s.setLeaf h f).plp = s.plp := rfl
@[simp] theorem State.setLeaf_sec (s : State) (h : Nat) (f : Leaf → Leaf) : (s.setLeaf h f).sec = s.sec := rfl
@[simp] theorem State.setLeaf_pol (s : State) (h : Nat) (f : Leaf → Leaf) : (s.setLeaf h f).pol = s.pol := rfl

/-! ### setPage -/

@[simp] theorem State.setPage_pending (s : State) (p i : Nat) (f : Page → Page) : (s.setPage p i f).pending = s.pending := rfl
@[simp] theorem State.setPage_now (s : State) (p i : Nat) (f : Page → Page) : (s.setPage p i f).now = s.now := rfl
@[simp] theorem State.setPage_free (s : State) (p i : Nat) (f : Page → Page) : (s.setPage p i f).free = s.free := rfl
@[simp] theorem State.setPage_dev (s : State) (p i : Nat) (f : Page → Page) : (s.setPage p i f).dev = s.dev := rfl
@[simp] theorem State.setPage_regs (s : State) (p i : Nat) (f : Page → Page) : (s.setPage p i f).regs = s.regs := rfl
@[simp] theorem State.setPage_latches (s : State) (p i : Nat) (f : Page → Page) : (s.setPage p i f).latches = s.latches := rfl
@[simp] theorem State.setPage_out (s : State) (p i : Nat) (f : Page → Page) : (s.setPage p i f).out = s.out := rfl
@[simp] theorem State.setPage_time (s : State) (p i : Nat) (f : Page → Page) : (s.setPage p i f).time = s.time := rfl
@[simp] theorem State.setPage_tel (s : State) (p i : Nat) (f : Page → Page) : (s.setPage p i f).tel = s.tel := rfl
@[simp] theorem State.setPage_course (s : State) (p i : Nat) (f : Page → Page) : (s.setPage p i f).course = s.course := rfl
@[simp] theorem State.setPage_hw (s : State) (p i : Nat) (f : Page → Page) : (s.setPage p i f).hw = s.hw := rfl
@[simp] theorem State.setPage_boot (s : State) (p i : Nat) (f : Page → Page) : (s.setPage p i f).boot = s.boot := rfl
@[simp] theorem State.setPage_q (s : State) (p i : Nat) (f : Page → Page) : (s.setPage p i f).q = s.q := rfl
@[simp] theorem State.setPage_part (s : State) (p i : Nat) (f : Page → Page) : (s.setPage p i f).part = s.part := rfl
@[simp] theorem State.setPage_pdir (s : State) (p i : Nat) (f : Page → Page) : (s.setPage p i f).pdir = s.pdir := rfl
@[simp] theorem State.setPage_tier (s : State) (p i : Nat) (f : Page → Page) : (s.setPage p i f).tier = s.tier := rfl
@[simp] theorem State.setPage_att (s : State) (p i : Nat) (f : Page → Page) : (s.setPage p i f).att = s.att := rfl
@[simp] theorem State.setPage_dlv (s : State) (p i : Nat) (f : Page → Page) : (s.setPage p i f).dlv = s.dlv := rfl
@[simp] theorem State.setPage_cxl (s : State) (p i : Nat) (f : Page → Page) : (s.setPage p i f).cxl = s.cxl := rfl
@[simp] theorem State.setPage_net (s : State) (p i : Nat) (f : Page → Page) : (s.setPage p i f).net = s.net := rfl
@[simp] theorem State.setPage_ftl (s : State) (p i : Nat) (f : Page → Page) : (s.setPage p i f).ftl = s.ftl := rfl
@[simp] theorem State.setPage_plp (s : State) (p i : Nat) (f : Page → Page) : (s.setPage p i f).plp = s.plp := rfl
@[simp] theorem State.setPage_sec (s : State) (p i : Nat) (f : Page → Page) : (s.setPage p i f).sec = s.sec := rfl
@[simp] theorem State.setPage_pol (s : State) (p i : Nat) (f : Page → Page) : (s.setPage p i f).pol = s.pol := rfl

/-! ### setJob -/

@[simp] theorem State.setJob_pending (s : State) (p i l : Nat) (f : SealJob → SealJob) : (s.setJob p i l f).pending = s.pending := rfl
@[simp] theorem State.setJob_now (s : State) (p i l : Nat) (f : SealJob → SealJob) : (s.setJob p i l f).now = s.now := rfl
@[simp] theorem State.setJob_free (s : State) (p i l : Nat) (f : SealJob → SealJob) : (s.setJob p i l f).free = s.free := rfl
@[simp] theorem State.setJob_dev (s : State) (p i l : Nat) (f : SealJob → SealJob) : (s.setJob p i l f).dev = s.dev := rfl
@[simp] theorem State.setJob_regs (s : State) (p i l : Nat) (f : SealJob → SealJob) : (s.setJob p i l f).regs = s.regs := rfl
@[simp] theorem State.setJob_latches (s : State) (p i l : Nat) (f : SealJob → SealJob) : (s.setJob p i l f).latches = s.latches := rfl
@[simp] theorem State.setJob_out (s : State) (p i l : Nat) (f : SealJob → SealJob) : (s.setJob p i l f).out = s.out := rfl
@[simp] theorem State.setJob_time (s : State) (p i l : Nat) (f : SealJob → SealJob) : (s.setJob p i l f).time = s.time := rfl
@[simp] theorem State.setJob_tel (s : State) (p i l : Nat) (f : SealJob → SealJob) : (s.setJob p i l f).tel = s.tel := rfl
@[simp] theorem State.setJob_course (s : State) (p i l : Nat) (f : SealJob → SealJob) : (s.setJob p i l f).course = s.course := rfl
@[simp] theorem State.setJob_hw (s : State) (p i l : Nat) (f : SealJob → SealJob) : (s.setJob p i l f).hw = s.hw := rfl
@[simp] theorem State.setJob_boot (s : State) (p i l : Nat) (f : SealJob → SealJob) : (s.setJob p i l f).boot = s.boot := rfl
@[simp] theorem State.setJob_q (s : State) (p i l : Nat) (f : SealJob → SealJob) : (s.setJob p i l f).q = s.q := rfl
@[simp] theorem State.setJob_part (s : State) (p i l : Nat) (f : SealJob → SealJob) : (s.setJob p i l f).part = s.part := rfl
@[simp] theorem State.setJob_pdir (s : State) (p i l : Nat) (f : SealJob → SealJob) : (s.setJob p i l f).pdir = s.pdir := rfl
@[simp] theorem State.setJob_tier (s : State) (p i l : Nat) (f : SealJob → SealJob) : (s.setJob p i l f).tier = s.tier := rfl
@[simp] theorem State.setJob_att (s : State) (p i l : Nat) (f : SealJob → SealJob) : (s.setJob p i l f).att = s.att := rfl
@[simp] theorem State.setJob_dlv (s : State) (p i l : Nat) (f : SealJob → SealJob) : (s.setJob p i l f).dlv = s.dlv := rfl
@[simp] theorem State.setJob_cxl (s : State) (p i l : Nat) (f : SealJob → SealJob) : (s.setJob p i l f).cxl = s.cxl := rfl
@[simp] theorem State.setJob_net (s : State) (p i l : Nat) (f : SealJob → SealJob) : (s.setJob p i l f).net = s.net := rfl
@[simp] theorem State.setJob_ftl (s : State) (p i l : Nat) (f : SealJob → SealJob) : (s.setJob p i l f).ftl = s.ftl := rfl
@[simp] theorem State.setJob_plp (s : State) (p i l : Nat) (f : SealJob → SealJob) : (s.setJob p i l f).plp = s.plp := rfl
@[simp] theorem State.setJob_sec (s : State) (p i l : Nat) (f : SealJob → SealJob) : (s.setJob p i l f).sec = s.sec := rfl
@[simp] theorem State.setJob_pol (s : State) (p i l : Nat) (f : SealJob → SealJob) : (s.setJob p i l f).pol = s.pol := rfl

/-! ### setCopy -/

@[simp] theorem State.setCopy_pending (s : State) (p i t d : Nat) (f : Copy → Copy) : (s.setCopy p i t d f).pending = s.pending := rfl
@[simp] theorem State.setCopy_now (s : State) (p i t d : Nat) (f : Copy → Copy) : (s.setCopy p i t d f).now = s.now := rfl
@[simp] theorem State.setCopy_free (s : State) (p i t d : Nat) (f : Copy → Copy) : (s.setCopy p i t d f).free = s.free := rfl
@[simp] theorem State.setCopy_dev (s : State) (p i t d : Nat) (f : Copy → Copy) : (s.setCopy p i t d f).dev = s.dev := rfl
@[simp] theorem State.setCopy_regs (s : State) (p i t d : Nat) (f : Copy → Copy) : (s.setCopy p i t d f).regs = s.regs := rfl
@[simp] theorem State.setCopy_latches (s : State) (p i t d : Nat) (f : Copy → Copy) : (s.setCopy p i t d f).latches = s.latches := rfl
@[simp] theorem State.setCopy_out (s : State) (p i t d : Nat) (f : Copy → Copy) : (s.setCopy p i t d f).out = s.out := rfl
@[simp] theorem State.setCopy_time (s : State) (p i t d : Nat) (f : Copy → Copy) : (s.setCopy p i t d f).time = s.time := rfl
@[simp] theorem State.setCopy_tel (s : State) (p i t d : Nat) (f : Copy → Copy) : (s.setCopy p i t d f).tel = s.tel := rfl
@[simp] theorem State.setCopy_course (s : State) (p i t d : Nat) (f : Copy → Copy) : (s.setCopy p i t d f).course = s.course := rfl
@[simp] theorem State.setCopy_hw (s : State) (p i t d : Nat) (f : Copy → Copy) : (s.setCopy p i t d f).hw = s.hw := rfl
@[simp] theorem State.setCopy_boot (s : State) (p i t d : Nat) (f : Copy → Copy) : (s.setCopy p i t d f).boot = s.boot := rfl
@[simp] theorem State.setCopy_q (s : State) (p i t d : Nat) (f : Copy → Copy) : (s.setCopy p i t d f).q = s.q := rfl
@[simp] theorem State.setCopy_part (s : State) (p i t d : Nat) (f : Copy → Copy) : (s.setCopy p i t d f).part = s.part := rfl
@[simp] theorem State.setCopy_sq (s : State) (p i t d : Nat) (f : Copy → Copy) : (s.setCopy p i t d f).sq = s.sq := rfl
@[simp] theorem State.setCopy_pdir (s : State) (p i t d : Nat) (f : Copy → Copy) : (s.setCopy p i t d f).pdir = s.pdir := rfl
@[simp] theorem State.setCopy_att (s : State) (p i t d : Nat) (f : Copy → Copy) : (s.setCopy p i t d f).att = s.att := rfl
@[simp] theorem State.setCopy_dlv (s : State) (p i t d : Nat) (f : Copy → Copy) : (s.setCopy p i t d f).dlv = s.dlv := rfl
@[simp] theorem State.setCopy_cxl (s : State) (p i t d : Nat) (f : Copy → Copy) : (s.setCopy p i t d f).cxl = s.cxl := rfl
@[simp] theorem State.setCopy_net (s : State) (p i t d : Nat) (f : Copy → Copy) : (s.setCopy p i t d f).net = s.net := rfl
@[simp] theorem State.setCopy_ftl (s : State) (p i t d : Nat) (f : Copy → Copy) : (s.setCopy p i t d f).ftl = s.ftl := rfl
@[simp] theorem State.setCopy_plp (s : State) (p i t d : Nat) (f : Copy → Copy) : (s.setCopy p i t d f).plp = s.plp := rfl
@[simp] theorem State.setCopy_sec (s : State) (p i t d : Nat) (f : Copy → Copy) : (s.setCopy p i t d f).sec = s.sec := rfl
@[simp] theorem State.setCopy_pol (s : State) (p i t d : Nat) (f : Copy → Copy) : (s.setCopy p i t d f).pol = s.pol := rfl

/-! ### setPool -/

@[simp] theorem State.setPool_pending (s : State) (p t d : Nat) (x : PoolSt) : (s.setPool p t d x).pending = s.pending := rfl
@[simp] theorem State.setPool_now (s : State) (p t d : Nat) (x : PoolSt) : (s.setPool p t d x).now = s.now := rfl
@[simp] theorem State.setPool_free (s : State) (p t d : Nat) (x : PoolSt) : (s.setPool p t d x).free = s.free := rfl
@[simp] theorem State.setPool_dev (s : State) (p t d : Nat) (x : PoolSt) : (s.setPool p t d x).dev = s.dev := rfl
@[simp] theorem State.setPool_regs (s : State) (p t d : Nat) (x : PoolSt) : (s.setPool p t d x).regs = s.regs := rfl
@[simp] theorem State.setPool_latches (s : State) (p t d : Nat) (x : PoolSt) : (s.setPool p t d x).latches = s.latches := rfl
@[simp] theorem State.setPool_out (s : State) (p t d : Nat) (x : PoolSt) : (s.setPool p t d x).out = s.out := rfl
@[simp] theorem State.setPool_time (s : State) (p t d : Nat) (x : PoolSt) : (s.setPool p t d x).time = s.time := rfl
@[simp] theorem State.setPool_tel (s : State) (p t d : Nat) (x : PoolSt) : (s.setPool p t d x).tel = s.tel := rfl
@[simp] theorem State.setPool_course (s : State) (p t d : Nat) (x : PoolSt) : (s.setPool p t d x).course = s.course := rfl
@[simp] theorem State.setPool_hw (s : State) (p t d : Nat) (x : PoolSt) : (s.setPool p t d x).hw = s.hw := rfl
@[simp] theorem State.setPool_boot (s : State) (p t d : Nat) (x : PoolSt) : (s.setPool p t d x).boot = s.boot := rfl
@[simp] theorem State.setPool_q (s : State) (p t d : Nat) (x : PoolSt) : (s.setPool p t d x).q = s.q := rfl
@[simp] theorem State.setPool_part (s : State) (p t d : Nat) (x : PoolSt) : (s.setPool p t d x).part = s.part := rfl
@[simp] theorem State.setPool_sq (s : State) (p t d : Nat) (x : PoolSt) : (s.setPool p t d x).sq = s.sq := rfl
@[simp] theorem State.setPool_pdir (s : State) (p t d : Nat) (x : PoolSt) : (s.setPool p t d x).pdir = s.pdir := rfl
@[simp] theorem State.setPool_att (s : State) (p t d : Nat) (x : PoolSt) : (s.setPool p t d x).att = s.att := rfl
@[simp] theorem State.setPool_dlv (s : State) (p t d : Nat) (x : PoolSt) : (s.setPool p t d x).dlv = s.dlv := rfl
@[simp] theorem State.setPool_cxl (s : State) (p t d : Nat) (x : PoolSt) : (s.setPool p t d x).cxl = s.cxl := rfl
@[simp] theorem State.setPool_net (s : State) (p t d : Nat) (x : PoolSt) : (s.setPool p t d x).net = s.net := rfl
@[simp] theorem State.setPool_ftl (s : State) (p t d : Nat) (x : PoolSt) : (s.setPool p t d x).ftl = s.ftl := rfl
@[simp] theorem State.setPool_plp (s : State) (p t d : Nat) (x : PoolSt) : (s.setPool p t d x).plp = s.plp := rfl
@[simp] theorem State.setPool_sec (s : State) (p t d : Nat) (x : PoolSt) : (s.setPool p t d x).sec = s.sec := rfl
@[simp] theorem State.setPool_pol (s : State) (p t d : Nat) (x : PoolSt) : (s.setPool p t d x).pol = s.pol := rfl

/-! ### setCadence -/

@[simp] theorem State.setCadence_pending (s : State) (g : Cadence) : (s.setCadence g).pending = s.pending := rfl
@[simp] theorem State.setCadence_now (s : State) (g : Cadence) : (s.setCadence g).now = s.now := rfl
@[simp] theorem State.setCadence_free (s : State) (g : Cadence) : (s.setCadence g).free = s.free := rfl
@[simp] theorem State.setCadence_dev (s : State) (g : Cadence) : (s.setCadence g).dev = s.dev := rfl
@[simp] theorem State.setCadence_regs (s : State) (g : Cadence) : (s.setCadence g).regs = s.regs := rfl
@[simp] theorem State.setCadence_latches (s : State) (g : Cadence) : (s.setCadence g).latches = s.latches := rfl
@[simp] theorem State.setCadence_out (s : State) (g : Cadence) : (s.setCadence g).out = s.out := rfl
@[simp] theorem State.setCadence_time (s : State) (g : Cadence) : (s.setCadence g).time = s.time := rfl
@[simp] theorem State.setCadence_tel (s : State) (g : Cadence) : (s.setCadence g).tel = s.tel := rfl
@[simp] theorem State.setCadence_course (s : State) (g : Cadence) : (s.setCadence g).course = s.course := rfl
@[simp] theorem State.setCadence_hw (s : State) (g : Cadence) : (s.setCadence g).hw = s.hw := rfl
@[simp] theorem State.setCadence_boot (s : State) (g : Cadence) : (s.setCadence g).boot = s.boot := rfl
@[simp] theorem State.setCadence_q (s : State) (g : Cadence) : (s.setCadence g).q = s.q := rfl
@[simp] theorem State.setCadence_part (s : State) (g : Cadence) : (s.setCadence g).part = s.part := rfl
@[simp] theorem State.setCadence_sq (s : State) (g : Cadence) : (s.setCadence g).sq = s.sq := rfl
@[simp] theorem State.setCadence_pdir (s : State) (g : Cadence) : (s.setCadence g).pdir = s.pdir := rfl
@[simp] theorem State.setCadence_att (s : State) (g : Cadence) : (s.setCadence g).att = s.att := rfl
@[simp] theorem State.setCadence_dlv (s : State) (g : Cadence) : (s.setCadence g).dlv = s.dlv := rfl
@[simp] theorem State.setCadence_cxl (s : State) (g : Cadence) : (s.setCadence g).cxl = s.cxl := rfl
@[simp] theorem State.setCadence_net (s : State) (g : Cadence) : (s.setCadence g).net = s.net := rfl
@[simp] theorem State.setCadence_ftl (s : State) (g : Cadence) : (s.setCadence g).ftl = s.ftl := rfl
@[simp] theorem State.setCadence_plp (s : State) (g : Cadence) : (s.setCadence g).plp = s.plp := rfl
@[simp] theorem State.setCadence_sec (s : State) (g : Cadence) : (s.setCadence g).sec = s.sec := rfl
@[simp] theorem State.setCadence_pol (s : State) (g : Cadence) : (s.setCadence g).pol = s.pol := rfl

/-! ### setSeqr -/

@[simp] theorem State.setSeqr_pending (s : State) (d n : Nat) (f : Sequencer → Sequencer) : (s.setSeqr d n f).pending = s.pending := rfl
@[simp] theorem State.setSeqr_now (s : State) (d n : Nat) (f : Sequencer → Sequencer) : (s.setSeqr d n f).now = s.now := rfl
@[simp] theorem State.setSeqr_free (s : State) (d n : Nat) (f : Sequencer → Sequencer) : (s.setSeqr d n f).free = s.free := rfl
@[simp] theorem State.setSeqr_dev (s : State) (d n : Nat) (f : Sequencer → Sequencer) : (s.setSeqr d n f).dev = s.dev := rfl
@[simp] theorem State.setSeqr_regs (s : State) (d n : Nat) (f : Sequencer → Sequencer) : (s.setSeqr d n f).regs = s.regs := rfl
@[simp] theorem State.setSeqr_latches (s : State) (d n : Nat) (f : Sequencer → Sequencer) : (s.setSeqr d n f).latches = s.latches := rfl
@[simp] theorem State.setSeqr_out (s : State) (d n : Nat) (f : Sequencer → Sequencer) : (s.setSeqr d n f).out = s.out := rfl
@[simp] theorem State.setSeqr_time (s : State) (d n : Nat) (f : Sequencer → Sequencer) : (s.setSeqr d n f).time = s.time := rfl
@[simp] theorem State.setSeqr_tel (s : State) (d n : Nat) (f : Sequencer → Sequencer) : (s.setSeqr d n f).tel = s.tel := rfl
@[simp] theorem State.setSeqr_course (s : State) (d n : Nat) (f : Sequencer → Sequencer) : (s.setSeqr d n f).course = s.course := rfl
@[simp] theorem State.setSeqr_hw (s : State) (d n : Nat) (f : Sequencer → Sequencer) : (s.setSeqr d n f).hw = s.hw := rfl
@[simp] theorem State.setSeqr_boot (s : State) (d n : Nat) (f : Sequencer → Sequencer) : (s.setSeqr d n f).boot = s.boot := rfl
@[simp] theorem State.setSeqr_q (s : State) (d n : Nat) (f : Sequencer → Sequencer) : (s.setSeqr d n f).q = s.q := rfl
@[simp] theorem State.setSeqr_part (s : State) (d n : Nat) (f : Sequencer → Sequencer) : (s.setSeqr d n f).part = s.part := rfl
@[simp] theorem State.setSeqr_sq (s : State) (d n : Nat) (f : Sequencer → Sequencer) : (s.setSeqr d n f).sq = s.sq := rfl
@[simp] theorem State.setSeqr_pdir (s : State) (d n : Nat) (f : Sequencer → Sequencer) : (s.setSeqr d n f).pdir = s.pdir := rfl
@[simp] theorem State.setSeqr_tier (s : State) (d n : Nat) (f : Sequencer → Sequencer) : (s.setSeqr d n f).tier = s.tier := rfl
@[simp] theorem State.setSeqr_att (s : State) (d n : Nat) (f : Sequencer → Sequencer) : (s.setSeqr d n f).att = s.att := rfl
@[simp] theorem State.setSeqr_dlv (s : State) (d n : Nat) (f : Sequencer → Sequencer) : (s.setSeqr d n f).dlv = s.dlv := rfl
@[simp] theorem State.setSeqr_cxl (s : State) (d n : Nat) (f : Sequencer → Sequencer) : (s.setSeqr d n f).cxl = s.cxl := rfl
@[simp] theorem State.setSeqr_net (s : State) (d n : Nat) (f : Sequencer → Sequencer) : (s.setSeqr d n f).net = s.net := rfl
@[simp] theorem State.setSeqr_ftl (s : State) (d n : Nat) (f : Sequencer → Sequencer) : (s.setSeqr d n f).ftl = s.ftl := rfl
@[simp] theorem State.setSeqr_plp (s : State) (d n : Nat) (f : Sequencer → Sequencer) : (s.setSeqr d n f).plp = s.plp := rfl
@[simp] theorem State.setSeqr_sec (s : State) (d n : Nat) (f : Sequencer → Sequencer) : (s.setSeqr d n f).sec = s.sec := rfl

end Sys2Proof.Machine
end

