-- ==== Sys2Proof/Laws/Events.lean ====
section
/-! SUPPORT. What raising an event, recording a fault, completing a command and charging change: everything else stands. -/

namespace Sys2Proof.Machine

/-- A fold whose every step keeps a part of the state keeps it. -/
theorem foldl_keeps {α β γ : Type} (g : β → γ) (f : β → α → β) (h : ∀ b a, g (f b a) = g b) (l : List α) (b : β) :
    g (l.foldl f b) = g b := by
  induction l generalizing b with
  | nil => rfl
  | cons a l ih => rw [List.foldl_cons, ih, h]

/-- The part of the state that telemetry never touches. -/
def State.core (s : State) : State := { s with regs := [], tel := {}, pol := {} }

theorem State.core_eq (s t : State) (h : s.core = t.core) : ∃ r x o, s = { t with regs := r, tel := x, pol := o } := by
  refine ⟨s.regs, s.tel, s.pol, ?_⟩
  cases s; cases t; simp only [State.core, State.mk.injEq] at h ⊢; simp [h]

theorem State.core_with (s : State) (r : List (RegKey × Nat)) (x : Tel) (o : Pol) :
    ({ s with regs := r, tel := x, pol := o } : State).core = s.core := rfl

@[simp] theorem State.setReg_core (s : State) (f : Fld) (g p x i v : Nat) : (s.setReg f g p x i v).core = s.core := State.core_with s _ _ _
@[simp] theorem State.bumpReg_core (s : State) (f : Fld) (g p x i n : Nat) : (s.bumpReg f g p x i n).core = s.core := State.core_with s _ _ _
@[simp] theorem State.w_core (s : State) (f : Fld) (v : Nat) : (s.w f v).core = s.core := State.core_with s _ _ _
@[simp] theorem State.wcm_core (s : State) (f : Fld) (g p v : Nat) : (s.wcm f g p v).core = s.core := State.core_with s _ _ _
@[simp] theorem State.bump_core (s : State) (f : Fld) (n : Nat) : (s.bump f n).core = s.core := State.core_with s _ _ _
@[simp] theorem State.bumpP_core (s : State) (f : Fld) (p n : Nat) : (s.bumpP f p n).core = s.core := State.core_with s _ _ _
@[simp] theorem State.bumpPS_core (s : State) (f : Fld) (p x n : Nat) : (s.bumpPS f p x n).core = s.core := State.core_with s _ _ _
@[simp] theorem State.bumpU_core (s : State) (f : Fld) (u n : Nat) : (s.bumpU f u n).core = s.core := State.core_with s _ _ _
@[simp] theorem State.setPath_core (s : State) (p : TPath) : (s.setPath p).core = s.core := State.core_with s _ _ _
@[simp] theorem State.hold_core (s : State) (i : Nat) (r : TRec) : (s.hold i r).core = s.core := State.core_with s _ _ _

theorem ite_both {α : Type} {P : α → Prop} {c : Prop} [Decidable c] {a b : α} (h : P a) (k : P b) : P (if c then a else b) := by
  split
  · exact h
  · exact k

@[simp] theorem State.latch_core (s : State) (b g p n : Nat) : (s.latch b g p n).core = s.core := by
  unfold State.latch; extract_lets u l s1
  have h : s1.core = s.core := ite_both (P := fun x : State => x.core = s.core) (by simp) rfl
  simpa using h

theorem State.alarmIn_core (s : State) (i : Nat) (r : TRec) : (s.alarmIn i r).core = s.core := by
  unfold State.alarmIn; extract_lets
  repeat' refine ite_both (P := fun x : State => x.core = s.core) ?_ ?_
  all_goals exact State.setPath_core ..

theorem State.logIn_core (s : State) (i : Nat) (r : TRec) : (s.logIn i r).1.core = s.core := by
  unfold State.logIn; extract_lets
  refine ite_both (P := fun x : State × Bool => x.1.core = s.core) rfl (ite_both (P := fun x : State × Bool => x.1.core = s.core) ?_ ?_)
  · exact ite_both (P := fun x : State × Bool => x.1.core = s.core) (by simp) rfl
  repeat' refine ite_both (P := fun x : State × Bool => x.1.core = s.core) ?_ ?_
  all_goals first
    | (simp +zetaDelta; done)
    | rfl

theorem State.arrive_core (s : State) (i : Nat) (r : TRec) : (s.arrive i r).1.core = s.core := by
  unfold State.arrive; repeat' split
  · rfl
  · exact State.alarmIn_core s i r
  · rfl
  · exact State.logIn_core s i r

theorem State.arriveAll_core (s : State) (r : TRec) (l : List Nat) (b : Bool) :
    (l.foldl (fun acc i => let a := acc.1.arrive i r; (a.1, acc.2 || a.2)) (s, b)).1.core = s.core := by
  have := foldl_keeps (fun x : State × Bool => x.1.core) (fun acc i => let a := acc.1.arrive i r; (a.1, acc.2 || a.2))
    (fun b a => State.arrive_core b.1 a r) l (s, b)
  simpa using this

theorem State.carry_core (s : State) (r : TRec) : (s.carry r).core = s.core := by
  unfold State.carry; extract_lets res
  have h : res.1.core = s.core := State.arriveAll_core s r _ false
  refine ite_both (P := fun x : State => x.core = s.core) ?_ h
  exact (foldl_keeps State.core (fun acc i => (acc.arrive i _).1) (fun b a => State.arrive_core b a _) _ _).trans
    ((State.latch_core ..).trans h)

theorem State.raiseAt_core (s : State) (b g n p : Nat) (al : Bool) : (s.raiseAt b g n p al).core = s.core := by
  unfold State.raiseAt; extract_lets s1 s2 m
  have h1 : s1.core = s.core := State.latch_core ..
  have h2 : s2.core = s.core := ite_both (P := fun x : State => x.core = s.core) ((State.latch_core ..).trans h1) h1
  exact ite_both (P := fun x : State => x.core = s.core) ((State.carry_core ..).trans h2) h2

theorem State.raise_core (s : State) (e : EvDef) (p : Nat) : (s.raise e p).core = s.core := State.raiseAt_core ..

theorem State.raiseU_core (s : State) (e : EvDef) (u p : Nat) : (s.raiseU e u p).core = s.core := State.raiseAt_core ..

theorem State.fault_core (s : State) (k a p u c l : Nat) : (s.fault k a p u c l).core = s.core := by
  unfold State.fault
  refine (State.raise_core ..).trans ((State.carry_core ..).trans ?_)
  rw [State.w_core, State.bump_core]
  simp only [State.core]

theorem State.pending_of_core {s t : State} (h : s.core = t.core) : s.pending = t.pending := (congrArg State.pending h :)
theorem State.now_of_core {s t : State} (h : s.core = t.core) : s.now = t.now := (congrArg State.now h :)
theorem State.free_of_core {s t : State} (h : s.core = t.core) : s.free = t.free := (congrArg State.free h :)
theorem State.dev_of_core {s t : State} (h : s.core = t.core) : s.dev = t.dev := (congrArg State.dev h :)
theorem State.latches_of_core {s t : State} (h : s.core = t.core) : s.latches = t.latches := (congrArg State.latches h :)
theorem State.out_of_core {s t : State} (h : s.core = t.core) : s.out = t.out := (congrArg State.out h :)
theorem State.time_of_core {s t : State} (h : s.core = t.core) : s.time = t.time := (congrArg State.time h :)
theorem State.course_of_core {s t : State} (h : s.core = t.core) : s.course = t.course := (congrArg State.course h :)
theorem State.hw_of_core {s t : State} (h : s.core = t.core) : s.hw = t.hw := (congrArg State.hw h :)
theorem State.boot_of_core {s t : State} (h : s.core = t.core) : s.boot = t.boot := (congrArg State.boot h :)
theorem State.q_of_core {s t : State} (h : s.core = t.core) : s.q = t.q := (congrArg State.q h :)
theorem State.part_of_core {s t : State} (h : s.core = t.core) : s.part = t.part := (congrArg State.part h :)
theorem State.sq_of_core {s t : State} (h : s.core = t.core) : s.sq = t.sq := (congrArg State.sq h :)
theorem State.pdir_of_core {s t : State} (h : s.core = t.core) : s.pdir = t.pdir := (congrArg State.pdir h :)
theorem State.tier_of_core {s t : State} (h : s.core = t.core) : s.tier = t.tier := (congrArg State.tier h :)
theorem State.att_of_core {s t : State} (h : s.core = t.core) : s.att = t.att := (congrArg State.att h :)
theorem State.dlv_of_core {s t : State} (h : s.core = t.core) : s.dlv = t.dlv := (congrArg State.dlv h :)
theorem State.cxl_of_core {s t : State} (h : s.core = t.core) : s.cxl = t.cxl := (congrArg State.cxl h :)
theorem State.net_of_core {s t : State} (h : s.core = t.core) : s.net = t.net := (congrArg State.net h :)
theorem State.ftl_of_core {s t : State} (h : s.core = t.core) : s.ftl = t.ftl := (congrArg State.ftl h :)
theorem State.plp_of_core {s t : State} (h : s.core = t.core) : s.plp = t.plp := (congrArg State.plp h :)
theorem State.sec_of_core {s t : State} (h : s.core = t.core) : s.sec = t.sec := (congrArg State.sec h :)

@[simp] theorem State.raise_pending (s : State) (e : EvDef) (p : Nat) : (s.raise e p).pending = s.pending := State.pending_of_core (State.raise_core s e p)
@[simp] theorem State.raise_now (s : State) (e : EvDef) (p : Nat) : (s.raise e p).now = s.now := State.now_of_core (State.raise_core s e p)
@[simp] theorem State.raise_free (s : State) (e : EvDef) (p : Nat) : (s.raise e p).free = s.free := State.free_of_core (State.raise_core s e p)
@[simp] theorem State.raise_dev (s : State) (e : EvDef) (p : Nat) : (s.raise e p).dev = s.dev := State.dev_of_core (State.raise_core s e p)
@[simp] theorem State.raise_latches (s : State) (e : EvDef) (p : Nat) : (s.raise e p).latches = s.latches := State.latches_of_core (State.raise_core s e p)
@[simp] theorem State.raise_out (s : State) (e : EvDef) (p : Nat) : (s.raise e p).out = s.out := State.out_of_core (State.raise_core s e p)
@[simp] theorem State.raise_time (s : State) (e : EvDef) (p : Nat) : (s.raise e p).time = s.time := State.time_of_core (State.raise_core s e p)
@[simp] theorem State.raise_course (s : State) (e : EvDef) (p : Nat) : (s.raise e p).course = s.course := State.course_of_core (State.raise_core s e p)
@[simp] theorem State.raise_hw (s : State) (e : EvDef) (p : Nat) : (s.raise e p).hw = s.hw := State.hw_of_core (State.raise_core s e p)
@[simp] theorem State.raise_boot (s : State) (e : EvDef) (p : Nat) : (s.raise e p).boot = s.boot := State.boot_of_core (State.raise_core s e p)
@[simp] theorem State.raise_q (s : State) (e : EvDef) (p : Nat) : (s.raise e p).q = s.q := State.q_of_core (State.raise_core s e p)
@[simp] theorem State.raise_part (s : State) (e : EvDef) (p : Nat) : (s.raise e p).part = s.part := State.part_of_core (State.raise_core s e p)
@[simp] theorem State.raise_sq (s : State) (e : EvDef) (p : Nat) : (s.raise e p).sq = s.sq := State.sq_of_core (State.raise_core s e p)
@[simp] theorem State.raise_pdir (s : State) (e : EvDef) (p : Nat) : (s.raise e p).pdir = s.pdir := State.pdir_of_core (State.raise_core s e p)
@[simp] theorem State.raise_tier (s : State) (e : EvDef) (p : Nat) : (s.raise e p).tier = s.tier := State.tier_of_core (State.raise_core s e p)
@[simp] theorem State.raise_att (s : State) (e : EvDef) (p : Nat) : (s.raise e p).att = s.att := State.att_of_core (State.raise_core s e p)
@[simp] theorem State.raise_dlv (s : State) (e : EvDef) (p : Nat) : (s.raise e p).dlv = s.dlv := State.dlv_of_core (State.raise_core s e p)
@[simp] theorem State.raise_cxl (s : State) (e : EvDef) (p : Nat) : (s.raise e p).cxl = s.cxl := State.cxl_of_core (State.raise_core s e p)
@[simp] theorem State.raise_net (s : State) (e : EvDef) (p : Nat) : (s.raise e p).net = s.net := State.net_of_core (State.raise_core s e p)
@[simp] theorem State.raise_ftl (s : State) (e : EvDef) (p : Nat) : (s.raise e p).ftl = s.ftl := State.ftl_of_core (State.raise_core s e p)
@[simp] theorem State.raise_plp (s : State) (e : EvDef) (p : Nat) : (s.raise e p).plp = s.plp := State.plp_of_core (State.raise_core s e p)
@[simp] theorem State.raise_sec (s : State) (e : EvDef) (p : Nat) : (s.raise e p).sec = s.sec := State.sec_of_core (State.raise_core s e p)

@[simp] theorem State.raiseU_pending (s : State) (e : EvDef) (u p : Nat) : (s.raiseU e u p).pending = s.pending := State.pending_of_core (State.raiseU_core s e u p)
@[simp] theorem State.raiseU_now (s : State) (e : EvDef) (u p : Nat) : (s.raiseU e u p).now = s.now := State.now_of_core (State.raiseU_core s e u p)
@[simp] theorem State.raiseU_free (s : State) (e : EvDef) (u p : Nat) : (s.raiseU e u p).free = s.free := State.free_of_core (State.raiseU_core s e u p)
@[simp] theorem State.raiseU_dev (s : State) (e : EvDef) (u p : Nat) : (s.raiseU e u p).dev = s.dev := State.dev_of_core (State.raiseU_core s e u p)
@[simp] theorem State.raiseU_latches (s : State) (e : EvDef) (u p : Nat) : (s.raiseU e u p).latches = s.latches := State.latches_of_core (State.raiseU_core s e u p)
@[simp] theorem State.raiseU_out (s : State) (e : EvDef) (u p : Nat) : (s.raiseU e u p).out = s.out := State.out_of_core (State.raiseU_core s e u p)
@[simp] theorem State.raiseU_time (s : State) (e : EvDef) (u p : Nat) : (s.raiseU e u p).time = s.time := State.time_of_core (State.raiseU_core s e u p)
@[simp] theorem State.raiseU_course (s : State) (e : EvDef) (u p : Nat) : (s.raiseU e u p).course = s.course := State.course_of_core (State.raiseU_core s e u p)
@[simp] theorem State.raiseU_hw (s : State) (e : EvDef) (u p : Nat) : (s.raiseU e u p).hw = s.hw := State.hw_of_core (State.raiseU_core s e u p)
@[simp] theorem State.raiseU_boot (s : State) (e : EvDef) (u p : Nat) : (s.raiseU e u p).boot = s.boot := State.boot_of_core (State.raiseU_core s e u p)
@[simp] theorem State.raiseU_q (s : State) (e : EvDef) (u p : Nat) : (s.raiseU e u p).q = s.q := State.q_of_core (State.raiseU_core s e u p)
@[simp] theorem State.raiseU_part (s : State) (e : EvDef) (u p : Nat) : (s.raiseU e u p).part = s.part := State.part_of_core (State.raiseU_core s e u p)
@[simp] theorem State.raiseU_sq (s : State) (e : EvDef) (u p : Nat) : (s.raiseU e u p).sq = s.sq := State.sq_of_core (State.raiseU_core s e u p)
@[simp] theorem State.raiseU_pdir (s : State) (e : EvDef) (u p : Nat) : (s.raiseU e u p).pdir = s.pdir := State.pdir_of_core (State.raiseU_core s e u p)
@[simp] theorem State.raiseU_tier (s : State) (e : EvDef) (u p : Nat) : (s.raiseU e u p).tier = s.tier := State.tier_of_core (State.raiseU_core s e u p)
@[simp] theorem State.raiseU_att (s : State) (e : EvDef) (u p : Nat) : (s.raiseU e u p).att = s.att := State.att_of_core (State.raiseU_core s e u p)
@[simp] theorem State.raiseU_dlv (s : State) (e : EvDef) (u p : Nat) : (s.raiseU e u p).dlv = s.dlv := State.dlv_of_core (State.raiseU_core s e u p)
@[simp] theorem State.raiseU_cxl (s : State) (e : EvDef) (u p : Nat) : (s.raiseU e u p).cxl = s.cxl := State.cxl_of_core (State.raiseU_core s e u p)
@[simp] theorem State.raiseU_net (s : State) (e : EvDef) (u p : Nat) : (s.raiseU e u p).net = s.net := State.net_of_core (State.raiseU_core s e u p)
@[simp] theorem State.raiseU_ftl (s : State) (e : EvDef) (u p : Nat) : (s.raiseU e u p).ftl = s.ftl := State.ftl_of_core (State.raiseU_core s e u p)
@[simp] theorem State.raiseU_plp (s : State) (e : EvDef) (u p : Nat) : (s.raiseU e u p).plp = s.plp := State.plp_of_core (State.raiseU_core s e u p)
@[simp] theorem State.raiseU_sec (s : State) (e : EvDef) (u p : Nat) : (s.raiseU e u p).sec = s.sec := State.sec_of_core (State.raiseU_core s e u p)

@[simp] theorem State.fault_pending (s : State) (k a p u c l : Nat) : (s.fault k a p u c l).pending = s.pending := State.pending_of_core (State.fault_core s k a p u c l)
@[simp] theorem State.fault_now (s : State) (k a p u c l : Nat) : (s.fault k a p u c l).now = s.now := State.now_of_core (State.fault_core s k a p u c l)
@[simp] theorem State.fault_free (s : State) (k a p u c l : Nat) : (s.fault k a p u c l).free = s.free := State.free_of_core (State.fault_core s k a p u c l)
@[simp] theorem State.fault_dev (s : State) (k a p u c l : Nat) : (s.fault k a p u c l).dev = s.dev := State.dev_of_core (State.fault_core s k a p u c l)
@[simp] theorem State.fault_latches (s : State) (k a p u c l : Nat) : (s.fault k a p u c l).latches = s.latches := State.latches_of_core (State.fault_core s k a p u c l)
@[simp] theorem State.fault_out (s : State) (k a p u c l : Nat) : (s.fault k a p u c l).out = s.out := State.out_of_core (State.fault_core s k a p u c l)
@[simp] theorem State.fault_time (s : State) (k a p u c l : Nat) : (s.fault k a p u c l).time = s.time := State.time_of_core (State.fault_core s k a p u c l)
@[simp] theorem State.fault_course (s : State) (k a p u c l : Nat) : (s.fault k a p u c l).course = s.course := State.course_of_core (State.fault_core s k a p u c l)
@[simp] theorem State.fault_hw (s : State) (k a p u c l : Nat) : (s.fault k a p u c l).hw = s.hw := State.hw_of_core (State.fault_core s k a p u c l)
@[simp] theorem State.fault_boot (s : State) (k a p u c l : Nat) : (s.fault k a p u c l).boot = s.boot := State.boot_of_core (State.fault_core s k a p u c l)
@[simp] theorem State.fault_q (s : State) (k a p u c l : Nat) : (s.fault k a p u c l).q = s.q := State.q_of_core (State.fault_core s k a p u c l)
@[simp] theorem State.fault_part (s : State) (k a p u c l : Nat) : (s.fault k a p u c l).part = s.part := State.part_of_core (State.fault_core s k a p u c l)
@[simp] theorem State.fault_sq (s : State) (k a p u c l : Nat) : (s.fault k a p u c l).sq = s.sq := State.sq_of_core (State.fault_core s k a p u c l)
@[simp] theorem State.fault_pdir (s : State) (k a p u c l : Nat) : (s.fault k a p u c l).pdir = s.pdir := State.pdir_of_core (State.fault_core s k a p u c l)
@[simp] theorem State.fault_tier (s : State) (k a p u c l : Nat) : (s.fault k a p u c l).tier = s.tier := State.tier_of_core (State.fault_core s k a p u c l)
@[simp] theorem State.fault_att (s : State) (k a p u c l : Nat) : (s.fault k a p u c l).att = s.att := State.att_of_core (State.fault_core s k a p u c l)
@[simp] theorem State.fault_dlv (s : State) (k a p u c l : Nat) : (s.fault k a p u c l).dlv = s.dlv := State.dlv_of_core (State.fault_core s k a p u c l)
@[simp] theorem State.fault_cxl (s : State) (k a p u c l : Nat) : (s.fault k a p u c l).cxl = s.cxl := State.cxl_of_core (State.fault_core s k a p u c l)
@[simp] theorem State.fault_net (s : State) (k a p u c l : Nat) : (s.fault k a p u c l).net = s.net := State.net_of_core (State.fault_core s k a p u c l)
@[simp] theorem State.fault_ftl (s : State) (k a p u c l : Nat) : (s.fault k a p u c l).ftl = s.ftl := State.ftl_of_core (State.fault_core s k a p u c l)
@[simp] theorem State.fault_plp (s : State) (k a p u c l : Nat) : (s.fault k a p u c l).plp = s.plp := State.plp_of_core (State.fault_core s k a p u c l)
@[simp] theorem State.fault_sec (s : State) (k a p u c l : Nat) : (s.fault k a p u c l).sec = s.sec := State.sec_of_core (State.fault_core s k a p u c l)

/-- The part of the state that completing a command never touches. -/
def State.rest (s : State) : State := { s with regs := [], tel := {}, pol := {}, q := {}, part := {} }

theorem State.rest_of_core {s t : State} (h : s.core = t.core) : s.rest = t.rest := congrArg (fun x : State => { x with q := {}, part := {} }) h

@[simp] theorem State.setPart_rest (s : State) (p : Nat) (f : Partition → Partition) : (s.setPart p f).rest = s.rest := rfl
@[simp] theorem State.setCmd_rest (s : State) (c : Nat) (f : Cmd → Cmd) : (s.setCmd c f).rest = s.rest := rfl
@[simp] theorem State.bumpP_rest (s : State) (f : Fld) (p n : Nat) : (s.bumpP f p n).rest = s.rest := State.rest_of_core (State.bumpP_core s f p n)
@[simp] theorem State.raise_rest (s : State) (e : EvDef) (p : Nat) : (s.raise e p).rest = s.rest := State.rest_of_core (State.raise_core s e p)

/-- finish changes the command, its partition's switch time and what an event changes. -/
theorem State.finish_rest (s : State) (c st r0 r1 : Nat) : (s.finish c st r0 r1).rest = s.rest := by
  unfold State.finish; extract_lets s0 s1
  have h0 : s0.rest = s.rest := rfl
  have h1 : s1.rest = s.rest := by
    simp only [s1]; split
    · exact ite_both (P := fun x : State => x.rest = s.rest) ((State.setPart_rest ..).trans h0) h0
    · exact h0
  split
  · repeat' split
    all_goals first
      | rfl
      | (simp only [State.raise_rest, State.bumpP_rest]; exact h1)
      | exact h1
  · exact h1

theorem State.pending_of_rest {s t : State} (h : s.rest = t.rest) : s.pending = t.pending := (congrArg State.pending h :)
theorem State.now_of_rest {s t : State} (h : s.rest = t.rest) : s.now = t.now := (congrArg State.now h :)
theorem State.free_of_rest {s t : State} (h : s.rest = t.rest) : s.free = t.free := (congrArg State.free h :)
theorem State.dev_of_rest {s t : State} (h : s.rest = t.rest) : s.dev = t.dev := (congrArg State.dev h :)
theorem State.latches_of_rest {s t : State} (h : s.rest = t.rest) : s.latches = t.latches := (congrArg State.latches h :)
theorem State.out_of_rest {s t : State} (h : s.rest = t.rest) : s.out = t.out := (congrArg State.out h :)
theorem State.time_of_rest {s t : State} (h : s.rest = t.rest) : s.time = t.time := (congrArg State.time h :)
theorem State.course_of_rest {s t : State} (h : s.rest = t.rest) : s.course = t.course := (congrArg State.course h :)
theorem State.hw_of_rest {s t : State} (h : s.rest = t.rest) : s.hw = t.hw := (congrArg State.hw h :)
theorem State.boot_of_rest {s t : State} (h : s.rest = t.rest) : s.boot = t.boot := (congrArg State.boot h :)
theorem State.sq_of_rest {s t : State} (h : s.rest = t.rest) : s.sq = t.sq := (congrArg State.sq h :)
theorem State.pdir_of_rest {s t : State} (h : s.rest = t.rest) : s.pdir = t.pdir := (congrArg State.pdir h :)
theorem State.tier_of_rest {s t : State} (h : s.rest = t.rest) : s.tier = t.tier := (congrArg State.tier h :)
theorem State.att_of_rest {s t : State} (h : s.rest = t.rest) : s.att = t.att := (congrArg State.att h :)
theorem State.dlv_of_rest {s t : State} (h : s.rest = t.rest) : s.dlv = t.dlv := (congrArg State.dlv h :)
theorem State.cxl_of_rest {s t : State} (h : s.rest = t.rest) : s.cxl = t.cxl := (congrArg State.cxl h :)
theorem State.net_of_rest {s t : State} (h : s.rest = t.rest) : s.net = t.net := (congrArg State.net h :)
theorem State.ftl_of_rest {s t : State} (h : s.rest = t.rest) : s.ftl = t.ftl := (congrArg State.ftl h :)
theorem State.plp_of_rest {s t : State} (h : s.rest = t.rest) : s.plp = t.plp := (congrArg State.plp h :)
theorem State.sec_of_rest {s t : State} (h : s.rest = t.rest) : s.sec = t.sec := (congrArg State.sec h :)

@[simp] theorem State.finish_pending (s : State) (c st a b : Nat) : (s.finish c st a b).pending = s.pending := State.pending_of_rest (State.finish_rest s c st a b)
@[simp] theorem State.finish_now (s : State) (c st a b : Nat) : (s.finish c st a b).now = s.now := State.now_of_rest (State.finish_rest s c st a b)
@[simp] theorem State.finish_free (s : State) (c st a b : Nat) : (s.finish c st a b).free = s.free := State.free_of_rest (State.finish_rest s c st a b)
@[simp] theorem State.finish_dev (s : State) (c st a b : Nat) : (s.finish c st a b).dev = s.dev := State.dev_of_rest (State.finish_rest s c st a b)
@[simp] theorem State.finish_latches (s : State) (c st a b : Nat) : (s.finish c st a b).latches = s.latches := State.latches_of_rest (State.finish_rest s c st a b)
@[simp] theorem State.finish_out (s : State) (c st a b : Nat) : (s.finish c st a b).out = s.out := State.out_of_rest (State.finish_rest s c st a b)
@[simp] theorem State.finish_time (s : State) (c st a b : Nat) : (s.finish c st a b).time = s.time := State.time_of_rest (State.finish_rest s c st a b)
@[simp] theorem State.finish_course (s : State) (c st a b : Nat) : (s.finish c st a b).course = s.course := State.course_of_rest (State.finish_rest s c st a b)
@[simp] theorem State.finish_hw (s : State) (c st a b : Nat) : (s.finish c st a b).hw = s.hw := State.hw_of_rest (State.finish_rest s c st a b)
@[simp] theorem State.finish_boot (s : State) (c st a b : Nat) : (s.finish c st a b).boot = s.boot := State.boot_of_rest (State.finish_rest s c st a b)
@[simp] theorem State.finish_sq (s : State) (c st a b : Nat) : (s.finish c st a b).sq = s.sq := State.sq_of_rest (State.finish_rest s c st a b)
@[simp] theorem State.finish_pdir (s : State) (c st a b : Nat) : (s.finish c st a b).pdir = s.pdir := State.pdir_of_rest (State.finish_rest s c st a b)
@[simp] theorem State.finish_tier (s : State) (c st a b : Nat) : (s.finish c st a b).tier = s.tier := State.tier_of_rest (State.finish_rest s c st a b)
@[simp] theorem State.finish_att (s : State) (c st a b : Nat) : (s.finish c st a b).att = s.att := State.att_of_rest (State.finish_rest s c st a b)
@[simp] theorem State.finish_dlv (s : State) (c st a b : Nat) : (s.finish c st a b).dlv = s.dlv := State.dlv_of_rest (State.finish_rest s c st a b)
@[simp] theorem State.finish_cxl (s : State) (c st a b : Nat) : (s.finish c st a b).cxl = s.cxl := State.cxl_of_rest (State.finish_rest s c st a b)
@[simp] theorem State.finish_net (s : State) (c st a b : Nat) : (s.finish c st a b).net = s.net := State.net_of_rest (State.finish_rest s c st a b)
@[simp] theorem State.finish_ftl (s : State) (c st a b : Nat) : (s.finish c st a b).ftl = s.ftl := State.ftl_of_rest (State.finish_rest s c st a b)
@[simp] theorem State.finish_plp (s : State) (c st a b : Nat) : (s.finish c st a b).plp = s.plp := State.plp_of_rest (State.finish_rest s c st a b)
@[simp] theorem State.finish_sec (s : State) (c st a b : Nat) : (s.finish c st a b).sec = s.sec := State.sec_of_rest (State.finish_rest s c st a b)
@[simp] theorem State.fail_pending (s : State) (c st : Nat) : (s.fail c st).pending = s.pending := State.finish_pending s c st 0 0
@[simp] theorem State.fail_now (s : State) (c st : Nat) : (s.fail c st).now = s.now := State.finish_now s c st 0 0
@[simp] theorem State.fail_free (s : State) (c st : Nat) : (s.fail c st).free = s.free := State.finish_free s c st 0 0
@[simp] theorem State.fail_dev (s : State) (c st : Nat) : (s.fail c st).dev = s.dev := State.finish_dev s c st 0 0
@[simp] theorem State.fail_latches (s : State) (c st : Nat) : (s.fail c st).latches = s.latches := State.finish_latches s c st 0 0
@[simp] theorem State.fail_out (s : State) (c st : Nat) : (s.fail c st).out = s.out := State.finish_out s c st 0 0
@[simp] theorem State.fail_time (s : State) (c st : Nat) : (s.fail c st).time = s.time := State.finish_time s c st 0 0
@[simp] theorem State.fail_course (s : State) (c st : Nat) : (s.fail c st).course = s.course := State.finish_course s c st 0 0
@[simp] theorem State.fail_hw (s : State) (c st : Nat) : (s.fail c st).hw = s.hw := State.finish_hw s c st 0 0
@[simp] theorem State.fail_boot (s : State) (c st : Nat) : (s.fail c st).boot = s.boot := State.finish_boot s c st 0 0
@[simp] theorem State.fail_sq (s : State) (c st : Nat) : (s.fail c st).sq = s.sq := State.finish_sq s c st 0 0
@[simp] theorem State.fail_pdir (s : State) (c st : Nat) : (s.fail c st).pdir = s.pdir := State.finish_pdir s c st 0 0
@[simp] theorem State.fail_tier (s : State) (c st : Nat) : (s.fail c st).tier = s.tier := State.finish_tier s c st 0 0
@[simp] theorem State.fail_att (s : State) (c st : Nat) : (s.fail c st).att = s.att := State.finish_att s c st 0 0
@[simp] theorem State.fail_dlv (s : State) (c st : Nat) : (s.fail c st).dlv = s.dlv := State.finish_dlv s c st 0 0
@[simp] theorem State.fail_cxl (s : State) (c st : Nat) : (s.fail c st).cxl = s.cxl := State.finish_cxl s c st 0 0
@[simp] theorem State.fail_net (s : State) (c st : Nat) : (s.fail c st).net = s.net := State.finish_net s c st 0 0
@[simp] theorem State.fail_ftl (s : State) (c st : Nat) : (s.fail c st).ftl = s.ftl := State.finish_ftl s c st 0 0
@[simp] theorem State.fail_plp (s : State) (c st : Nat) : (s.fail c st).plp = s.plp := State.finish_plp s c st 0 0
@[simp] theorem State.fail_sec (s : State) (c st : Nat) : (s.fail c st).sec = s.sec := State.finish_sec s c st 0 0

end Sys2Proof.Machine
end

