-- ==== Sys2Proof/Laws/Lookup.lean ====
section
/-! SUPPORT. Finding what was written: lists of records by key, registers, the command a completion ends. -/

namespace Sys2Proof.Machine

theorem find_upd {α : Type} {p : α → Bool} {f : α → α} {l : List α} {x : α} (h : l.find? p = some x) (hp : p (f x) = true) :
    (upd p f l).find? p = some (f x) := by
  induction l with
  | nil => simp at h
  | cons a l ih =>
    simp only [upd, List.map_cons]
    by_cases ha : p a = true
    · obtain rfl : a = x := by simpa [List.find?_cons, ha] using h
      simp [ha, hp]
    · have hb : p a = false := by simpa using ha
      simp only [List.find?_cons, hb] at h
      simpa [hb, List.find?_cons, upd] using ih h

theorem find_upd_other {α : Type} {p q : α → Bool} {f : α → α} {l : List α} (hq : ∀ a, p a = true → q a = false ∧ q (f a) = false) :
    (upd p f l).find? q = l.find? q := by
  induction l with
  | nil => rfl
  | cons a l ih =>
    simp only [upd, List.map_cons]
    by_cases ha : p a = true
    · simp only [ha, if_true, List.find?_cons, (hq a ha).1, (hq a ha).2]; exact ih
    · simp only [ha, List.find?_cons]; rw [← ih]; rfl

theorem find_del {α : Type} {p : α → Bool} {l : List α} : (del p l).find? p = none := by
  simp [del, List.find?_eq_none]

theorem find_app {α : Type} {p : α → Bool} {l : List α} {x : α} (h : l.find? p = none) (hp : p x = true) :
    (l ++ [x]).find? p = some x := by simp [List.find?_append, h, hp]

/-! ### Association lists -/

theorem alGet_alSet_same {κ α : Type} [BEq κ] [LawfulBEq κ] (k : κ) (v : α) (l : List (κ × α)) : alGet k (alSet k v l) = some v := by
  induction l with
  | nil => simp [alSet, alGet]
  | cons e l ih =>
    by_cases h : (e.1 == k) = true
    · simp [alSet, h, alGet]
    · have hb : (e.1 == k) = false := by simpa using h
      simp only [alGet] at ih
      simp only [alSet, hb, alGet, Bool.false_eq_true, if_false, List.find?_cons]
      exact ih

theorem alGet_alSet_other {κ α : Type} [BEq κ] [LawfulBEq κ] (k k' : κ) (v : α) (l : List (κ × α)) (h : k ≠ k') :
    alGet k' (alSet k v l) = alGet k' l := by
  have hb : (k == k') = false := by simpa using h
  induction l with
  | nil => simp [alSet, alGet, hb]
  | cons e l ih =>
    by_cases he : (e.1 == k) = true
    · have : e.1 = k := by simpa using he
      have h2 : (e.1 == k') = false := by rw [this]; exact hb
      simp [alSet, he, alGet, hb, h2]
    · have h1 : (e.1 == k) = false := by simpa using he
      simp only [alGet] at ih
      by_cases h3 : (e.1 == k') = true
      · simp [alSet, h1, alGet, h3]
      · have h4 : (e.1 == k') = false := by simpa using h3
        simp only [alSet, h1, alGet, Bool.false_eq_true, if_false, List.find?_cons, h4]
        exact ih

/-! ### Registers -/

theorem State.reg_setReg (s : State) (f : Fld) (g p x i v : Nat) : (s.setReg f g p x i v).reg f g p x i = v % 2 ^ f.bits := by
  simp [State.reg, State.setReg, alGet_alSet_same]

theorem State.reg_setReg_other (s : State) (f f' : Fld) (g p x i v g' p' x' i' : Nat) (h : f.key g p x i ≠ f'.key g' p' x' i') :
    (s.setReg f g p x i v).reg f' g' p' x' i' = s.reg f' g' p' x' i' := by
  simp [State.reg, State.setReg, alGet_alSet_other _ _ _ _ h]

theorem State.reg_bumpReg (s : State) (f : Fld) (g p x i n : Nat) : (s.bumpReg f g p x i n).reg f g p x i =
    (if f.wraps then s.reg f g p x i + n else min (s.reg f g p x i + n) (2 ^ f.bits - 1)) % 2 ^ f.bits := by
  simp [State.bumpReg, State.reg_setReg]

/-! ### Commands -/

theorem State.cmd_uid {s : State} {c : Nat} {x : Cmd} (h : s.cmd c = some x) : x.uid = c := by
  have := List.find?_some h; simpa using this

theorem State.cmd_setCmd {s : State} {c : Nat} {x : Cmd} {f : Cmd → Cmd} (h : s.cmd c = some x) (hf : (f x).uid = x.uid) :
    (s.setCmd c f).cmd c = some (f x) :=
  find_upd h (by rw [hf]; simpa using State.cmd_uid h)

theorem State.cmd_setCmd_other {s : State} {c d : Nat} {f : Cmd → Cmd} (h : d ≠ c) (hf : ∀ y, (f y).uid = y.uid) :
    (s.setCmd c f).cmd d = s.cmd d := by
  refine find_upd_other fun a ha => ?_
  have : a.uid = c := by simpa using ha
  simp [hf, this, Ne.symm h]

theorem State.running_cmd {s : State} {c : Nat} {o : Op} {x : Cmd} (h : s.running c o = some x) :
    s.cmd c = some x ∧ x.is o = true ∧ x.st = .started := by
  unfold State.running at h
  cases hc : s.cmd c with
  | none => simp [hc] at h
  | some y =>
    simp only [hc] at h
    split at h
    · rename_i hy; simp only [Option.some.injEq] at h; subst h; simpa using hy
    · simp at h

/-- An event changes no ring command. -/
@[simp] theorem State.raise_cmd (s : State) (e : EvDef) (p c : Nat) : (s.raise e p).cmd c = s.cmd c := by
  simp [State.cmd]

@[simp] theorem State.bumpP_cmd (s : State) (f : Fld) (p n c : Nat) : (s.bumpP f p n).cmd c = s.cmd c := rfl

@[simp] theorem State.setPart_cmd (s : State) (p c : Nat) (f : Partition → Partition) : (s.setPart p f).cmd c = s.cmd c := rfl

/-- A command that is not at its commit point ends with the status and the results given (R380). -/
theorem State.finish_ended {s : State} {c : Nat} {x : Cmd} (st r0 r1 : Nat) (h : s.cmd c = some x) (hx : x.st ≠ .done) :
    (s.finish c st r0 r1).ended c st r0 r1 := by
  have hd : (x.st == CmdSt.done) = false := by simpa using hx
  have h0 := State.cmd_setCmd (f := fun y => if y.st == .done then y else { y with st := .done, status := st, r0 := r0, r1 := r1 }) h
    (by simp [hd])
  have key : (s.finish c st r0 r1).cmd c = some { x with st := .done, status := st, r0 := r0, r1 := r1 } := by
    unfold State.finish
    simp only [h, hd, Bool.false_eq_true, if_false] at h0 ⊢
    repeat' split
    all_goals simpa only [State.raise_cmd, State.bumpP_cmd, State.setPart_cmd] using h0
  exact ⟨_, key, rfl, rfl, rfl, rfl⟩

/-- Ending with neither a missed deadline nor a withdrawn key raises no event and counts nothing. -/
theorem State.finish_ok {s : State} {c : Nat} (st r0 r1 : Nat) (h1 : st ≠ St.deadlineMiss) (h2 : st ≠ St.keyWithdrawn) :
    (s.finish c st r0 r1).regs = s.regs ∧ (s.finish c st r0 r1).tel = s.tel ∧ (s.finish c st r0 r1).pol = s.pol := by
  have e1 : (st == St.deadlineMiss) = false := by simpa using h1
  have e2 : (st == St.keyWithdrawn) = false := by simpa using h2
  unfold State.finish
  cases s.cmd c with
  | none => exact ⟨rfl, rfl, rfl⟩
  | some x =>
    simp only [e1, e2]
    repeat' split
    all_goals first | exact ⟨rfl, rfl, rfl⟩ | contradiction

/-! ### Sequences -/

theorem State.seq_key {s : State} {p i : Nat} {x : Seq} (h : s.seq p i = some x) : x.part = p ∧ x.id = i := by
  have := List.find?_some h; simpa using this

theorem State.seq_setSeq {s : State} {p i : Nat} {x : Seq} {f : Seq → Seq} (h : s.seq p i = some x)
    (hp : (f x).part = x.part) (hi : (f x).id = x.id) : (s.setSeq p i f).seq p i = some (f x) :=
  find_upd h (by rw [hp, hi]; simpa using State.seq_key h)

end Sys2Proof.Machine
end

