-- ==== Sys2Proof/Laws/Memory.lean ====
section
/-! SUPPORT. Every operation on the ring memory keeps its canonical form, and the memory at reset has it. -/

namespace Sys2Proof.Machine

/-- The canonical form above a bound, one entry at a time. -/
@[simp] theorem Memory.wfFrom_nil (lo : Option Nat) : Memory.wfFrom lo [] = true := rfl

theorem Memory.wfFrom_cons (lo : Option Nat) (c : Host.Cell) (m : List Host.Cell) :
    Memory.wfFrom lo (c :: m) = true ↔ (∀ l ∈ lo, l < c.1) ∧ c.2 ≠ 0 ∧ Memory.wfFrom (some c.1) m = true := by
  cases lo <;> simp [Memory.wfFrom, and_assoc]

/-- A lower bound serves as well. -/
theorem Memory.wfFrom_weaken {a : Nat} {lo : Option Nat} {m : List Host.Cell} (h : ∀ l ∈ lo, l ≤ a) (hm : Memory.wfFrom (some a) m = true) :
    Memory.wfFrom lo m = true := by
  cases m with
  | nil => rfl
  | cons c m =>
    rw [Memory.wfFrom_cons] at hm ⊢
    exact ⟨fun l hl => Nat.lt_of_le_of_lt (h l hl) (hm.1 a rfl), hm.2⟩

/-- A write above the bound keeps the form above it. -/
theorem Memory.write_wfFrom (a : Nat) (b : Byte) {lo : Option Nat} {m : List Host.Cell} (h : ∀ l ∈ lo, l < a)
    (hm : Memory.wfFrom lo m = true) : Memory.wfFrom lo (Memory.write a b m) = true := by
  induction m generalizing lo with
  | nil => unfold Memory.write; split <;> simp_all [Memory.wfFrom_cons]
  | cons c m ih =>
    have hc := (Memory.wfFrom_cons lo c m).1 hm
    unfold Memory.write
    split
    · split
      · exact hm
      · rename_i hlt hb
        exact (Memory.wfFrom_cons ..).2 ⟨h, hb, (Memory.wfFrom_cons ..).2 ⟨by simpa using hlt, hc.2⟩⟩
    · split
      · rename_i he
        subst he
        split
        · exact Memory.wfFrom_weaken (fun l hl => Nat.le_of_lt (h l hl)) hc.2.2
        · rename_i hb
          exact (Memory.wfFrom_cons ..).2 ⟨h, hb, hc.2.2⟩
      · exact (Memory.wfFrom_cons ..).2 ⟨hc.1, hc.2.1, ih (by simp; omega) hc.2.2⟩

theorem Memory.write_wf (a : Nat) (b : Byte) {m : List Host.Cell} (hm : Memory.wf m = true) : Memory.wf (Memory.write a b m) = true :=
  Memory.write_wfFrom a b (by simp) hm

theorem Memory.writeAll_wf (d : Bytes) (a : Nat) {m : List Host.Cell} (hm : Memory.wf m = true) :
    Memory.wf (Memory.writeAll a d m) = true := by
  induction d generalizing a m with
  | nil => exact hm
  | cons b bs ih => exact ih (a + 1) (Memory.write_wf a b hm)

/-- Forgetting the bytes of some addresses keeps the form. -/
theorem Memory.filter_wfFrom (p : Host.Cell → Bool) {lo : Option Nat} {m : List Host.Cell} (hm : Memory.wfFrom lo m = true) :
    Memory.wfFrom lo (m.filter p) = true := by
  induction m generalizing lo with
  | nil => rfl
  | cons c m ih =>
    have hc := (Memory.wfFrom_cons lo c m).1 hm
    rw [List.filter_cons]
    split
    · exact (Memory.wfFrom_cons ..).2 ⟨hc.1, hc.2.1, ih hc.2.2⟩
    · exact ih (Memory.wfFrom_weaken (fun l hl => Nat.le_of_lt (hc.1 l hl)) hc.2.2)

theorem Memory.filter_wf (p : Host.Cell → Bool) {m : List Host.Cell} (hm : Memory.wf m = true) : Memory.wf (m.filter p) = true :=
  Memory.filter_wfFrom p hm

theorem Memory.reset_wf : Memory.wf State.reset.q.ring = true := rfl

end Sys2Proof.Machine
end

