-- ==== Sys2Proof/Tests/Slice0.lean ====
section
/-! SUPPORT. Tests: ill-formed commands are refused, each clause of the statements has a state that meets its hypotheses, and a few
single steps. -/

namespace Sys2Proof.Tests

open Sys2Proof Sys2Proof.Machine

set_option Elab.async false

/-! ### Builders -/

/-- A geometry of one layer: one query and one key head of 64. -/
def g0 : Geom :=
  { id := 7, qHeads := 1, kvHeads := 1, headDim := 64, vDim := 0, qFmt := 0, outFmt := 0, layers := [⟨0, 0, 0, 0, 0⟩], modOff := 0
    codecOff := 0, digest := [], raw := [] }

/-- Partition 0: active, core 0, 4 GiB of T1 on each stack, 8 GiB of flash. -/
def p0 : Partition :=
  { num := 0, st := .active, geom := some g0, t1 := List.replicate 8 4
    desc := { cores := 1, t1 := List.replicate 8 4, rsv := List.replicate 8 1, flashGib := 8, keyFirst := 0, keyCount := 4 } }

/-- Queue 0, active, of the physical function of port 0. -/
def q0 : Queue := { num := 0, port := 0, fn := 0, loc := 0, st := .active, ver := 0x302 }

/-- An entry: opcode, and fields by offset. -/
def en (o : Op) (fs : List (Nat × Nat)) : Nat := o.code + fs.foldl (fun a f => a + f.2 * 256 ^ f.1) 0

/-- Command 1, started, of queue 0 and partition 0. -/
def k1 (o : Op) (fs : List (Nat × Nat)) : Cmd :=
  { uid := 1, q := 0, part := 0, qg := 0, ver := 0x302, entry := en o fs, acceptT := 0, st := .started }

/-- A device in service: every stack, partition 0, queue 0, these commands and registers. -/
def st (cs : List Cmd) (rs : List (RegKey × Nat) := []) : State :=
  { regs := (F.STAGE_QUOTA.key 0 0 0 0, 16) :: rs
    hw := { hbm := List.replicate 8 { st := .active, pcOk := 2 ^ 32 - 1, capGib := 36, mbps := 1200000 } }
    part := { parts := p0 :: (List.range 63).map fun i => { num := i + 1 } }
    q := { queues := [q0], cmds := cs, nextUid := 2 } }

/-- A sequence of partition 0 of one layer with no position. -/
def y0 : Seq :=
  { part := 0, id := 5, geom := 7, order := 0, ring := false, window := 0, sinks := 0, cls := 0, auto := true, home := 0, lens := [0]
    leaves := [], ns := 0, variant := 0 }

/-- The device with this sequence. -/
def stq (y : Seq) (cs : List Cmd) (rs : List (RegKey × Nat) := []) : State := { st cs rs with sq := { seqs := [y] } }

/-- A sealed page of partition 0 with its leaf, and a copy of it in T1 of die 0. -/
def pg0 : Page :=
  { part := 0, serial := 3, gen := 1, order := 0, layer := 0, first := 0, geom := 7, kf := 0, vf := 0, shared := false, cls := 0
    image := List.replicate 64 1, blocks := [⟨0, false, 0, List.replicate 64 1⟩], base := 0, sealT := 0, sumStack := 0
    sumBytes := 144, summary := some [], score := 0, ts := 0 }

def lf0 : Leaf :=
  { part := 0, serial := 3, gen := 1, order := 0, layers := 1, geom := 7, leafNo := 0, ns := 0, variant := 0, cls := 0, chain := none
    published := false, sealT := 0 }

def cp1 : Copy := { part := 0, serial := 3, tier := 1, die := 0, bytes := 4096, backing := true }

def ph0 : Nat := mkHandle 0 0 1 3

/-- The device with the sequence, whose first leaf is this page. -/
def stp (y : Seq) (cs : List Cmd) (rs : List (RegKey × Nat) := []) : State :=
  { st cs rs with sq := { seqs := [y], pages := [pg0], leaves := [lf0], nextSerial := [(0, 4)] }, tier := { copies := [cp1] } }

/-- Sequence 5 with the leaf in view. -/
def y1 : Seq := { y0 with leaves := [(0, ph0)], lens := [16] }

theorem argMin_mem {α : Type} (key : α → Int) : ∀ {l : List α} {x : α}, argMin key l = some x → x ∈ l
  | [], _, h => by simp [argMin] at h
  | a :: l, x, h => by
    unfold argMin at h
    split at h
    · simp_all
    · rename_i y hy
      have := argMin_mem key hy
      split at h <;> simp_all

theorem argMin_cons {α : Type} (key : α → Int) (a : α) (l : List α) : ∃ x, argMin key (a :: l) = some x := by
  unfold argMin
  split
  · exact ⟨_, rfl⟩
  · split <;> exact ⟨_, rfl⟩

/-- A device alone on the ring owns every shard. -/
theorem ownerIn_one (m sh : Nat) : ownerIn [m] sh = some m := by
  have hp : ∀ e ∈ ringPoints [m], e.2 = m := by
    intro e he
    simp only [ringPoints, List.flatMap_cons, List.flatMap_nil, List.append_nil, List.mem_map] at he
    obtain ⟨_, _, rfl⟩ := he
    rfl
  have hc : ∃ a l, ringPoints [m] = a :: l := ⟨(ringPoint m 0, m), (List.range' 1 63).map fun j => (ringPoint m j, m), by
    simp [ringPoints, List.range_eq_range', List.range'_succ]⟩
  obtain ⟨a, l, hl⟩ := hc
  obtain ⟨x, hx⟩ := argMin_cons (fun (e : Nat × Nat) => (((e.1 + 2 ^ 32 - sh * 16384) % 2 ^ 32 * 2 ^ 64 + e.2 : Nat) : Int)) a l
  simp only [ownerIn, hl, hx, Option.map_some, Option.some.injEq]
  exact hp x (hl ▸ argMin_mem _ hx)

/-- A seal of leaf 0 of the sequence at a step. -/
def job (k : Nat) : SealJob := { part := 0, seq := 5, leafNo := 0, first := 0, count := 16, step := k, readyT := 0 }

/-- A decode of 16 positions of the sequence, and what it fixed when it started. -/
def kDec : Cmd := k1 .decode [(8, 5), (0x1C, 16), (0x20, 15), (0x24, 1), (0x28, 64)]

def at0 : Attn :=
  { cmd := 1, part := 0, kind := 0, layer := 0, qtok := 1, det := false, pages := [(0, 3)], grans := []
    seqs := [{ seq := 5, lo := 0, count := 16, qpos := 15, window := none, segs := [(0, 16, ph0)] }] }

def it0 : Item := { seq := 0, head := 0, rowLo := 0, rows := 1, tiles := [(0, 16, ph0)] }

def at1 : Attn := { at0 with items := [it0], built := true }

def rn0 : Run := { id := 1, cmd := 1, part := 0, qg := 0, cls := 0, item := 0, first := 0, count := 1, home := 0, die := 0 }

/-- The decode has started, with these runs and partials. -/
def sta (a : Attn) (rs : List Run) (hs : List Held) : State :=
  { stp y1 [kDec] with
    att := { attns := [a], helds := hs }
    part := { parts := p0 :: (List.range 63).map fun i => { num := i + 1 }, runs := rs, nextRun := 9 } }

def hd0 : Held :=
  { cmd := 1, item := 0, first := 0, count := 1, cluster := 0, core := 0, since := 0, bytes := 264, part := ⟨[0], [0], [[0]]⟩ }

/-- A committed destination of partition 0 on port 1, an open push to it. -/
def de0 : Dest :=
  { part := 0, num := 2, port := 1, conn := 0, base := 4096, len := 65536, land := 0, landEn := false, st := 1, committed := ⟨0, 0⟩, peak := ⟨0, 0⟩ }

def pu0 : Push :=
  { id := 1, cmd := 1, part := 0, dq := 0, qg := 0, dest := 2, port := 1, off := 0, data := [1], landing := false, fetch := false, readyT := 0
    charge := 1 }

def dv0 : Deliv := { cmd := 1, part := 0, fetch := false, pages := [], dq := 0, dest := 2, port := 1, decoded := false, cut := true }

/-- Ports 1 and 9 are up. -/
def portsUp : List Port := (List.range 16).map fun i => { num := i, st := if i % 8 = 1 then .up else .down, trained := i % 8 = 1, ideUp := i = 1 }

def dlvRegs : List (RegKey × Nat) :=
  [(F.DEST_LIMIT.key 0 0 0 0, 4), (F.DQ_LIMIT.key 0 0 0 0, 2), (F.PORT_MASK.key 0 0 0 0, 2), (F.DEST_CTRL_PORT.key 0 0 2 0, 1)]

/-- The destination, these pushes and deliveries. -/
def std (cs : List Cmd) (ps : List Push) (ds : List Deliv) : State :=
  { stp y1 cs dlvRegs with dlv := { dests := [de0], pushes := ps, nextPush := 9, delivs := ds, ports := portsUp } }

/-- The state an outcome goes on to, where it is this one. -/
def goesTo (o : Host.Outcome State Fault Refusal) (t : State) : Bool := match o with | .next u => decide (u = t) | _ => false

theorem next_of {o : Host.Outcome State Fault Refusal} {t : State} (h : goesTo o t = true) : o = .next t := by
  cases o <;> simp_all [goesTo]

/-! ### Each clause has a state that meets its hypotheses -/

theorem witness_SeqOpenAndClose_seqOpen : ∃ (s : State) (c : Nat) (x : Cmd) (ge : Geom) (home : Nat),
    (s.runs c .seqOpen x) ∧
    (bit (x.f 0x19 1) 0 = false) ∧
    (s.geom x.part = some ge) ∧
    (s.idUsed x.part x.seq = false) ∧
    (x.f 0x20 4 = 0 ∨ s.groupActive x.part (x.f 0x20 4) = true) ∧
    (s.seqRoom x.part = true) ∧
    ((s.homeDie x.part (x.f 0x1B 1)).2 = some home) :=
  ⟨st [k1 .seqOpen [(8, 5)]], 1, k1 .seqOpen [(8, 5)], g0, 0, by decide +kernel⟩

theorem witness_SeqOpenAndClose_seqOpenAttach : ∃ (s : State) (c : Nat) (x : Cmd) (y : Seq) (ge : Geom),
    (s.runs c .seqOpen x) ∧
    (bit (x.f 0x19 1) 0 = true) ∧
    ((s.seqFor x.part x.seq (2 ^ 64)).toOption = some (y, ge)) :=
  ⟨stq y0 [k1 .seqOpen [(8, 5), (0x19, 1)]], 1, k1 .seqOpen [(8, 5), (0x19, 1)], y0, g0, by decide +kernel⟩

theorem witness_SeqOpenAndClose_seqClose : ∃ (s : State) (c : Nat) (x : Cmd) (y : Seq) (ge : Geom),
    (s.runs c .seqClose x) ∧
    (x.phase = 0) ∧
    ((s.seqFor x.part x.seq (2 ^ 64)).toOption = some (y, ge)) ∧
    (s.holderCmds y = []) :=
  ⟨stq y0 [k1 .seqClose [(8, 5)]], 1, k1 .seqClose [(8, 5)], y0, g0, by decide +kernel⟩

theorem witness_SeqOpenAndClose_seqCloseDone : ∃ (s : State) (part : Nat) (seq : Nat) (y : Seq),
    (s.seq part seq = some y) ∧
    (y.closing = true) ∧
    (∀ d ∈ s.q.cmds, ¬ (d.part = part ∧ d.uid < y.closeCmd ∧ d.mayName seq = true)) :=
  ⟨stq { y0 with closing := true, closeCmd := 1 } [k1 .seqClose [(8, 5)]], 0, 5, { y0 with closing := true, closeCmd := 1 }, by decide +kernel⟩

theorem witness_SeqForks_seqForkParent : ∃ (s : State) (c : Nat) (x : Cmd) (par : Seq) (ge : Geom) (home : Nat) (q : Seq),
    (s.runs c .seqFork x) ∧
    (x.f 0x18 1 = 0) ∧
    ((s.seqFor x.part (x.f 0x20 6) c).toOption = some (par, ge)) ∧
    (s.sq.forks.find? (fun h => h.cmd == c) = none) ∧
    (s.idUsed x.part x.seq = false) ∧
    (x.f 0x1C 4 ≤ par.length) ∧
    (s.seqRoom x.part = true) ∧
    ((s.homeDie x.part (x.f 0x1A 1)).2 = some home) ∧
    (q = s.forkChild x ge par (x.f 0x1C 4) home) ∧
    (q.cls ≠ 2) ∧
    (∀ e ∈ q.leaves, (s.leaf e.2).isSome = true) ∧
    (s.admitGrans x.part (s.forkGrans x ge par q (x.f 0x1C 4)) = none) :=
  ⟨stq y0 [k1 .seqFork [(8, 6), (0x20, 5)]], 1, k1 .seqFork [(8, 6), (0x20, 5)], y0, g0, 0, (stq y0 []).forkChild (k1 .seqFork [(8, 6), (0x20, 5)]) g0 y0 0 0, by decide +kernel⟩

def kFork : Cmd := { k1 .seqFork [(8, 6), (0x18, 1), (0x1C, 1), (0x20, 64)] with bufs := [⟨64, some (leBytes 8 ph0)⟩] }

theorem witness_SeqForks_seqForkHandles : ∃ (s : State) (c : Nat) (x : Cmd) (ge : Geom) (home : Nat) (hs : List Nat) (ns : Nat) (va : Nat),
    (s.runs c .seqFork x) ∧
    (x.f 0x18 1 = 1) ∧
    (x.buffers [x.f 0x20 8] = some true) ∧
    (s.geom x.part = some ge) ∧
    (hs = u64s ((x.bufAll (x.f 0x20 8)).getD []) (x.f 0x1C 4)) ∧
    (x.f 0x1C 4 ≠ 0) ∧
    (hOrder (hs.headD 0) ≤ 6) ∧
    (x.f 0x1C 4 ≤ 2 ^ 24 / orderT (hOrder (hs.headD 0))) ∧
    (8 * x.f 0x1C 4 ≤ ((x.bufAll (x.f 0x20 8)).getD []).length) ∧
    (s.idUsed x.part x.seq = false) ∧
    (∀ h ∈ hs, s.resolve x.part h (hOrder (hs.headD 0)) = none) ∧
    (∀ e ∈ hs.zipIdx, ∃ l ∈ s.leaf e.1, l.leafNo = e.2 ∧ l.geom = ge.id ∧ l.ns = ns ∧ l.variant = va) ∧
    (s.seqRoom x.part = true) ∧
    ((s.homeDie x.part (x.f 0x1A 1)).2 = some home) :=
  ⟨stp y0 [kFork], 1, kFork, g0, 0, [ph0], 0, 0, by decide +kernel⟩

def kApp : Cmd := { k1 .append [(8, 5), (0x18, 1), (0x20, 64)] with bufs := [⟨64, some (List.replicate 512 1)⟩] }

theorem witness_AppendTruncateLease_append : ∃ (s : State) (c : Nat) (x : Cmd) (ge : Geom) (layers : List Nat) (y : Seq) (y' : Seq) (acq : Bool) (data : Bytes) (start : Nat),
    (s.runs c .append x) ∧
    (x.batch = false) ∧
    (x.f 0x30 4 = 0) ∧
    (x.buffers [x.f 0x20 8] = some true) ∧
    (x.bufAll (x.f 0x20 8) = some data) ∧
    ((s.seqFor x.part x.seq c).toOption = some (y, ge)) ∧
    (appendLayers ge x.layer = some layers) ∧
    (s.takeLease y x.q (x.f 0x1C 4) = some (y', acq)) ∧
    (layers ≠ []) ∧
    (∀ l ∈ layers, y.lens.getD l 0 = start) ∧
    (start + x.f 0x18 4 ≤ 2 ^ 24) ∧
    (x.f 0x18 4 * sumBy (fun l => posBytes ge (ge.layer l)) layers ≤ data.length) ∧
    (x.fClass.getD y.cls ≠ 2) ∧
    (s.admitGrans x.part (appendPuts s ge layers (x.fClass.getD y.cls) x.tag ⟨y', acq, x.f 0x18 4, data, []⟩ s.sq.granules) = none) :=
  ⟨stq y0 [kApp], 1, kApp, g0, [0], y0, { y0 with holder := some 0, epoch := 1 }, true, List.replicate 512 1, 0, by decide +kernel⟩

theorem witness_AppendTruncateLease_truncate : ∃ (s : State) (c : Nat) (x : Cmd) (ge : Geom) (y0 : Seq) (y : Seq) (acq : Bool),
    (s.runs c .truncate x) ∧
    (s.sole c) ∧
    (x.f 0x28 4 = 0) ∧
    ((s.seqFor x.part x.seq c).toOption = some (y0, ge)) ∧
    (s.takeLease y0 x.q (x.f 0x1C 4) = some (y, acq)) ∧
    (x.f 0x18 4 ≤ y0.length) ∧
    (y0.cls ≠ 2) ∧
    (s.admitGrans x.part (s.truncGrans ge y (x.f 0x18 4) x.tag) = none) :=
  ⟨stq y0 [k1 .truncate [(8, 5)]], 1, k1 .truncate [(8, 5)], g0, y0, { y0 with holder := some 0, epoch := 1 }, true, by decide +kernel⟩

theorem witness_AppendTruncateLease_appendLeaseExpire : ∃ (s : State) (part : Nat) (seq : Nat) (x : Seq),
    (s.seq part seq = some x) ∧
    (x.holder ≠ none) ∧
    (s.leaseBusy x = false) :=
  ⟨stq { y0 with holder := some 0 } [], 0, 5, { y0 with holder := some 0 }, by decide +kernel⟩

theorem witness_SealStartsAndCoding_seal : ∃ (s : State) (c : Nat) (x : Cmd) (y : Seq) (ge : Geom),
    (s.runs c .seal x) ∧
    (s.sole c) ∧
    (x.phase = 0) ∧
    ((s.seqFor x.part x.seq c).toOption = some (y, ge)) ∧
    (y.auto = false) :=
  ⟨stq { y0 with auto := false } [k1 .seal [(8, 5)]], 1, k1 .seal [(8, 5)], { y0 with auto := false }, g0, by decide +kernel⟩

/-- A full granule of the sequence's first leaf. -/
def gr0 : Granule :=
  { part := 0, seq := 5, layer := 0, first := 0, geom := 7, cls := 0, copied := false, epoch := 1, tag := 0, time := 0
    rows := List.replicate 16 [[], []], home := 0, slot := 8192 }
def stg (y : Seq) (js : List SealJob) : State := { stq y [] with sq := { seqs := [y], granules := [gr0], seals := js } }

theorem witness_SealStartsAndCoding_autoSealStart : ∃ (s : State) (part : Nat) (seq : Nat) (i : Nat) (x : Seq) (ge : Geom),
    (s.seq part seq = some x) ∧
    (s.geom part = some ge) ∧
    (s.paused 0x09 0 = false ∧ s.pst part ≠ .switching) ∧
    (x.auto = true) ∧
    (x.closing = false) ∧
    (x.geom = ge.id) ∧
    (x.retryT = 0) ∧
    ((s.startable x).head? = some i) :=
  ⟨stg { y0 with lens := [16] } [], 0, 5, 0, { y0 with lens := [16] }, g0, by decide +kernel⟩

theorem witness_SealStartsAndCoding_autoSealRetry : ∃ (s : State) (part : Nat) (seq : Nat) (x : Seq),
    (s.seq part seq = some x) ∧
    (x.retryT ≠ 0) ∧
    (x.auto = true) ∧
    (s.paused 0x09 0 = false ∧ s.pst part ≠ .switching) :=
  ⟨stg { y0 with retryT := 9 } [], 0, 5, { y0 with retryT := 9 }, by decide +kernel⟩

def gc : Geom := { g0 with raw := leBytes 2 0x102 ++ leBytes 2 1 ++ leBytes 12 (16 * 2 ^ 64) ++ List.replicate 64 0 }
def pc : Partition := { p0 with geom := some gc }

theorem witness_SealStartsAndCoding_sealCodeDone : ∃ (s : State) (part : Nat) (seq : Nat) (leaf : Nat) (j : SealJob) (x : Seq) (ge : Geom) (ts : List LayerSets),
    (s.job part seq leaf = some j) ∧
    (s.seq part seq = some x) ∧
    (s.geom part = some ge) ∧
    (j.step = 1) ∧
    ((List.range ge.layers.length).mapM ge.sets = some ts) ∧
    (s.indexFull = false) :=
  ⟨{ stg y0 [job 1] with part := { parts := [pc] } }, 0, 5, 0, job 1, y0, gc, ((List.range 1).mapM gc.sets).getD [], by decide +kernel⟩

theorem witness_SealCommitAndEnd_sealProgramsDone : ∃ (s : State) (part : Nat) (seq : Nat) (leaf : Nat) (j : SealJob),
    (s.job part seq leaf = some j) ∧
    (j.step = 4) ∧
    (∀ x ∈ j.pages, s.t3Done part x.serial 0 = true) :=
  ⟨stg y0 [job 4], 0, 5, 0, job 4, by decide +kernel⟩

theorem witness_SealCommitAndEnd_sealCommit : ∃ (s : State) (part : Nat) (seq : Nat) (leaf : Nat) (j : SealJob) (x : Seq),
    (s.job part seq leaf = some j) ∧
    (s.seq part seq = some x) ∧
    (j.step = 5 ∧ s.coding j = false) :=
  ⟨stg y0 [job 5], 0, 5, 0, job 5, y0, by decide +kernel⟩

theorem witness_SealCommitAndEnd_sealSpaceTimeout : ∃ (s : State) (part : Nat) (seq : Nat) (leaf : Nat) (j : SealJob),
    (s.job part seq leaf = some j) ∧
    (j.step = 3) ∧
    (j.waitUntil ≠ 0) :=
  ⟨stg y0 [{ job 3 with waitUntil := 9 }], 0, 5, 0, { job 3 with waitUntil := 9 }, by decide +kernel⟩

theorem witness_SealCommitAndEnd_granuleRelease : ∃ (s : State) (part : Nat) (seq : Nat) (leaf : Nat) (j : SealJob),
    (s.job part seq leaf = some j) ∧
    (j.step = 8) ∧
    (j.released = false) ∧
    (∀ g ∈ s.leafGrans part seq j.first j.count, ∀ a ∈ s.att.attns,
      ¬ (a.part = part ∧ a.layer = g.layer ∧ (a.grans.any fun h => h.seq == seq && h.first == g.first) = true)) :=
  ⟨stg y0 [job 8], 0, 5, 0, job 8, by decide +kernel⟩

def kLook : Cmd := { k1 .lookup [(0x1C, 16), (0x30, 64)] with bufs := [⟨64, some (List.replicate 64 1)⟩] }

theorem witness_LookupAndPin_lookupPrefix : ∃ (s : State) (c : Nat) (x : Cmd),
    (s.runs c .lookup x) ∧
    (x.phase = 0) ∧
    (s.geom x.part ≠ none) ∧
    (x.f 0x20 4 = 0 ∨ x.f 0x20 4 ∈ x.active) ∧
    (x.buffers [x.f 0x30 8] = some true) :=
  ⟨stq y0 [kLook], 1, kLook, by decide +kernel⟩

def look (k : Nat) : Lookup := { cmd := 1, part := 0, ns := 0, variant := 0, order := 0, imp := false, cls := 0, step := k }
def chains0 : List Bytes := chainValues [] 0 [] 0 (u32s (List.replicate 64 1) 16)

theorem witness_LookupAndPin_lookupHashDone : ∃ (s : State) (c : Nat) (x : Cmd) (l : Lookup) (key : Bytes) (chains : List Bytes) (k : Nat),
    (s.lookup c = some l) ∧
    (s.cmd c = some x) ∧
    (x.st ≠ .done) ∧
    (x.cancelled = false) ∧
    (l.step = 1) ∧
    (l.ns = 0) ∧
    (s.cmdKey x 0 = some key) ∧
    (chains = (List.range (x.f 0x1C 4 / orderT l.order)).map fun j => (chainValues key 0 (s.geomDigest l.part) l.variant
      (u32s ((x.bufAll (x.f 0x30 8)).getD []) (x.f 0x1C 4 / orderT l.order * orderT l.order))).getD
      ((j + 1) * (orderT l.order / 16) - 1) []) ∧
    (k = ((chains.map fun ch => s.indexed l.part 0 l.order ch).takeWhile fun h => h.isSome).length) ∧
    (l.unreach = false) :=
  ⟨{ stq y0 [kLook] with pdir := { lookups := [look 1] } }, 1, kLook, look 1, [], chains0, 0, by decide +kernel⟩

theorem witness_LookupAndPin_lookupShardTimeout : ∃ (s : State) (c : Nat) (x : Cmd) (l : Lookup),
    (s.lookup c = some l) ∧
    (s.cmd c = some x) ∧
    (x.st ≠ .done) ∧
    (x.cancelled = false) ∧
    (l.step = 2) ∧
    (l.imp = false) :=
  ⟨{ stq y0 [kLook] with pdir := { lookups := [look 2] } }, 1, kLook, look 2, by decide +kernel⟩

def jobImp : SealJob := { job 5 with seq := importSeq 1 }

theorem witness_LookupAndPin_lookupImportDone : ∃ (s : State) (c : Nat) (x : Cmd) (l : Lookup) (k : SealJob),
    (s.lookup c = some l) ∧
    (s.cmd c = some x) ∧
    (x.cancelled = false) ∧
    (l.step = 3) ∧
    (s.job l.part (importSeq c) l.found.length = some k) ∧
    (k.step = 5) :=
  ⟨{ stq y0 [kLook] with pdir := { lookups := [look 3] }, sq := { seqs := [y0], seals := [jobImp] } }, 1, kLook, look 3, jobImp, by decide +kernel⟩

def kPin : Cmd := k1 .pin [(8, 5), (0x18, 1), (0x19, 1), (0x1C, 0), (0x20, 16)]

theorem witness_LookupAndPin_pin : ∃ (s : State) (c : Nat) (x : Cmd) (hs : List Nat),
    (s.runs c .pin x) ∧
    (x.phase = 0) ∧
    ((x.f 0x19 1 = 1 ∧ ∃ e ∈ (s.seqFor x.part x.seq c).toOption, hs = e.1.leavesIn (x.f 0x1C 4) (x.f 0x20 4) ∧ ∀ h ∈ hs, hPart h = x.part) ∨
      (x.f 0x19 1 ≠ 1 ∧ x.buffers [x.f 0x28 8] = some true ∧ hs = (u64s ((x.bufAll (x.f 0x28 8)).getD []) (x.f 0x1C 4)).eraseDups ∧
      ∀ h ∈ u64s ((x.bufAll (x.f 0x28 8)).getD []) (x.f 0x1C 4), hPart h = x.part ∧ s.resolve x.part h (hOrder h) = none)) ∧
    (∀ h ∈ hs, s.leaf h ≠ none) ∧
    (∀ n ∈ s.serialsOf hs, s.atTier x.part n (x.f 0x18 1) = true) ∧
    ((s.pdir.capos.filter fun k => k.part == x.part).length < s.gp F.CAPO_LIMIT x.part) ∧
    (s.pdir.capos.length < 65536) ∧
    (x.f 0x18 1 = 2 → s.quota x.part 2 15 ≠ 0) ∧
    (s.capoBytes x.part (x.f 0x18 1) hs ≤ s.tierQuota x.part (x.f 0x18 1)) ∧
    (∀ k ∈ s.pdir.capos, k.cmd ≠ c) :=
  ⟨stp y1 [kPin], 1, kPin, [ph0], by decide +kernel⟩

def capo0 : Capo := { num := 2, part := 0, tier := 1, leaves := [ph0] }

theorem witness_LookupAndPin_unpin : ∃ (s : State) (c : Nat) (x : Cmd) (k : Capo),
    (s.runs c .unpin x) ∧
    ((s.pdir.capos.find? fun k => k.num == x.f 0x18 4 && k.part == x.part && k.cmd == 0) = some k) :=
  ⟨{ stp y1 [k1 .unpin [(0x18, 2)]] with pdir := { capos := [capo0] } }, 1, k1 .unpin [(0x18, 2)], capo0, by decide +kernel⟩

def members : Bytes := leBytes 8 1 ++ leBytes 8 0 ++ leBytes 8 2 ++ leBytes 8 0
def gkey : KeySlot := { num := 3, st := .set, typ := 1, key := List.replicate 32 5, gen := 1 }
def grpRegs : List (RegKey × Nat) :=
  [(F.GRP_ID.key 0 0 1 0, 9), (F.GRP_KEY.key 0 0 1 0, 3), (F.GRP_MEMBERS.key 0 0 1 0, 2)] ++
  (List.range 4).map fun i => (F.GRP_DIGEST.key 0 0 1 i, rd (Blake.hash 32 [] members) (4 * i) 4)

theorem witness_DirectoryEvents_groupDeclareCommit : ∃ (s : State) (part : Nat) (slot : Nat) (id : Nat) (b : Bytes) (ms : List Member) (k : KeySlot),
    (part < 64 ∧ slot < 8) ∧
    (id = s.gps F.GRP_ID part slot ∧ id ≠ 0) ∧
    (∀ g ∈ s.pdir.slots.find? (fun g => g.part == part && g.slot == slot), g.declared = false) ∧
    (16 * s.gps F.GRP_MEMBERS part slot ≤ b.length) ∧
    (2 ≤ s.gps F.GRP_MEMBERS part slot ∧ s.gps F.GRP_MEMBERS part slot ≤ 4096) ∧
    (ms = (List.range (s.gps F.GRP_MEMBERS part slot)).map fun i => ({ serial := rd b (16 * i) 8, part := rd b (16 * i + 8) 1 } : Member)) ∧
    (∀ i < s.gps F.GRP_MEMBERS part slot - 1, (ms.getD i ⟨0, 0⟩).serial * 256 + (ms.getD i ⟨0, 0⟩).part <
      (ms.getD (i + 1) ⟨0, 0⟩).serial * 256 + (ms.getD (i + 1) ⟨0, 0⟩).part) ∧
    ((Blake.hash 32 [] (b.take (16 * s.gps F.GRP_MEMBERS part slot))).take 16 =
      (List.range 4).flatMap fun i => leBytes 4 (s.reg F.GRP_DIGEST 0 part slot i)) ∧
    (ms.contains ⟨s.dev.serial, part⟩ = true) ∧
    ((s.sec.keys.find? fun k => k.num == s.gps F.GRP_KEY part slot && k.st == .set) = some k) ∧
    (∀ g ∈ s.pdir.slots, ¬ (g.part = part ∧ g.slot ≠ slot ∧ g.id = id ∧ g.declared = true)) ∧
    (s.partFree part = false) :=
  ⟨{ st [] grpRegs with sec := { keys := [gkey] } }, 0, 1, 9, members, [⟨1, 0⟩, ⟨2, 0⟩], gkey, by decide +kernel⟩

theorem witness_DirectoryEvents_groupWithdraw : ∃ (s : State) (part : Nat),
    (s.partFree part = false) :=
  ⟨st [] grpRegs, 0, by decide +kernel⟩

def pub0 : PubWait := { part := 0, serial := 3, key := [], owner := 2, sentT := 0 }

theorem witness_DirectoryEvents_publishAckTimeout : ∃ (s : State) (part : Nat) (serial : Nat) (w : PubWait),
    (s.pubOf part serial = some w) ∧
    (w.deferred = false) :=
  ⟨{ stp y1 [] with pdir := { pubs := [pub0] } }, 0, 3, pub0, by decide +kernel⟩

def lfc : Leaf := { lf0 with chain := some (List.replicate 16 1) }
/-- The leaf has a chain value; a peer owns every shard. -/
def stc (ps : List PubWait) : State :=
  { stp y1 [] with sq := { seqs := [y1], pages := [pg0], leaves := [lfc] }, pdir := { pubs := ps, ring := [2] } }

theorem witness_DirectoryEvents_publishRetry : ∃ (s : State) (part : Nat) (serial : Nat) (o : Nat) (w : PubWait) (l : Leaf) (ch : Bytes),
    (s.pubOf part serial = some w) ∧
    (w.deferred = true) ∧
    (s.leafAt part serial = some l) ∧
    (l.chain = some ch) ∧
    (s.shardOwner (shardOf ch) = some o) ∧
    (o ≠ s.dev.serial) :=
  ⟨stc [{ pub0 with deferred := true }], 0, 3, 2, { pub0 with deferred := true }, lfc, List.replicate 16 1, by decide +kernel, rfl, by decide +kernel, rfl, ownerIn_one 2 _, by decide⟩

theorem witness_DirectoryEvents_shardRepublishSend : ∃ (s : State) (h : Nat) (o : Nat) (rest : List Nat) (l : Leaf) (ch : Bytes),
    (s.boot.republish = h :: rest) ∧
    (s.leaf h = some l) ∧
    (l.chain = some ch) ∧
    (s.shardOwner (shardOf ch) = some o) ∧
    (o ≠ s.dev.serial) :=
  ⟨{ stc [] with boot := { republish := [ph0] } }, ph0, 2, [], lfc, List.replicate 16 1, rfl, by decide +kernel, rfl, ownerIn_one 2 _, by decide⟩

theorem witness_AttendForward_start : ∃ (s : State) (c : Nat) (x : Cmd) (g : Geom) (a : Attn) (i : Instr) (o : Op) (kind : Nat),
    ((i, o, kind) ∈ [(Instr.attendDecode c, Op.decode, if x.approx then 2 else 0), (Instr.attendChunk c, Op.chunk, 1), (Instr.attendSparse c, Op.sparse, 2)]) ∧
    (s.runs c o x) ∧
    (s.geom x.part = some g) ∧
    (s.attn c = none) ∧
    ((s.planAttn x kind).bind (·.toOption) = some a) ∧
    (s.coresOf x.part ≠ []) ∧
    (s.attnStop x = none) ∧
    (s.attnLost a = false) ∧
    (x.buffers [x.f 0x28 8] = none) :=
  ⟨stp y1 [kDec], 1, kDec, g0, at0, .attendDecode 1, .decode, 0, by decide +kernel⟩

def kFwd : Cmd := k1 .fwd [(8, 5), (0x18, 16 * 2 ^ 24 + 2 ^ 49), (0x20, 15), (0x28, 64)]
def vw0 : View :=
  { num := 2, part := 0, seq := 5, keyLo := 0, keyCount := 16, qtok := 1, qpos := 15, geom := 7, window := none, leaves := [(0, ph0)]
    stack := 5, lastUse := 0, made := 1 }

theorem witness_AttendForward_startFwd : ∃ (s : State) (c : Nat) (x : Cmd) (g : Geom) (a : Attn) (v : View),
    (s.runs c .fwd x) ∧
    (s.geom x.part = some g) ∧
    (s.attn c = none) ∧
    ((s.planFwd x).toOption = some (a, some v)) ∧
    (a.cmd = c) ∧
    (s.coresOf x.part ≠ []) ∧
    (s.attnStop x = none) ∧
    (s.attnLost a = false) ∧
    (x.buffers [x.f 0x28 8] = none) :=
  ⟨stp y1 [kFwd], 1, kFwd, g0, { at0 with kind := 3, view := 2 }, vw0, by decide +kernel⟩

theorem witness_AttendForward_finish : ∃ (s : State) (c : Nat) (x : Cmd) (g : Geom) (a : Attn) (i : Instr) (o : Op),
    ((i, o) ∈ [(Instr.attendDecode c, Op.decode), (Instr.attendChunk c, Op.chunk), (Instr.attendSparse c, Op.sparse), (Instr.attendFwdStats c, Op.fwd)]) ∧
    (s.runs c o x) ∧
    (s.geom x.part = some g) ∧
    (s.attn c = some a) ∧
    (o = .fwd → s.view x.part a.view ≠ none) ∧
    (s.attnStop x = none) ∧
    (s.attnLost a = false) ∧
    (a.built = true) ∧
    (a.finals.length = a.items.length) :=
  ⟨sta { at1 with finals := [(0, ⟨[0], [0], [[0]]⟩)] } [] [], 1, kDec, g0, { at1 with finals := [(0, ⟨[0], [0], [[0]]⟩)] }, .attendDecode 1, .decode, by decide +kernel⟩

def kBwd (mode : Nat) : Cmd := { k1 .bwd [(0x1C, mode), (0x1F, 3), (0x18, 2), (0x20, 64)] with bufs := [⟨64, some (List.replicate 64 0)⟩] }
def atb : Attn := { at1 with kind := 4, items := [], view := 2 }

theorem witness_TrainingBackward_attendBwdCompute : ∃ (s : State) (c : Nat) (x : Cmd) (g : Geom) (a : Attn) (d : List Nat),
    (s.runs c .bwd x) ∧
    (x.f 0x1C 1 = 0) ∧
    (s.geom x.part = some g) ∧
    (x.bwdDesc = some (some d)) ∧
    (s.attn c = some a) ∧
    (s.attnStop x = none) ∧
    (s.view a.part a.view ≠ none) ∧
    (s.attnLost a = false) ∧
    (a.built = true) ∧
    (a.items.length ≤ (a.cols.filter fun k => k.complete).length) ∧
    (x.dkvDest = 2 → a.det = true → s.setTurn x = true ∧ s.setMixed a.part (x.f 0x1F 1) x.q = false) ∧
    (x.dkvDest = 2 → s.accFits a.part (s.commitSet x a g).2 = true) :=
  ⟨{ sta atb [] [] with q := { queues := [q0], cmds := [kBwd 0] }, att := { attns := [atb], views := [{ vw0 with made := 0 }] } }, 1, kBwd 0, g0, atb, List.replicate 6 0, by decide +kernel⟩

def gs0 : GSet := { part := 0, num := 3, geom := 7 }
def stGset (c : Cmd) : State := { st [c] with att := { gsets := [gs0] } }

theorem witness_TrainingBackward_attendBwdExport : ∃ (s : State) (c : Nat) (x : Cmd) (g : Geom) (w : GSet) (d : List Nat) (recs : List Bytes),
    (s.runs c .bwd x) ∧
    (x.f 0x1C 1 = 1) ∧
    (s.gset x = some w) ∧
    (s.geom x.part = some g) ∧
    (x.bwdDesc = some (some d)) ∧
    (recs = (sortBy (fun (y : GAcc) => ((y.ph : Nat) : Int)) w.acc).map fun y => gradRecord g x.exportFmt y.ph y.layer y.first y.contrib y.dk y.dv) ∧
    (sumBy (fun r => r.length) recs ≤ d.getD 5 0) ∧
    ((s.detOf x && s.setMixed x.part w.num x.q) = false) :=
  ⟨stGset (kBwd 1), 1, kBwd 1, g0, gs0, List.replicate 6 0, [], by decide +kernel⟩

theorem witness_TrainingBackward_attendBwdDiscard : ∃ (s : State) (c : Nat) (x : Cmd) (w : GSet),
    (s.runs c .bwd x) ∧
    (x.f 0x1C 1 = 2) ∧
    (s.gset x = some w) ∧
    ((s.detOf x && s.setMixed x.part w.num x.q) = false) :=
  ⟨stGset (kBwd 2), 1, kBwd 2, gs0, by decide +kernel⟩

theorem witness_TrainingBackward_viewExpire : ∃ (s : State) (part : Nat) (view : Nat) (v : View),
    (s.view part view = some v) ∧
    (s.viewInUse part view = false) :=
  ⟨{ st [] with att := { views := [vw0] } }, 0, 2, vw0, by decide +kernel⟩

theorem witness_RunsAndMerge_runRelease : ∃ (s : State) (part : Nat) (r : Run) (best : Bool),
    (s.paused 0x0F 0 = false) ∧
    (s.nextRelease part = some (r, best)) :=
  ⟨sta at1 [rn0] [], 0, rn0, false, by decide +kernel⟩

theorem witness_RunsAndMerge_runDispatch : ∃ (s : State) (die : Nat) (part : Nat) (c : Nat) (r : Run),
    (((((s.coresOf part).filter fun c => c / 320 == die && s.coreFree part c && !s.paused 0x0C (die + 1))).findSome? fun c =>
      (s.runFor part die c).map fun r => (c, r)) = some (c, r)) :=
  ⟨sta at1 [{ rn0 with stage := 1 }] [], 0, 0, 0, { rn0 with stage := 1 }, by decide +kernel⟩

theorem witness_RunsAndMerge_runEnd : ∃ (s : State) (run : Nat) (r : Run) (x : Cmd) (a : Attn) (g : Geom) (it : Item),
    ((s.part.runs.find? fun y => y.id == run && y.stage == 2) = some r) ∧
    (r.leaf = none) ∧
    (s.cmd r.cmd = some x) ∧
    (s.attn r.cmd = some a) ∧
    (s.geom r.part = some g) ∧
    (a.items[r.item]? = some it) ∧
    (r.count ≠ 0 ∧ s.diesJoined r.srcDie r.die = true) :=
  ⟨sta at1 [{ rn0 with stage := 2 }] [], 1, { rn0 with stage := 2 }, kDec, at1, g0, it0, by decide +kernel⟩

theorem witness_RunsAndMerge_partialArriveCluster : ∃ (s : State) (c : Nat) (item : Nat) (first : Nat) (a : Attn) (h : Held),
    (s.attn c = some a) ∧
    ((s.att.helds.find? fun h => h.cmd == c && h.item == item && h.first == first && (h.place == 0 || h.place == 2 || h.place == 3)) = some h) ∧
    (h.place ≠ 3) ∧
    (s.heldAt c item 1 h.cluster = []) ∧
    (s.mergeUsed h.cluster + h.bytes ≤ 524288) :=
  ⟨sta at1 [] [hd0], 1, 0, 0, at1, hd0, by decide +kernel⟩

theorem witness_RunsAndMerge_partialArriveRoot : ∃ (s : State) (c : Nat) (item : Nat) (first : Nat) (a : Attn) (h : Held) (it : Item),
    (s.attn c = some a) ∧
    ((s.att.helds.find? fun h => h.cmd == c && h.item == item && h.first == first && (h.place == 0 || h.place == 2 || h.place == 3)) = some h) ∧
    (h.place = 3 ∧ s.behindInFlow a h = false) ∧
    (s.heldAt c item 4 h.cluster = []) ∧
    (a.items[item]? = some it) ∧
    (h.count = it.tiles.length) ∧
    (s.mergeUsed a.root + h.bytes ≤ 524288) :=
  ⟨sta at1 [] [{ hd0 with place := 3 }], 1, 0, 0, at1, { hd0 with place := 3 }, it0, by decide +kernel⟩

theorem witness_RunsAndMerge_mergeStall : ∃ (s : State) (die : Nat) (cluster : Nat) (h : Held),
    ((s.att.helds.find? fun h => h.place == 2 && !h.stalled && h.cluster == 10 * die + cluster) = some h) :=
  ⟨sta at1 [] [{ hd0 with place := 2 }], 0, 0, { hd0 with place := 2 }, by decide +kernel⟩

def pBig : Partition := { p0 with desc := { p0.desc with cores := 2 ^ 96 - 1 } }

theorem witness_RunsAndMerge_preemptWaitExpire : ∃ (s : State) (run : Nat) (r : Run),
    ((s.part.runs.find? fun y => y.id == run && y.stage == 1) = some r) ∧
    (s.gp F.SCHED_CTRL_PREEMPT_EN r.part ≠ 0) ∧
    (r.lane = false ∧ r.leaf = none) ∧
    (s.shareOf r.part r.qg ≠ 0) ∧
    (64 < (s.coresOf r.part).length) :=
  ⟨{ sta at1 [{ rn0 with stage := 1 }] [] with part := { parts := [pBig], runs := [{ rn0 with stage := 1 }] } }, 1, { rn0 with stage := 1 }, by decide +kernel⟩

def kDec2 : Cmd := { kDec with uid := 2, qg := 1 }
def atk : Attn := { at1 with cmd := 2 }
/-- Command 2 of group 1 has both cores and more to run; a run of group 0 waits. -/
def rsKill : List Run :=
  [{ rn0 with stage := 1 }, { rn0 with id := 2, cmd := 2, qg := 1, stage := 2 }, { rn0 with id := 3, cmd := 2, qg := 1, stage := 2, core := 1 },
   { rn0 with id := 4, cmd := 2, qg := 1, stage := 1 }]

theorem witness_RunsAndMerge_preemptKill : ∃ (s : State) (run : Nat) (c : Nat) (r : Run) (x : Cmd) (a : Attn) (g : Geom),
    ((s.part.runs.find? fun y => y.id == run && y.stage == 1) = some r) ∧
    (s.gp F.SCHED_CTRL_PREEMPT_EN r.part ≠ 0) ∧
    (r.lane = false ∧ r.leaf = none) ∧
    (s.shareOf r.part r.qg ≠ 0) ∧
    ((s.coresOf r.part).length ≤ 64) ∧
    (s.victims r.part r.cls r.qg true s.part.runs.length [] = [c]) ∧
    (s.cmd c = some x) ∧
    (s.attn c = some a) ∧
    (s.geom x.part = some g) :=
  ⟨{ sta at1 rsKill [] with q := { queues := [q0], cmds := [kDec, kDec2] }, att := { attns := [at1, atk] } }, 1, 2, { rn0 with stage := 1 }, kDec2, atk, g0, by decide +kernel⟩

def kLate : Cmd := k1 .decode [(8, 5), (0x10, 1000), (0x1C, 16), (0x20, 15), (0x24, 1), (0x28, 64)]

theorem witness_MonitorAndDeadline_monitorEval : ∃ (s : State) (u : State) (c : Nat) (n : Nat) (x : Cmd),
    (s.cmd c = some x) ∧
    (s.monitored x = true) ∧
    (n = max s.now (x.evalT.elim 0 fun e => e + s.g F.MON_PERIOD * 1000)) ∧
    (u = ({ s with now := n } : State).setCmd c fun y => { y with evalT := some n }) ∧
    (x.is .decode = false ∨ x.fApprox = false ∨ x.approx = true) ∧
    ((s.partition x.part).desc.lane = 0 ∨ x.lane = true) :=
  ⟨stp y1 [kLate] [(F.SCHED_CTRL_MON_EN.key 0 0 0 0, 1)], _, 1, 0, kLate, by decide +kernel, by decide +kernel, by decide +kernel, rfl, by decide +kernel⟩

theorem witness_MonitorAndDeadline_deadlinePass : ∃ (s : State) (c : Nat) (x : Cmd),
    (s.cmd c = some x) ∧
    (x.deadline ≠ 0) ∧
    (x.live = true) ∧
    (x.attn = true) ∧
    (x.released = true) :=
  ⟨stp y1 [{ kLate with released := true }], 1, { kLate with released := true }, by decide +kernel⟩

def kDel : Cmd := { k1 .deliver [(0x18, 1), (0x24, 1), (0x28, 2), (0x38, 64)] with bufs := [⟨64, some (leBytes 8 ph0)⟩] }

theorem witness_Deliveries_deliver : ∃ (s : State) (c : Nat) (x : Cmd) (i : Instr) (o : Op) (e : Dest) (ps : List (Nat × Nat)) (ys : List Page) (recs : Bytes),
    ((i, o) ∈ [(Instr.deliver c, Op.deliver), (Instr.fetch c, Op.fetch)]) ∧
    (s.runs c o x) ∧
    (s.deliv c = none) ∧
    (s.dest x.part (x.f 0x28 4) = some e) ∧
    ((s.port e.port).st ≠ .down ∧ (e.port < 8 → (s.port e.port).st = .up → s.ideOk e.port = true)) ∧
    (bit (x.f 0x24 1) 0 = true ∧ bit (x.f 0x24 1) 1 = false) ∧
    ((s.pageList x).bind (·.toOption) = some ps) ∧
    (∀ q ∈ ps, s.near q.1 q.2 = true ∧ s.readable q.1 q.2 = true) ∧
    (ys = ps.filterMap fun q => s.page q.1 q.2) ∧
    (recs = ys.flatMap fun y => y.record false) ∧
    (recs ≠ []) ∧
    (x.f 0x30 8 + sumBy (fun q => ((s.page q.1 q.2).map fun y => (y.record false).length).getD 0) ps ≤ e.len) ∧
    (x.deadline = 0) ∧
    (∀ p ∈ s.dlv.pushes, p.cmd ≠ c) ∧
    (∀ k ∈ s.att.codecs, (∀ j ∈ k.queue, j.owner ≠ c) ∧ ∀ l ∈ k.lanes, ∀ j ∈ l, j.owner ≠ c) :=
  ⟨std [kDel] [] [], 1, kDel, .deliver 1, .deliver, de0, [(0, 3)], [pg0], pg0.record false, by decide +kernel⟩

theorem witness_Deliveries_pushSend : ∃ (s : State) (port : Nat) (hs : List Push) (es : List Push) (b : Push) (x : Push) (d : Drr) (e : Dest),
    (hs = ((s.dlv.pushes.filter fun y => y.port == port && y.st == 0).map fun y => (y.part, y.dq)).eraseDups.filterMap
      fun f => s.flowHead port f.1 f.2) ∧
    (∀ y ∈ hs, s.pushLate y = false) ∧
    (s.paused 0x10 (port + 1) = false) ∧
    (es = hs.filter fun y => s.eligible y) ∧
    (argMin (fun y => (s.pushStep y : Int)) es = some b) ∧
    (s.drrPush ((s.port port).drr.prune (drrAlive es)) (es.filter fun y => s.pushStep y == s.pushStep b) = (d, some x)) ∧
    (s.dest x.part x.dest = some e) ∧
    (x.port < 8 → ∃ y ∈ s.dlv.pushes, y.cmd = x.cmd ∧ y.id ≠ x.id ∧ y.landing = false) :=
  ⟨std [kDel] [pu0, { pu0 with id := 2 }] [dv0], 1, [pu0], [pu0], pu0, pu0, ((std [kDel] [pu0, { pu0 with id := 2 }] [dv0]).drrPush {} [pu0]).1, de0, by decide +kernel⟩

theorem witness_Deliveries_pushAck : ∃ (s : State) (push : Nat) (x : Push) (d : Deliv),
    ((s.dlv.pushes.find? fun y => y.id == push && y.st == 1) = some x) ∧
    (x.landing = false) ∧
    (s.deliv x.cmd = some d) ∧
    (∃ y ∈ s.dlv.pushes, y.cmd = x.cmd ∧ y.id ≠ push ∧ y.landing = false) :=
  ⟨std [kDel] [{ pu0 with st := 1 }, { pu0 with id := 2 }] [dv0], 1, { pu0 with st := 1 }, dv0, by decide +kernel⟩

theorem witness_Deliveries_hostBufferReadDone : ∃ (s : State) (c : Nat) (x : Cmd),
    (s.cmd c = some x) ∧
    (x.st ≠ .done) ∧
    (x.owed = false) :=
  ⟨st [kDel], 1, kDel, by decide +kernel⟩

def cj0 : CodecJob := { part := 0, qg := 0, bytes := 4096, since := 0, decode := true, owner := 1 }
def cod0 : Codec := { die := 8, lanes := List.replicate 8 none, okLanes := List.replicate 8 true, queue := [cj0] }

theorem witness_Deliveries_codecLaneTake : ∃ (s : State) (b : Nat) (i : Nat) (k : Codec) (j : CodecJob),
    ((s.att.codecs.find? fun k => k.die == 8 + b) = some k) ∧
    (s.paused 0x0D (b + 1) = false) ∧
    (s.laneNext b = some i) ∧
    (k.lanes.getD i none = none) ∧
    (k.queue = [j]) ∧
    (j.qg < 256) :=
  ⟨{ st [] with att := { codecs := [cod0] } }, 0, 0, cod0, cj0, by decide +kernel⟩

theorem witness_Deliveries_codecLaneFail : ∃ (s : State) (b : Nat) (lane : Nat) (other : Nat) (k : Codec),
    ((s.att.codecs.find? fun k => k.die == 8 + b) = some k) ∧
    (k.okLanes.getD lane false = true) ∧
    (other ≠ lane ∧ k.okLanes.getD other false = true) :=
  ⟨{ st [] with att := { codecs := [cod0] } }, 0, 7, 0, cod0, by decide +kernel⟩

theorem witness_DestinationsAndGates_destCommit : ∃ (s : State) (part : Nat) (dest : Nat) (port : Nat),
    (part < 64 ∧ dest < s.gp F.DEST_LIMIT part ∧ s.partFree part = false) ∧
    (port = s.gps F.DEST_CTRL_PORT part dest) ∧
    (bit (s.gp F.PORT_MASK part) port = true ∧ s.portEnabled port = true ∧ s.tdiHolds port (part + 1) = false) ∧
    (s.gps F.DEST_BASE part dest % 64 = 0 ∧ shaperOk (s.shaperRegs part dest) = true) ∧
    (s.gps F.DEST_CTRL_LAND_EN part dest = 1 →
      s.gps F.DEST_LAND part dest + 16 * s.gp F.DQ_LIMIT part ≤ s.gps F.DEST_LEN part dest) :=
  ⟨std [] [] [], 0, 2, 1, by decide +kernel⟩

theorem witness_DestinationsAndGates_destRefused : ∃ (s : State) (part : Nat) (dest : Nat) (o : Dest),
    (part < 64 ∧ dest < s.gp F.DEST_LIMIT part ∧ s.partFree part = false) ∧
    (bit (s.gp F.PORT_MASK part) (s.gps F.DEST_CTRL_PORT part dest) = false ∨ s.portEnabled (s.gps F.DEST_CTRL_PORT part dest) = false) ∧
    (s.dest part dest = some o) :=
  ⟨{ std [] [] [] with regs := [(F.DEST_LIMIT.key 0 0 0 0, 4)] }, 0, 2, de0, by decide +kernel⟩

theorem witness_DestinationsAndGates_destDisable : ∃ (s : State) (part : Nat) (dest : Nat) (d : Dest),
    (s.dest part dest = some d) ∧
    (d.st = 1 ∧ s.partFree part = false) :=
  ⟨std [] [pu0] [], 0, 2, de0, by decide +kernel⟩

theorem witness_DestinationsAndGates_shaperRefill : ∃ (s : State) (part : Nat) (dest : Nat) (d : Dest),
    (s.dest part dest = some d) :=
  ⟨std [] [] [], 0, 2, de0, by decide +kernel⟩

theorem witness_DestinationsAndGates_dlvSample : ∃ (s : State) (part : Nat) (dq : Nat) (mine : List Push),
    (mine = s.dlv.pushes.filter fun x => x.part == part && x.dq == dq && x.st == 0) :=
  ⟨std [] [pu0] [], 0, 0, [pu0], by decide +kernel⟩

theorem witness_DestinationsAndGates_gateCommit : ∃ (s : State) (port : Nat),
    (port < 16) ∧
    (∀ p ∈ s.part.parts, p.live = true → bit (s.gp F.PORT_MASK p.num) port = true → ∀ dq < s.gp F.DQ_LIMIT p.num,
      fitsIn (s.counted p.num dq 4096) (s.portRate port)
      (longestOpen (gateSpans (s.adminList port) (s.gu F.GATE_CYCLE_NS port)) (s.gps F.DQ_CFG_GATE_CLASS p.num dq)) = true) ∧
    (port < s.dlv.ports.length) ∧
    (0 < s.gu F.GATE_CYCLE_NS port) :=
  ⟨std [] [] [], 1, by decide +kernel⟩

theorem witness_DestinationsAndGates_gateSwitch : ∃ (s : State) (port : Nat) (l : List GateEnt),
    ((s.port port).pending = some l) :=
  ⟨{ st [] with dlv := { ports := [{ num := 0, pending := some [⟨0xFF, 1000⟩] }] } }, 0, [⟨0xFF, 1000⟩], by decide +kernel⟩

theorem witness_DestinationsAndGates_gateIntervalEnd : ∃ (s : State) (port : Nat) (e : Nat × Nat),
    ((s.port port).spans[(s.port port).gateCur]? = some e) ∧
    (port < s.dlv.ports.length) :=
  ⟨std [] [] [], 1, (0xFF, 1000000), by decide +kernel⟩

theorem witness_LinksAndHolds_linkDown : ∃ (s : State) (port : Nat) (i : Instr),
    (i = .linkDown port ∨ (i = .ideFailure port ∧ port < 8 ∧ (s.port port).ideUp = true) ∨ (i = .viralReceived port ∧ port < 8)) ∧
    (port < 16 ∧ port < s.dlv.ports.length) ∧
    ((s.port port).st = .up) ∧
    (∀ x ∈ s.sec.tdis, x.port ≠ port) :=
  ⟨std [] [] [], 1, .ideFailure 1, by decide +kernel⟩

theorem witness_LinksAndHolds_viralReceived : ∃ (s : State) (port : Nat),
    (port < 8 ∧ port < s.dlv.ports.length) ∧
    ((s.port port).st = .up) ∧
    (s.gu F.HOLD_US port ≠ 0) ∧
    (∀ x ∈ s.sec.tdis, x.port ≠ port) :=
  ⟨std [] [] [], 1, by decide +kernel⟩

theorem witness_LinksAndHolds_linkUp : ∃ (s : State) (port : Nat),
    (port < 16 ∧ port < s.dlv.ports.length) ∧
    ((s.port port).st = .down ∧ (s.port port).trained = false) ∧
    (s.hw.stopped = false ∧ s.boot.halted = false ∧ s.stepDone 2 = true ∧ s.bridgeUp (port / 4 % 2) = true) :=
  ⟨{ std [] [] [] with boot := { ended := [2] } }, 15, by decide +kernel⟩

theorem witness_LinksAndHolds_holdExpire : ∃ (s : State) (port : Nat),
    (port < s.dlv.ports.length) ∧
    ((s.port port).st = .holding ∧ (s.port port).trained = false) :=
  ⟨{ st [] with dlv := { ports := [{ num := 0, st := .holding }] } }, 0, by decide +kernel⟩

theorem witness_LinksAndHolds_lldpReceive : ∃ (s : State) (n : Nat) (id : Nat) (b : Bytes),
    (n < 8 ∧ 8 + n < s.dlv.ports.length) ∧
    ((s.port (8 + n)).trained = true) ∧
    (id = leNat ((Blake.hash 32 [] (lldpIds 128 b)).take 8)) :=
  ⟨std [] [] [], 1, _, [], by decide, by decide +kernel, rfl⟩

theorem witness_LinksAndHolds_lldpTimeout : ∃ (s : State) (n : Nat),
    (n < 8 ∧ 8 + n < s.dlv.ports.length) ∧
    ((s.port (8 + n)).trained = true ∧ (s.port (8 + n)).lldp = none) :=
  ⟨std [] [] [], 1, by decide +kernel⟩

theorem witness_LinksAndHolds_pcieConfigRequest : ∃ (s : State) (port : Nat),
    (port < 8) ∧
    (s.boot.halted = false ∧ s.hw.stopped = false ∧ (s.port port).trained = true) :=
  ⟨std [] [] [], 1, by decide +kernel⟩

/-- A message of fields by offset. -/
def fmsg (fs : List (Nat × Nat)) : Nat := fs.foldl (fun a f => a + f.2 * 256 ^ f.1) 0
def ex0 : Extent :=
  { idx := 5, kind := 2, part := 0, fmId := 9, tray := 3, ports := 2, hdmDb := false, dpa := 0, len := 2 ^ 28, epoch := 0 }
def ls0 : Lease := { num := 4, part := 0, port := 1, pbr := 6, base := 0, len := 2 ^ 21, fmId := 9, epoch := 0 }
def cxlRegs : List (RegKey × Nat) :=
  [(F.POOL_MAX.key 0 0 0 0, 8), (F.PORT_CTRL_POOL_EN.key 2 255 0 0, 1), (F.WIN_QUOTA.key 0 0 0 0, 4), (F.HOST_PORTS.key 0 0 0 0, 2),
   (F.HOST_ALLOW_VALID.key 0 0 0 0, 1), (F.HOST_ALLOW_PBR_ID.key 0 0 0 0, 6)]
/-- A bound fabric manager, these extents, leases and commands. -/
def stx (es : List Extent) (ls : List Lease) (cs : List Cmd) : State :=
  { stp y1 cs cxlRegs with sec := { fuses := { fmBound := true } }, cxl := { extents := es, leases := ls }, dlv := { ports := portsUp } }

theorem witness_ExtentsAndWindows_extGrant : ∃ (s : State) (msg : Nat),
    (s.fmBound = true) ∧
    (s.grantReason msg = 0) :=
  ⟨stx [] [] [], fmsg [(2, 2), (8, 3), (0x0A, 2), (0x18, 2 ^ 28)], by decide +kernel⟩

theorem witness_ExtentsAndWindows_extRelease : ∃ (s : State) (msg : Nat) (e : Extent),
    (s.fmBound = true) ∧
    (s.extNamed msg = some e) ∧
    (e.st = .held) :=
  ⟨stx [ex0] [] [], fmsg [(4, 9), (0x0C, 5)], ex0, by decide +kernel⟩

theorem witness_ExtentsAndWindows_extForceRelease : ∃ (s : State) (msg : Nat) (e : Extent),
    (s.fmBound = true) ∧
    (s.extNamed msg = some e) ∧
    (e.st ≠ .revoking) :=
  ⟨stx [ex0] [] [], fmsg [(4, 9), (0x0C, 5)], ex0, by decide +kernel⟩

def ex1 : Extent := { ex0 with kind := 1, st := .releasing }
def cp2 : Copy := { cp1 with tier := 2, die := 15, unit := 5 }

theorem witness_ExtentsAndWindows_evacTimeout : ∃ (s : State) (ext : Nat) (e : Extent),
    (s.extent ext = some e) ∧
    (e.st = .releasing ∧ e.kind = 1) ∧
    (s.extentEmpty ext = false) ∧
    (s.tier.waits = [] ∧ s.sq.seals = []) :=
  ⟨{ stx [ex1] [] [] with tier := { copies := [cp2] } }, 5, ex1, by decide +kernel⟩

theorem witness_ExtentsAndWindows_extentReleased : ∃ (s : State) (ext : Nat) (e : Extent),
    (s.extent ext = some e) ∧
    (e.st ≠ .held) ∧
    (e.st = .releasing → e.kind = 1 → s.extentEmpty ext = true) ∧
    (e.kind ≠ 1 ∨ e.st = .revoking → ∀ c ∈ s.q.cmds, c.live = true → c.nmNames ext = true → e.relUid ≤ c.uid) :=
  ⟨stx [ex1] [] [], 5, ex1, by decide +kernel⟩

theorem witness_ExtentsAndWindows_windowExtentAdd : ∃ (s : State) (msg : Nat),
    (s.fmBound = true) ∧
    (s.windowOk msg = true) :=
  ⟨stx [] [] [], fmsg [(0, 1), (2, 6), (16, 2 ^ 21), (32, 0x574C)], by decide +kernel⟩

theorem witness_ExtentsAndWindows_windowReleaseReq : ∃ (s : State) (msg : Nat) (l : Lease),
    (s.fmBound = true) ∧
    (s.leaseNamed msg = some l) ∧
    (l.st = .active) :=
  ⟨stx [] [ls0] [], fmsg [(0, 1), (2, 6), (36, 9)], ls0, by decide +kernel⟩

theorem witness_ExtentsAndWindows_hostExtentRelease : ∃ (s : State) (msg : Nat) (l : Lease),
    (s.leaseNamed msg = some l) ∧
    (l.st = .releasing) ∧
    (∀ x ∈ s.cxl.leases, x.num = l.num → x = l) :=
  ⟨stx [] [{ ls0 with st := .releasing }] [], fmsg [(0, 1), (2, 6), (36, 9)], { ls0 with st := .releasing }, by decide +kernel⟩

theorem witness_ExtentsAndWindows_windowForceRelease : ∃ (s : State) (msg : Nat) (l : Lease),
    (s.fmBound = true) ∧
    (s.leaseNamed msg = some l) ∧
    (∀ x ∈ s.cxl.leases, x.num = l.num → x = l) :=
  ⟨stx [] [ls0] [], fmsg [(0, 1), (2, 6), (36, 9)], ls0, by decide +kernel⟩

theorem witness_ExtentsAndWindows_birsp : ∃ (s : State) (port : Nat) (lease : Nat) (l : Lease),
    (l ∈ s.cxl.leases) ∧
    (l.num = lease ∧ l.port = port) ∧
    (s.cxl.reads = []) :=
  ⟨stx [] [ls0] [], 1, 4, ls0, by decide +kernel⟩

def mapB : Bytes := leBytes 8 ph0 ++ leBytes 4 0 ++ leBytes 4 1

theorem witness_ExtentsAndWindows_windowMapCommit : ∃ (s : State) (part : Nat) (lease : Nat) (e : Lease) (b : Bytes) (ws : List WinSlot),
    (s.lease part lease = some e) ∧
    ((e.st = .active ∨ e.st = .releasing) ∧ e.pending = none) ∧
    (s.tdiHolds e.port (part + 1) = false) ∧
    (16 * s.gps F.WIN_MAP_ENTRIES part lease ≤ b.length) ∧
    (ws = mapSlots b (s.gps F.WIN_MAP_ENTRIES part lease)) ∧
    (∀ w ∈ ws, s.resolve part w.handle (hOrder w.handle) = none) ∧
    (s.slotsBad e ws = false) :=
  ⟨{ stx [] [ls0] [] with regs := [(F.WIN_MAP_ENTRIES.key 0 0 4 0, 1)] }, 0, 4, ls0, mapB, [⟨0, ph0⟩], by decide +kernel⟩

theorem witness_ExtentsAndWindows_mapCommitPoint : ∃ (s : State) (part : Nat) (lease : Nat) (e : Lease) (ws : List WinSlot),
    (s.lease part lease = some e) ∧
    (e.pending = some ws) ∧
    (∀ w ∈ ws, s.near (hPart w.handle) (hSerial w.handle) = true) ∧
    (∀ f ∈ s.cxl.sf, f.lease = lease → s.slotOf e.slots f.line = s.slotOf ws f.line) :=
  ⟨stx [] [{ ls0 with pending := some [⟨0, ph0⟩] }] [], 0, 4, { ls0 with pending := some [⟨0, ph0⟩] }, [⟨0, ph0⟩], by decide +kernel⟩

theorem witness_ExtentsAndWindows_windowRead : ∃ (s : State) (port : Nat) (pbr : Nat) (addr : Nat) (e : Lease),
    (port < 8) ∧
    ((s.cxl.leases.find? fun l =>
      l.port == port && l.pbr == pbr && l.base ≤ addr && addr < l.base + l.len && (l.st == .active || l.st == .releasing)) = some e) ∧
    ((s.cxl.leases.find? fun l => l.num == e.num) = some e) ∧
    (s.ideOk port = true) ∧
    (s.cxl.reads = [] ∧ s.paused 0x11 (port + 1) = false) ∧
    (s.gp F.HOST_RATE e.part = 0) ∧
    (s.cxl.sf.length < sfMax) ∧
    (∀ w ∈ s.slotOf e.slots ((addr - e.base) / 64), s.near (hPart w.handle) (hSerial w.handle) = true) :=
  ⟨stx [] [ls0] [], 1, 6, 2 ^ 21 - 64, ls0, by decide +kernel⟩

def kFill : Cmd := k1 .nmFill [(0x18, 5 * 2 ^ 52), (0x28, 64)]

theorem witness_NearMemory_fill : ∃ (s : State) (c : Nat) (x : Cmd) (e : Extent) (v : Nat) (n : Nat),
    (s.runs c .nmFill x) ∧
    (s.nmJob c = none) ∧
    (s.nmCheck x = none) ∧
    (v = x.f 0x18 8 ∧ n = x.f 0x28 8 / 64) ∧
    (s.extent (nmExt v) = some e) ∧
    (e.st = .held) ∧
    (s.trayPort e ≠ none) ∧
    ((s.tray e.tray).outstanding + n ≤ (s.tray e.tray).limit) ∧
    ((s.cxl.jobs.filter fun k => k.die == s.nmDie x && k.running).length < 4 ∧ s.paused 0x16 (s.nmDie x + 1) = false) :=
  ⟨stx [ex0] [] [kFill], 1, kFill, ex0, 5 * 2 ^ 52, 1, by decide +kernel⟩

def kCmp : Cmd := k1 .nmCompare [(0x20, 5 * 2 ^ 52), (0x30, 5 * 2 ^ 52 + 64), (0x28, 64)]

theorem witness_NearMemory_enter : ∃ (s : State) (c : Nat) (x : Cmd) (i : Instr) (o : Op),
    ((i, o) ∈ [(Instr.nmCopy c, Op.nmCopy), (Instr.nmCompare c, Op.nmCompare), (Instr.nmReduce c, Op.nmReduce)]) ∧
    (s.runs c o x) ∧
    (s.nmJob c = none) ∧
    (s.nmCheck x = none) ∧
    (∀ v ∈ x.nmOperands, ∃ e ∈ s.extent (nmExt v), e.st = .held) ∧
    ((s.cxl.jobs.filter fun k => k.die == s.nmDie x && k.running).length < 4 ∧ s.paused 0x16 (s.nmDie x + 1) = false) :=
  ⟨stx [ex0] [] [kCmp], 1, kCmp, .nmCompare 1, .nmCompare, by decide +kernel⟩

def nj0 : NmJob := { cmd := 1, op := 0x52, die := 0, running := true, lines := 1, next := 1, asked := (1, 1) }
def stn (j : NmJob) : State := { stx [ex0] [] [kCmp] with cxl := { extents := [ex0], jobs := [j] } }

theorem witness_NearMemory_done : ∃ (s : State) (c : Nat) (x : Cmd) (i : Instr) (o : Op) (j : NmJob),
    ((i, o) ∈ [(Instr.nmFill c, Op.nmFill), (Instr.nmCopy c, Op.nmCopy), (Instr.nmCompare c, Op.nmCompare), (Instr.nmReduce c, Op.nmReduce)]) ∧
    (s.runs c o x) ∧
    (s.nmJob c = some j) ∧
    (j.running = true ∧ j.next = j.lines ∧ j.poison = none ∧ j.lines ≤ j.asked.1 ∧ j.lines ≤ j.asked.2) ∧
    (∀ v ∈ x.nmOperands, ∃ e ∈ s.extent (nmExt v), e.st = .held) :=
  ⟨stn nj0, 1, kCmp, .nmCompare 1, .nmCompare, nj0, by decide +kernel⟩

theorem witness_NearMemory_trayWriteAnswered : ∃ (s : State),
    (∀ j ∈ s.cxl.jobs, j.out = []) :=
  ⟨stn nj0, by decide +kernel⟩

def nj1 : NmJob := { nj0 with next := 0, out := [(1, 0)] }

theorem witness_NearMemory_trayReadAnswered : ∃ (s : State) (ext : Nat) (line : Nat) (data : Bytes) (j : NmJob) (x : Cmd) (r : Nat × Nat),
    ((s.cxl.jobs.findSome? fun j => (s.cmd j.cmd).bind fun x =>
      (j.out.find? fun r => (x.nmSrc r.1).any fun v => nmExt v == ext && nmOff v / 64 + r.2 == line).map fun r => (j, x, r)) = some (j, x, r)) ∧
    (s.nmJob j.cmd = some j) ∧
    (x.cancelled = false ∧ x.uid = j.cmd) ∧
    (j.running = true ∧ j.poison = none ∧ j.next < j.lines ∧ j.lines ≤ j.asked.1 ∧ j.lines ≤ j.asked.2) ∧
    (({ j with got := j.got ++ [(r, data)] } : NmJob).result x j.next = none) ∧
    (∀ v ∈ x.nmOperands, ∃ e ∈ s.extent (nmExt v), e.st = .held) :=
  ⟨stn nj1, 5, 1, List.replicate 64 0, nj1, kCmp, (1, 0), by decide +kernel⟩

def kHint (k : Nat) (fs : List (Nat × Nat)) : Cmd := k1 .hint ([(8, 5), (0x18, k)] ++ fs)

theorem witness_TierCommands_hintNeed : ∃ (s : State) (c : Nat) (x : Cmd) (y : Seq) (ge : Geom),
    (s.hintOf c 0 = some x) ∧
    ((s.seqFor x.part x.seq c).toOption = some (y, ge)) ∧
    (x.layer + max 1 (x.f 0x24 2) ≤ y.lens.length) :=
  ⟨stp y1 [kHint 0 [(0x1C, 0), (0x20, 16), (0x24, 1)]], 1, kHint 0 [(0x1C, 0), (0x20, 16), (0x24, 1)], y1, g0, by decide +kernel⟩

theorem witness_TierCommands_hintCold : ∃ (s : State) (c : Nat) (x : Cmd) (y : Seq) (ge : Geom),
    (s.hintOf c 1 = some x) ∧
    ((s.seqFor x.part x.seq c).toOption = some (y, ge)) :=
  ⟨stp y1 [kHint 1 []], 1, kHint 1 [], y1, g0, by decide +kernel⟩

theorem witness_TierCommands_hintCadence : ∃ (s : State) (c : Nat) (x : Cmd),
    (s.hintOf c 2 = some x) ∧
    (x.f 0x1A 2 ≤ 255) :=
  ⟨stp y1 [kHint 2 [(0x1A, 255)]], 1, kHint 2 [(0x1A, 255)], by decide +kernel⟩

def kBatch : Cmd :=
  { kHint 3 [(0x1A, 255), (0x30, 64)] with
    bufs := [⟨64, some (leBytes 4 1 ++ leBytes 4 1 ++ leBytes 8 0 ++ leBytes 6 5 ++ leBytes 2 0 ++ leBytes 4 0 ++ leBytes 4 1)⟩] }

theorem witness_TierCommands_hintBatch : ∃ (s : State) (c : Nat) (x : Cmd) (es : List LenEnt),
    (s.hintOf c 3 = some x) ∧
    (x.f 0x1A 2 ≤ 255) ∧
    (x.buffers [x.tableAddr] = some true) ∧
    ((x.bufAll x.tableAddr).bind lenTable = some es) ∧
    (∀ e ∈ es, ∃ y ∈ s.seq x.part e.seq, ∃ ge ∈ s.geom x.part, y.openTo c = true ∧ e.first + e.count ≤ y.length ∧ ge.id = y.geom) :=
  ⟨stp y1 [kBatch], 1, kBatch, [{ seq := 5, aux := 0, first := 0, count := 1 }], by decide +kernel⟩

theorem witness_TierCommands_hintLeave : ∃ (s : State) (c : Nat) (x : Cmd) (g : Cadence) (y : Seq) (ge : Geom),
    (s.hintOf c 4 = some x) ∧
    (s.cadence x.part (x.f 0x1A 2) = some g) ∧
    ((s.seqFor x.part x.seq c).toOption = some (y, ge)) ∧
    (y.id ∈ g.members) :=
  ⟨{ stp y1 [kHint 4 [(0x1A, 255)]] with tier := { cadences := [{ part := 0, num := 255, members := [5] }] } }, 1, kHint 4 [(0x1A, 255)], { part := 0, num := 255, members := [5] }, y1, g0, by decide +kernel⟩

def kMig : Cmd := k1 .migrate [(8, 5), (0x18, 1), (0x20, 16), (0x24, 1)]
def kEvi : Cmd := k1 .evict [(8, 5), (0x20, 16), (0x24, 1)]

theorem witness_TierCommands_migrate : ∃ (s : State) (c : Nat) (d : Nat) (x : Cmd) (hs : List Nat) (ns : List (Nat × Nat)),
    (s.runs c .migrate x) ∧
    (x.phase = 0) ∧
    ((s.leavesNamed x (bit (x.f 0x1A 1) 0) (x.f 0x1C 4) (x.f 0x20 4) (x.f 0x28 8)).bind (·.toOption) = some hs) ∧
    (ns = s.pagesNamed hs (bit (x.f 0x1A 1) 0) x.layer (x.f 0x24 2) ∧ ∀ n ∈ ns, n.2 < 2 ^ 64) ∧
    (if 2 ≤ x.f 0x18 1 then d = 15 else d = x.f 0x19 1 ∧ d < 8) ∧
    (x.f 0x18 1 = 2 → s.quota x.part 2 15 ≠ 0) ∧
    (∀ n ∈ ns, (∀ k ∈ s.capoTiers (s.leafHandle n.1 n.2), x.f 0x18 1 ≤ k) ∧ (∃ k ∈ s.copyAt n.1 n.2 (x.f 0x18 1) d, k.backing = true) ∧
      (∀ k ∈ s.copiesOf n.1 n.2, x.f 0x18 1 ≤ k.tier)) ∧
    (∀ n ∈ ns, ∀ k ∈ s.copiesOf n.1 n.2, k.backing = true → k.tier = x.f 0x18 1) ∧
    (∀ n ∈ ns, s.moveOf n.1 n.2 = none) :=
  ⟨stp y1 [kMig], 1, 0, kMig, [ph0], [(0, 3)], by decide +kernel⟩

theorem witness_TierCommands_evict : ∃ (s : State) (c : Nat) (x : Cmd) (hs : List Nat) (ns : List (Nat × Nat)),
    (s.runs c .evict x) ∧
    ((s.leavesNamed x (bit (x.f 0x1A 1) 0) (x.f 0x1C 4) (x.f 0x20 4) (x.f 0x28 8)).bind (·.toOption) = some hs) ∧
    (ns = s.pagesNamed hs (bit (x.f 0x1A 1) 0) x.layer (x.f 0x24 2)) ∧
    (bit (x.f 0x1A 1) 1 = false ∧ ∀ n ∈ ns, s.pageKnown n.1 n.2 = true) :=
  ⟨stp y1 [kEvi], 1, kEvi, [ph0], [(0, 3)], by decide +kernel⟩

def mvD : Move :=
  { id := 1, part := 0, serial := 3, srcTier := 1, srcDie := 0, dstTier := 3, dstDie := 15, bytes := 4096, replace := false,
    backing := true, why := 2 }
def stm (m : Move) (cs : List Cmd) : State := let s := stp y1 cs; { s with tier := { s.tier with moves := [m], nextMove := 2 } }
def full (k : Copy) : State := let s := stp y1 []; { s with tier := { s.tier with copies := [{ k with bytes := 2 ^ 33 }] } }

theorem witness_TierEvents_demoteStart : ∃ (s : State) (part : Nat) (tier : Nat) (die : Nat) (d : Nat),
    (part < 64 ∧ tier < 4 ∧ s.pst part ≠ .free ∧ s.paused 0x0B (if tier ≤ 1 then die + 1 else 0) = false) ∧
    (d = if 2 ≤ tier then 15 else die) ∧
    ((s.pool part tier d).st = .idle ∧ s.poolNeeds part tier d = true ∧ s.poolDone part tier d = false) ∧
    (s.victimLeaving part tier d = true) :=
  ⟨let s := full cp1; { s with tier := { s.tier with moves := [mvD] } }, 0, 1, 0, 0, by decide +kernel⟩

theorem witness_TierEvents_demoteDone : ∃ (s : State) (part : Nat) (tier : Nat) (die : Nat) (d : Nat),
    (part < 64 ∧ tier < 4 ∧ s.pst part ≠ .free ∧ s.paused 0x0B (if tier ≤ 1 then die + 1 else 0) = false) ∧
    (d = if 2 ≤ tier then 15 else die) ∧
    ((s.pool part tier d).st ≠ .idle ∧ s.poolDone part tier d = true) :=
  ⟨let s := stp y1 []; { s with tier := { s.tier with pools := [{ part := 0, tier := 1, die := 0, st := .demoting }] } }, 0, 1, 0, 0, by decide +kernel⟩

def big : State :=
  let s := full { cp1 with backing := false }
  { s with tier := { s.tier with pools := [{ part := 0, tier := 1, die := 0, st := .demoting }] }
           regs := (F.HOOK_CTRL_ENABLE.key 0 0 3 0, 0) :: s.regs }

theorem witness_TierEvents_demoteCached : ∃ (s : State) (part : Nat) (tier : Nat) (die : Nat) (d : Nat) (k : Copy) (ks : List Copy),
    (part < 64 ∧ tier < 4 ∧ s.pst part ≠ .free ∧ s.paused 0x0B (if tier ≤ 1 then die + 1 else 0) = false) ∧
    (d = if 2 ≤ tier then 15 else die) ∧
    ((s.pool part tier d).st = .demoting ∧ s.poolDone part tier d = false ∧ s.victimLeaving part tier d = false) ∧
    (s.hookBy part 3 = .fallback) ∧
    (s.candidates part tier d = k :: ks) ∧
    (k.backing = false ∧ s.page part k.serial ≠ none) ∧
    (s.quiet) :=
  ⟨big, 0, 1, 0, 0, { cp1 with backing := false, bytes := 2 ^ 33 }, [], by decide +kernel⟩

theorem witness_TierEvents_moveComplete : ∃ (s : State) (move : Nat) (m : Move),
    ((s.tier.moves.find? fun m => m.id == move) = some m) ∧
    (m.why ≠ 6) ∧
    (m.dstTier = 3 → s.t3Done m.part m.serial 0 = true) ∧
    ((m.srcTier, m.srcDie) ≠ (m.dstTier, m.dstDie)) ∧
    (m.reads.1 = 3 → s.t3Unread m.part m.serial = false) ∧
    (m.reads.1 ≤ 1 → m.dstTier ≤ 1 → s.diesJoined m.reads.2 m.dstDie = true) ∧
    (∀ l ∈ s.sq.leaves, l.holds m.part m.serial = true → l.freed = false) ∧
    (s.quiet) :=
  ⟨stm mvD [], 1, mvD, by decide +kernel⟩

theorem witness_TierEvents_moveAgain : ∃ (s : State) (move : Nat) (m : Move) (k : Copy),
    ((s.tier.moves.find? fun m => m.id == move) = some m) ∧
    (m.attempt = 0 ∧ (m.reads.1 = 3 → s.t3Unread m.part m.serial = false)) ∧
    (((s.copiesOf m.part m.serial).find? fun k => k.good && !(k.tier == m.srcTier && k.die == m.srcDie)) = some k) :=
  ⟨stm { mvD with srcTier := 2 } [], 1, { mvD with srcTier := 2 }, cp1, by decide +kernel⟩

theorem witness_TierEvents_moveFails : ∃ (s : State) (move : Nat) (m : Move),
    ((s.tier.moves.find? fun m => m.id == move) = some m) ∧
    (m.attempt ≠ 0) ∧
    (∀ x ∈ s.sq.pages, x.base = 0 ∨ (hPart x.base, hSerial x.base) ≠ (m.part, m.serial)) ∧
    (s.quiet) :=
  ⟨stm { mvD with attempt := 1 } [], 1, { mvD with attempt := 1 }, by decide +kernel⟩

def aw0 : AdmitWait := { id := 1, part := 0, serial := 3, tier := 1, die := 0, bytes := 4096, until_ := 5, why := 3, cmd := 1 }

theorem witness_TierEvents_admitWaitExpire : ∃ (s : State) (wait : Nat) (w : AdmitWait) (x : Cmd),
    ((s.tier.waits.find? fun w => w.id == wait) = some w) ∧
    (w.why ≠ 7 ∧ w.cmd ≠ 0 ∧ s.moveOf w.part w.serial = none ∧ s.pageKnown w.part w.serial = true) ∧
    (s.cmd w.cmd = some x) ∧
    (x.st ≠ .done) :=
  ⟨let s := stp y1 [kMig]; { s with tier := { s.tier with waits := [aw0] } }, 1, aw0, kMig, by decide +kernel⟩

def pf0 : Prefetch := { part := 0, seq := 5, layer := 0, first := 0, count := 16, issueT := 3, useT := 9, t0 := false, qg := 0, group := 0 }

theorem witness_TierEvents_prefetchIssue : ∃ (s : State) (part : Nat) (seq : Nat) (layer : Nat) (q : Prefetch),
    (s.paused 0x0B 0 = false ∧ s.gp F.TIER_CTRL_PREFETCH_EN part = 1) ∧
    (argMin (fun q => ((q.issueT : Nat) : Int)) ((s.tier.prefetches.filter fun q => q.part == part).filter fun q =>
      q.seq == seq && q.layer == layer) = some q) ∧
    (∀ r ∈ s.tier.prefetches, r.part = part → q.issueT ≤ r.issueT) :=
  ⟨let s := stp y1 []; { s with tier := { s.tier with prefetches := [{ pf0 with layer := 1, issueT := 4 }, pf0] } }, 0, 5, 0, pf0, by decide +kernel⟩

theorem witness_TierEvents_protectExpire : ∃ (s : State) (part : Nat) (serial : Nat) (tier : Nat) (die : Nat) (k : Copy),
    (s.copyAt part serial tier die = some k) ∧
    (k.protUntil ≠ 0) :=
  ⟨let s := stp y1 []; { s with tier := { s.tier with copies := [{ cp1 with protUntil := 9 }] } }, 0, 3, 1, 0, { cp1 with protUntil := 9 }, by decide +kernel⟩

theorem witness_TierEvents_pinExpire : ∃ (s : State) (part : Nat) (serial : Nat) (tier : Nat) (die : Nat) (k : Copy),
    (s.copyAt part serial tier die = some k) ∧
    (k.pinUntil ≠ 0) :=
  ⟨let s := stp y1 []; { s with tier := { s.tier with copies := [{ cp1 with pinUntil := 9 }] } }, 0, 3, 1, 0, { cp1 with pinUntil := 9 }, by decide +kernel⟩

def le0 : Lease :=
  { num := 1, part := 0, port := 1, pbr := 3, base := 0, len := 65536, fmId := 2, epoch := 1, slots := [⟨0, ph0⟩] }

theorem witness_TierEvents_pinRenew : ∃ (s : State) (part : Nat) (lease : Nat) (l : Lease),
    ((s.cxl.leases.find? fun l => l.part == part && l.num == lease) = some l) :=
  ⟨let s := stp y1 []; { s with cxl := { leases := [le0] } }, 0, 1, le0, by decide +kernel⟩

def sdg : State :=
  let s := stp y1 [] [(F.TIER_CTRL_AUTO_DESTAGE.key 0 0 0 0, 1)]
  { s with sq := { s.sq with pages := [{ pg0 with cls := 1 }] } }

theorem witness_TierEvents_destageWrite : ∃ (s : State) (part : Nat) (serial : Nat) (v : Nat) (l : Leaf),
    (s.paused 0x0B 0 = false) ∧
    (s.gp F.TIER_CTRL_AUTO_DESTAGE part ≠ 0 ∨ s.overBudget = true) ∧
    (s.hookBy part 6 = .shipped v) ∧
    ((s.hookCount part 6).destageNext part v = some l) ∧
    (l.serial = serial) :=
  ⟨sdg, 0, 3, 0, lf0, by decide +kernel⟩

theorem witness_TierEvents_destageCommit : ∃ (s : State) (part : Nat) (serial : Nat) (l : Leaf) (ms : List Move),
    ((s.sq.leaves.find? fun l => l.part == part && l.serial == serial) = some l) ∧
    (ms = s.tier.moves.filter fun m => m.part == part && m.why == 6 && l.serial ≤ m.serial && m.serial < l.serial + l.layers) ∧
    (ms ≠ []) ∧
    (∀ i < l.layers, (∃ m ∈ ms, m.serial = l.serial + i) ∨ ∀ k ∈ s.copiesOf part (l.serial + i), ¬ (k.backing = true ∧ k.tier = 1)) ∧
    (∀ m ∈ ms, s.t3Done part m.serial 0 = true ∧ m.dstTier = 3 ∧ m.dstDie = 15 ∧ m.backing = true ∧ m.replace = false) ∧
    (∀ y ∈ s.sq.leaves, ∀ m ∈ ms, y.holds part m.serial = true → y.freed = false) ∧
    (s.quiet) :=
  ⟨stm { mvD with why := 6 } [], 0, 3, lf0, [{ mvD with why := 6 }], by decide +kernel⟩

def gr1 : Granule := { gr0 with cls := 1 }

theorem witness_TierEvents_granuleSave : ∃ (s : State) (part : Nat) (seq : Nat) (layer : Nat) (first : Nat) (g : Granule),
    (s.gran part seq layer first = some g) ∧
    (s.paused 0x07 0 = false ∧ s.overBudget = true ∧ g.counted = true) ∧
    (∀ x ∈ s.sq.granules, x.counted = true → g.time ≤ x.time) ∧
    (∀ p < 64, s.countedLeaves p = []) :=
  ⟨let s := stp y1 []; { s with sq := { s.sq with granules := [gr1] } }, 0, 5, 0, 0, gr1, by decide +kernel⟩

def put (l : List (Nat × Nat)) (n : Nat) : Bytes := (List.range n).map fun i => ((l.find? fun e => e.1 == i).map (·.2)).getD 0
def bSet : Bytes := leBytes 2 0x0100 ++ [1, 0] ++ leBytes 2 1 ++ List.replicate 762 0
def kSet : Cmd := { k1 .partSet [(0x18, 1), (0x20, 64)] with bufs := [⟨64, some bSet⟩] }
def stpt (p : Partition) (cs : List Cmd) : State :=
  { st cs with part := { parts := p :: (List.range 63).map fun i => { num := i + 1 } } }
def pNil : Partition := { p0 with desc := {} }

theorem witness_PartitionLife_partSet : ∃ (s : State) (s1 : State) (c : Nat) (p : Nat) (x : Cmd) (b : Bytes) (q : Partition),
    (s.runs c .partSet x) ∧
    (p = x.f 0x18 1 ∧ p < 64) ∧
    (q ∈ s.part.parts ∧ q.num = p) ∧
    (s.sec.fuses.debug ≠ .invasive) ∧
    (∀ y ∈ s.q.cmds, y.is .partSet = true → y.live = true → y.f 0x18 1 = p → c ≤ y.uid) ∧
    ((s.partition p).leaveCmd = 0) ∧
    (x.buffers [x.f 0x20 8] = some true) ∧
    (x.buf (x.f 0x20 8) 768 = some b) ∧
    (rd b 0 2 = 0x0100 ∧ rd b 2 1 = p) ∧
    (s.pst p = .free ∨ (s.pst p = .active ∧ s.quotaShort p (parseDesc b) = false)) ∧
    (s.descBad p (parseDesc b) = false ∧ s.keysLeft p (parseDesc b) = false) ∧
    (s.journalled c = (s1, true)) ∧
    (∀ v ∈ s.sec.tdis, v.fn ≠ p + 1) :=
  ⟨stpt pNil [kSet], ((stpt pNil [kSet]).journalled 1).1, 1, 1, kSet, bSet, { num := 1 }, by decide +kernel⟩

def kClr : Cmd := k1 .partClear []

theorem witness_PartitionLife_partClear : ∃ (s : State) (s1 : State) (c : Nat) (p : Nat) (x : Cmd),
    (s.runs c .partClear x) ∧
    (p = x.f 0x18 1 ∧ p < 64) ∧
    ((s.partition p).clearCmd ≠ c) ∧
    (s.pst p = .active ∨ s.pst p = .faulted) ∧
    (bit (x.f 0x19 1) 0 = false ∧ s.foreignHolds p = false) ∧
    (s.journalled c = (s1, true)) :=
  ⟨st [kClr], ((st [kClr]).journalled 1).1, 1, 0, kClr, by decide +kernel⟩

theorem witness_PartitionLife_partitionDrained : ∃ (s : State) (p : Nat),
    (s.pst p = .clearing) ∧
    (∀ x ∈ s.q.cmds, x.part = p → x.live = false) ∧
    (∀ r ∈ s.part.runs, r.part ≠ p) ∧
    ((∀ l ∈ s.cxl.leases, l.part ≠ p) ∧ ∀ e ∈ s.cxl.extents, e.part ≠ p) :=
  ⟨stpt { p0 with st := .clearing } [{ kClr with part := 64 }], 0, by decide +kernel⟩

theorem witness_PartitionLife_scrubDone : ∃ (s : State) (p : Nat) (x : Cmd),
    (s.pst p = .scrubbing) ∧
    (∀ k ∈ s.sweep.tier.copies, k.part = p → s.sweep.pageBusy p k.serial = false) ∧
    ((∀ l ∈ s.sweep.cxl.leases, l.part ≠ p) ∧ ∀ e ∈ s.sweep.cxl.extents, e.part ≠ p) ∧
    (s.cmd (s.partition p).clearCmd = some x) ∧
    (x.st ≠ .done ∧ (s.partition p).leaveCmd ≠ (s.partition p).clearCmd) :=
  ⟨stpt { p0 with st := .scrubbing, clearCmd := 1 } [{ kClr with part := 64 }], 0, { kClr with part := 64 }, by decide +kernel⟩

theorem witness_PartitionLife_scrubTaken : ∃ (s : State) (p : Nat) (x : Cmd),
    (s.pst p ≠ .scrubbing ∧ s.pst p ≠ .free) ∧
    ((s.partition p).leaveCmd ≠ 0 ∧ s.leavingRuns p = false) ∧
    (s.cmd (s.partition p).leaveCmd = some x) ∧
    (x.st ≠ .done) :=
  ⟨stpt { p0 with leaveCmd := 1 } [{ kSet with part := 64 }], 0, { kSet with part := 64 }, by decide +kernel⟩

def gHead : Bytes :=
  leBytes 2 0x0100 ++ leBytes 2 8 ++ leBytes 4 180 ++ leBytes 2 1 ++ leBytes 2 1 ++ leBytes 2 1 ++ leBytes 2 64 ++ leBytes 2 0 ++
  [0, 0] ++ leBytes 4 64 ++ leBytes 4 80 ++ leBytes 4 116
def gDig : Bytes :=
  [171, 206, 32, 130, 10, 47, 98, 17, 210, 202, 40, 38, 130, 37, 116, 8, 197, 220, 212, 82, 202, 32, 144, 109, 254, 102, 202, 228,
   241, 172, 165, 14]
def gTail : Bytes :=
  [3, 3] ++ leBytes 2 0 ++ leBytes 2 1 ++ leBytes 2 1 ++ leBytes 8 0 ++ leBytes 4 1 ++ leBytes 4 0 ++ leBytes 4 0x3F800000 ++
  leBytes 24 0 ++ leBytes 2 0x102 ++ leBytes 6 1 ++ leBytes 4 1 ++ leBytes 4 132 ++ [1, 0, 3, 1] ++ leBytes 12 0 ++ List.replicate 32 5
def gRaw : Bytes := gHead ++ gDig ++ gTail
def gNew : Geom :=
  { id := 8, qHeads := 1, kvHeads := 1, headDim := 64, vDim := 0, qFmt := 0, outFmt := 0, layers := [⟨3, 3, 0, 1, 1⟩], modOff := 80
    codecOff := 116, digest := gDig, raw := gRaw }
theorem gNew_parse : parseGeom gRaw 180 = some gNew := by decide +kernel
def kGeo : Cmd := { k1 .geomLoad [(0x20, 64), (0x28, 180)] with bufs := [⟨64, some gRaw⟩] }

theorem witness_PartitionLife_geomLoad : ∃ (s : State) (s1 : State) (c : Nat) (p : Nat) (x : Cmd) (b : Bytes) (g : Geom),
    (s.runs c .geomLoad x) ∧
    (p = x.f 0x18 1 ∧ p < 64) ∧
    (s.pst p = .active ∧ x.f 0x28 4 ≤ 2 ^ 22) ∧
    (x.buffers [x.f 0x20 8] = some true) ∧
    (x.bufAll (x.f 0x20 8) = some b) ∧
    (s.gp F.SEC_CTRL p ≠ 1) ∧
    (parseGeom b (x.f 0x28 4) = some g) ∧
    (∀ o ∈ (s.partition p).geom, o.digest ≠ g.digest) ∧
    (s.journalled c = (s1, true)) :=
  ⟨st [kGeo], ((st [kGeo]).journalled 1).1, 1, 0, kGeo, gRaw, gNew, by decide +kernel, by decide +kernel, by decide +kernel, by decide +kernel, by decide +kernel, by decide +kernel, gNew_parse,
        by decide +kernel, by decide +kernel⟩

theorem witness_PartitionLife_geomSame : ∃ (s : State) (c : Nat) (p : Nat) (x : Cmd) (b : Bytes) (g : Geom) (o : Geom),
    (s.runs c .geomLoad x) ∧
    (p = x.f 0x18 1 ∧ p < 64) ∧
    (s.pst p = .active ∧ x.f 0x28 4 ≤ 2 ^ 22) ∧
    (x.buffers [x.f 0x20 8] = some true) ∧
    (x.bufAll (x.f 0x20 8) = some b) ∧
    (s.gp F.SEC_CTRL p ≠ 1) ∧
    (parseGeom b (x.f 0x28 4) = some g) ∧
    ((s.partition p).geom = some o ∧ o.digest = g.digest) :=
  ⟨stpt { p0 with geom := some gNew } [kGeo], 1, 0, kGeo, gRaw, gNew, gNew, by decide +kernel, by decide +kernel, by decide +kernel, by decide +kernel, by decide +kernel, by decide +kernel, gNew_parse,
        by decide +kernel⟩

theorem witness_PartitionLife_geomSwitchApply : ∃ (s : State) (p : Nat) (g : Geom) (x : Cmd),
    (s.pst p = .switching) ∧
    (∀ y ∈ s.q.cmds, y.part = p → y.st = .started → y.is .fence = true ∨ y.is .cancel = true) ∧
    (∀ j ∈ s.sq.seals, j.part = p → j.step ≠ 1 ∧ s.coding j = false) ∧
    (∀ k ∈ s.att.codecs, (∀ j ∈ k.queue, j.part ≠ p) ∧ ∀ l ∈ k.lanes, ∀ j ∈ l, j.part ≠ p) ∧
    ((s.partition p).next = some g) ∧
    (s.cmd (s.partition p).switchCmd = some x) ∧
    (x.st ≠ .done) :=
  ⟨stpt { p0 with st := .switching, switchCmd := 1, next := some gNew } [{ kGeo with part := 64 }], 0, gNew, { kGeo with part := 64 }, by decide +kernel⟩

theorem witness_PartitionLife_partFaultForce : ∃ (s : State) (p : Nat),
    (s.pst p = .active ∨ s.pst p = .switching) :=
  ⟨stpt p0 [], 0, by decide +kernel⟩

theorem witness_AccountsAndLimits_shareWindowTick : ∃ (s : State) (p : Nat) (q : Partition),
    (q ∈ s.part.parts ∧ q.num = p) ∧
    (p < 64 ∧ s.pst p ≠ .free) :=
  ⟨stpt p0 [], 0, p0, by decide +kernel⟩

theorem witness_AccountsAndLimits_acctLatch : ∃ (s : State) (a : Agent) (n : Nat) (p : Nat) (k : Nat) (r : List Nat),
    (n = agentNo a) ∧
    (∀ v f, a ≠ .vf v f) ∧
    (p = s.reg F.ACCT_PSEL 0 255 n 0) ∧
    (k = s.reg F.ACCT_SEL_KIND 0 255 n 0 ∧ s.partFree p = false) ∧
    (r = alGetD (if k = 0 then AcctKey.group p (s.reg F.ACCT_SEL_QGROUP 0 255 n 0) else if k = 1 then .part p else if k = 2 then .idle p
      else .device) (List.replicate 21 0) s.part.acct) :=
  ⟨stpt p0 [], .pf 0, agentNo (.pf 0), 0, 0, List.replicate 21 0, by decide +kernel, (by intro v f h; cases h), by decide +kernel, by decide +kernel, by decide +kernel⟩

def se0 : Session := { id := 9, port := 1, fn := 1, part := 0 }
def bKey : Bytes := [0x4C, 0x4B, 0x42, 0x31, 3, 0, 1, 32, 0, 0, 1, 0] ++ List.replicate 60 0
def kKey : Cmd := { k1 .keySet [(0x18, 3), (0x1C, 9), (0x20, 64), (0x28, 72)] with bufs := [⟨64, some bKey⟩] }
def sse (cs : List Cmd) : State := { st cs with sec := { sessions := [se0] }, dlv := { ports := portsUp } }

theorem witness_KeysAndSessions_keySet : ∃ (s : State) (s1 : State) (c : Nat) (slot : Nat) (p : Nat) (x : Cmd) (b : Bytes) (y : Session),
    (s.runs c .keySet x) ∧
    (slot = x.f 0x18 2 ∧ slot ≤ 4095 ∧ x.f 0x28 4 = 72) ∧
    (s.sec.fuses.debug ≠ .invasive) ∧
    (x.buffers [x.f 0x20 8] = some true) ∧
    (x.buf (x.f 0x20 8) 72 = some b) ∧
    (b.take 4 = [0x4C, 0x4B, 0x42, 0x31] ∧ rd b 7 1 = 32 ∧ (rd b 6 1 = 1 ∨ rd b 6 1 = 2) ∧ rd b 4 2 = slot) ∧
    ((s.keySlot slot).retired = false) ∧
    (s.keyOwner slot = some p ∧ rd b 8 1 = p) ∧
    ((s.sec.sessions.find? fun y => y.id == x.f 0x1C 4 && y.fn == p + 1) = some y) ∧
    (rd b 0x0A 2 = (s.keySlot slot).gen + 1) ∧
    (s.journalled c = (s1, true)) :=
  ⟨sse [kKey], ((sse [kKey]).journalled 1).1, 1, 3, 0, kKey, bKey, se0, by decide +kernel⟩

def kEra : Cmd := k1 .keyErase [(0x18, 4092), (0x1A, 4)]

theorem witness_KeysAndSessions_keyErase : ∃ (s : State) (s1 : State) (c : Nat) (lo : Nat) (n : Nat) (x : Cmd),
    (s.runs c .keyErase x) ∧
    (s.sole c) ∧
    (lo = x.f 0x18 2 ∧ n = x.f 0x1A 2 ∧ 0 < n ∧ lo + n ≤ 4096) ∧
    (s.journalled c = (s1, true)) :=
  ⟨sse [kEra], ((sse [kEra]).journalled 1).1, 1, 4092, 4, kEra, by decide +kernel⟩

theorem witness_KeysAndSessions_spdmRequest : ∃ (port : Nat) (fn : Nat),
    (port < 8 ∧ fn ≤ 64) :=
  ⟨7, 64, by decide +kernel⟩

theorem witness_KeysAndSessions_spdmGetMeasurements : ∃ (s : State) (session : Nat) (block : Nat) (m : Bytes) (x : Session),
    ((s.sec.sessions.find? fun x => x.id == session) = some x) ∧
    (s.sec.fuses.life ≠ .returned) ∧
    (block ≠ 0xFF) ∧
    (s.measBlock x.fn block = some m) :=
  ⟨sse [], 9, 8, fit 8 (leBytes 1 255 ++ leBytes 1 1), se0, by decide +kernel⟩

def td0 : Tdi := { port := 1, fn := 1, st := .locked, sess := 9 }

theorem witness_KeysAndSessions_spdmSessionEnd : ∃ (s : State) (session : Nat) (x : Session),
    (x ∈ s.sec.sessions ∧ x.id = session) :=
  ⟨{ sse [] with sec := { sessions := [se0], tdis := [td0] } }, 9, se0, by decide +kernel⟩

theorem witness_KeysAndSessions_functionLevelReset : ∃ (fn : Nat),
    (fn ≠ 0) :=
  ⟨1, by decide +kernel⟩

theorem witness_InterfacesAndFuses_tdispLock : ∃ (s : State) (port : Nat) (fn : Nat) (session : Nat) (y : Session),
    (1 ≤ fn ∧ fn ≤ 64) ∧
    ((s.tdi port fn).st = .unlocked ∧ s.pst (fn - 1) = .active ∧ (s.port port).ideUp = true) ∧
    (y ∈ s.sec.sessions ∧ y.id = session ∧ y.port = port ∧ y.fn = fn) :=
  ⟨sse [], 1, 1, 9, se0, by decide +kernel⟩

theorem witness_InterfacesAndFuses_tdispStart : ∃ (s : State) (port : Nat) (fn : Nat),
    ((s.tdi port fn).st = .locked) :=
  ⟨{ sse [] with sec := { sessions := [se0], tdis := [td0] } }, 1, 1, by decide +kernel⟩

theorem witness_InterfacesAndFuses_ideKeyRefresh : ∃ (s : State) (port : Nat) (stream : Nat) (set : Nat),
    (port < 8 ∧ stream < 9 ∧ set < 2 ∧ (s.port port).ideUp = true) :=
  ⟨sse [], 1, 8, 1, by decide +kernel⟩

theorem witness_InterfacesAndFuses_fmSession : ∃ (s : State) (d : Bytes),
    (∃ b ∈ s.fmPin, b ≠ 0) ∧
    (d = s.fmPin) :=
  ⟨st [] [(F.FM_PIN.key 0 255 0 0, 1)], (st [] [(F.FM_PIN.key 0 255 0 0, 1)]).fmPin, by decide +kernel, rfl⟩

theorem witness_InterfacesAndFuses_fmSessionEnd : ∃ (s : State),
    (s.fmBound = true) :=
  ⟨{ st [] with sec := { fuses := { fmBound := true } } }, by decide +kernel⟩

def fused : State := { st [] with hw := { (st []).hw with pins := { vfuseOk := true } }, sec := { fuses := { runSvn := [1, 2, 3, 4] } } }

theorem witness_InterfacesAndFuses_svnCommit : ∃ (s : State) (stage : Nat),
    (s.hw.pins.vfuseOk = true ∧ 1 ≤ stage ∧ stage ≤ 4) :=
  ⟨fused, 4, by decide +kernel⟩

theorem witness_InterfacesAndFuses_keyRevoke : ∃ (s : State) (slot : Nat),
    (s.hw.pins.vfuseOk = true ∧ slot ≤ 3 ∧ s.sec.fuses.runKey.getD 0 0 ≠ slot) :=
  ⟨fused, 3, by decide +kernel⟩

theorem witness_InterfacesAndFuses_debugToken : ∃ (s : State) (nonce : Bytes) (n : Nat),
    (nonce ∉ s.sec.fuses.nonces) ∧
    (s.sec.fuses.life = .production ∧ s.sec.fuses.debug = .none) ∧
    ((n = 1) ∨ (n = 3 ∧ s.hw.pins.vfuseOk = true)) :=
  ⟨fused, [1], 3, by decide +kernel⟩

theorem witness_InterfacesAndFuses_debugInvasive : ∃ (s : State) (nonce : Bytes),
    (nonce ∉ s.sec.fuses.nonces) ∧
    (s.sec.fuses.life = .production ∧ s.sec.fuses.debug = .none) ∧
    ((∀ p < 64, s.pst p = .free) ∧ ∀ k ∈ s.sec.keys, k.st = .empty) :=
  ⟨{}, [1], by decide +kernel⟩

def sq (x : Queue) (cs : List Cmd) (rs : List (RegKey × Nat)) : State := let s := st cs rs; { s with q := { s.q with queues := [x] } }
def onRegs : List (RegKey × Nat) := [(F.BOOT_PHASE_SERVICE.key 0 255 0 0, 1), (F.QP_LIMIT.key 0 0 0 0, 1)]
def qOff : Queue := { q0 with st := .disabled }

theorem witness_QueuesAndDoorbells_queueEnable : ∃ (s : State) (q : Nat) (v : Nat) (x : Queue),
    (s.queue q = some x) ∧
    (s.serving = true) ∧
    (x.st = .disabled) ∧
    (s.queuePart q < 64 → s.pst (s.queuePart q) ≠ .free) ∧
    (([0x302, 0x301, 0x300, 0x201, 0x200].find? fun v => s.qreg F.QVER_OFFER_MIN q ≤ v && v ≤ s.qreg F.QVER_OFFER_MAX q) = some v) ∧
    (s.qreg F.QCTRL_SQ_INLINE q ≠ 1 ∧ s.qreg F.QCTRL_CQ_INLINE q ≠ 1) ∧
    (s.qreg F.SQ_BASE q % 4096 = 0 ∧ s.qreg F.CQ_BASE q % 4096 = 0) ∧
    (s.queuePart q < 64 → (s.q.queues.filter fun y => y.num < 65536 && y.st != .disabled && s.queuePart y.num == s.queuePart q).length <
      s.gp F.QP_LIMIT (s.queuePart q)) ∧
    (s.tdiHolds x.port x.fn = false) :=
  ⟨sq qOff [] onRegs, 0, 0x302, qOff, by decide +kernel⟩

theorem witness_QueuesAndDoorbells_queueHeld : ∃ (s : State) (q : Nat) (x : Queue),
    (s.queue q = some x) ∧
    (s.serving = false) :=
  ⟨sq qOff [] [], 0, qOff, by decide +kernel⟩

theorem witness_QueuesAndDoorbells_queueDisable : ∃ (s : State) (q : Nat) (x : Queue),
    (s.queue q = some x) ∧
    (x.st = .active ∧ q < 65536) :=
  ⟨sq q0 [] [], 0, q0, by decide +kernel⟩

theorem witness_QueuesAndDoorbells_queueDrained : ∃ (s : State) (q : Nat) (x : Queue),
    (s.queue q = some x) ∧
    (x.st = .draining) ∧
    (∀ c ∈ s.q.cmds, c.q ≠ q) :=
  ⟨sq { q0 with st := .draining } [] [], 0, { q0 with st := .draining }, by decide +kernel⟩

theorem witness_QueuesAndDoorbells_queueReset : ∃ (s : State) (q : Nat) (x : Queue),
    (s.queue q = some x) ∧
    (x.st = .active ∨ x.st = .draining ∨ x.st = .error) :=
  ⟨sq { q0 with st := .error } [kClr] [], 0, { q0 with st := .error }, by decide +kernel⟩

theorem witness_QueuesAndDoorbells_queueResetDone : ∃ (s : State) (q : Nat) (x : Queue),
    (s.queue q = some x) ∧
    (x.st = .resetting) ∧
    (∀ c ∈ s.q.cmds, c.q ≠ q) :=
  ⟨sq { q0 with st := .resetting } [] [], 0, { q0 with st := .resetting }, by decide +kernel⟩

theorem witness_QueuesAndDoorbells_sqDoorbell : ∃ (s : State) (a : Agent) (n : Nat) (q : Nat) (x : Queue),
    (s.queueOf a n = some q ∧ s.queue q = some x) ∧
    (x.st = .active) :=
  ⟨sq q0 [] [], .pf 0, 0, 0, q0, by decide +kernel⟩

theorem witness_QueuesAndDoorbells_cqDoorbell : ∃ (s : State) (a : Agent) (n : Nat) (q : Nat) (head : Nat) (x : Queue) (e : MsixVec),
    (s.queueOf a n = some q ∧ s.queue q = some x) ∧
    (e = s.msixVec x.port x.fn (s.qreg F.QBIND_VECTOR q) ∧ s.qreg F.QBIND_VECTOR q < msixCount x.fn) ∧
    (x.st ≠ .disabled ∧ x.st ≠ .resetting) ∧
    (head < s.cqSize q) ∧
    ((head + s.cqSize q - x.cqHead) % s.cqSize q ≤ s.unconsumed x) :=
  ⟨sq { q0 with cqTail := 5 } [] [], .pf 0, 0, 0, 5, { q0 with cqTail := 5 }, { port := 0, fn := 0, vec := 0 }, by decide +kernel⟩

theorem witness_QueuesAndDoorbells_acceptResume : ∃ (s : State) (q : Nat) (x : Queue),
    (s.queue q = some x) ∧
    (x.paused = true ∧ s.acceptRoom x = true) :=
  ⟨sq { q0 with paused := true } [] [], 0, { q0 with paused := true }, by decide +kernel⟩

theorem witness_QueuesAndDoorbells_irqAggTimeout : ∃ (s : State) (q : Nat) (x : Queue) (e : MsixVec),
    (s.queue q = some x) ∧
    (e = s.msixVec x.port x.fn (s.qreg F.QBIND_VECTOR q) ∧ s.qreg F.QBIND_VECTOR q < msixCount x.fn) ∧
    (x.irqCount ≠ 0 ∧ s.qreg F.IRQ_AGG_US q ≠ 0 ∧ s.qreg F.QCTRL_IRQ_EN q ≠ 0) :=
  ⟨sq { q0 with irqCount := 1 } [] [(F.IRQ_AGG_US.key 0 255 0 0, 10), (F.QCTRL_IRQ_EN.key 0 255 0 0, 1)], 0, { q0 with irqCount := 1 },
    { port := 0, fn := 0, vec := 0 }, by decide +kernel⟩

def qOn : Queue := { q0 with sqTail := 1 }

theorem witness_CommandLife_entryAccept : ∃ (s : State) (a : State) (q : Nat) (e : Nat) (x : Queue) (z : Cmd) (heads : List (Nat × Nat)),
    (s.queue q = some x) ∧
    (x.st = .active ∧ x.sqHead ≠ x.sqTail) ∧
    (q < 65536 ∧ s.paused 0x0E (s.qreg F.QCTRL_FE q + 1) = false) ∧
    (s.acceptRoom x = true ∧ (x.sqInline.isSome = true → s.inlineEntry x = e)) ∧
    (s.acceptStatus x e = none ∧ s.myTurn q e heads = true) ∧
    (∀ y ∈ s.q.cmds, y.uid ≠ s.q.nextUid) ∧
    (a = (s.tookTurn q).acceptEntry x e ∧ a.cmd s.q.nextUid = some z) ∧
    (z.owed = true ∨ (a.admitStatus z = none ∧ a.monitored z = false ∧ (z.is .policyLoad = true → z.loadBad = false))) :=
  ⟨sq qOn [] [], ((sq qOn [] []).tookTurn 0).acceptEntry qOn (en .fence []), 0, en .fence [], qOn,
    ((((sq qOn [] []).tookTurn 0).acceptEntry qOn (en .fence [])).cmd 2).getD (k1 .fence []), [], by decide +kernel⟩

theorem witness_CommandLife_entryUnread : ∃ (s : State) (q : Nat) (x : Queue),
    (s.queue q = some x) ∧
    (x.st = .active ∧ x.sqHead ≠ x.sqTail ∧ x.sqInline = none) ∧
    (q < 65536 ∧ s.paused 0x0E (s.qreg F.QCTRL_FE q + 1) = false) ∧
    (s.acceptRoom x = true) :=
  ⟨sq qOn [] [], 0, qOn, by decide +kernel⟩

theorem witness_CommandLife_unknownOpcode : ∃ (s : State) (q : Nat) (e : Nat) (x : Queue) (heads : List (Nat × Nat)),
    (s.queue q = some x) ∧
    (x.st = .active ∧ (q < 65536 → x.sqHead ≠ x.sqTail)) ∧
    (s.acceptRoom x = true ∧ (x.sqInline.isSome = true → s.inlineEntry x = e)) ∧
    (Op.ofCode (efld e 0 1) = none ∧ s.myTurn q e heads = true) :=
  ⟨sq qOn [] [], 0, 0xFF, qOn, [], by decide +kernel⟩

def kWait : Cmd := { k1 .evict [] with st := .waiting }

theorem witness_CommandLife_commandStart : ∃ (s : State) (c : Nat) (x : Cmd),
    (s.cmd c = some x) ∧
    (s.mayStart x = true) ∧
    (s.sole c) ∧
    (x.is .fence = false ∨ x.waitFor ≠ []) ∧
    (x.is .cancel = false ∨ x.phase ≠ 1) :=
  ⟨st [kWait], 1, kWait, by decide +kernel⟩

theorem witness_CommandLife_fence : ∃ (s : State) (c : Nat) (x : Cmd),
    (s.cmd c = some x) ∧
    (s.sole c) ∧
    (x.is .fence = true ∧ x.st = .started ∧ x.waitFor = []) :=
  ⟨st [k1 .fence []], 1, k1 .fence [], by decide +kernel⟩

def kCan : Cmd := { k1 .cancel [(0x1C, 0xFFFF), (0x18, 0)] with uid := 2 }

theorem witness_CommandLife_cancel : ∃ (s : State) (c : Nat) (x : Cmd),
    (s.cmd c = some x) ∧
    (x.is .cancel = true ∧ x.st = .started ∧ x.phase = 0) ∧
    (s.cancelTargets x ≠ []) ∧
    (s.sole c ∧ ∀ d ∈ s.cancelTargets x, s.sole d.uid) :=
  ⟨st [kWait, kCan], 2, kCan, by decide +kernel⟩

theorem witness_CommandLife_cancelMiss : ∃ (s : State) (c : Nat) (x : Cmd),
    (s.cmd c = some x) ∧
    (x.is .cancel = true ∧ x.st = .started ∧ x.phase = 0) ∧
    (s.cancelTargets x = []) :=
  ⟨st [kCan], 2, kCan, by decide +kernel⟩

def kDone : Cmd := { k1 .evict [] with st := .done }

theorem witness_CommandLife_completionPost : ∃ (s : State) (c : Nat) (x : Cmd) (u : Queue),
    (s.cmd c = some x) ∧
    (x.st = .done ∧ x.outs = []) ∧
    (s.queue x.q = some u) ∧
    (u.num < 65536 → (s.port u.port).st ≠ .holding) ∧
    (u.cqFailed = false ∧ u.cqInline = none) :=
  ⟨st [kDone], 1, kDone, q0, by decide +kernel⟩

def polB : Bytes :=
  [0x4C, 0x50, 0x50, 0x31, 0, 1, 8, 0] ++ leBytes 12 1 ++ leBytes 12 68 ++ [113, 159, 116, 189, 255, 252, 115, 225, 18, 179, 71, 78, 190,
   168, 127, 29, 6, 90, 10, 48, 49, 209, 68, 125, 97, 68, 122, 139, 234, 124, 105, 69] ++ leBytes 4 0x51
def polG : Program :=
  { part := 0, hook := 8, code := [0x51], consts := [], dataWords := 0, init := [], budget := 0, primMask := 0
    digest := (polB.drop 32).take 32, load := 1 }
theorem polG_parse : parseProgram (polB.take 68) (Blake.hash 32 []) 0 8 1 = some polG := by decide +kernel
def kPol : Cmd := { k1 .policyLoad [(0x19, 8), (0x20, 64), (0x28, 68)] with bufs := [⟨64, some polB⟩] }

theorem witness_PolicyPrograms_policyLoad : ∃ (s : State) (c : Nat) (p : Nat) (h : Nat) (slot : Nat) (x : Cmd) (b : Bytes) (plain : Bytes) (g : Program),
    (s.runs c .policyLoad x) ∧
    (p = x.f 0x18 1 ∧ h = x.f 0x19 1) ∧
    (bit (x.f 0x1A 1) 0 = false) ∧
    (s.loadNames p h = true ∧ x.f 0x28 4 ≤ 65536 ∧ x.f 0x20 8 % 16 = 0) ∧
    (x.buffers [x.f 0x20 8] = some true) ∧
    (x.bufAll (x.f 0x20 8) = some b) ∧
    (if p < 64 ∧ s.gp F.SEC_CTRL p = 1 then (s.openEnvelope p b (x.f 0x28 4)).toOption = some (plain, slot) else plain = b.take (x.f 0x28 4)) ∧
    (parseProgram plain (Blake.hash 32 []) p h c = some g) ∧
    (∀ i ∈ g.code.zipIdx, g.accepts i.2 i.1 = true) ∧
    (s.storeFits g = true) ∧
    ((s.journalled c).2 = true) :=
  ⟨st [kPol], 1, 0, 8, 0, kPol, polB, polB.take (kPol.f 0x28 4), polG, by decide +kernel, by decide +kernel, by decide +kernel, by decide +kernel, by decide +kernel, by decide +kernel, by decide +kernel, polG_parse, by decide +kernel, by decide +kernel, by decide +kernel⟩

def kPolD : Cmd := k1 .policyLoad [(0x19, 8), (0x1A, 1)]

theorem witness_PolicyPrograms_policyLoadDefault : ∃ (s : State) (c : Nat) (p : Nat) (h : Nat) (x : Cmd),
    (s.runs c .policyLoad x) ∧
    (p = x.f 0x18 1 ∧ h = x.f 0x19 1) ∧
    (bit (x.f 0x1A 1) 0 = true) ∧
    (s.loadNames p h = true) ∧
    ((s.journalled c).2 = true) :=
  ⟨st [kPolD], 1, 0, 8, kPolD, by decide +kernel⟩

def evP (h : Nat) : PolEvent := { id := 1, hook := h, part := 0, die := 0, args := [] }
def polS (q : Sequencer) (es : List PolEvent) (rs : List (RegKey × Nat)) : State :=
  { st [] rs with pol := { programs := [polG], events := es, seqrs := [q], timers := [(0, 5, 0)] } }
def sq0 : Sequencer := { die := 0, num := 3 }

theorem witness_PolicyPrograms_policyEventRun : ∃ (s : State) (die : Nat) (n : Nat) (w : Nat) (q : Sequencer) (e : PolEvent) (g : Program),
    (s.seqr die n = some q) ∧
    (q.retired = false ∧ q.running = none ∧ s.hw.stopped = false ∧ s.paused 0x15 (die + 1) = false) ∧
    (((s.eventsOn die).find? fun e => !s.excluded e) = some e) ∧
    (e.hook = 8) ∧
    (s.hookBy e.part 8 = .program ∧ s.program e.part 8 = some g) ∧
    (g.code[0]? = some w ∧ polOp w = 0x51) ∧
    (1 ≤ s.polBudget g) ∧
    (32000 / max 1 (s.pace die) ≤ s.eventMax e) :=
  ⟨polS sq0 [evP 8] [(F.CUR_PACE.key 1 255 0 0, 1000)], 0, 3, 0x51, sq0, evP 8, polG, by decide +kernel⟩

theorem witness_PolicyPrograms_eventMaxTimeout : ∃ (s : State) (die : Nat) (n : Nat) (q : Sequencer) (e : PolEvent),
    (s.seqr die n = some q) ∧
    (q.running = some e) ∧
    (e.hook = 1 ∨ e.hook = 4 ∨ e.hook = 8) :=
  ⟨polS { sq0 with running := some (evP 1) } [] [], 0, 3, { sq0 with running := some (evP 1) }, evP 1, by decide +kernel⟩

theorem witness_PolicyPrograms_policyQueueFull : ∃ (s : State) (die : Nat) (hook : Nat) (part : Nat),
    (1024 ≤ (s.eventsOn die).length) ∧
    (hook ≤ 8 ∧ part ≤ 64 ∧ hook ≠ 3) :=
  ⟨polS sq0 (List.replicate 1024 (evP 0)) [], 0, 8, 64, by decide +kernel⟩

theorem witness_PolicyPrograms_policyTimer : ∃ (s : State) (part : Nat) (last : Nat) (ticks : Nat) (us : Nat),
    (us = s.gps F.TIMER_PERIOD part 8 ∧ us ≠ 0) ∧
    (part ≤ 64 ∧ s.hw.stopped = false ∧ (part < 64 → s.pst part ≠ .free)) ∧
    ((s.pol.timers.find? fun t => t.1 == part) = some (part, last, ticks)) :=
  ⟨polS sq0 [] [(F.TIMER_PERIOD.key 0 0 8 0, 100)], 0, 5, 0, 100, by decide +kernel⟩

theorem witness_PolicyPrograms_sequencerFail : ∃ (s : State) (die : Nat) (n : Nat) (q : Sequencer),
    (s.seqr die n = some q) ∧
    (q.retired = false ∧ q.running = none) :=
  ⟨polS sq0 [] [], 0, 3, sq0, by decide +kernel⟩

def stime (ts : Nat) (rs : List (RegKey × Nat)) : State := { st [] ((F.TIME_STATE_STATE.key 0 255 0 0, ts) :: rs) with dlv := { ports := portsUp } }

theorem witness_DeviceTime_ptpAnnounce : ∃ (s : State) (port : Nat) (domain : Nat) (transport : Nat),
    (port < 8 ∧ 8 + port < s.dlv.ports.length) ∧
    (s.g F.TIME_CTRL_PTP_EN ≠ 0 ∧ bit (s.g F.PTP_CTRL_PORTS) port = true ∧ s.ptpTakes domain transport = true) :=
  ⟨stime 1 [], 7, 0, 0, by decide +kernel⟩

theorem witness_DeviceTime_announceTimeout : ∃ (s : State) (port : Nat) (x : Nat),
    (port < 8) ∧
    ((s.port (8 + port)).annT = some x) :=
  ⟨let s := stime 1 []; { s with dlv := { ports := s.dlv.ports.map fun p => { p with annT := some 4, annGm := 77 } } }, 7, 4, by decide +kernel⟩

theorem witness_DeviceTime_ptpSync : ∃ (s : State) (port : Nat) (domain : Nat) (transport : Nat) (p2p : Bool),
    (port < 8 ∧ s.g F.TIME_CTRL_PTP_EN ≠ 0 ∧ s.g F.TIME_STATE_PTP_PORT = port) ∧
    (s.ptpTakes domain transport = true ∧ p2p = decide (s.g F.PTP_CTRL_P2P = 1)) ∧
    (s.g F.TIME_CTRL_DISCIPLINE = 0) :=
  ⟨stime 1 [(F.TIME_STATE_PTP_PORT.key 0 255 0 0, 3)], 3, 0, 0, false, by decide +kernel⟩

theorem witness_DeviceTime_ptpSyncObserved : ∃ (s : State) (port : Nat) (domain : Nat) (transport : Nat) (p2p : Bool),
    (port < 8 ∧ s.g F.TIME_CTRL_PTP_EN ≠ 0 ∧ s.g F.TIME_STATE_PTP_PORT = port) ∧
    (s.ptpTakes domain transport = true ∧ p2p = decide (s.g F.PTP_CTRL_P2P = 1)) ∧
    (s.g F.TIME_CTRL_DISCIPLINE ≠ 0) :=
  ⟨stime 1 [(F.TIME_STATE_PTP_PORT.key 0 255 0 0, 3), (F.TIME_CTRL_DISCIPLINE.key 0 255 0 0, 1)], 3, 0, 0, false, by decide +kernel⟩

theorem witness_DeviceTime_ptmDialogue : ∃ (s : State) (port : Nat),
    (port < 8 ∧ s.g F.TIME_CTRL_PTM_EN ≠ 0 ∧ (s.port port).st ≠ .down) :=
  ⟨stime 1 [], 1, by decide +kernel⟩

theorem witness_DeviceTime_syncTimeout : ∃ (s : State),
    (s.g F.TIME_STATE_STATE = 3 ∨ s.g F.TIME_STATE_STATE = 4) :=
  ⟨stime 3 [], by decide +kernel⟩

theorem witness_DeviceTime_timeBaseLoss : ∃ (s : State) (b : Nat),
    (b < 2 ∧ b ∉ s.time.tbLost ∧ s.g F.TIME_STATE_STATE ≠ 0) :=
  ⟨stime 1 [], 0, by decide +kernel⟩

def pe9 : Peer := { serial := 9, kind := 1, group := 3, failGroup := 4, ver := 0x301, epoch := 1, eligible := true }
def mm (typ ver : Nat) (b : Bytes) (ringEpoch : Nat := 0) : MalMsg :=
  { typ := typ, src := 9, dst := 1, msgId := 40, ver := ver, body := b, ringEpoch := ringEpoch }
def snet (n : Net) (p : Pdir) (rs : List (RegKey × Nat)) : State :=
  { stp y1 [] rs with net := { n with peers := pe9 :: n.peers }, pdir := p, dlv := { ports := portsUp } }
def joinedRegs : List (RegKey × Nat) := [(F.BOOT_PHASE_SERVICE.key 0 255 0 0, 2)]
def kr0 : KeptReply := { src := 9, msgId := 40, reply := { mm 0x11 0x301 [] with reply := true }, time := 3 }

theorem witness_RepeatedRequests_repeated : ∃ (s : State) (m : MalMsg) (k : KeptReply),
    (s.g F.NET_CTRL_MALROTH_EN ≠ 0) ∧
    (s.net.kept.find? (fun k => k.src == m.src && k.msgId == m.msgId) = some k) :=
  ⟨snet { kept := [kr0] } {} [], mm 0x11 0x301 [], kr0, by decide +kernel⟩

theorem witness_RepeatedRequests_replyRetentionExpire : ∃ (s : State) (src : Nat) (msgId : Nat) (k : KeptReply),
    (s.net.kept.find? (fun k => k.src == src && k.msgId == msgId) = some k) :=
  ⟨snet { kept := [kr0] } {} [], 9, 40, kr0, by decide +kernel⟩

theorem witness_RepeatedRequests_keptOnce : ∃ (s : State) (m : MalMsg),
    (s.fresh m) ∧
    (s.joined = true ∧ 0x300 ≤ m.ver) :=
  ⟨snet {} {} joinedRegs, mm 0x12 0x301 [], by decide +kernel⟩

theorem witness_RequestsBeforeJoining_beforeJoining : ∃ (s : State) (m : MalMsg),
    (s.fresh m) ∧
    (s.joined = false ∧ 0x300 ≤ m.ver ∧ s.hw.retireReq = false) :=
  ⟨snet {} {} [], mm 0x12 0x301 [], by decide +kernel⟩

theorem witness_RequestsBeforeJoining_newerType : ∃ (s : State) (m : MalMsg),
    (s.fresh m) ∧
    (m.ver < 0x300 ∧ s.hw.retireReq = false) :=
  ⟨snet {} {} [], mm 0x12 0x201 [], by decide +kernel⟩

theorem witness_RequestsBeforeJoining_malrothUnknownType : ∃ (s : State) (m : MalMsg),
    (s.g F.NET_CTRL_MALROTH_EN ≠ 0) ∧
    (∀ v, typeSince m.typ = some v → m.ver < v) :=
  ⟨snet {} {} [], mm 0x99 0x301 [], by decide +kernel, (by intro v h; simp [typeSince, mm] at h)⟩

theorem witness_RequestsBeforeJoining_probe : ∃ (s : State) (m : MalMsg),
    (s.fresh m) ∧
    (s.joined = true ∧ 0x300 ≤ m.ver) :=
  ⟨snet {} {} joinedRegs, mm 0x31 0x301 [], by decide +kernel⟩

def bHello (d : Nat) : Bytes := leBytes 2 0x200 ++ leBytes 2 0x301 ++ leBytes 4 0 ++ leBytes 4 d ++ List.replicate 84 0

theorem witness_HellosAndHeartbeats_hello : ∃ (s : State) (m : MalMsg) (v : Nat),
    (s.g F.NET_CTRL_MALROTH_EN ≠ 0 ∧ ∀ k ∈ s.net.kept, ¬(k.src = m.src ∧ k.msgId = m.msgId)) ∧
    (commonVer (rd m.body 0 2, rd m.body 2 2) s.malRange = some v) ∧
    (rd m.body 8 4 = s.g F.DOMAIN_ID) :=
  ⟨snet {} {} [], mm 1 0x301 (bHello 0), 0x301, by decide +kernel⟩

theorem witness_HellosAndHeartbeats_helloRefused : ∃ (s : State) (m : MalMsg),
    (s.g F.NET_CTRL_MALROTH_EN ≠ 0 ∧ ∀ k ∈ s.net.kept, ¬(k.src = m.src ∧ k.msgId = m.msgId)) ∧
    (commonVer (rd m.body 0 2, rd m.body 2 2) s.malRange = none ∨ rd m.body 8 4 ≠ s.g F.DOMAIN_ID) :=
  ⟨snet {} {} [], mm 1 0x301 (bHello 5), by decide +kernel⟩

theorem witness_HellosAndHeartbeats_heartbeatOfMember : ∃ (s : State) (m : MalMsg),
    (s.fresh m) ∧
    (0x300 ≤ m.ver) ∧
    (s.net.leader = s.dev.serial ∧ m.src ∈ s.net.members) :=
  ⟨snet { leader := 1, members := [9] } {} [], mm 2 0x301 (List.replicate 32 0), by decide +kernel⟩

theorem witness_HellosAndHeartbeats_heartbeatRedirect : ∃ (s : State) (m : MalMsg),
    (s.fresh m) ∧
    (0x300 ≤ m.ver) ∧
    (s.net.leader ≠ 0 ∧ s.net.leader ≠ s.dev.serial ∧ s.stepState 7 ≠ stepRunning) :=
  ⟨snet { leader := 9 } {} [], mm 2 0x301 (List.replicate 32 0), by decide +kernel⟩

theorem witness_HellosAndHeartbeats_heartbeatTick : ∃ (s : State),
    (s.g F.NET_CTRL_MALROTH_EN ≠ 0) ∧
    (s.net.leader ≠ 0 ∧ s.net.leader ≠ s.dev.serial) :=
  ⟨snet { leader := 9 } {} [], by decide +kernel⟩

theorem witness_HellosAndHeartbeats_heartbeatMiss : ∃ (s : State) (n : Nat) (p : Peer),
    (s.peer n = some p) ∧
    (s.heartSenders.contains n = true ∧ p.reachable = true ∧ p.misses < 3) ∧
    (s.net.storm = none ∧ s.net.incidents.length < 1024) :=
  ⟨snet { leader := 1, members := [9] } {} [], 9, pe9, by decide +kernel⟩

def mw (t tries : Nat) : MalWait := { msg := { mm t 0x301 [] with src := 1, dst := 9 }, sentT := 0, tries := tries, ctx := 0 }

theorem witness_HellosAndHeartbeats_msgTimeoutAgain : ∃ (s : State) (u : State) (id : Nat) (w : MalWait),
    (s.net.waits.find? (fun w => w.msg.msgId == id && w.sent) = some w) ∧
    (w.tries % 16 < (if w.msg.typ = 0x10 then 2 else 4)) ∧
    (u = s.reach (w.sentT + if w.msg.typ = 0x10 then s.g F.PDIR_CTRL_SHARD_TO_US * 500 else s.g F.MSG_TO_US * 1000)) :=
  ⟨snet { waits := [mw 0x10 1] } {} [], _, 40, mw 0x10 1, by decide +kernel, by decide +kernel, rfl⟩

theorem witness_HellosAndHeartbeats_msgTimeoutLast : ∃ (s : State) (id : Nat) (w : MalWait),
    (s.net.waits.find? (fun w => w.msg.msgId == id && w.sent) = some w) ∧
    (w.tries % 16 ≥ (if w.msg.typ = 0x10 then 2 else 4)) ∧
    (w.msg.typ = 0x10 ∨ w.msg.typ = 0x31) :=
  ⟨snet { waits := [mw 0x31 4] } {} [], 40, mw 0x31 4, by decide +kernel⟩

def cn0 : Conn := { num := 5, malroth := true, peer := 8, port := 9, st := .open_ }

theorem witness_HellosAndHeartbeats_connIdleClose : ∃ (s : State) (n : Nat) (c : Conn),
    (s.net.conns.find? (fun c => c.num == n && c.malroth) = some c) ∧
    (∀ w ∈ s.net.waits, w.msg.dst ≠ c.peer) :=
  ⟨snet { conns := [cn0] } {} [], 5, cn0, by decide +kernel⟩

def cnRegs : List (RegKey × Nat) := [(F.CONN_QUOTA.key 0 0 0 0, 1), (F.PORT_MASK.key 0 0 0 0, 0xFF00)]

theorem witness_HellosAndHeartbeats_connOpen : ∃ (s : State) (part : Nat) (n : Nat),
    (part < 64 ∧ n < 65536) ∧
    (∀ c ∈ s.net.conns, c.num = n → c.malroth = false ∧ c.part = part ∧ c.st ≠ .open_ ∧ c.st ≠ .held) ∧
    (((s.connsOf part).filter fun c => c.num != n && c.st != .error).length < s.gp F.CONN_QUOTA part) ∧
    (bit (s.gp F.PORT_MASK part) (8 + s.gs F.CONN_CTRL_PORT n % 8) = true) :=
  ⟨snet {} {} cnRegs, 0, 65535, by decide +kernel⟩

theorem witness_HellosAndHeartbeats_connOpenRefused : ∃ (s : State) (part : Nat) (n : Nat),
    (part < 64 ∧ n < 65536) ∧
    (∀ c ∈ s.net.conns, c.num = n → c.malroth = false ∧ c.part = part ∧ c.st ≠ .open_ ∧ c.st ≠ .held) ∧
    (((s.connsOf part).filter fun c => c.num != n && c.st != .error).length ≥ s.gp F.CONN_QUOTA part) :=
  ⟨snet {} {} [], 0, 65535, by decide +kernel⟩

theorem witness_HellosAndHeartbeats_connClose : ∃ (s : State) (n : Nat) (c : Conn),
    (s.net.conns.find? (fun c => c.num == n && !c.malroth) = some c) :=
  ⟨snet { conns := [{ cn0 with malroth := false, part := 0 }] } {} [], 5, { cn0 with malroth := false, part := 0 }, by decide +kernel⟩

def bKeyB : Bytes := leBytes 4 0 ++ [5, 0, 0, 0] ++ List.replicate 16 7 ++ List.replicate 16 3 ++ leBytes 8 77 ++ leBytes 8 9
def pdGive : Pdir := { moving := [{ shard := (keyB bKeyB).shard, peer := 8, giving := true }] }

theorem witness_ShardRequests_shardQuery : ∃ (s : State) (m : MalMsg),
    (s.fresh m) ∧
    (s.joined = true ∧ 0x300 ≤ m.ver ∧ m.ringEpoch = s.pdir.ringEpoch) ∧
    (∀ k ∈ keyBs m.body, s.answers k.shard = true ∧ s.receiving k.shard = false) :=
  ⟨snet {} pdGive joinedRegs, mm 0x10 0x301 bKeyB, by decide +kernel⟩

theorem witness_ShardRequests_shardRedirect : ∃ (s : State) (m : MalMsg),
    (s.fresh m) ∧
    (s.joined = true ∧ 0x300 ≤ m.ver ∧ m.ringEpoch < s.pdir.ringEpoch) :=
  ⟨snet {} { ringEpoch := 4, ring := [1] } joinedRegs, mm 0x10 0x301 bKeyB 3, by decide +kernel⟩

theorem witness_ShardRequests_shardLater : ∃ (s : State) (m : MalMsg),
    (s.fresh m) ∧
    (s.joined = true ∧ 0x300 ≤ m.ver ∧ s.pdir.ringEpoch < m.ringEpoch) :=
  ⟨snet {} { ringEpoch := 4, ring := [1] } joinedRegs, mm 0x10 0x301 bKeyB 5, by decide +kernel⟩

theorem witness_ShardRequests_publish : ∃ (s : State) (m : MalMsg) (k : KeyB),
    (s.fresh m) ∧
    (s.joined = true ∧ 0x300 ≤ m.ver ∧ m.ringEpoch = s.pdir.ringEpoch) ∧
    (keyBs m.body = [k]) ∧
    (s.owns k.shard = true) :=
  ⟨snet {} { ring := [1] } joinedRegs, mm 0x11 0x301 bKeyB, keyB bKeyB, by decide +kernel, by decide +kernel, by decide +kernel, by simp [State.owns, State.shardOwner, snet, stp, st, ownerIn_one]⟩

theorem witness_ShardRequests_republish : ∃ (s : State) (m : MalMsg) (k : KeyB),
    (s.fresh m) ∧
    (s.joined = true ∧ 0x300 ≤ m.ver) ∧
    (keyBs m.body = [k]) :=
  ⟨snet {} pdGive joinedRegs, mm 0x15 0x301 bKeyB, keyB bKeyB, by decide +kernel⟩

theorem witness_ShardRequests_unpublish : ∃ (s : State) (m : MalMsg),
    (s.fresh m) ∧
    (s.joined = true ∧ 0x300 ≤ m.ver) :=
  ⟨snet {} pdGive joinedRegs, mm 0x12 0x301 bKeyB, by decide +kernel⟩

def bKeyOwn : Bytes := bKeyB.take 48 ++ leBytes 8 1

theorem witness_ShardRequests_holderStaleOwn : ∃ (s : State) (m : MalMsg) (k : KeyB),
    (s.fresh m) ∧
    (s.joined = true ∧ 0x300 ≤ m.ver) ∧
    (keyBs m.body = [k]) ∧
    (k.holder = s.dev.serial ∧ s.leaf k.handle = none) :=
  ⟨snet {} pdGive joinedRegs, mm 0x13 0x301 bKeyOwn, keyB bKeyOwn, by decide +kernel⟩

theorem witness_ShardRequests_holderStaleCheck : ∃ (s : State) (m : MalMsg) (k : KeyB),
    (s.fresh m) ∧
    (s.joined = true ∧ 0x300 ≤ m.ver) ∧
    (keyBs m.body = [k]) ∧
    (k.holder ≠ s.dev.serial) :=
  ⟨snet {} pdGive joinedRegs, mm 0x13 0x301 bKeyB, keyB bKeyB, by decide +kernel⟩

def bXfer : Bytes := bKeyB.take 40 ++ leBytes 8 1 ++ leBytes 8 0 ++ leBytes 8 9 ++ leBytes 8 77 ++ leBytes 8 0
def xe0 : ShardEnt := { key := (keyB bXfer).key, shard := (keyB bXfer).shard, holders := [{ serial := 9, handle := 77, ver := 0, pubT := 0, geom := (keyB bXfer).geom }] }

theorem witness_ShardRequests_shardXfer : ∃ (s : State) (m : MalMsg) (e : ShardEnt),
    (s.fresh m) ∧
    (s.joined = true ∧ 0x300 ≤ m.ver ∧ m.ringEpoch ≤ s.pdir.ringEpoch ∧ m.last = false) ∧
    (readXfer s.now m.body.length m.body = [e]) ∧
    (∀ x ∈ s.pdir.shards, x.key ≠ e.key) :=
  ⟨snet {} {} joinedRegs, { mm 0x14 0x301 bXfer with last := false }, xe0, by decide +kernel⟩

theorem witness_ShardRequests_groupDecl : ∃ (s : State) (m : MalMsg),
    (s.fresh m) ∧
    (s.joined = true ∧ 0x200 ≤ m.ver) :=
  ⟨snet {} {} joinedRegs, mm 0x16 0x201 (List.replicate 64 0), by decide +kernel⟩

def bFetch (chain : Bytes) (raddr : Nat) : Bytes :=
  leBytes 8 ph0 ++ chain ++ leBytes 4 0 ++ [0, 0, 0, 0] ++ leBytes 8 raddr ++ leBytes 8 0 ++ leBytes 8 65536

theorem witness_ShardRequests_malrothFetchNone : ∃ (s : State) (m : MalMsg),
    (s.fresh m) ∧
    (s.joined = true ∧ 0x200 ≤ m.ver) ∧
    ((s.fetchAnswer m).1 ≠ 0 ∨ (s.fetchAnswer m).2.2 = []) :=
  ⟨snet {} {} joinedRegs, mm 0x20 0x301 (bFetch (List.replicate 16 7) 4096), by decide +kernel⟩

def sFetch : State :=
  let s := snet {} {} joinedRegs
  { s with sq := { s.sq with leaves := [{ lf0 with chain := some (List.replicate 16 7), published := true }] } }

theorem witness_ShardRequests_malrothFetch : ∃ (s : State) (m : MalMsg),
    (s.fresh m) ∧
    (s.joined = true ∧ 0x300 ≤ m.ver) ∧
    ((s.fetchAnswer m).1 = 0 ∧ (s.fetchAnswer m).2.2 ≠ []) :=
  ⟨sFetch, mm 0x20 0x301 (bFetch (List.replicate 16 7) 4096), by decide +kernel⟩

def mwF : MalWait := { msg := { mm 0x20 0x201 [] with src := 1, dst := 9 }, sentT := 0, tries := 1, ctx := 0 }

theorem witness_ShardRequests_fetchData : ∃ (s : State) (m : MalMsg) (w : MalWait),
    (s.net.waits.find? (fun w => w.msg.typ == 0x0020 && w.msg.dst == m.src && w.msg.ver < 0x300 && w.msg.msgId == m.msgId) = some w) ∧
    (∀ p ∈ s.peer m.src, p.timeBad ≠ 15) ∧
    (m.last = false) :=
  ⟨snet { waits := [mwF] } {} joinedRegs, { mm 0x21 0x201 [1] with last := false }, mwF, by decide +kernel⟩

def bRep : Bytes := leBytes 8 (mkHandle 0 7 1 3) ++ List.replicate 48 0 ++ [7]

def in0 : Incident := { num := 1, suspect := 8, cls := 2, unit := 0, firstT := 0, lastT := 0, reporters := [9] }
def bInc : Bytes := leBytes 8 8 ++ [2, 0] ++ List.replicate 22 0

theorem witness_IncidentsAndTheRing_incidentKnown : ∃ (s : State) (m : MalMsg) (i : Incident),
    (s.fresh m) ∧
    (s.joined = true ∧ 0x200 ≤ m.ver ∧ s.net.storm = none) ∧
    (s.mergedInto (rd m.body 0 8) (rd m.body 8 1) (rd m.body 9 1) = some i) ∧
    (i.st = .declared) :=
  ⟨snet { incidents := [{ in0 with st := .declared }] } {} joinedRegs, mm 0x30 0x201 bInc, { in0 with st := .declared }, by decide +kernel⟩

theorem witness_IncidentsAndTheRing_incidentReport : ∃ (s : State) (m : MalMsg),
    (s.fresh m) ∧
    (s.joined = true ∧ 0x200 ≤ m.ver ∧ s.net.storm = none ∧ s.net.incidents.length < 1024) ∧
    (s.mergedInto (rd m.body 0 8) (rd m.body 8 1) (rd m.body 9 1) = none) :=
  ⟨snet { incidents := [{ in0 with unit := 7 }] } {} joinedRegs, mm 0x30 0x201 bInc, by decide +kernel⟩

theorem witness_IncidentsAndTheRing_storm : ∃ (s : State) (m : MalMsg),
    (s.fresh m) ∧
    (s.joined = true ∧ 0x200 ≤ m.ver ∧ s.net.storm = none ∧ 1024 ≤ s.net.incidents.length) ∧
    (s.mergedInto (rd m.body 0 8) (rd m.body 8 1) (rd m.body 9 1) = none) :=
  ⟨snet { incidents := List.replicate 1024 { in0 with unit := 7 } } {} joinedRegs, mm 0x30 0x201 bInc, by decide +kernel⟩

def inP (n r g : Nat) : Incident := { in0 with st := .probing, probes := n, replies := r, good := g }

theorem witness_IncidentsAndTheRing_probeSend : ∃ (s : State) (n : Nat) (i : Incident),
    (s.inc n = some i) ∧
    (i.st = .probing ∧ 0 < i.probes ∧ i.probes < 3) :=
  ⟨snet { incidents := [inP 2 0 0] } {} joinedRegs, 1, inP 2 0 0, by decide +kernel⟩

theorem witness_IncidentsAndTheRing_probeTimeoutCleared : ∃ (s : State) (n : Nat) (i : Incident),
    (s.inc n = some i) ∧
    (i.st = .probing ∧ 3 ≤ i.probes ∧ (i.confirmed && s.mayConfirm i.suspect i.cls) = false) :=
  ⟨snet { incidents := [inP 3 1 1] } {} joinedRegs, 1, inP 3 1 1, by decide +kernel⟩

theorem witness_IncidentsAndTheRing_probeTimeout : ∃ (s : State) (n : Nat) (i : Incident),
    (s.inc n = some i) ∧
    (i.st = .probing ∧ 3 ≤ i.probes ∧ (i.confirmed && s.mayConfirm i.suspect i.cls) = true ∧ i.cls ≠ 1) :=
  ⟨snet { incidents := [inP 3 1 0] } {} joinedRegs, 1, inP 3 1 0, by decide +kernel⟩

def bDecl (st : Nat) : Bytes := leBytes 12 0 ++ [2, 0, 0, 0] ++ leBytes 8 8 ++ leBytes 4 0 ++ [BitVec.ofNat 8 st] ++ List.replicate 3 0

theorem witness_IncidentsAndTheRing_incidentDecl : ∃ (s : State) (m : MalMsg),
    (s.fresh m) ∧
    (0x300 ≤ m.ver ∧ rd m.body 0x1C 1 ≠ 2 ∧ rd m.body 0x0C 1 ≠ 1 ∧ s.net.incidents.length < 1024) ∧
    (∀ i ∈ s.net.incidents, ¬(i.suspect = rd m.body 0x10 8 ∧ i.cls = rd m.body 0x0C 1 ∧ i.unit = rd m.body 0x0D 1 ∧ i.st = .declared ∧
      i.epoch = rd m.body 0x18 4)) :=
  ⟨snet { incidents := [in0] } {} joinedRegs, mm 0x32 0x301 (bDecl 1), by decide +kernel⟩

theorem witness_IncidentsAndTheRing_incidentDeclAgain : ∃ (s : State) (m : MalMsg) (i : Incident),
    (s.fresh m) ∧
    (0x300 ≤ m.ver ∧ rd m.body 0x1C 1 ≠ 2 ∧ i ∈ s.net.incidents) ∧
    (i.suspect = rd m.body 0x10 8 ∧ i.cls = rd m.body 0x0C 1 ∧ i.unit = rd m.body 0x0D 1 ∧ i.st = .declared ∧ i.epoch = rd m.body 0x18 4) :=
  ⟨snet { incidents := [{ in0 with st := .declared }] } {} joinedRegs, mm 0x32 0x301 (bDecl 1), { in0 with st := .declared }, by decide +kernel⟩

theorem witness_IncidentsAndTheRing_incidentDeclCleared : ∃ (s : State) (m : MalMsg),
    (s.fresh m) ∧
    (0x300 ≤ m.ver ∧ rd m.body 0x1C 1 = 2) :=
  ⟨snet { incidents := [{ in0 with st := .declared }] } {} joinedRegs, mm 0x32 0x301 (bDecl 2), by decide +kernel⟩

theorem witness_IncidentsAndTheRing_incidentWindowExpire : ∃ (s : State) (n : Nat) (i : Incident),
    (s.inc n = some i) ∧
    (i.st = .open_ ∨ i.st = .cleared ∨ (i.st = .declared ∧ i.cls = 1)) ∧
    (s.net.storm = none) :=
  ⟨snet { incidents := [in0] } {} joinedRegs, 1, in0, by decide +kernel⟩

theorem witness_IncidentsAndTheRing_incidentReprobe : ∃ (s : State) (n : Nat) (i : Incident),
    (s.inc n = some i) ∧
    (i.st = .declared ∧ i.cls ≠ 1 ∧ i.arbiter = s.dev.serial) :=
  ⟨snet { incidents := [{ in0 with st := .declared, arbiter := 1 }] } {} joinedRegs, 1, { in0 with st := .declared, arbiter := 1 }, by decide +kernel⟩

def pdRing : Pdir := { ring := [9], ringEpoch := 4 }
def bRing (n : Nat) : Bytes := leBytes 4 n ++ leBytes 4 1 ++ leBytes 8 9

theorem witness_IncidentsAndTheRing_ringUpdateOld : ∃ (s : State) (m : MalMsg),
    (s.fresh m) ∧
    (0x300 ≤ m.ver ∧ rd m.body 0 4 ≤ s.pdir.ringEpoch) :=
  ⟨snet {} pdRing joinedRegs, mm 0x40 0x301 (bRing 4), by decide +kernel⟩

theorem witness_IncidentsAndTheRing_ringUpdate : ∃ (s : State) (m : MalMsg),
    (s.fresh m) ∧
    (0x300 ≤ m.ver ∧ rd m.body 0 4 = s.pdir.ringEpoch + 1 ∧ s.pdir.ring ≠ []) :=
  ⟨snet {} pdRing joinedRegs, mm 0x40 0x301 (bRing 5), by decide +kernel⟩

theorem witness_IncidentsAndTheRing_ringUpdateAhead : ∃ (s : State) (m : MalMsg),
    (s.fresh m) ∧
    (0x300 ≤ m.ver ∧ s.pdir.ringEpoch + 1 < rd m.body 0 4 ∧ s.pdir.ring ≠ [] ∧ s.malWaiting 0x41 0 = false) :=
  ⟨snet {} pdRing joinedRegs, mm 0x40 0x301 (bRing 6), by decide +kernel⟩

theorem witness_IncidentsAndTheRing_ringPull : ∃ (s : State) (m : MalMsg),
    (s.fresh m) ∧
    (0x300 ≤ m.ver ∧ m.body.length < 8) :=
  ⟨snet {} pdRing joinedRegs, mm 0x41 0x301 [], by decide +kernel⟩

def mwR : MalWait := { msg := { mm 0x30 0x301 [] with src := 1, dst := 9 }, sentT := 0, tries := 1, ctx := 0 }

theorem witness_IncidentsAndTheRing_malrothReply : ∃ (s : State) (m : MalMsg) (w : MalWait),
    (s.net.waits.find? (fun w => w.msg.msgId == m.msgId && w.msg.dst == m.src && w.msg.typ == m.typ) = some w) ∧
    (∀ p ∈ s.peer m.src, p.timeBad ≠ 15) ∧
    (m.typ = 0x30 ∧ s.relayOf m.msgId = none) :=
  ⟨snet { waits := [mwR] } pdRing joinedRegs, { mm 0x30 0x301 [] with reply := true }, mwR, by decide +kernel⟩

theorem witness_IncidentsAndTheRing_malrothReplyLate : ∃ (s : State) (m : MalMsg),
    (∀ w ∈ s.net.waits, w.msg.msgId ≠ m.msgId) :=
  ⟨snet {} pdRing joinedRegs, { mm 0x30 0x301 [] with reply := true }, by decide +kernel⟩

def shw (h : Hw → Hw) (cs : List Cmd) (rs : List (RegKey × Nat)) : State := let s := st cs rs; { s with hw := h s.hw }
def wornC : Cluster := { num := 19, physOk := 2 ^ 32 - 1 }

theorem witness_FaultsOfUnits_coreFailSpare : ∃ (s : State) (die : Nat) (cl : Nat) (phys : Nat) (j : Nat) (i : Nat) (x : Cluster),
    (die < 8 ∧ cl < 10 ∧ phys < 34 ∧ s.dieOk die = true) ∧
    (s.hw.clusters[10 * die + cl]? = some x ∧ bit x.physOk phys = true) ∧
    ((List.range 32).find? (fun j => x.map.getD j none == some phys) = some j) ∧
    ((List.range 34).find? (fun i => bit x.physOk i && i != phys && !x.map.contains (some i)) = some i) ∧
    (s.workOn (32 * (10 * die + cl) + j) = []) :=
  ⟨st [], 1, 9, 31, 31, 32, { num := 19 }, by decide +kernel⟩

theorem witness_FaultsOfUnits_coreFailRetired : ∃ (s : State) (die : Nat) (cl : Nat) (phys : Nat) (j : Nat) (x : Cluster),
    (die < 8 ∧ cl < 10 ∧ phys < 34 ∧ s.dieOk die = true) ∧
    (s.hw.clusters[10 * die + cl]? = some x ∧ bit x.physOk phys = true) ∧
    ((List.range 32).find? (fun j => x.map.getD j none == some phys) = some j) ∧
    ((List.range 34).find? (fun i => bit x.physOk i && i != phys && !x.map.contains (some i)) = none) ∧
    (s.workOn (32 * (10 * die + cl) + j) = [] ∧ s.q.cmds = []) :=
  ⟨shw (fun h => { h with clusters := h.clusters.set 19 wornC }) [] [], 1, 9, 31, 31, wornC, by decide +kernel⟩

theorem witness_FaultsOfUnits_hbmCe : ∃ (s : State) (n : Nat) (bank : Nat) (row : Nat) (old : HbmRow),
    (s.stackOk n = true) ∧
    (((s.stack n).rows.find? fun r => r.bank == bank && r.row == row).getD { bank := bank, row := row } = old) ∧
    ((old.ces.filter fun x => s.now < x + 86400000000000).length + 1 < s.g F.CE_ROW_LIMIT) :=
  ⟨st [], 7, 3, 4, { bank := 3, row := 4 }, by decide +kernel⟩

def row15 : HbmRow := { bank := 3, row := 4, ces := List.replicate 15 0 }
def worn : State :=
  let s := st []
  { s with
    hw := { s.hw with hbm := List.replicate 8 { st := .active, pcOk := 2 ^ 32 - 1, capGib := 36, mbps := 1200000, rows := [row15], spares := [(3, 2)] } }
    course := { halves := [{ st := .lead, epoch := 1 }, {}], arbs := List.replicate 8 { holder := some 0, epoch := 1, expiry := 900 } } }

theorem witness_FaultsOfUnits_hbmCeSpared : ∃ (s : State) (n : Nat) (bank : Nat) (row : Nat) (old : HbmRow),
    (s.stackOk n = true) ∧
    (((s.stack n).rows.find? fun r => r.bank == bank && r.row == row).getD { bank := bank, row := row } = old) ∧
    (old.spared = false ∧ s.g F.CE_ROW_LIMIT ≤ (old.ces.filter fun x => s.now < x + 86400000000000).length + 1) ∧
    (s.spareRows n bank ≠ 0 ∧ s.leadHalf ≠ none) :=
  ⟨worn, 7, 3, 4, row15, by decide +kernel⟩

theorem witness_FaultsOfUnits_hbmUe : ∃ (s : State) (n : Nat),
    (s.stackOk n = true) :=
  ⟨st [], 7, by decide +kernel⟩

theorem witness_FaultsOfUnits_pcFail : ∃ (s : State) (n : Nat) (pc : Nat),
    (n < 8 ∧ pc < 32 ∧ s.stackOk n = true ∧ bit (s.stack n).pcOk pc = true) :=
  ⟨st [], 7, 31, by decide +kernel⟩

theorem witness_FaultsOfUnits_stackFail : ∃ (s : State) (n : Nat),
    (n < 8 ∧ s.stackOk n = true) :=
  ⟨stp y1 [], 0, by decide +kernel⟩

theorem witness_FaultsOfUnits_dieFail : ∃ (s : State) (n : Nat),
    (n < 8 ∧ s.dieOk n = true) :=
  ⟨stp y1 [], 7, by decide +kernel⟩

theorem witness_FaultsOfUnits_d2dLinkFail : ∃ (s : State) (die : Nat) (b : Nat),
    (die < 8 ∧ b < 2 ∧ bit s.dev.dies die = true ∧ s.hw.d2dDown.contains (die, b) = false) :=
  ⟨st [], 7, 1, by decide +kernel⟩

theorem witness_FaultsOfUnits_bridgeFence : ∃ (s : State) (b : Nat),
    (b < 2 ∧ (s.bridge b).st = .up ∧ b < s.course.halves.length ∧ b < s.hw.bridges.length) :=
  ⟨st [], 1, by decide +kernel⟩

def brS (n f : Nat) : State := { shw (fun h => { h with bridges := [{}, { st := .restarting, fencedAt := f }] }) [] [] with now := n }

theorem witness_FaultsOfUnits_bridgeRestartDone : ∃ (s : State) (b : Nat),
    (b < 2 ∧ (s.bridge b).st = .restarting ∧ b < s.course.halves.length ∧ s.hw.retireWait = false) ∧
    (s.now ≤ (s.bridge b).fencedAt + s.g F.BRIDGE_CFG_RESTART_S * 1000000000) :=
  ⟨brS 5 5, 1, by decide +kernel⟩

theorem witness_FaultsOfUnits_bridgeRestartLate : ∃ (s : State) (b : Nat) (ok : Bool),
    (b < 2 ∧ (s.bridge b).st = .restarting) ∧
    (ok = false ∨ (s.bridge b).fencedAt + s.g F.BRIDGE_CFG_RESTART_S * 1000000000 < s.now) :=
  ⟨brS 100000000001 0, 1, true, by decide +kernel⟩

theorem witness_FaultsOfUnits_bridgeLost : ∃ (s : State) (b : Nat),
    (b < 2 ∧ (s.bridge b).st = .restarting) :=
  ⟨brS 5 5, 1, by decide +kernel⟩

theorem witness_FaultsOfUnits_handshakeMerge : ∃ (s : State) (die : Nat) (unit : Nat) (x : Cluster),
    (die < 8 ∧ unit < 10 ∧ s.hw.stopped = false ∧ s.boot.halted = false) ∧
    (s.hw.clusters[10 * die + unit]? = some x ∧ x.mergeOk = true) :=
  ⟨st [], 1, 9, { num := 19 }, by decide +kernel⟩

theorem witness_FaultsOfUnits_handshakeHalf : ∃ (s : State) (die : Nat) (unit : Nat),
    (die < 10 ∧ unit < 2 ∧ s.hw.stopped = false ∧ s.boot.halted = false ∧ unit < s.course.halves.length) :=
  ⟨st [], 9, 1, by decide +kernel⟩

theorem witness_FaultsOfUnits_handshakeOther : ∃ (s : State) (kind : Nat) (die : Nat),
    (die < 10 ∧ s.hw.stopped = false ∧ s.boot.halted = false) ∧
    (kind ∉ [1, 2, 3, 4, 6, 7, 8, 9, 10, 11, 12, 14]) :=
  ⟨st [], 5, 9, by decide +kernel⟩

theorem witness_FaultsOfUnits_sramT0 : ∃ (s : State) (die : Nat) (unit : Nat) (x : Cluster),
    (s.dieOk die = true ∧ unit < 10 ∧ s.hw.clusters[10 * die + unit]? = some x) :=
  ⟨st [], 1, 9, { num := 19 }, by decide +kernel⟩

theorem witness_FaultsOfUnits_sramBuffer : ∃ (s : State) (die : Nat),
    (s.dieOk die = true ∧ s.hw.bufRetired.contains die = false) :=
  ⟨st [], 7, by decide +kernel⟩

theorem witness_FaultsOfUnits_hbmPatrol : ∃ (s : State) (n : Nat),
    (s.stackOk n = true ∧ s.g F.PATROL_H ≠ 0) :=
  ⟨st [], 7, by decide +kernel⟩

theorem witness_RetiringTheDevice_deviceRetire : ∃ (s : State),
    (s.hw.retireReq = false ∧ s.joined = true ∧ (List.range 64).all (fun p => s.pst p == .free) = true ∧ s.bridgeRestarting = false) ∧
    (s.net.storm = none ∧ s.net.incidents.length < 1024) :=
  ⟨{ regs := [(F.BOOT_PHASE_SERVICE.key 0 255 0 0, 2)] }, by decide +kernel⟩

theorem witness_RetiringTheDevice_deviceRetired : ∃ (s : State),
    (s.hw.retireReq = true) :=
  ⟨{ regs := [(F.BOOT_PHASE_SERVICE.key 0 255 0 0, 2)], hw := { retireReq := true } }, by decide +kernel⟩

def hot (cs : List Nat) : State := shw (fun h => { h with pins := { pwrgd := true }, sensors := List.replicate 10 (cs.map fun r => { reading := r }) }) [] []

theorem witness_PaceRailsAndHeat_paceWindow : ∃ (s : State) (die : Nat) (rs : List Nat) (ys : List Sensor),
    (die < 10 ∧ s.paceDie die = true ∧ s.hw.pins.pwrgd = true ∧ die < s.hw.winT.length ∧ die < s.hw.sensors.length) ∧
    (ys = (s.hw.sensors.getD die []).zipIdx.map fun e => e.1.window (rs.getD e.2 0) (median ((s.hw.sensors.getD die []).zipIdx.map fun e => rs.getD e.2 0))) ∧
    (ys ≠ [] ∧ ∀ y ∈ ys, y.included = true ∧ y.reading ≠ 0) :=
  ⟨hot [100, 102], 9, [100, 102], [{ reading := 100, inRun := 0 }, { reading := 102, inRun := 0 }], by decide +kernel⟩

def rl (r : Rail) : State := shw (fun h => { h with rails := List.replicate 24 r }) [] []

theorem witness_PaceRailsAndHeat_vcoreStep : ∃ (s : State) (die : Nat) (r : Rail),
    (die < 10 ∧ s.hw.stopped = false ∧ s.paceDie die = true ∧ s.hw.rails[die]? = some r) ∧
    (r.halted = false ∧ r.readPending = false ∧ r.mv ≠ r.target) :=
  ⟨rl { mv := 790 }, 9, { mv := 790 }, by decide +kernel⟩

theorem witness_PaceRailsAndHeat_pmbusPoll : ∃ (s : State) (die : Nat) (r : Rail),
    (die < 10 ∧ s.hw.rails[die]? = some r) :=
  ⟨rl {}, 9, {}, by decide +kernel⟩

theorem witness_PaceRailsAndHeat_pmbusSilent : ∃ (s : State) (i : Nat) (r : Rail),
    (i < 24 ∧ s.hw.rails[i]? = some r) :=
  ⟨rl {}, 23, {}, by decide +kernel⟩

theorem witness_PaceRailsAndHeat_railMismatch : ∃ (s : State) (i : Nat) (x : Nat),
    (i < 24 ∧ (s.rail i).mismatchSince = some x ∧ (s.rail i).halted = false) :=
  ⟨rl { mismatchSince := some 3 }, 23, 3, by decide +kernel⟩

theorem witness_PaceRailsAndHeat_railSample : ∃ (s : State),
    (s.hw.meas.length = 24) :=
  ⟨rl {}, by decide +kernel⟩

theorem witness_PaceRailsAndHeat_thermalStep : ∃ (s : State) (die : Nat) (temp : Int) (r : Rail),
    (die < 10 ∧ s.paceDie die = true ∧ s.hw.rails[die]? = some r) ∧
    (temp > 950) :=
  ⟨rl {}, 9, 951, {}, by decide +kernel⟩

theorem witness_PaceRailsAndHeat_thermalRestore : ∃ (s : State) (die : Nat) (goal : Nat) (temp : Int) (r : Rail),
    (die < 10 ∧ s.paceDie die = true ∧ s.hw.rails[die]? = some r) ∧
    (temp ≤ 930 ∧ r.thermal = some goal) :=
  ⟨rl { thermal := some 810 }, 9, 810, 930, { thermal := some 810 }, by decide +kernel⟩

theorem witness_PaceRailsAndHeat_hbmTemp : ∃ (s : State) (n : Nat),
    (n < 8 ∧ n < s.hw.hbmTemps.length) :=
  ⟨rl {}, 7, by decide +kernel⟩

def spl (f : Plp → Plp) (ended : List Nat) : State :=
  let s := st []
  { s with plp := f s.plp, boot := { s.boot with ended := ended }, hw := { s.hw with bankUv := 50000, pins := { pwrgd := true } } }
def plpM (m : HoldMeas) : State := spl (fun p => { p with meas := m }) [0, 2]

theorem witness_HoldUpAndBudget_holdupMeasure : ∃ (s : State),
    (s.plp.meas.phase = 0 ∧ s.g F.PLP_CTRL_HU_PRESENT ≠ 0 ∧ s.hw.stopped = false ∧ s.stepDone 0 = true) :=
  ⟨spl id [0, 2], by decide +kernel⟩

theorem witness_HoldUpAndBudget_measDroop : ∃ (s : State) (uv : Nat),
    (s.plp.meas.phase = 1 ∧ 995 * s.plp.meas.vc0 ≤ 1000 * uv) :=
  ⟨plpM { phase := 1, vc0 := 10000000 }, 9990000, by decide +kernel⟩

theorem witness_HoldUpAndBudget_measDone : ∃ (s : State) (uv : Nat) (d : Nat),
    (s.plp.meas.phase = 2 ∧ 995 * s.plp.meas.vc0 ≤ 1000 * uv ∧ d = 5 * (s.plp.meas.vc0 - s.plp.meas.droop - uv) - 2 * s.plp.meas.droop) ∧
    (d ≠ 0 ∧ d ≤ 10000000 ∧ 1000 ≤ s.plp.meas.vc0 - s.plp.meas.droop - uv) :=
  ⟨plpM { phase := 2, vc0 := 10000000, droop := 10000 }, 9980000, 30000, by decide +kernel⟩

theorem witness_HoldUpAndBudget_measFails : ∃ (s : State) (uv : Nat),
    (s.plp.meas.phase = 2 ∧ s.plp.meas.vc0 - s.plp.meas.droop ≤ uv) :=
  ⟨plpM { phase := 2, vc0 := 10000000, droop := 10 }, 9999990, by decide +kernel⟩

theorem witness_HoldUpAndBudget_holdupAbort : ∃ (s : State),
    (s.plp.meas.phase ≠ 0) :=
  ⟨plpM { phase := 2 }, by decide +kernel⟩

theorem witness_HoldUpAndBudget_flushRehearsal : ∃ (s : State) (rate : Nat),
    (s.hw.stopped = false ∧ rate ≠ 0 ∧ s.stepDone 2 = true) :=
  ⟨spl id [0, 2], 4000, by decide +kernel⟩

theorem witness_HoldUpAndBudget_budgetRecompute : ∃ (s : State) (uv : Nat),
    (s.hw.stopped = false ∧ (s.plp.meas.phase = 0 ∨ 995 * s.plp.meas.vc0 ≤ 1000 * uv)) :=
  ⟨spl id [0, 2], 9950000, by decide +kernel⟩

theorem witness_HoldUpAndBudget_replicaAudit : ∃ (s : State),
    (s.hw.stopped = false) :=
  ⟨spl id [0, 2], by decide +kernel⟩

def rep0 : Replica := { owner := 9, ownerPart := 0, handle := 77, layer := 0, first := 0, epoch := 0, valid := 16, bytes := 4096, auditT := 0, unknownSince := some 4, id := 3 }

theorem witness_HoldUpAndBudget_replicaKeepExpire : ∃ (s : State) (owner : Nat) (h : Nat) (r : Replica),
    (s.plp.replicas.find? (fun r => r.owner == owner && r.handle == h && r.unknownSince.isSome) = some r) :=
  ⟨spl (fun p => { p with replicas := [rep0] }) [0], 9, 77, rep0, by decide +kernel⟩

theorem witness_PowerAndResets_powerFail : ∃ (s : State),
    (s.hw.stopped = false ∧ s.hw.pins.pwrgd = true) :=
  ⟨spl id [0, 2], by decide +kernel⟩

theorem witness_PowerAndResets_flushDone : ∃ (s : State),
    (s.plp.flush.active = true ∧ s.plp.flush.returned = false) :=
  ⟨spl (fun p => { p with flush := { active := true, passed := true } }) [0], by decide +kernel⟩

theorem witness_PowerAndResets_powerReturnFlush : ∃ (s : State),
    (s.plp.flush.passed = true ∧ s.hw.stopped = true ∧ s.plp.flush.active = true) :=
  ⟨let s := spl (fun p => { p with flush := { active := true, passed := true } }) [0]; { s with hw := { s.hw with stopped := true } }, by decide +kernel⟩

theorem witness_PowerAndResets_thermtrip : ∃ (s : State),
    (s.hw.pins.pwrgd = true) ∧
    ((∃ x ∈ s.hw.temps, x ≥ 1050) ∨ ∃ x ∈ s.hw.hbmTemps, x ≥ 1100) :=
  ⟨let s := spl id []; { s with hw := { s.hw with hbmTemps := [0, 0, 0, 0, 0, 0, 0, 1100] } }, by decide +kernel⟩

theorem witness_PowerAndResets_pwrgdFall : ∃ (s : State),
    (s.hw.pins.pwrgd = true) ∧
    (∀ p ∈ s.part.parts, p.st ≠ .clearing ∧ p.st ≠ .scrubbing) :=
  ⟨spl id [0, 2], by decide +kernel⟩

theorem witness_PowerAndResets_powerGood : ∃ (s : State),
    (s.hw.pins.pwrgd = false) ∧
    (∀ p ∈ s.part.parts, p.st ≠ .clearing ∧ p.st ≠ .scrubbing) :=
  ⟨st [], by decide +kernel⟩

theorem witness_PowerAndResets_warmReset : ∃ (s : State),
    (s.hw.pins.pwrgd = true ∧ s.plp.flush.active = false) ∧
    (∀ p ∈ s.part.parts, p.st ≠ .clearing ∧ p.st ≠ .scrubbing) :=
  ⟨spl id [0, 2], by decide +kernel⟩

theorem witness_PowerAndResets_warmResetInFlush : ∃ (s : State),
    (s.hw.pins.pwrgd = true ∧ s.plp.flush.active = true) :=
  ⟨spl (fun p => { p with flush := { active := true, passed := true } }) [0], by decide +kernel⟩

theorem witness_PowerAndResets_sysRstNRelease : ∃ (s : State),
    (s.hw.pins.pwrgd = true ∧ s.boot.begun = false ∧ s.boot.halted = false ∧ s.hw.stopped = false) :=
  ⟨spl id [], by decide +kernel⟩

def nd (c : Nat) : NDie := { chan := c, target := 0, st := .active, blocks := 100, badMax := 4, rows := 300, gib := 64 }
def sb0 : SuperBlk :=
  { bridge := 0, set := 0, num := 0, pslc := true, members := [(0, 0, 1), (1, 0, 1), (2, 0, 1), (3, 0, 1)], parity := 0, next := 3
    groups := 300, open_ := false }
def sb1 : SuperBlk :=
  { bridge := 0, set := 0, num := 4, pslc := false, members := [(0, 0, 2), (1, 0, 2), (2, 0, 2), (3, 0, 2)], parity := 0
    groups := 900, seqNo := 1 }
def nu0 : NUnit := { lua := 1, part := 0, serial := 3, what := 0, big := true, bridge := 0, sb := some 0, mapped := true }
def nb (c n w : Nat) : NBlock := { chan := c, target := 0, num := n, wear := w, inUse := true }
def fl0 : Ftl :=
  { dies := [nd 0, nd 1, nd 2, nd 3], blocks := (List.range 4).map fun c => nb c 1 0, sets := [{ bridge := 0, num := 0, nextSb := 5 }]
    sbs := [sb0, sb1], units := [nu0], nextLua := 2, nextSb := 5 }
def sfl (f : Ftl) (rs : List (RegKey × Nat)) : State := { stp y1 [] rs with ftl := f }

theorem witness_FlashProgramsReadsErases_nandProgramDone : ∃ (s : State) (ch : Nat) (tg : Nat) (b : Nat) (d : NDie) (x : SuperBlk),
    (s.ndie ch tg = some d) ∧
    (s.ftl.sbs.find? (fun x => x.members.contains (ch, tg, b)) = some x) :=
  ⟨sfl { fl0 with units := [{ nu0 with mapped := false }] } [], 0, 0, 1, nd 0, sb0, by decide +kernel⟩

theorem witness_FlashProgramsReadsErases_nandProgramFailed : ∃ (s : State) (ch : Nat) (tg : Nat) (b : Nat) (d : NDie) (x : SuperBlk),
    (s.ndie ch tg = some d) ∧
    (s.ftl.sbs.find? (fun x => x.members.contains (ch, tg, b)) = some x) :=
  ⟨sfl { fl0 with units := [{ nu0 with mapped := false }] } [], 0, 0, 1, nd 0, sb0, by decide +kernel⟩

theorem witness_FlashProgramsReadsErases_nandReadDone : ∃ (s : State) (ch : Nat) (tg : Nat) (step : Nat) (d : NDie),
    (s.ndie ch tg = some d ∧ d.serves = true) ∧
    (1 ≤ step ∧ step ≤ 4) :=
  ⟨sfl fl0 [], 0, 0, 4, nd 0, by decide +kernel⟩

theorem witness_FlashProgramsReadsErases_patrolRead : ∃ (s : State) (ch : Nat) (tg : Nat) (b : Nat) (step : Nat) (d : NDie),
    (s.ndie ch tg = some d ∧ d.serves = true) ∧
    (1 ≤ step ∧ step ≤ 4 ∧ s.g F.FTL_CTRL_DRONE_EN ≠ 0 ∧ s.paused 0x14 (ch + 1) = false ∧ (s.nblock ch tg b).inUse = true ∧
      s.bgTurn d.bridge false = true) :=
  ⟨sfl { fl0 with targets := [2 ^ 50] } [], 0, 0, 1, 4, nd 0, by decide +kernel⟩

theorem witness_FlashProgramsReadsErases_nandEraseDone : ∃ (s : State) (ch : Nat) (tg : Nat) (b : Nat) (since : Nat) (x : SuperBlk),
    (s.ftl.sbs.find? (fun x => x.members.contains (ch, tg, b)) = some x ∧ x.erasing = some since) ∧
    (∀ m ∈ s.tier.moves, m.srcTier = 3 → since < m.startT) :=
  ⟨sfl { fl0 with sbs := [{ sb0 with erasing := some 0 }, sb1], units := [] } [], 0, 0, 1, 0, { sb0 with erasing := some 0 }, by decide +kernel⟩

theorem witness_FlashProgramsReadsErases_nandStatusTimeout : ∃ (s : State) (ch : Nat) (tg : Nat) (d : NDie),
    (s.ndie ch tg = some d ∧ d.serves = true) :=
  ⟨sfl fl0 [], 0, 0, nd 0, by decide +kernel⟩

def cp3 : Copy := { part := 0, serial := 3, tier := 3, die := 15, bytes := 4096, backing := true, good := false }
def sRest : State :=
  let s := sfl fl0 []
  { s with sq := { s.sq with pages := [{ pg0 with cls := 2 }], leaves := [{ lf0 with cls := 2, replica := 9 }] }, tier := { copies := [cp3] } }

theorem witness_FlashProgramsReadsErases_classPRestore : ∃ (s : State) (p : Nat) (n : Nat) (x : Page) (l : Leaf),
    (s.page p n = some x ∧ s.leafAt p n = some l ∧ s.restoring p n = true ∧ s.malWaiting 0x20 (leafCtx l.part l.serial) = false) ∧
    (∃ c ∈ s.tier.copies, c.part = p ∧ c.serial = n ∧ c.tier = 3 ∧ c.die = 15) :=
  ⟨sRest, 0, 3, { pg0 with cls := 2 }, { lf0 with cls := 2, replica := 9 }, by decide +kernel⟩

theorem witness_FlashUpkeep_fold : ∃ (s : State) (u : State) (b : Nat) (k : Nat) (x : SuperBlk) (y : SuperBlk),
    (argMin (fun (x : SuperBlk) => (x.seqNo : Int)) (s.ftl.sbs.filter fun x =>
      x.bridge == b && x.set == k && x.pslc && decide (x.foldable > 0) && !s.paused 0x13 (b + 1) && s.bgMay b s.foldUrgent) = some x) ∧
    (∀ v ∈ s.ftl.units, v.inSb x = true → v.mapped = true) ∧
    (∃ v ∈ s.ftl.units, v.inSb x = true ∧ v.to_ = none ∧ x.folded ≤ v.group / x.rowGroups ∧ v.group / x.rowGroups < x.folded + x.foldable) ∧
    ((s.setSb x.bridge x.set x.num fun y => { y with folded := y.folded + x.foldable }).foldTarget x = some (u, y)) :=
  ⟨sfl fl0 [], (sfl fl0 []).setSb 0 0 0 fun y => { y with folded := 1 }, 0, 0, sb0, sb1, by decide +kernel⟩

theorem witness_FlashUpkeep_gcRun : ∃ (s : State) (b : Nat) (k : Nat) (x : StripeSet),
    (s.sset b k = some x) :=
  ⟨sfl fl0 [], 0, 0, { bridge := 0, num := 0, nextSb := 5 }, by decide +kernel⟩

theorem witness_FlashUpkeep_refresh : ∃ (s : State) (ch : Nat) (tg : Nat) (b : Nat) (x : SuperBlk),
    ((s.nblock ch tg b).refresh = true ∧ s.paused 0x13 (ch / 16 + 1) = false) ∧
    (s.ftl.sbs.find? (fun x => x.members.contains (ch, tg, b)) = some x ∧ x.erasing = none ∧ s.numbered x ∧ s.bgTurn x.bridge false = true) :=
  ⟨sfl { fl0 with targets := [2 ^ 50], blocks := [{ nb 0 1 0 with refresh := true }, nb 1 1 0, nb 2 1 0, nb 3 1 0] } [], 0, 0, 1, sb0, by decide +kernel⟩

theorem witness_FlashUpkeep_staticLevel : ∃ (s : State) (b : Nat) (k : Nat) (d : NDie) (m : NBlock) (x : SuperBlk),
    (s.g F.FTL_CTRL_STATIC_WL_EN ≠ 0 ∧ s.bgTurn b false = true) ∧
    (((s.members b k).filter (·.serves)).find? (fun d => decide (s.leastWear d + s.g F.WEAR_SPREAD < maxBy (·.wear) (s.usedBlocks d))) = some d) ∧
    (argMin (fun (b : NBlock) => (b.wear : Int)) ((s.usedBlocks d).filter (·.inUse)) = some m) ∧
    (s.ftl.sbs.find? (fun x => x.members.contains (m.chan, m.target, m.num)) = some x ∧ x.erasing = none ∧ s.numbered x) :=
  ⟨sfl { fl0 with targets := [2 ^ 50], blocks := [nb 0 1 1, nb 0 2 60000, nb 1 1 0, nb 2 1 0, nb 3 1 0] } [], 0, 0, nd 0, nb 0 1 1, sb0, by decide +kernel⟩

theorem witness_FlashUpkeep_pslcTargetRecompute : ∃ (s : State) (b : Nat),
    (b < 2 ∧ b < s.ftl.targets.length ∧ b < s.ftl.targetT.length) :=
  ⟨sfl fl0 [], 1, by decide +kernel⟩

theorem witness_FlashUpkeep_rebuildRow : ∃ (s : State) (b : Nat) (k : Nat) (r : Nat × Nat × Nat) (y : StripeSet) (x : SuperBlk),
    (argMin (fun (r : Nat × Nat × Nat) => ((r.1 * 2 ^ 20 + r.2.2 : Nat) : Int)) (s.rowsLeft b k) = some r) ∧
    (s.sset b k = some y ∧ y.st ≠ 3 ∧ s.sbOf b k r.2.1 = some x) ∧
    (s.cannotSupply x (if x.pslc then r.2.2 else r.2.2 / 3) < 2 ∧ s.bgTurn b true = true) :=
  ⟨sfl { fl0 with targets := [2 ^ 50], dies := [nd 0, { nd 1 with st := .failed }, nd 2, nd 3] } [], 0, 0, (0, 0, 0), { bridge := 0, num := 0, nextSb := 5 }, sb0, by decide +kernel⟩

theorem witness_FlashUpkeep_drainDone : ∃ (s : State) (ch : Nat) (tg : Nat) (d : NDie),
    (s.ndie ch tg = some d ∧ (d.st = .draining ∨ d.st = .failed)) ∧
    (∀ u ∈ s.ftl.units, onDie ch tg (s.unitAt u) = false ∧ onDie ch tg (s.unitTo u) = false) :=
  ⟨sfl { fl0 with dies := [nd 0, nd 1, nd 2, { nd 3 with st := .draining }] } [], 3, 0, { nd 3 with st := .draining }, by decide +kernel⟩

theorem witness_FlashFailures_channelEngineFail : ∃ (s : State) (c : Nat),
    (c < 32 ∧ (∀ x ∈ s.ftl.chans, x.num = c → x.st ≠ 2) ∧ s.ftl.spareUsed.contains (c / 16) = false) :=
  ⟨sfl fl0 [], 31, by decide +kernel⟩

theorem witness_FlashFailures_channelFail : ∃ (s : State) (c : Nat),
    (c < 32 ∧ ∀ x ∈ s.ftl.chans, x.num = c → x.st ≠ 2) :=
  ⟨sfl fl0 [], 31, by decide +kernel⟩

theorem witness_FlashFailures_dieFail : ∃ (s : State) (ch : Nat) (tg : Nat) (reason : Nat) (d : NDie),
    (s.ndie ch tg = some d ∧ d.serves = true) ∧
    (reason = 2 ∨ (reason = 1 ∧ 2 ≤ d.noStatus)) :=
  ⟨sfl { fl0 with dies := [{ nd 0 with noStatus := 2 }, nd 1, nd 2, nd 3] } [], 0, 0, 1, { nd 0 with noStatus := 2 }, by decide +kernel⟩

theorem witness_FlashFailures_dieRetireStart : ∃ (s : State) (ch : Nat) (tg : Nat) (d : NDie),
    (s.ndie ch tg = some d ∧ d.st = .active ∧ s.wornOut d = true) :=
  ⟨sfl { fl0 with dies := [{ nd 0 with bad := [5, 6, 7, 8, 9] }, nd 1, nd 2, nd 3] } [], 0, 0, { nd 0 with bad := [5, 6, 7, 8, 9] }, by decide +kernel⟩

def crs (c : Course) (b : Boot := {}) (n : Nat := 0) : State := { st [] with course := c, boot := b, now := n }

theorem witness_CourseAndLead_shuarnStart : ∃ (s : State) (h : Nat),
    (h < 2 ∧ h < s.course.halves.length ∧ (s.half h).st = .down ∧ (s.half h).loaded = true ∧ s.bridgeUp h = true) ∧
    (s.boot.begun = true ∧ s.boot.halted = false ∧ s.hw.stopped = false) ∧
    (s.boot.settled.contains (0, 0) = true ∧ s.boot.settled.contains (0, 1) = true) :=
  ⟨crs { halves := [{}, { loaded := true }] } { begun := true, settled := [(0, 0), (0, 1)] }, 1, by decide +kernel⟩

def arbsOf (h : Nat) : List Arbiter := List.replicate 8 { holder := some h, epoch := 1, expiry := 900 }
def led (x : Half) (c : Course → Course := id) : State := crs (c { halves := [{ st := .lead, epoch := 1 }, x], arbs := arbsOf 0, pubEpoch := 1, everLed := true })

theorem witness_CourseAndLead_journalCaughtUp : ∃ (s : State) (h : Nat),
    (h < 2 ∧ (s.half h).st = .resync ∧ s.holdsLead (1 - h) = true ∧ h < s.course.halves.length) :=
  ⟨led { st := .resync }, 1, by decide +kernel⟩

theorem witness_CourseAndLead_claimRound : ∃ (s : State) (h : Nat),
    (s.mayClaim h = true ∧ s.topEpoch < 2 ^ 32 - 1 ∧ h < s.course.halves.length) :=
  ⟨crs { halves := [{}, { st := .resync }], everLed := true }, 1, by decide +kernel⟩

theorem witness_CourseAndLead_claimAtTheLast : ∃ (s : State) (h : Nat) (i : Instr),
    (i = .claimRound h ∨ i = .standbyPoll h) ∧
    (s.mayClaim h = true ∧ 2 ^ 32 - 1 ≤ s.topEpoch ∧ h < s.course.halves.length) :=
  ⟨crs { halves := [{}, { st := .resync }], everLed := true, arbs := List.replicate 8 { epoch := 2 ^ 32 - 1 } }, 1, .standbyPoll 1, by decide +kernel⟩

theorem witness_CourseAndLead_claimStartTimeout : ∃ (s : State) (h : Nat),
    (s.course.everLed = false) ∧
    (argMin (fun h => (((s.half h).resyncT : Nat) : Int)) ([0, 1].filter fun h => (s.half h).st == .resync) = some h) :=
  ⟨crs { halves := [{}, { st := .resync }] }, 1, by decide +kernel⟩

theorem witness_CourseAndLead_arbiterClaim : ∃ (s : State) (die : Nat) (h : Nat) (e : Nat),
    (h < 2 ∧ s.arbDies.contains die = true ∧ (s.half h).st = .claiming ∧ (s.half h).claimE = e ∧ die < s.course.arbs.length) :=
  ⟨crs { halves := [{}, { st := .claiming, claimE := 1 }] }, 7, 1, 1, by decide +kernel⟩

theorem witness_CourseAndLead_claimGranted : ∃ (s : State) (h : Nat),
    (h < 2 ∧ (s.half h).st = .claiming ∧ s.majority (s.heldBy h (s.half h).claimE).length = true ∧ s.now ≤ (s.half h).claimT + 2000) ∧
    (s.hw.deferred = [] ∧ h < s.course.halves.length) :=
  ⟨crs { halves := [{}, { st := .claiming, claimE := 1 }], arbs := arbsOf 1 }, 1, by decide +kernel⟩

theorem witness_CourseAndLead_claimTimeout : ∃ (s : State) (h : Nat),
    (h < 2 ∧ (s.half h).st = .claiming) :=
  ⟨crs { halves := [{}, { st := .claiming, claimE := 1 }], arbs := arbsOf 1 }, 1, by decide +kernel⟩

theorem witness_CourseAndLead_claimBackoff : ∃ (s : State) (h : Nat),
    (h < 2 ∧ (s.half h).backoffEnd ≠ 0 ∧ ((s.half h).st = .resync ∨ (s.half h).st = .standby)) :=
  ⟨crs { halves := [{}, { st := .resync, backoffEnd := 5 }] }, 1, by decide +kernel⟩

theorem witness_CourseAndLead_leaseRenew : ∃ (s : State) (h : Nat),
    (h < 2 ∧ (s.half h).st = .lead) :=
  ⟨led { st := .standby }, 0, by decide +kernel⟩

theorem witness_CourseAndLead_arbiterExpire : ∃ (s : State) (d : Nat),
    (d < 8 ∧ (s.arb d).holder ≠ none) :=
  ⟨led { st := .standby }, 7, by decide +kernel⟩

theorem witness_CourseAndLead_leadFence : ∃ (s : State) (h : Nat),
    (h < 2 ∧ (s.half h).st = .lead) :=
  ⟨led { st := .standby }, 0, by decide +kernel⟩

theorem witness_CourseAndLead_halfWatchdog : ∃ (s : State) (h : Nat),
    (h < 2 ∧ (s.half h).st ≠ .down) :=
  ⟨led { st := .standby }, 1, by decide +kernel⟩

def mir : Course → Course := fun c => { c with mirror := [{ num := 4, sent := 2 }], journal := [{ num := 4, cmd := 1, begun := true, committed := false }], nextRec := 5 }

theorem witness_CourseAndLead_mirrorRecord : ∃ (s : State) (n : Nat) (h : Nat) (m : MirrorWait),
    (s.leadHalf = some h ∧ s.course.mirror.find? (fun m => m.num == n) = some m) :=
  ⟨led { st := .standby, lag := 1 } mir, 4, 0, { num := 4, sent := 2 }, by decide +kernel⟩

theorem witness_CourseAndLead_mirrorTimeout : ∃ (s : State) (h : Nat) (m : MirrorWait),
    (s.leadHalf = some h ∧ argMin (fun (m : MirrorWait) => ((m.sent : Nat) : Int)) s.course.mirror = some m) ∧
    (1 - h < s.course.halves.length) :=
  ⟨led { st := .standby, lag := 1 } mir, 0, { num := 4, sent := 2 }, by decide +kernel⟩

theorem witness_CourseAndLead_headlessTimeout : ∃ (s : State) (x : Nat),
    (s.course.headlessSince = some x ∧ s.course.headlessRaised = false ∧ (s.reach (x + 1000000)).leadHalf = none) :=
  ⟨crs { headlessSince := some 3 }, 3, by decide +kernel⟩

theorem witness_RegisterAccesses_registerWrite : ∃ (s : State) (port : Nat) (addr : Nat) (b : Nat) (page : Nat) (off : Nat) (f : Fld),
    (addr % 4 = 0 ∧ s.hw.stopped = false) ∧
    (s.access (.pf port) addr true = (s, some (b, page, off)) ∧ s.unitGone b page = false ∧ b ≠ 0x0E) ∧
    (fieldsAt b page off 4 = [(f, 0)] ∧ f.off = off ∧ 0x80 ≤ off ∧ f.width = 4 ∧ f.acc = .rw ∧ f ≠ F.HOOK_SEL) ∧
    (barred (.pf port) addr = false ∧ (b = 0x03 → off / 8 ≠ F.PTP_CTRL_PORTS.off / 8 ∧ off / 8 ≠ F.TIME_CTRL_PTP_DOMAIN.off / 8)) ∧
    (ownRow.contains f = false ∧ zeroRow.contains f = false ∧ s.freeScoped f (s.pageScope (.pf port) b page off) = false ∧
      s.writeAllowed f (s.pageScope (.pf port) b page off) = true) :=
  ⟨st [], 7, 0x2C0108, 0x0B, 0, 0x108, F.PREFETCH_LEAD, by decide +kernel⟩

theorem witness_RegisterAccesses_staleWrite : ∃ (s : State) (h : Nat) (addr : Nat) (epoch : Nat),
    (addr % 4 = 0 ∧ s.hw.stopped = false ∧ s.epochOk h epoch = false) :=
  ⟨led { st := .standby }, 0, 0x2C0108, 2, by decide +kernel⟩

theorem witness_RegisterAccesses_rcRead : ∃ (s : State) (a : Agent) (addr : Nat) (b : Nat) (page : Nat) (off : Nat) (f : Fld),
    (s.hw.stopped = false ∧ barred a addr = false ∧ s.access a addr false = (s, some (b, page, off)) ∧ addr % 8 = 0 ∧ s.unitGone b page = false) ∧
    (fieldsAt b page off 8 = [(f, 0)] ∧ f.acc = .rc ∧ measuredFields.contains f = false ∧ s.freeScoped f (s.pageScope a b page off) = false) :=
  ⟨st [], .pf 7, 0xC0148, 3, 0, 0x148, F.LOCK_LOSSES, by decide +kernel⟩

theorem witness_RegisterAccesses_smallRead : ∃ (s : State) (a : Agent) (addr : Nat) (size : Nat) (b : Nat) (page : Nat) (off : Nat),
    (s.hw.stopped = false ∧ barred a addr = false ∧ s.access a addr false = (s, some (b, page, off)) ∧ (size = 1 ∨ size = 2) ∧ addr % size = 0) :=
  ⟨st [], .half 1, 0xC0148, 2, 3, 0, 0x148, by decide +kernel⟩

theorem witness_RegisterAccesses_lowWordRead : ∃ (s : State) (a : Agent) (addr : Nat) (b : Nat) (page : Nat) (off : Nat),
    (s.hw.stopped = false ∧ barred a addr = false ∧ s.access a addr false = (s, some (b, page, off)) ∧ addr % 8 = 0 ∧ off % 8 = 0) ∧
    ((fieldsAt b page off 4).any (fun fi => fi.1.width = 8) = true) :=
  ⟨st [], .pf 0, 0x380110, 0x0E, 0, 0x110, by decide +kernel⟩

theorem witness_RegisterAccesses_sysSeal : ∃ (s : State),
    (s.g F.SYS_SEAL ≠ 1) :=
  ⟨st [], by decide +kernel⟩

theorem witness_RegisterAccesses_evtForceWrite : ∃ (s : State) (blk : Nat) (page : Nat),
    (s.pagePresent blk page = true ∧ s.unitGone blk page = false) :=
  ⟨st [], 0x17, 0, by decide +kernel⟩

theorem witness_RegisterAccesses_evtLatchClear : ∃ (s : State) (blk : Nat) (page : Nat) (part : Nat),
    (s.pagePresent blk page = true ∧ s.unitGone blk page = false ∧ s.partFree part = false) :=
  ⟨st [] [((Fld.evtLatch 0x17 0).key 0 255 0 0, 3)], 0x17, 0, 255, by decide +kernel⟩

theorem witness_RegisterAccesses_blkQuiesce : ∃ (s : State) (blk : Nat) (page : Nat),
    (s.pagePresent blk page = true ∧ s.unitGone blk page = false) :=
  ⟨st [], 0x17, 0, by decide +kernel⟩

theorem witness_RegisterAccesses_blkSoftReset : ∃ (s : State) (blk : Nat) (page : Nat) (idx : Nat) (f : Fld),
    (s.quiesced blk page = true ∧ s.unitGone blk page = false) ∧
    ((F.table blk).contains f = true ∧ f.blk = blk ∧ f.unit = (page != 0) ∧ f.isSel = false ∧ (f.acc = .rw ∨ f.acc = .rwpf ∨ f.acc = .rc) ∧
      0x100 ≤ f.off ∧ idx < f.count ∧ 0 < f.width) :=
  ⟨st [] [((Fld.blkQuiesce 0x0B 0).key 0 255 0 0, 1), (F.PREFETCH_LEAD.key 0 0 0 0, 77)], 0x0B, 0, 0, F.PREFETCH_LEAD, by decide +kernel⟩

theorem witness_RegisterAccesses_blkPortEnable : ∃ (s : State) (blk : Nat) (page : Nat),
    ((blk = 0x11 ∨ blk = 0x12) ∧ page ≠ 0 ∧ s.quiesced blk page = true) :=
  ⟨st [] [((Fld.blkQuiesce 0x12 1).key 8 255 0 0, 1)], 0x12, 8, by decide +kernel⟩

theorem witness_RangesSamplesAndTelemetry_vsetWrite : ∃ (s : State) (die : Nat) (r : Rail),
    (s.paceDie die = true ∧ s.hw.rails[die]? = some r) :=
  ⟨rl {}, 9, {}, by decide +kernel⟩

theorem witness_RangesSamplesAndTelemetry_vcoreRangeWrite : ∃ (s : State),
    (s.g F.SYS_SEAL ≠ 1) :=
  ⟨rl {}, by decide +kernel⟩

theorem witness_RangesSamplesAndTelemetry_rangeSealed : ∃ (s : State),
    (s.g F.SYS_SEAL = 1) :=
  ⟨st [] [(F.SYS_SEAL.key 0 255 0 0, 1)], by decide +kernel⟩

theorem witness_RangesSamplesAndTelemetry_wmSample : ∃ (s : State) (blk : Nat) (page : Nat) (part : Nat) (u : Nat),
    (u < wmUnits blk page ∧ (blk = 1 → measIndex (s.cm (Fld.wmSource 1 0 u) 0 255) = true) ∧ wmOfPart blk page u = decide (part < 64)) ∧
    (s.cm (Fld.wmEnable blk (pageUnit page) u) page part = 0) :=
  ⟨st [], 0x17, 0, 0, 0, by decide +kernel⟩

theorem witness_RangesSamplesAndTelemetry_wmCross : ∃ (s : State) (blk : Nat) (page : Nat) (part : Nat) (u : Nat) (level : Nat),
    (u < 4 ∧ u < wmUnits blk page ∧ (blk = 1 → measIndex (s.cm (Fld.wmSource 1 0 u) 0 255) = true) ∧ wmOfPart blk page u = decide (part < 64)) ∧
    (s.cm (Fld.wmEnable blk (pageUnit page) u) page part ≠ 0 ∧ s.cm (Fld.wmAbove blk (pageUnit page) u) page part = 0 ∧
      s.cm (Fld.wmUp blk (pageUnit page) u) page part = 0 ∧ s.cm (Fld.wmHigh blk (pageUnit page) u) page part < s.wmSampled blk page part u level) :=
  ⟨st [] [((Fld.wmEnable 0x15 1 1).key 1 255 0 0, 1), ((Fld.wmHigh 0x15 1 1).key 1 255 0 0, 10)], 0x15, 1, 255, 1, 11, by decide +kernel⟩

theorem witness_RangesSamplesAndTelemetry_logEnable : ∃ (s : State) (p : Nat),
    (s.gp F.LOG_CTRL_ENABLE p ≠ 1 ∧ s.partFree p = false) :=
  ⟨st [], 0, by decide +kernel⟩

theorem witness_RangesSamplesAndTelemetry_logDisable : ∃ (s : State) (p : Nat),
    (s.partFree p = false) :=
  ⟨st [], 0, by decide +kernel⟩

theorem witness_RangesSamplesAndTelemetry_logHeadWrite : ∃ (s : State) (p : Nat) (head : Nat),
    (head < s.ringSlots p ∧ s.partFree p = false) ∧
    ((head + s.ringSlots p - s.gp F.LOG_PTRS_HEAD p) % s.ringSlots p ≤
      (s.gp F.LOG_PTRS_TAIL p + s.ringSlots p - s.gp F.LOG_PTRS_HEAD p) % s.ringSlots p) :=
  ⟨st [], 0, 0, by decide +kernel⟩

def tpath (p : TPath) : State := let s := st []; { s with tel := { s.tel with paths := [p] } }
def al0 : AlarmEnt := { code := 0x100, source := 1, part := 255, count := 1, first := 0, last := 0, merged := false }

theorem witness_RangesSamplesAndTelemetry_telemetryPost : ∃ (s : State) (i : Nat) (a : AlarmEnt) (rest : List AlarmEnt),
    (64 < i ∨ s.pathOpen i = true) ∧
    ((s.path i).alarms = a :: rest ∧ s.room i a.toRec false = true) :=
  ⟨tpath { id := 66, alarms := [al0] }, 66, al0, [], by decide +kernel⟩

theorem witness_RangesSamplesAndTelemetry_traceAdjust : ∃ (s : State) (i : Nat),
    (i ≤ 64 ∧ logShare (s.ringSlots i) * 8 < ((s.path i).slots.filter id).length * 10) :=
  ⟨tpath { id := 0, slots := List.replicate 4095 true }, 0, by decide +kernel⟩

theorem witness_RangesSamplesAndTelemetry_traceEasier : ∃ (s : State) (i : Nat),
    (i ≤ 64 ∧ ((s.path i).slots.filter id).length * 10 < logShare (s.ringSlots i) * 4 ∧ 100000000 ≤ s.now - (s.path i).lowSince) :=
  ⟨let s := tpath { id := 0, traceK := 3 }; { s with now := 100000000 }, 0, by decide +kernel⟩

def bst (l : Bool) (e : List Nat) (se : List (Nat × Nat) := []) (rs : List (RegKey × Nat) := []) : State :=
  { led { st := .standby, loaded := l } with regs := rs, boot := { begun := true, ended := e, settled := se } }

theorem witness_StartUpSteps_bootFirmware : ∃ (s : State) (h : Nat),
    (h < 2 ∧ s.unitOwed 0 h = true ∧ s.boot.settled.contains (0, 1 - h) = false) :=
  ⟨bst true [], 1, by decide +kernel⟩

def dark : State :=
  { shw (fun h => { h with bridges := [{}, { st := .lost }] }) [] [] with boot := { begun := true, settled := [(0, 0)] } }

theorem witness_StartUpSteps_bootFirmwareNone : ∃ (s : State) (h : Nat),
    (h < 2 ∧ s.unitOwed 0 h = true ∧ s.boot.settled.contains (0, 1 - h) = true) ∧
    (s.bridgeUp h = false ∧ (s.half 0).loaded = false ∧ (s.half 1).loaded = false) :=
  ⟨dark, 1, by decide +kernel⟩

def goodMv : List Nat := List.replicate 10 800 ++ [850, 850, 1100, 1100, 400, 400, 1800, 750, 750, 750, 1200, 1200, 1800, 1800]

theorem witness_StartUpSteps_bootMeasure : ∃ (s : State) (mv : List Nat) (temps : List Int),
    (s.leadStep 1 = true ∧ s.plp.meas.phase = 0 ∧ (s.g F.PLP_CTRL_HU_PRESENT = 0 ∨ s.plp.meas.doneT ≠ 0)) ∧
    (∀ i, i < 24 → (s.railRange i).1 ≤ mv.getD i 0 ∧ mv.getD i 0 ≤ (s.railRange i).2 ∧ mv.getD i 0 ≤ railMax i) ∧
    (∀ x ∈ temps, x ≤ 950) :=
  ⟨{ bst true [0] with plp := { meas := { doneT := 3 } } }, goodMv, [950], by decide +kernel⟩

theorem witness_StartUpSteps_bootMeasureOver : ∃ (s : State) (mv : List Nat) (i : Nat),
    (s.leadStep 1 = true ∧ s.plp.meas.phase = 0 ∧ (s.g F.PLP_CTRL_HU_PRESENT = 0 ∨ s.plp.meas.doneT ≠ 0)) ∧
    (i < 24 ∧ railMax i < mv.getD i 0) :=
  ⟨{ bst true [0] with plp := { meas := { doneT := 3 } } }, goodMv.set 23 2201, 23, by decide +kernel⟩

theorem witness_StartUpSteps_bootHbm : ∃ (s : State) (n : Nat),
    (s.enabledDies.contains n = true ∧ s.leadStep 2 = true ∧ s.boot.settled.contains (2, n) = false ∧ (s.stack n).st ≠ .retired) ∧
    (n < s.hw.hbm.length ∧ ((s.stack n).pcOk = 0 ∨ (s.stack n).pcOk = 2 ^ 32 - 1)) :=
  ⟨{ bst true [0, 1] with hw := {} }, 7, by decide +kernel⟩

theorem witness_StartUpSteps_bootNand : ∃ (s : State),
    (s.leadStep 3 = true) :=
  ⟨bst true [0, 1, 2], by decide +kernel⟩

theorem witness_StartUpSteps_bootLinks : ∃ (s : State) (source : Nat),
    (s.leadStep 4 = true ∧ s.g F.TIME_STATE_STATE < 2) ∧
    (s.timeFrom source = true) :=
  ⟨bst true [0, 1, 2], 3, by decide +kernel⟩

def run5 (n : Nat) : List (RegKey × Nat) := [(F.STEP_STATE_STATE.key 0 255 n 0, 1), (F.BOOT_PLAN_ATTEMPTS.key 0 255 0 n, 3), (F.BOOT_PLAN_ON_FAIL.key 0 255 0 n, 0)]

theorem witness_StartUpSteps_bootStepFail : ∃ (s : State) (n : Nat) (u : Nat),
    (n ∈ [1, 2, 3, 4, 5] ∧ s.leadStep n = true ∧ s.stepUnit n u = true ∧ s.boot.settled.contains (n, u) = false ∧ s.stepState n = stepRunning) ∧
    (alGetD (n, u) 0 s.boot.failed + 1 < max 1 (s.gi F.BOOT_PLAN_ATTEMPTS n)) :=
  ⟨{ bst true [0, 1, 2, 3, 4] [] (run5 5) with boot := { begun := true, ended := [0, 1, 2, 3, 4], failed := [((5, 0), 1)] } }, 5, 0, by decide +kernel⟩

theorem witness_StartUpSteps_bootStepHalts : ∃ (s : State) (n : Nat) (u : Nat),
    (n ∈ [1, 2, 3, 4, 5] ∧ s.leadStep n = true ∧ s.stepUnit n u = true ∧ s.boot.settled.contains (n, u) = false ∧ s.stepState n = stepRunning) ∧
    (max 1 (s.gi F.BOOT_PLAN_ATTEMPTS n) ≤ alGetD (n, u) 0 s.boot.failed + 1 ∧ s.gi F.BOOT_PLAN_ON_FAIL n = 0) :=
  ⟨{ bst true [0, 1, 2, 3, 4] [] (run5 5) with boot := { begun := true, ended := [0, 1, 2, 3, 4], failed := [((5, 0), 2)] } }, 5, 0, by decide +kernel⟩

theorem witness_StartUpSteps_fmBind : ∃ (s : State),
    (s.leadStep 5 = true ∧ (s.noFm = true ∨ s.sec.fuses.fmBound = true)) :=
  ⟨bst true [0, 1, 2, 3, 4], by decide +kernel⟩

theorem witness_StartUpSteps_fmWaitTimeout : ∃ (s : State),
    (s.leadStep 5 = true) :=
  ⟨bst true [0, 1, 2, 3, 4], by decide +kernel⟩

theorem witness_StartUpSteps_quinbelImageWrite : ∃ (s : State) (die : Nat) (slot : Nat) (stage : Nat),
    (die < 2 ∧ slot < 2 ∧ 1 ≤ stage ∧ stage ≤ 4 ∧ s.hw.stopped = false ∧ s.hw.pins.pwrgd = true) :=
  ⟨hot [], 1, 1, 4, by decide +kernel⟩

theorem witness_ServiceJoinAndRing_localServiceRefused : ∃ (s : State) (b : Bytes),
    (s.leadStep 6 = true ∧ (∀ m ∈ s.restoreCapos.tier.moves, ¬(m.why = 5 ∧ m.cmd = 0)) ∧ ∀ x ∈ s.q.queues, x.heldEnable = false) ∧
    (∀ m, parseMap b = some m → s.mapGood m = false) :=
  ⟨bst true [0, 1, 2, 3, 4, 5], [], by decide +kernel, fun m h => absurd ((by decide +kernel : parseMap [] = none).symm.trans h) (by simp)⟩

def dm : DomainMap :=
  { domainId := 0, mapVer := 3
    entries := [{ serial := 1, group := 3, kind := 1, eligible := true, addr := 0 }, { serial := 9, group := 3, kind := 1, eligible := true, addr := 0 }] }
def hello9 : HelloRec :=
  { serial := 9, kind := 1, epoch := 1, eligible := true, leader := false, ringMember := false, leaderSerial := 0, ringSeen := 0, group := 3, failGroup := 4 }
def jst (n : Net) (b : Boot → Boot := id) (e : List Nat := [0, 1, 2, 3, 4, 5, 6]) : State :=
  { bst true [] [] [(F.STEP_STATE_STATE.key 0 255 7 0, 1)] with net := n, boot := b { begun := true, ended := e, map := some dm, heard := [hello9] } }

/-- A map of one device. -/
def mapRaw : Bytes :=
  let h := [0x4C, 0x44, 0x4D, 0x31] ++ leBytes 4 0 ++ leBytes 8 1 ++ List.replicate 12 0
  let e := leBytes 8 1 ++ leBytes 2 3 ++ [1, 1] ++ List.replicate 20 0
  h ++ leBytes 4 (crc32c (h ++ leBytes 4 0 ++ e)) ++ e

theorem witness_ServiceJoinAndRing_localService : ∃ (s : State) (b : Bytes) (m : DomainMap),
    (s.leadStep 6 = true ∧ (∀ m ∈ s.restoreCapos.tier.moves, ¬(m.why = 5 ∧ m.cmd = 0)) ∧ ∀ x ∈ s.q.queues, x.heldEnable = false) ∧
    (parseMap b = some m ∧ s.mapGood m = true) :=
  ⟨bst true [0, 1, 2, 3, 4, 5], mapRaw, (parseMap mapRaw).getD dm, by decide +kernel⟩

theorem witness_ServiceJoinAndRing_joinBackoffExpire : ∃ (s : State),
    (s.joining = true ∧ s.boot.gatherEnd = 0) :=
  ⟨jst { group := 3 }, by decide +kernel⟩

theorem witness_ServiceJoinAndRing_joinGatherExpire : ∃ (s : State) (n : Nat),
    (s.joining = true ∧ s.boot.gatherEnd ≠ 0 ∧ s.net.leader = 0) ∧
    (s.bestOfGroup = some n ∧ n ≠ 0) :=
  ⟨jst { group := 3, peers := [pe9] } (fun b => { b with gatherEnd := 5 }), 1, by decide +kernel⟩

theorem witness_ServiceJoinAndRing_joinSettled : ∃ (s : State),
    (s.joining = true ∧ s.net.leader ≠ 0 ∧ s.net.leader ≠ s.dev.serial ∧ ∀ w ∈ s.net.waits, ¬(w.msg.typ = 2 ∧ w.msg.dst = s.net.leader)) :=
  ⟨jst { group := 3, leader := 9 } (fun b => { b with gatherEnd := 5 }), by decide +kernel⟩

theorem witness_ServiceJoinAndRing_joinRetry : ∃ (s : State) (m : DomainMap),
    (s.mayStep 7 = true ∧ s.stepState 7 = stepDegraded ∧ s.leadHalf ≠ none ∧ s.boot.map = some m) :=
  ⟨{ jst { group := 3 } with regs := [(F.STEP_STATE_STATE.key 0 255 7 0, 3)] }, dm, by decide +kernel⟩

theorem witness_ServiceJoinAndRing_ringGatherExpire : ∃ (s : State),
    (s.mayStep 8 = true ∧ s.net.leader = s.dev.serial ∧ s.boot.ringGatherEnd ≠ 0 ∧ s.net.peers = []) :=
  ⟨jst { group := 3, leader := 1 } (fun b => { b with ringGatherEnd := 5 }) [0, 1, 2, 3, 4, 5, 6, 7], by decide +kernel⟩

theorem witness_ServiceJoinAndRing_joinBatchExpire : ∃ (s : State),
    (s.boot.batch ≠ [] ∧ s.net.coordinator = s.dev.serial ∧ s.stepDone 8 = true) :=
  ⟨jst { group := 3, leader := 1, coordinator := 1 } (fun b => { b with batch := [9] }) [0, 1, 2, 3, 4, 5, 6, 7, 8], by decide +kernel⟩

theorem witness_ServiceJoinAndRing_warmUp : ∃ (s : State),
    (s.leadStep 9 = true ∧ s.boot.republish = [] ∧ (∀ w ∈ s.net.waits, w.msg.typ ≠ 0x11) ∧ s.g F.BOOT_PHASE_SERVICE < 3) :=
  ⟨jst { group := 3, leader := 1 } id [0, 1, 2, 3, 4, 5, 6, 7, 8], by decide +kernel⟩

theorem witness_ServiceJoinAndRing_shardCheckpoint : ∃ (s : State),
    (s.joined = true ∧ s.hw.stopped = false) :=
  ⟨st [] joinedRegs, by decide +kernel⟩

theorem witness_UnusedRegions_write : ∃ (s : State) (a : Agent) (addr : Nat) (epoch : Nat) (b : Nat) (page : Nat) (off : Nat),
    (decodeAddr a addr = some (b, page, off) ∧ barred a addr = false) ∧
    (b = 0 ∨ 0x17 < b ∨ unitCount b < page ∨
      (1 ≤ page ∧ page ≤ 8 ∧ b ∈ [0x02, 0x08, 0x0B, 0x0C, 0x15] ∧ bit s.dev.dies (page - 1) = false)) ∧
    (∀ h, a = .half h → s.epochOk h epoch = true) :=
  ⟨{ st [] with dev := { dies := 0x7F } }, .pf 0, 0x2C8108, 0, 0x0B, 8, 0x108, by decide +kernel, by decide +kernel, (by intro h e; cases e)⟩

theorem witness_UnusedRegions_read : ∃ (s : State) (a : Agent) (addr : Nat) (size : Nat) (b : Nat) (page : Nat) (off : Nat),
    (decodeAddr a addr = some (b, page, off) ∧ barred a addr = false ∧ s.hw.stopped = false ∧ accessOk addr size = true) ∧
    (b = 0 ∨ 0x17 < b ∨ unitCount b < page ∨
      (1 ≤ page ∧ page ≤ 8 ∧ b ∈ [0x02, 0x08, 0x0B, 0x0C, 0x15] ∧ bit s.dev.dies (page - 1) = false)) :=
  ⟨st [], .pf 0, 0x600000, 8, 0x18, 0, 0, by decide +kernel⟩

theorem witness_UnusedRegions_common : ∃ (s : State) (b : Nat) (page : Nat),
    (b = 0 ∨ 0x17 < b ∨ unitCount b < page ∨
      (1 ≤ page ∧ page ≤ 8 ∧ b ∈ [0x02, 0x08, 0x0B, 0x0C, 0x15] ∧ bit s.dev.dies (page - 1) = false)) :=
  ⟨st [], 0x17, 1, by decide +kernel⟩

theorem witness_FreePartitionRegisters_write : ∃ (s : State) (a : Agent) (addr : Nat) (size : Nat) (epoch : Nat) (b : Nat) (page : Nat) (off : Nat),
    (s.access a addr true = (s, some (b, page, off)) ∧ barred a addr = false ∧ b ≠ 0x0E ∧ 0x80 ≤ off) ∧
    (fieldsAt b page off size ≠ [] ∧ ∀ fi ∈ fieldsAt b page off size, fi.1.part = true ∧ 0x80 ≤ fi.1.off) ∧
    (s.pageScope a b page off < 64 ∧ s.pst (s.pageScope a b page off) = .free) ∧
    (∀ h, a = .half h → s.epochOk h epoch = true) :=
  ⟨{ regs := [] }, .vf 0 63, 0x58108, 4, 0, 0x0B, 0, 0x108, by decide +kernel, by decide +kernel, by decide +kernel, (by intro h e; cases e)⟩

theorem witness_FreePartitionRegisters_read : ∃ (s : State) (f : Fld) (part : Nat),
    (f.part = true ∧ f.acc ≠ .wo) ∧
    (part < 64 ∧ s.pst part = .free) :=
  ⟨{}, F.PREFETCH_LEAD, 63, by decide +kernel⟩

theorem witness_FreePartitionRegisters_readWindow : ∃ (s : State) (a : Agent) (addr : Nat) (b : Nat) (page : Nat) (off : Nat),
    (s.hw.stopped = false ∧ barred a addr = false ∧ s.access a addr false = (s, some (b, page, off)) ∧ addr % 8 = 0 ∧ s.unitGone b page = false) ∧
    (∀ fi ∈ fieldsAt b page off 8, fi.1.part = true ∧ measuredFields.contains fi.1 = false) ∧
    (s.pageScope a b page off < 64 ∧ s.pst (s.pageScope a b page off) = .free) :=
  ⟨{}, .vf 0 63, 0x58108, 0x0B, 0, 0x108, by decide +kernel⟩

theorem witness_FreePartitionRegisters_ownRows : ∃ (s : State) (p : Nat),
    (p < 64 ∧ s.pst p = .free) :=
  ⟨{}, 63, by decide +kernel⟩

def kTru : Cmd := k1 .truncate [(8, 5)]

theorem witness_LeaseWhileExecuting_busy : ∃ (s : State) (part : Nat) (seq : Nat) (x : Seq) (c : Cmd),
    (s.seq part seq = some x) ∧
    (c ∈ s.q.cmds ∧ x.holder = some c.q ∧ c.part = x.part ∧ c.st ≠ .waiting ∧ (x.id ∈ c.keeps ∨ x.id ∈ c.took)) ∧
    (c.is .append = true ∨ c.is .truncate = true) :=
  ⟨stq { y0 with holder := some 0 } [{ kTru with keeps := [5] }], 0, 5, { y0 with holder := some 0 }, { kTru with keeps := [5] }, by decide +kernel⟩

theorem witness_CompletionPhase_firstPass : ∃ (s : State) (q : Nat) (v : Nat) (x : Queue),
    (s.queue q = some x) ∧
    (s.serving = true) ∧
    (x.st = .disabled) ∧
    (s.queuePart q < 64 → s.pst (s.queuePart q) ≠ .free) ∧
    (([0x302, 0x301, 0x300, 0x201, 0x200].find? fun v => s.qreg F.QVER_OFFER_MIN q ≤ v && v ≤ s.qreg F.QVER_OFFER_MAX q) = some v) ∧
    (s.qreg F.QCTRL_SQ_INLINE q ≠ 1 ∧ s.qreg F.QCTRL_CQ_INLINE q ≠ 1) ∧
    (s.qreg F.SQ_BASE q % 4096 = 0 ∧ s.qreg F.CQ_BASE q % 4096 = 0) ∧
    (s.queuePart q < 64 → (s.q.queues.filter fun y => y.num < 65536 && y.st != .disabled && s.queuePart y.num == s.queuePart q).length <
      s.gp F.QP_LIMIT (s.queuePart q)) ∧
    (s.tdiHolds x.port x.fn = false) :=
  ⟨sq qOff [] onRegs, 0, 0x302, qOff, by decide +kernel⟩

theorem witness_CompletionPhase_hostRing : ∃ (s : State) (c : Nat) (x : Cmd) (u : Queue),
    (s.cmd c = some x) ∧
    (x.st = .done ∧ x.outs = []) ∧
    (s.queue x.q = some u) ∧
    (u.num < 65536 → (s.port u.port).st ≠ .holding) ∧
    (u.cqFailed = false ∧ u.cqInline = none) :=
  ⟨sq { q0 with cqTail := 63 } [kDone] [], 1, kDone, { q0 with cqTail := 63 }, by decide +kernel⟩

theorem witness_CompletionPhase_ringMemory : ∃ (s : State) (c : Nat) (o : Nat) (n : Nat) (x : Cmd) (u : Queue),
    (s.cmd c = some x ∧ Memory.wf s.q.ring = true) ∧
    (x.st = .done ∧ x.outs = []) ∧
    (s.queue x.q = some u) ∧
    (u.num < 65536 → (s.port u.port).st ≠ .holding) ∧
    (u.cqFailed = false ∧ u.cqInline = some (o, n)) :=
  ⟨sq { q0 with cqTail := 63, cqInline := some (4096, 2048) } [kDone] [], 1, 4096, 2048, kDone, { q0 with cqTail := 63, cqInline := some (4096, 2048) }, by decide +kernel⟩

theorem witness_SelectsAreHeldApart_apart : ∃ (s : State) (t : State) (a : Agent) (b : Agent) (f : Fld) (addr : Nat) (size : Nat) (value : Nat) (epoch : Nat),
    (agentNo a ≠ agentNo b) ∧
    (f ∈ F.table f.blk ∧ f.isSel = true) ∧
    (exec (.registerWrite a addr size value epoch) s = .next t) :=
  ⟨st [], { st [] with regs := (st []).regs ++ [(F.TIER_PSEL.key 0 0 0 0, 5)] }, .pf 0, .pf 1, F.TIER_PSEL, 0x2C0100, 4, 5, 0, by decide +kernel, by decide +kernel, next_of (by decide +kernel)⟩

/-! ### Statements without clauses: their hypotheses are met -/

/-- A machine whose ring memory holds a byte. -/
def ringS (is : List Instr) : State := { st [] with pending := is, q := { (st []).q with ring := [⟨4096, 7⟩] } }

theorem witness_StepWithNothingWaiting :
    ∃ s : State, s.pending = [] ∧ s.hw.stopped = false ∧ s.cxl.reads = [] ∧ (∀ x ∈ s.sq.pages, x.summary ≠ none) ∧ s.sq.pages ≠ [] :=
  ⟨stp y1 [], by decide +kernel⟩

theorem witness_StepWithNothingWaiting_stopped : ∃ s : State, s.pending = [] ∧ s.hw.stopped = true :=
  ⟨{ hw := { stopped := true } }, by decide +kernel⟩

theorem witness_WaitingCommandsKept : ∃ (i : Instr) (s t : State), exec i s = .next t ∧ s.pending = [.sysSeal] :=
  ⟨.powerGood, { ringS [.sysSeal] with hw := { stopped := true, pins := { pwrgd := true } } }, _,
    (by simp only [exec, execPowerGood]; rfl), rfl⟩

theorem witness_RingMemoryReads :
    ∃ (m n : List Host.Cell), Memory.wf m = true ∧ m ≠ [] ∧ Memory.wf n = true ∧ ∀ a, Memory.read m a = Memory.read n a :=
  ⟨[⟨4096, 7⟩], [⟨4096, 7⟩], by decide, by decide, by decide, fun _ => rfl⟩

theorem witness_RingMemoryCanonical :
    ∃ (s t : State), Memory.wf s.q.ring = true ∧ s.q.ring ≠ [] ∧ s.pending = [.fmMessageReject 0] ∧ step s = .next t :=
  ⟨ringS [.fmMessageReject 0], _, by decide +kernel, by decide +kernel, rfl, rfl⟩

theorem witness_CommandNumbersUnique :
    ∃ (s t : State), s.numbersRise ∧ s.q.cmds ≠ [] ∧ s.pending = [.fmMessageReject 0] ∧ step s = .next t :=
  ⟨{ st [kDec] with pending := [.fmMessageReject 0] }, _, by decide +kernel, by decide +kernel, rfl, rfl⟩

theorem witness_DeviceIdentityKept :
    ∃ (s t : State), bit s.dev.retired 3 = true ∧ s.pending = [.fmMessageReject 0] ∧ step s = .next t :=
  ⟨{ st [] with dev := { retired := 8 }, pending := [.fmMessageReject 0] }, _, by decide +kernel, rfl, rfl⟩

/-! ### Ill-formed commands are refused: one for each check -/

theorem test_wf_okPart : (Instr.partitionDrained 64).wf = false ∧ (Instr.partitionDrained 63).wf = true := by decide
theorem test_wf_okOwner : (Instr.logEnable 65).wf = false ∧ (Instr.logEnable 64).wf = true := by decide
theorem test_wf_okScope : (Instr.evtLatchClear 1 0 64 0).wf = false ∧ (Instr.evtLatchClear 1 0 255 0).wf = true := by decide
theorem test_wf_okSeq : (Instr.seqCloseDone 0 0).wf = false ∧ (Instr.seqCloseDone 0 (2 ^ 48 - 1)).wf = false ∧ (Instr.seqCloseDone 0 1).wf = true := by
  decide
theorem test_wf_okDie : (Instr.vcoreStep 10).wf = false ∧ (Instr.vcoreStep 9).wf = true := by decide
theorem test_wf_okPair : (Instr.bridgeFence 2).wf = false ∧ (Instr.bridgeFence 1).wf = true := by decide
theorem test_wf_okEight : (Instr.hbmPatrol 8).wf = false ∧ (Instr.hbmPatrol 7).wf = true := by decide
theorem test_wf_okPort : (Instr.linkDown 16).wf = false ∧ (Instr.linkDown 15).wf = true := by decide
theorem test_wf_okQueue : (Instr.queueReset 65538).wf = false ∧ (Instr.queueReset 65537).wf = true := by decide
theorem test_wf_ok16 : (Instr.sqDoorbell ⟨.pf 0, 0⟩ 65536).wf = false ∧ (Instr.sqDoorbell ⟨.pf 0, 0⟩ 65535).wf = true := by decide
theorem test_wf_ok64 : (Instr.h2dSnoop 0 (2 ^ 64)).wf = false ∧ (Instr.h2dSnoop 0 (2 ^ 64 - 1)).wf = true := by decide
theorem test_wf_okSerial : (Instr.destageCommit 0 (2 ^ 48)).wf = false ∧ (Instr.destageCommit 0 (2 ^ 48 - 1)).wf = true := by decide
theorem test_wf_okChan : (Instr.channelFail 32).wf = false ∧ (Instr.channelFail 31).wf = true := by decide
theorem test_wf_okTarget : (Instr.drainDone 0 16).wf = false ∧ (Instr.drainDone 0 15).wf = true := by decide
theorem test_wf_okPath : (Instr.telemetryPost 67).wf = false ∧ (Instr.telemetryPost 66).wf = true := by decide
theorem test_wf_okTier : (Instr.keyRevoke 4).wf = false ∧ (Instr.keyRevoke 3).wf = true := by decide
theorem test_wf_okCluster : (Instr.coreFail 0 10 0).wf = false ∧ (Instr.coreFail 0 9 0).wf = true := by decide
theorem test_wf_okMsg : (Instr.extGrant (2 ^ 512)).wf = false ∧ (Instr.extGrant 0).wf = true := by decide +kernel
theorem test_wf_okEntry : (Instr.entryAccept 0 ⟨some (2 ^ 512), []⟩).wf = false ∧ (Instr.entryAccept 0 ⟨none, []⟩).wf = true := by decide +kernel
theorem test_wf_okHeads : (Instr.entryAccept 0 ⟨none, [(0, 16)]⟩).wf = false ∧ (Instr.entryAccept 0 ⟨none, [(0, 15)]⟩).wf = true := by decide +kernel
theorem test_wf_okHook : (Instr.policyQueueFull 0 9 0).wf = false ∧ (Instr.policyQueueFull 0 8 64).wf = true := by decide
theorem test_wf_okDest : (Instr.destCommit 0 4096).wf = false ∧ (Instr.destCommit 0 4095).wf = true := by decide
theorem test_wf_okStage : (Instr.svnCommit 0).wf = false ∧ (Instr.svnCommit 5).wf = false ∧ (Instr.svnCommit 4).wf = true := by decide
theorem test_wf_okStep : (Instr.bootStepFail 10 0 0).wf = false ∧ (Instr.bootStepFail 9 0 0).wf = true := by decide
theorem test_wf_okBlk : (Instr.blkSoftReset 0 0).wf = false ∧ (Instr.blkSoftReset 0x18 0).wf = false ∧ (Instr.blkSoftReset 0x17 33).wf = false ∧
    (Instr.blkSoftReset 0x14 32).wf = true := by decide
theorem test_wf_okAccess : (Instr.rcRead .quinbel 4 8).wf = false ∧ (Instr.rcRead .quinbel 0 3).wf = false ∧ (Instr.rcRead .quinbel 8 8).wf = true := by
  decide
theorem test_wf_okFn : (Instr.spdmRequest 0 65 []).wf = false ∧ (Instr.spdmRequest 0 64 []).wf = true := by decide
theorem test_wf_okAgent : (Instr.acctLatch (.pf 8)).wf = false ∧ (Instr.acctLatch (.vf 0 64)).wf = false ∧ (Instr.acctLatch (.half 2)).wf = false ∧
    (Instr.acctLatch .quinbel).wf = true := by decide
theorem test_wf_okMal : (Instr.hello { typ := 2 ^ 16, src := 0, dst := 0, msgId := 0 }).wf = false ∧
    (Instr.hello { typ := 1, src := 0, dst := 0, msgId := 0 }).wf = true := by decide

/-! ### Worked examples of the chapters -/

/-- From a leaf to its owner (chapter 4): the shard of the chain value 9C 3E 51 07 …, and its ring position. -/
theorem test_shard_of_chain : shardOf [0x9C, 0x3E, 0x51, 0x07] = 81564 ∧ shardOf [0x9C, 0x3E, 0x51, 0x07] * 16384 = 0x4FA70000 := by decide

/-- Truncating inside a sealed leaf (chapter 3): bytes of a position, of a page image, of a granule slot, of a fret summary. -/
theorem test_sizes_of_the_48_layer_geometry :
    let g := { g0 with qHeads := 32, kvHeads := 4, headDim := 128, layers := List.replicate 48 ⟨5, 5, 0, 0, 0⟩ }
    posBytes g (g.layer 0) = 1056 ∧ imageBytes g 0 256 = 270336 ∧ slotBytes g 0 = 17152 ∧ summaryBytes g = 1040 := by decide +kernel

/-- Finding a register (chapter 20): WM_CTRL of watermark unit 1 of channel N21, and the BLK_ID of its page. -/
theorem test_finding_a_register :
    decodeAddr (.half 0) 0x5160AC = some (0x14, 22, 0xAC) ∧
    (fieldsAt 0x14 22 0xAC 4).contains (Fld.wmEnable 0x14 1 1, 0) = true ∧ blkId 0x14 22 = 0x09150014 := by decide +kernel

/-- A full device of NA-20 dies (chapter 14): 111,738 GiB of user capacity. -/
theorem test_capacity_of_a_full_device :
    let dies := (List.range 32).flatMap fun c => (List.range 16).map fun t => ({ chan := c, target := t, st := .active, gib := 256 } : NDie)
    let sets := (List.range 2).flatMap fun b => (List.range 8).map fun k => ({ bridge := b, num := k } : StripeSet)
    let s : State := { ftl := { dies := dies, sets := sets } }
    s.userGib 0 + s.userGib 1 = 111738 := by decide +kernel

/-- The budget of a bank (chapter 15): C = 100,000 / `fall` F, P_leak = 0.50 W, V_c = 12.00 V. -/
def bank (fall leak : Nat) : State :=
  { regs := [(F.FLUSH_EB.key 0 255 0 0, 1949), (F.FLUSH_RATE.key 0 255 0 0, 99200), (F.HU_VMIN.key 0 255 0 0, 6000), (F.HU_EFF.key 0 255 0 0, 880)]
    hw := { bankUv := 12000000 }
    plp := { meas := { vc := 12000000, fall := fall, leak := leak, fault := false, rehearsed := true } }
    ftl := { dies := (List.range 32).map fun i => { chan := i, target := 0, st := .active, gib := 4096 } } }

/-- 1.80 F: 32,347 MiB, the figure to check; the time bound is 93,485 MiB. -/
theorem test_budget_of_a_bank : (bank 55555 1157).budgetNow = 32347 ∧ (bank 55555 1157).timeBound = 93485 := by decide +kernel

/-! ### Single steps -/

/-- SYS_SEAL (R770): the seal is set, its event latched. -/
theorem test_seal : (goesTo (step { pending := [.sysSeal] }) ((({} : State).w F.SYS_SEAL 1).raise Ev.SEALED)) = true := by decide +kernel

/-- A step with nothing waiting lets a nanosecond pass and does nothing else. -/
theorem test_idle_step : goesTo (step {}) { now := 1 } = true := by decide +kernel

/-- FP32: 1 + 2 = 3, 1 / 3 rounds to nearest even, the sum of the infinities is NaN (IEEE 754). -/
theorem test_fp32 : Fp.add 0x3F800000 0x40000000 = 0x40400000 ∧ Fp.div 0x3F800000 0x40400000 = 0x3EAAAAAB ∧
    Fp.add Fp.pinf Fp.ninf = Fp.qnan := by decide +kernel

theorem witness_AppendTruncateLease_leaseRenewed : ∃ (s : State) (c : Nat) (x : Cmd) (qu : Queue) (y : Seq),
    (s.cmd c = some x) ∧
    (x.is .append = true ∨ x.is .truncate = true) ∧
    (x.st = .done) ∧
    (s.queue x.q = some qu) ∧
    (qu.cqFailed = false ∧ ¬ (qu.num < 65536 ∧ (s.port qu.port).st = .holding)) ∧
    (s.seq x.part y.id = some y) ∧
    (y.holder = some x.q) ∧
    (if x.status = St.ok then y.id ∈ x.names else y.id ∈ x.took) :=
  ⟨stq { y0 with holder := some 0 } [{ kTru with st := .done, status := St.ok }], 1, { kTru with st := .done, status := St.ok }, q0, { y0 with holder := some 0 }, by decide +kernel⟩

theorem witness_FlashProgramsReadsErases_nandReadFailed : ∃ (s : State) (ch : Nat) (tg : Nat) (lua : Nat) (d : NDie),
    (s.ndie ch tg = some d ∧ d.st = .failed) ∧
    (∀ u ∈ s.ftl.units, u.lua = lua → s.unitGone3 u = false) :=
  ⟨sfl { fl0 with dies := [{ nd 0 with st := .failed }, nd 1, nd 2, nd 3] } [], 0, 0, 4, { nd 0 with st := .failed }, by decide +kernel⟩

theorem witness_LeaseWhileExecuting_noted : ∃ (s : State) (c : Nat) (x : Cmd) (y : Seq),
    (s.cmd c = some x ∧ x.uid = c) ∧
    (s.mayStart x = true) ∧
    (x.is .append = true ∨ x.is .truncate = true) ∧
    (y.id ∈ x.names ∧ s.seq x.part y.id = some y ∧ y.holder = some x.q ∧ s.now < y.expiry) :=
  ⟨stq { y0 with holder := some 0, expiry := 9 } [{ kTru with st := .waiting }], 1, { kTru with st := .waiting }, { y0 with holder := some 0, expiry := 9 }, by decide +kernel⟩

theorem witness_TrainingBackward_attendBwdMixed : ∃ (s : State) (c : Nat) (m : Nat) (i : Instr) (x : Cmd) (g : Geom) (w : GSet) (d : List Nat),
    ((i, m) ∈ [(Instr.attendBwdExport c, 1), (Instr.attendBwdDiscard c, 2)]) ∧
    (s.runs c .bwd x) ∧
    (x.f 0x1C 1 = m) ∧
    (s.gset x = some w) ∧
    (s.geom x.part = some g) ∧
    (x.bwdDesc = some (some d)) ∧
    ((s.detOf x && s.setMixed x.part w.num x.q) = true) :=
  ⟨{ st [kBwd 2] [(F.ATT_CTRL_DET_FORCE.key 0 0 0 0, 1)] with att := { gsets := [{ gs0 with queues := [7] }] } }, 1, 2, .attendBwdDiscard 1, kBwd 2, g0, { gs0 with queues := [7] }, List.replicate 6 0, by decide +kernel⟩

/-- Prefetches of a partition with a program on the PREFETCH hook. -/
def pfP (qs : List Prefetch) : State :=
  { stp y1 [] with
    tier := { (stp y1 []).tier with prefetches := qs }
    pol := { programs := [{ polG with hook := 5 }], seqrs := [{ sq0 with die := 8 }, { sq0 with die := 9 }] } }

def sqE : Sequencer := { sq0 with running := some (evP 1), inst := some { prog := polG, regs := [], base := 0 } }

theorem witness_TierAndPolicyEventsComplete_victimNext : ∃ (s : State) (s1 : State) (part : Nat) (tier : Nat) (die : Nat) (d : Nat),
    (part < 64 ∧ tier < 4 ∧ s.pst part ≠ .free ∧ s.paused 0x0B (if tier ≤ 1 then die + 1 else 0) = false) ∧
    (d = if 2 ≤ tier then 15 else die) ∧
    (s.poolDone part tier d = false) ∧
    (((s.pool part tier d).st = .idle ∧ s.poolNeeds part tier d = true ∧ s1 = s.poolDemotes part tier d) ∨ ((s.pool part tier d).st ≠ .idle ∧ s1 = s)) :=
  ⟨big, big, 0, 1, 0, 0, by decide +kernel⟩

theorem witness_TierAndPolicyEventsComplete_movePublished : ∃ (s : State) (move : Nat) (m : Move),
    ((s.tier.moves.find? fun m => m.id == move) = some m) ∧
    (m.why ≠ 6 ∧ (m.dstTier = 3 → s.t3Done m.part m.serial 0 = true)) ∧
    (m.reads.1 = 3 → s.t3Unread m.part m.serial = false) ∧
    (m.reads.1 ≤ 1 → m.dstTier ≤ 1 → s.diesJoined m.reads.2 m.dstDie = true) ∧
    (∀ l ∈ s.sq.leaves, l.holds m.part m.serial = true → l.freed = false) :=
  ⟨stm mvD [kMig], 1, mvD, by decide +kernel⟩

theorem witness_TierAndPolicyEventsComplete_moveEnds : ∃ (s : State) (move : Nat) (ok : Bool) (m : Move),
    ((s.tier.moves.find? fun m => m.id == move) = some m) ∧
    (ok = false ∨ (m.reads.1 = 3 ∧ s.t3Unread m.part m.serial = true)) ∧
    (m.attempt ≠ 0 ∨ ∀ k ∈ s.copiesOf m.part m.serial, k.good = true → k.tier = m.srcTier ∧ k.die = m.srcDie) :=
  ⟨stm mvD [kMig], 1, false, mvD, by decide +kernel⟩

theorem witness_TierAndPolicyEventsComplete_prefetchFetched : ∃ (s : State) (s1 : State) (part : Nat) (seq : Nat) (layer : Nat) (v : Nat) (q : Prefetch) (x : Seq),
    (s.paused 0x0B 0 = false ∧ s.gp F.TIER_CTRL_PREFETCH_EN part = 1) ∧
    (argMin (fun q => ((q.issueT : Nat) : Int)) ((s.tier.prefetches.filter fun q => q.part == part).filter fun q =>
      q.seq == seq && q.layer == layer) = some q) ∧
    (∀ r ∈ s.tier.prefetches, r.part = part → q.issueT ≤ r.issueT) ∧
    (s1 = { s with tier := { s.tier with prefetches := s.tier.prefetches.filter (· != q) } }) ∧
    (s1.hookBy part 5 = .shipped v ∨ (s1.hookBy part 5 = .fallback ∧ v = 0)) ∧
    ((s1.hookCount part 5).seq part seq = some x) :=
  ⟨{ stp y1 [] with tier := { (stp y1 []).tier with prefetches := [{ pf0 with layer := 1, issueT := 4 }, pf0] } }, { stp y1 [] with tier := { (stp y1 []).tier with prefetches := [{ pf0 with layer := 1, issueT := 4 }] } }, 0, 5, 0, 0, pf0, y1, by decide +kernel⟩

theorem witness_TierAndPolicyEventsComplete_prefetchAsked : ∃ (s : State) (s1 : State) (s2 : State) (part : Nat) (seq : Nat) (layer : Nat) (q : Prefetch),
    (s.paused 0x0B 0 = false ∧ s.gp F.TIER_CTRL_PREFETCH_EN part = 1) ∧
    (argMin (fun q => ((q.issueT : Nat) : Int)) ((s.tier.prefetches.filter fun q => q.part == part).filter fun q =>
      q.seq == seq && q.layer == layer) = some q) ∧
    (∀ r ∈ s.tier.prefetches, r.part = part → q.issueT ≤ r.issueT) ∧
    (s1 = { s with tier := { s.tier with prefetches := s.tier.prefetches.filter (· != q) } }) ∧
    (s1.hookBy part 5 = .program) ∧
    (s1.hookRaise 5 part 8 [if q.group < 256 then q.group else 0xFFFF, seq, layer, q.first, q.count, q.useT, if q.t0 then 1 else 0] 0 q.qg = (s2, true)) :=
  ⟨pfP [{ pf0 with layer := 1, issueT := 4 }, pf0], pfP [{ pf0 with layer := 1, issueT := 4 }], ((pfP [{ pf0 with layer := 1, issueT := 4 }]).hookRaise 5 0 8 [0, 5, 0, 0, 16, 9, 0] 0 0).1, 0, 5, 0, pf0, by decide +kernel, by decide +kernel, by decide +kernel, by decide +kernel, by decide +kernel, by decide +kernel⟩

theorem witness_TierAndPolicyEventsComplete_destageEnds : ∃ (s : State) (part : Nat) (serial : Nat) (l : Leaf) (ms : List Move),
    ((s.sq.leaves.find? fun l => l.part == part && l.serial == serial) = some l) ∧
    (ms = s.tier.moves.filter fun m => m.part == part && m.why == 6 && l.serial ≤ m.serial && m.serial < l.serial + l.layers) ∧
    (ms ≠ []) ∧
    (∀ i < l.layers, (∃ m ∈ ms, m.serial = l.serial + i) ∨ ∀ k ∈ s.copiesOf part (l.serial + i), ¬ (k.backing = true ∧ k.tier = 1)) ∧
    (∀ m ∈ ms, s.t3Done part m.serial 0 = true) :=
  ⟨stm { mvD with why := 6 } [kMig], 0, 3, lf0, [{ mvD with why := 6 }], by decide +kernel⟩

theorem witness_TierAndPolicyEventsComplete_destageFirst : ∃ (s : State) (part : Nat) (serial : Nat) (l : Leaf),
    (s.paused 0x0B 0 = false) ∧
    (s.gp F.TIER_CTRL_AUTO_DESTAGE part ≠ 0 ∨ s.overBudget = true) ∧
    (s.hookBy part 6 = .fallback) ∧
    ((s.hookCount part 6).destageNext part 0 = some l ∧ l.serial = serial) :=
  ⟨{ sdg with regs := (F.HOOK_CTRL_ENABLE.key 0 0 6 0, 0) :: sdg.regs }, 0, 3, lf0, by decide +kernel⟩

theorem witness_TierAndPolicyEventsComplete_waitEnds : ∃ (s : State) (wait : Nat) (w : AdmitWait),
    ((s.tier.waits.find? fun w => w.id == wait) = some w) ∧
    (w.why ≠ 7 ∧ w.cmd = 0 ∧ s.moveOf w.part w.serial = none ∧ s.pageKnown w.part w.serial = true) :=
  ⟨{ stp y1 [] with tier := { (stp y1 []).tier with waits := [{ aw0 with cmd := 0 }] } }, 1, { aw0 with cmd := 0 }, by decide +kernel⟩

theorem witness_TierAndPolicyEventsComplete_eventTaken : ∃ (s : State) (die : Nat) (n : Nat) (q : Sequencer) (e : PolEvent),
    (s.seqr die n = some q) ∧
    (q.retired = false ∧ q.running = none ∧ s.hw.stopped = false ∧ s.paused 0x15 (die + 1) = false) ∧
    (((s.eventsOn die).find? fun e => !s.excluded e) = some e) :=
  ⟨polS sq0 [evP 1] [], 0, 3, sq0, evP 1, by decide +kernel⟩

theorem witness_TierAndPolicyEventsComplete_eventGoesOn : ∃ (s : State) (die : Nat) (n : Nat) (q : Sequencer) (e : PolEvent) (x : PolInst),
    (s.seqr die n = some q) ∧
    (q.retired = false ∧ q.running = some e ∧ s.hw.stopped = false) ∧
    (q.inst = some x ∧ x.late = false) :=
  ⟨polS sqE [] [], 0, 3, sqE, evP 1, { prog := polG, regs := [], base := 0 }, by decide +kernel⟩

theorem witness_TierAndPolicyEventsComplete_eventTooLong : ∃ (s : State) (die : Nat) (n : Nat) (q : Sequencer) (e : PolEvent),
    (s.seqr die n = some q) ∧
    (q.running = some e) :=
  ⟨polS { sq0 with running := some (evP 3) } [] [], 0, 3, { sq0 with running := some (evP 3) }, evP 3, by decide +kernel⟩

theorem witness_TierAndPolicyEventsComplete_queueFull : ∃ (s : State) (s1 : State) (die : Nat) (hook : Nat) (part : Nat),
    (1024 ≤ (s.eventsOn die).length ∧ hook ≤ 8 ∧ part ≤ 64) ∧
    (s1 = ((s.bumpU F.SQ_OVERFLOW die).raise Ev.OVERFLOW (if part < 64 then part else 255)).bumpPS F.HOOK_FALLBACKS part hook) :=
  ⟨polS sq0 (List.replicate 1024 (evP 0)) [], (((polS sq0 (List.replicate 1024 (evP 0)) []).bumpU F.SQ_OVERFLOW 0).raise Ev.OVERFLOW 0).bumpPS F.HOOK_FALLBACKS 0 3, 0, 3, 0, by decide +kernel, rfl⟩

theorem witness_TierAndPolicyEventsComplete_sequencerFails : ∃ (s : State) (s1 : State) (die : Nat) (n : Nat) (q : Sequencer),
    (s.seqr die n = some q) ∧
    (q.retired = false) ∧
    (s1 = ((s.setSeqr die n fun x => { x with retired := true }).endByFallback die n).raiseBoth Ev.SQ_RETIRED die) :=
  ⟨polS { sq0 with running := some (evP 1) } [] [], ((((polS { sq0 with running := some (evP 1) } [] []).setSeqr 0 3 fun x => { x with retired := true }).endByFallback 0 3).raiseBoth Ev.SQ_RETIRED 0), 0, 3, { sq0 with running := some (evP 1) }, by decide +kernel, by decide +kernel, rfl⟩

theorem witness_TierAndPolicyEventsComplete_coreFailAtWork : ∃ (s : State) (die : Nat) (cl : Nat) (phys : Nat) (j : Nat) (i : Nat) (x : Cluster),
    (die < 8 ∧ cl < 10 ∧ phys < 34 ∧ s.dieOk die = true) ∧
    (s.hw.clusters[10 * die + cl]? = some x ∧ bit x.physOk phys = true) ∧
    ((List.range 32).find? (fun j => x.map.getD j none == some phys) = some j) ∧
    ((List.range 34).find? (fun i => bit x.physOk i && i != phys && !x.map.contains (some i)) = some i) :=
  ⟨sta at1 [{ rn0 with stage := 2, core := 639 }] [], 1, 9, 31, 31, 32, { num := 19 }, by decide +kernel⟩

theorem witness_TierAndPolicyEventsComplete_fetchDataLast : ∃ (s : State) (m : MalMsg) (w : MalWait),
    (s.net.waits.find? (fun w => w.msg.typ == 0x0020 && w.msg.dst == m.src && w.msg.ver < 0x300 && w.msg.msgId == m.msgId) = some w) ∧
    (m.last = true ∧ w.why ≠ 4) :=
  ⟨snet { waits := [mwF] } {} joinedRegs, { mm 0x21 0x201 [1] with last := true }, mwF, by decide +kernel⟩

theorem witness_RetiringTheDevice_deviceRetireWaits : ∃ (s : State),
    (s.hw.retireReq = false ∧ s.joined = true ∧ (List.range 64).all (fun p => s.pst p == .free) = true ∧ s.bridgeRestarting = true) :=
  ⟨{ regs := [(F.BOOT_PHASE_SERVICE.key 0 255 0 0, 2)], hw := { bridges := [{}, { st := .restarting }] } }, by decide +kernel⟩

theorem witness_RetiringTheDevice_retiresAfterRestart : ∃ (s : State) (b : Nat),
    (b < 2 ∧ (s.bridge b).st = .restarting ∧ (s.bridge (1 - b)).st ≠ .restarting ∧ s.hw.retireWait = true) ∧
    (s.now ≤ (s.bridge b).fencedAt + s.g F.BRIDGE_CFG_RESTART_S * 1000000000 ∧ s.net.storm = none ∧ s.net.incidents.length < 1024) :=
  ⟨let s := brS 5 5; { s with hw := { s.hw with retireWait := true } }, 1, by decide +kernel⟩

theorem witness_HoldUpAndBudget_measSags : ∃ (s : State) (uv : Nat),
    (s.plp.meas.phase ≠ 0 ∧ 1000 * uv < 995 * s.plp.meas.vc0) :=
  ⟨plpM { phase := 2, vc0 := 10000000 }, 9949999, by decide +kernel⟩

theorem witness_HoldUpAndBudget_budgetSags : ∃ (s : State) (uv : Nat),
    (s.hw.stopped = false ∧ s.plp.meas.phase ≠ 0 ∧ 1000 * uv < 995 * s.plp.meas.vc0) :=
  ⟨plpM { phase := 1, vc0 := 10000000 }, 9949999, by decide +kernel⟩

theorem witness_RunsAndMerge_runEndCrc : ∃ (s : State) (run : Nat) (r : Run) (x : Cmd) (a : Attn) (g : Geom) (it : Item),
    ((s.part.runs.find? fun y => y.id == run && y.stage == 2) = some r) ∧
    (r.leaf = none) ∧
    (s.cmd r.cmd = some x) ∧
    (s.attn r.cmd = some a) ∧
    (s.geom r.part = some g) ∧
    (a.items[r.item]? = some it) ∧
    (r.count ≠ 0 ∧ s.diesJoined r.srcDie r.die = true ∧ r.src ≠ none) :=
  ⟨sta at1 [{ rn0 with stage := 2, src := some (0, 3, 1, 0) }] [], 1, { rn0 with stage := 2, src := some (0, 3, 1, 0) }, kDec, at1, g0, it0, by decide +kernel⟩

theorem witness_RunsAndMerge_runEndSeal : ∃ (s : State) (run : Nat) (r : Run),
    ((s.part.runs.find? fun y => y.id == run && y.stage == 2) = some r) ∧
    (r.leaf ≠ none) :=
  ⟨sta at1 [{ rn0 with stage := 2, leaf := some (0, 5, 0) }] [], 1, { rn0 with stage := 2, leaf := some (0, 5, 0) }, by decide +kernel⟩

theorem witness_LinksAndHolds_linkDownNotUp : ∃ (s : State) (port : Nat) (i : Instr),
    (i = .linkDown port ∨ (i = .ideFailure port ∧ port < 8 ∧ (s.port port).ideUp = true)) ∧
    (port < 16 ∧ port < s.dlv.ports.length) ∧
    ((s.port port).st ≠ .up) :=
  ⟨std [] [] [], 2, .linkDown 2, .inl rfl, by decide +kernel⟩

/-- Port n holds. -/
def heldOn (n : Nat) : State :=
  { std [] [] [] with boot := { ended := [2] }, dlv := { ports := portsUp.map fun p => if p.num = n then { p with st := .holding, trained := false } else p } }

theorem witness_LinksAndHolds_linkUpHeld : ∃ (s : State) (port : Nat),
    (port < 8 ∧ port < s.dlv.ports.length ∧ (s.port port).num = port) ∧
    ((s.port port).st = .holding ∧ (s.port port).trained = false) ∧
    (s.hw.stopped = false ∧ s.boot.halted = false ∧ s.stepDone 2 = true ∧ s.bridgeUp (port / 4 % 2) = true) :=
  ⟨heldOn 1, 1, by decide +kernel⟩

theorem witness_LinksAndHolds_linkUpHeldNet : ∃ (s : State) (port : Nat),
    (8 ≤ port ∧ port < 16 ∧ port < s.dlv.ports.length) ∧
    ((s.port port).st = .holding ∧ (s.port port).trained = false) ∧
    (s.hw.stopped = false ∧ s.boot.halted = false ∧ s.stepDone 2 = true ∧ s.bridgeUp (port / 4 % 2) = true) :=
  ⟨heldOn 9, 9, by decide +kernel⟩

theorem witness_ExtentsAndWindows_extGrantRefused : ∃ (s : State) (msg : Nat),
    (s.fmBound = true) ∧
    (s.grantReason msg ≠ 0) :=
  ⟨stx [] [] [], fmsg [(2, 2), (8, 3), (0x0A, 2)], by decide +kernel⟩

theorem witness_ExtentsAndWindows_fmUnbound : ∃ (s : State) (msg : Nat) (i : Instr),
    (i ∈ [Instr.extGrant msg, .extReleaseReq msg, .extForceRelease msg, .windowExtentAdd msg, .windowReleaseReq msg, .windowForceRelease msg]) ∧
    (s.fmBound = false) :=
  ⟨stp y1 [], 0, .extReleaseReq 0, by decide +kernel⟩

theorem witness_ExtentsAndWindows_extUnknown : ∃ (s : State) (msg : Nat) (i : Instr),
    (i ∈ [Instr.extReleaseReq msg, .extForceRelease msg]) ∧
    (s.fmBound = true) ∧
    (s.extNamed msg = none) :=
  ⟨stx [] [] [], 0, .extForceRelease 0, by decide +kernel⟩

theorem witness_ExtentsAndWindows_windowRejected : ∃ (s : State) (msg : Nat),
    (s.fmBound = true) ∧
    (s.windowOk msg = false) :=
  ⟨stx [] [] [], 0, by decide +kernel⟩

theorem witness_ExtentsAndWindows_windowMapUnread : ∃ (s : State) (part : Nat) (lease : Nat) (e : Lease) (map : Option Bytes),
    (s.lease part lease = some e) ∧
    ((e.st = .active ∨ e.st = .releasing) ∧ e.pending = none) ∧
    (s.tdiHolds e.port (part + 1) = false) ∧
    (∀ b ∈ map, b.length < 16 * s.gps F.WIN_MAP_ENTRIES part lease) :=
  ⟨stx [] [ls0] [(k1 .fence [])], 0, 4, ls0, none, by decide +kernel⟩

theorem witness_ExtentsAndWindows_windowMapRefused : ∃ (s : State) (part : Nat) (lease : Nat) (n : Nat) (e : Lease) (b : Bytes) (ws : List WinSlot),
    (s.lease part lease = some e) ∧
    ((e.st = .active ∨ e.st = .releasing) ∧ e.pending = none) ∧
    (s.tdiHolds e.port (part + 1) = false) ∧
    (16 * s.gps F.WIN_MAP_ENTRIES part lease ≤ b.length) ∧
    (ws = mapSlots b (s.gps F.WIN_MAP_ENTRIES part lease)) ∧
    ((n = 1 ∧ ∃ w ∈ ws, s.resolve part w.handle (hOrder w.handle) ≠ none) ∨
      (n = 2 ∧ (∀ w ∈ ws, s.resolve part w.handle (hOrder w.handle) = none) ∧ s.slotsBad e ws = true)) :=
  ⟨{ stx [] [ls0] [] with regs := [(F.WIN_MAP_ENTRIES.key 0 0 4 0, 1)] }, 0, 4, 1, ls0, leBytes 8 (ph0 + 1) ++ leBytes 4 0 ++ leBytes 4 1,
    [⟨0, ph0 + 1⟩], by decide +kernel⟩

theorem witness_ExtentsAndWindows_windowReadPoison : ∃ (s : State) (port : Nat) (pbr : Nat) (addr : Nat),
    (port < 8) ∧
    (∀ l ∈ s.cxl.leases, ¬(l.port = port ∧ l.pbr = pbr ∧ l.base ≤ addr ∧ addr < l.base + l.len)) :=
  ⟨stx [] [] [], 1, 6, 0, by decide +kernel⟩

def pgD : Page := { pg0 with serial := 4, base := ph0 }
def lfD : Leaf := { lf0 with serial := 4, leafNo := 1 }
def overBase : State :=
  let s := stm { mvD with attempt := 1 } []
  { s with sq := { s.sq with pages := [pg0, pgD], leaves := [lf0, lfD] } }

theorem witness_TierEvents_moveFailsBase : ∃ (s : State) (move : Nat) (m : Move) (l : Leaf) (x : Page),
    ((s.tier.moves.find? fun m => m.id == move) = some m) ∧
    (m.attempt ≠ 0) ∧
    (l ∈ s.leaves ∧ x ∈ s.leafPages l) ∧
    (x.base ≠ 0 ∧ (hPart x.base, hSerial x.base) = (m.part, m.serial)) ∧
    (∀ k ∈ s.tier.copies, k.part = m.part → k.serial = m.serial → k.good = true →
      k.leaving = false ∧ (k.tier, k.die) = m.reads) ∧
    (∀ y ∈ s.page m.part m.serial, y.cls ≠ 2) :=
  ⟨overBase, 1, { mvD with attempt := 1 }, lfD, pgD, by decide +kernel⟩

def eLate : Nat := en .decode [(8, 5), (0x10, 1000), (0x1C, 16), (0x20, 15), (0x24, 1), (0x28, 64)]
def late2 : State := { sq qOn [] [] with now := 2000 }

theorem witness_CommandLife_entryTurnedAway : ∃ (s : State) (a : State) (q : Nat) (e : Nat) (st : Nat) (x : Queue) (z : Cmd) (heads : List (Nat × Nat)),
    (s.queue q = some x) ∧
    (x.st = .active ∧ (q < 65536 → x.sqHead ≠ x.sqTail ∧ s.paused 0x0E (s.qreg F.QCTRL_FE q + 1) = false)) ∧
    (s.acceptRoom x = true ∧ (x.sqInline.isSome = true → s.inlineEntry x = e)) ∧
    (s.acceptStatus x e = none ∧ s.myTurn q e heads = true) ∧
    (∀ y ∈ s.q.cmds, y.uid ≠ s.q.nextUid) ∧
    (a = (s.tookTurn q).acceptEntry x e ∧ a.cmd s.q.nextUid = some z) ∧
    (z.owed = false ∧ a.admitStatus z = some st) :=
  ⟨late2, (late2.tookTurn 0).acceptEntry qOn eLate, 0, eLate, St.deadlineMiss, qOn,
    (((late2.tookTurn 0).acceptEntry qOn eLate).cmd 2).getD (k1 .fence []), [], by decide +kernel⟩

theorem witness_CommandLife_cancelDelivery : ∃ (s : State) (c : Nat) (x : Cmd) (d : Cmd) (v : Deliv),
    (s.cmd c = some x) ∧
    (x.is .cancel = true ∧ x.st = .started ∧ x.phase = 0) ∧
    (s.cancelTargets x = [d]) ∧
    (s.deliv d.uid = some v ∧ v.status = none) :=
  ⟨{ st [kWait, kCan] with dlv := { delivs := [dv0], pushes := [pu0] } }, 2, kCan, kWait, dv0, by decide +kernel⟩

theorem witness_ShardRequests_shardXferLast : ∃ (s : State) (m : MalMsg) (e : ShardEnt),
    (s.fresh m) ∧
    (s.joined = true ∧ 0x300 ≤ m.ver ∧ m.ringEpoch = s.pdir.ringEpoch ∧ m.last = true) ∧
    (readXfer s.now m.body.length m.body = [e]) ∧
    (∀ x ∈ s.pdir.shards, x.key ≠ e.key) ∧
    (s.net.later = [] ∧ ∀ l ∈ s.pdir.lookups, l.step ≠ 2) :=
  ⟨snet {} {} joinedRegs, mm 0x14 0x301 bXfer, xe0, by decide +kernel⟩

theorem witness_ShardRequests_shardXferLater : ∃ (s : State) (m : MalMsg),
    (s.fresh m) ∧
    (s.joined = true ∧ 0x300 ≤ m.ver ∧ s.pdir.ringEpoch < m.ringEpoch) :=
  ⟨snet {} {} joinedRegs, mm 0x14 0x301 bXfer 1, by decide +kernel⟩

theorem witness_ShardRequests_replicaBad : ∃ (s : State) (m : MalMsg),
    (s.fresh m) ∧
    (s.joined = true ∧ 0x300 ≤ m.ver) ∧
    (∀ r ∈ s.plp.replicas, ¬(r.owner = m.src ∧ r.handle = rd m.body 0 8)) ∧
    (hOrder (rd m.body 0 8) ≠ 7 ∧ leafRecBytes 4096 (m.body.drop 56) = none) :=
  ⟨snet {} {} joinedRegs, mm 0x22 0x301 (List.replicate 57 0), by decide +kernel⟩

theorem witness_FlashProgramsReadsErases_nandReadCrc : ∃ (s : State) (ch : Nat) (tg : Nat) (lua : Nat) (d : NDie) (u : NUnit),
    (s.ndie ch tg = some d ∧ d.serves = true) ∧
    (u ∈ s.ftl.units ∧ u.lua = lua ∧ u.what = 0) :=
  ⟨sfl fl0 [], 0, 0, 1, nd 0, nu0, by decide +kernel⟩

theorem witness_CourseAndLead_standbyResync : ∃ (s : State) (h : Nat),
    (h < 2 ∧ (s.half h).st = .fenced ∧ s.holdsLead (1 - h) = true ∧ (s.half h).epoch < (s.half (1 - h)).epoch) :=
  ⟨led { st := .fenced }, 1, by decide +kernel⟩

theorem witness_RegisterAccesses_ptpChosen : ∃ (s : State) (port : Nat) (addr : Nat) (size : Nat) (page : Nat) (off : Nat),
    (accessOk addr size = true ∧ 4 ≤ size ∧ s.hw.stopped = false ∧ barred (.pf port) addr = false) ∧
    (s.access (.pf port) addr true = (s, some (0x03, page, off)) ∧ s.unitGone 0x03 page = false ∧
      (off / 8 = F.PTP_CTRL_PORTS.off / 8 ∨ off / 8 = F.TIME_CTRL_PTP_DOMAIN.off / 8)) :=
  ⟨st [], 7, 0xC0000 + F.PTP_CTRL_PORTS.off, 4, 0, F.PTP_CTRL_PORTS.off, by decide +kernel⟩

theorem witness_RegisterAccesses_barDoorbell : ∃ (s : State) (a : Agent) (addr : Nat) (value : Nat) (q : Nat) (x : Queue),
    (s.hw.stopped = false ∧ barred a addr = true ∧ barOf addr = 2 ∧ addr % 2 ^ 32 < 0x80000 ∧ addr % 8 = 0) ∧
    (s.queueOf a (addr % 2 ^ 32 / 8) = some q ∧ s.queue q = some x ∧ x.st = .active ∧ value % 2 ^ 16 < s.sqSize q) :=
  ⟨sq q0 [] [], .pf 0, 2 * 2 ^ 32, 0, 0, q0, by decide +kernel⟩

theorem witness_RegisterAccesses_barRing : ∃ (s : State) (a : Agent) (addr : Nat),
    (s.hw.stopped = false ∧ barred a addr = true ∧ barOf addr = 4 ∧ addr % 8 = 0 ∧ Memory.wf s.q.ring = true) ∧
    (∀ i, i < 8 → s.inRing (agentPort a) (agentFn a) (addr % 2 ^ 32 + i) = true) :=
  ⟨sq { q0 with sqInline := some (0, 4096) } [] [], .pf 0, 4 * 2 ^ 32 + 4088, by decide +kernel⟩

theorem witness_RegisterAccesses_barNoRing : ∃ (s : State) (a : Agent) (addr : Nat),
    (barred a addr = true ∧ barOf addr = 4 ∧ s.inRing (agentPort a) (agentFn a) (addr % 2 ^ 32) = false) :=
  ⟨sq { q0 with sqInline := some (0, 4096) } [] [], .pf 0, 4 * 2 ^ 32 + 4096, by decide +kernel⟩

def eMasked : MsixVec := { port := 0, fn := 0, vec := 1, addr := 4096, data := 5, pending := true }

theorem witness_RegisterAccesses_msixUnmask : ∃ (s : State) (a : Agent) (addr : Nat) (v : Nat) (e : MsixVec),
    (s.hw.stopped = false ∧ barred a addr = true ∧ barOf addr = 2 ∧ addr % 2 ^ 32 = 0x80000 + 16 * v + 12) ∧
    (v < msixCount (agentFn a) ∧ e = s.msixVec (agentPort a) (agentFn a) v ∧ e.masked = true ∧ e.pending = true) :=
  ⟨{ sq q0 [] [] with q := { msix := [eMasked] } }, .pf 0, 2 * 2 ^ 32 + 0x80000 + 28, 1, eMasked, by decide +kernel⟩

theorem witness_RegisterAccesses_barRead : ∃ (s : State) (a : Agent) (addr : Nat) (size : Nat),
    (s.hw.stopped = false ∧ barred a addr = true ∧ accessOk addr size = true) :=
  ⟨st [], .vf 0 3, 2 * 2 ^ 32 + 0x80000, 8, by decide +kernel⟩

theorem witness_ShardRequests_replica : ∃ (s : State) (m : MalMsg) (main : Bytes),
    (s.fresh m) ∧
    (s.joined = true ∧ 0x300 ≤ m.ver) ∧
    (∀ r ∈ s.plp.replicas, ¬(r.owner = m.src ∧ r.handle = rd m.body 0 8)) ∧
    (if hOrder (rd m.body 0 8) = 7 then main = m.body.drop 56
      else ∃ n ≤ m.body.length, leafRecBytes 4096 (m.body.drop 56) = some n ∧ main = (m.body.drop 56).take n) ∧
    (hOrder (rd m.body 0 8) = 7 ∨ baseNamed 4096 main = 0 ∨ ∃ r ∈ s.plp.replicas, r.owner = m.src ∧ r.handle = baseNamed 4096 main) ∧
    (s.replicaUsed + roundUp main.length 4096 ≤ s.g F.REPLICA_GIB * 2 ^ 30 ∧ roundUp main.length 4096 ≤ s.freeUser s.t3Bridge) :=
  ⟨{ snet {} {} (joinedRegs ++ [(F.REPLICA_GIB.key 0 255 0 0, 1)]) with ftl := fl0 }, mm 0x22 0x301 bRep, [7], by decide +kernel, by decide +kernel, by decide +kernel,
    Eq.mpr (if_pos (by decide +kernel)) (by decide +kernel), .inl (by decide +kernel), by decide +kernel⟩

end Sys2Proof.Tests
end

section
/-! SUPPORT. What every operation and every command keeps: the commands that wait and the identity of the device. One lemma for each
function of the model that answers a state, in the order of the model's files; the retirement of an attention die (R682) is the one
change of the identity, and what can reach it stands at the end. -/

namespace Sys2Proof.Machine

/-- The waiting commands and the identity of the device: what only a step's taking of its command, and a die's retirement, change. -/
def State.kept (s : State) : List Instr × Dev := (s.pending, s.dev)

@[simp] theorem State.kept_mk (s : State) (now free regs latches out time tel course hw boot q part sq pdir tier att dlv cxl net ftl plp sec pol) :
    State.kept ⟨s.pending, now, free, s.dev, regs, latches, out, time, tel, course, hw, boot, q, part, sq, pdir, tier, att, dlv, cxl, net,
      ftl, plp, sec, pol⟩ = s.kept := by rfl

@[simp] theorem State.kept_ite (c : Prop) [Decidable c] (a b : State) : (if c then a else b).kept = if c then a.kept else b.kept := apply_ite ..

@[simp] theorem State.kept_fst_ite {β : Type} (c : Prop) [Decidable c] (a b : State × β) :
    (if c then a else b).1.kept = if c then a.1.kept else b.1.kept := apply_ite (fun x : State × β => x.1.kept) ..

@[simp] theorem State.kept_foldl {α : Type} (f : State → α → State) (l : List α) (s : State) (h : ∀ b a, (f b a).kept = b.kept) :
    (l.foldl f s).kept = s.kept := foldl_keeps State.kept f h l s

@[simp] theorem State.kept_fst_foldl {α β : Type} (f : State × β → α → State × β) (l : List α) (x : State × β)
    (h : ∀ b a, (f b a).1.kept = b.1.kept) : (l.foldl f x).1.kept = x.1.kept := foldl_keeps (fun x : State × β => x.1.kept) f h l x

/-- The state an outcome leaves: the one it answers, and the old one where it answers none. -/
def State.after (s : State) : Host.Outcome State Fault Refusal → State
  | .next t => t
  | _ => s

@[simp] theorem State.after_next (s t : State) : s.after (.next t) = t := by rfl

@[simp] theorem State.after_ite (s : State) (c : Prop) [Decidable c] (a b : Host.Outcome State Fault Refusal) :
    s.after (if c then a else b) = if c then s.after a else s.after b := apply_ite ..

/-- What a function that answers a state beside something else keeps, for the state its answer is taken apart into. -/
theorem State.kept_of_fst {β : Type} {s t : State} {b : β} {x : State × β} (h : x = (t, b)) (hx : x.1.kept = s.kept) : t.kept = s.kept := by
  rw [← hx, h]

theorem State.kept_getD {s a : State} {o : Option State} (ho : ∀ t, o = some t → t.kept = s.kept) (ha : a.kept = s.kept) :
    (o.getD a).kept = s.kept := by
  cases o with
  | none => exact ha
  | some t => exact ho t rfl

@[simp] theorem State.kept_elim {α : Type} (s : State) (o : Option α) (f : α → State) (h : ∀ a, (f a).kept = s.kept) :
    (o.elim s f).kept = s.kept := by
  cases o with
  | none => rfl
  | some a => exact h a

theorem State.kept_of_core {s t : State} (h : s.core = t.core) : s.kept = t.kept := (congrArg State.kept h :)

theorem State.kept_of_rest {s t : State} (h : s.rest = t.rest) : s.kept = t.kept := (congrArg State.kept h :)

/-! ### The register store -/

@[simp] theorem State.setReg_kept (s : State) (f : Fld) (page part sel idx v : Nat) : (s.setReg f page part sel idx v).kept = s.kept := by
  rfl

@[simp] theorem State.bumpReg_kept (s : State) (f : Fld) (page part sel idx n : Nat) : (s.bumpReg f page part sel idx n).kept = s.kept := by
  rfl

@[simp] theorem State.w_kept (s : State) (f : Fld) (v : Nat) : (s.w f v).kept = s.kept := by rfl
@[simp] theorem State.wi_kept (s : State) (f : Fld) (i v : Nat) : (s.wi f i v).kept = s.kept := by rfl
@[simp] theorem State.wp_kept (s : State) (f : Fld) (p v : Nat) : (s.wp f p v).kept = s.kept := by rfl
@[simp] theorem State.ws_kept (s : State) (f : Fld) (x v : Nat) : (s.ws f x v).kept = s.kept := by rfl
@[simp] theorem State.wps_kept (s : State) (f : Fld) (p x v : Nat) : (s.wps f p x v).kept = s.kept := by rfl
@[simp] theorem State.wu_kept (s : State) (f : Fld) (u v : Nat) : (s.wu f u v).kept = s.kept := by rfl
@[simp] theorem State.bump_kept (s : State) (f : Fld) (n : Nat) : (s.bump f n).kept = s.kept := by rfl
@[simp] theorem State.bumpP_kept (s : State) (f : Fld) (p n : Nat) : (s.bumpP f p n).kept = s.kept := by rfl
@[simp] theorem State.bumpPS_kept (s : State) (f : Fld) (p x n : Nat) : (s.bumpPS f p x n).kept = s.kept := by rfl
@[simp] theorem State.bumpU_kept (s : State) (f : Fld) (u n : Nat) : (s.bumpU f u n).kept = s.kept := by rfl
@[simp] theorem State.bumpUS_kept (s : State) (f : Fld) (u x n : Nat) : (s.bumpUS f u x n).kept = s.kept := by rfl
@[simp] theorem State.maxP_kept (s : State) (f : Fld) (p v : Nat) : (s.maxP f p v).kept = s.kept := by unfold State.maxP; simp
@[simp] theorem State.wcm_kept (s : State) (f : Fld) (page part v : Nat) : (s.wcm f page part v).kept = s.kept := by rfl

/-! ### Events and telemetry -/

@[simp] theorem State.emit_kept (s : State) (m : OutMsg) : (s.emit m).kept = s.kept := by rfl
@[simp] theorem State.reach_kept (s : State) (t : Nat) : (s.reach t).kept = s.kept := by rfl
@[simp] theorem State.setPath_kept (s : State) (p : TPath) : (s.setPath p).kept = s.kept := by rfl
@[simp] theorem State.setPart_kept (s : State) (p : Nat) (f : Partition → Partition) : (s.setPart p f).kept = s.kept := by rfl
@[simp] theorem State.hold_kept (s : State) (i : Nat) (r : TRec) : (s.hold i r).kept = s.kept := by rfl

@[simp] theorem State.latch_kept (s : State) (b page part bitNo : Nat) : (s.latch b page part bitNo).kept = s.kept :=
  State.kept_of_core (State.latch_core ..)

@[simp] theorem State.arrive_kept (s : State) (i : Nat) (r : TRec) : (s.arrive i r).1.kept = s.kept :=
  State.kept_of_core (State.arrive_core ..)

@[simp] theorem State.carry_kept (s : State) (r : TRec) : (s.carry r).kept = s.kept := State.kept_of_core (State.carry_core ..)

@[simp] theorem State.raiseAt_kept (s : State) (b page bitNo part : Nat) (alarm : Bool) :
    (s.raiseAt b page bitNo part alarm).kept = s.kept :=
  State.kept_of_core (State.raiseAt_core ..)

@[simp] theorem State.raise_kept (s : State) (e : EvDef) (part : Nat) : (s.raise e part).kept = s.kept :=
  State.kept_of_core (State.raise_core ..)

@[simp] theorem State.raiseU_kept (s : State) (e : EvDef) (u part : Nat) : (s.raiseU e u part).kept = s.kept :=
  State.kept_of_core (State.raiseU_core ..)

@[simp] theorem State.raiseBoth_kept (s : State) (e : EvDef) (u part : Nat) : (s.raiseBoth e u part).kept = s.kept := by
  unfold State.raiseBoth
  simp

@[simp] theorem State.fault_kept (s : State) (kind action part unit commands lost : Nat) :
    (s.fault kind action part unit commands lost).kept = s.kept :=
  State.kept_of_core (State.fault_core ..)

@[simp] theorem State.lostHandles_kept (s : State) (part cause fault : Nat) (handles : List Nat) :
    (s.lostHandles part cause fault handles).kept = s.kept := by
  unfold State.lostHandles
  simp

@[simp] theorem State.post_kept (s : State) (i : Nat) (r : TRec) (log : Bool) : (s.post i r log).kept = s.kept := by unfold State.post; simp
@[simp] theorem State.postLog_kept (s : State) (i : Nat) (r : TRec) : (s.postLog i r).kept = s.kept := by unfold State.postLog; simp
@[simp] theorem State.postNext_kept (s : State) (i : Nat) : (s.postNext i).kept = s.kept := by fun_cases State.postNext <;> simp

/-! ### Shared operations: units, commands, accounting -/

@[simp] theorem State.choose_kept (s : State) : s.choose.2.kept = s.kept := by rfl
@[simp] theorem State.setStack_kept (s : State) (n : Nat) (f : Stack → Stack) : (s.setStack n f).kept = s.kept := by rfl
@[simp] theorem State.setBridge_kept (s : State) (b : Nat) (f : Bridge → Bridge) : (s.setBridge b f).kept = s.kept := by rfl
@[simp] theorem State.setPins_kept (s : State) (f : Pins → Pins) : (s.setPins f).kept = s.kept := by rfl
@[simp] theorem State.openFlow_kept (s : State) (c move d e : Nat) : (s.openFlow c move d e).kept = s.kept := by unfold State.openFlow; simp
@[simp] theorem State.reroute_kept (s : State) : s.reroute.kept = s.kept := by rfl
@[simp] theorem State.setPort_kept (s : State) (n : Nat) (f : Port → Port) : (s.setPort n f).kept = s.kept := by rfl
@[simp] theorem State.setHalf_kept (s : State) (h : Nat) (f : Half → Half) : (s.setHalf h f).kept = s.kept := by rfl
@[simp] theorem State.setCmd_kept (s : State) (c : Nat) (f : Cmd → Cmd) : (s.setCmd c f).kept = s.kept := by rfl
@[simp] theorem State.setQueue_kept (s : State) (n : Nat) (f : Queue → Queue) : (s.setQueue n f).kept = s.kept := by rfl

@[simp] theorem State.finish_kept (s : State) (c status r0 r1 : Nat) : (s.finish c status r0 r1).kept = s.kept :=
  State.kept_of_rest (State.finish_rest ..)

@[simp] theorem State.fail_kept (s : State) (c status : Nat) : (s.fail c status).kept = s.kept := by unfold State.fail; simp
@[simp] theorem State.output_kept (s : State) (c addr : Nat) (d : Bytes) : (s.output c addr d).kept = s.kept := by rfl
@[simp] theorem State.charge1_kept (s : State) (k : AcctKey) (c : Ctr) (n : Nat) : (s.charge1 k c n).kept = s.kept := by rfl
@[simp] theorem State.act_kept (s : State) (part qg : Nat) (a : Act) (n : Nat) : (s.act part qg a n).kept = s.kept := by rfl

@[simp] theorem State.moved_kept (s : State) (part qg : Nat) (c : Ctr) (n : Nat) : (s.moved part qg c n).kept = s.kept := by
  fun_cases State.moved <;> simp

@[simp] theorem State.charge_kept (s : State) (part qg : Nat) (c : Ctr) (n : Nat) : (s.charge part qg c n).kept = s.kept := by
  unfold State.charge
  simp

@[simp] theorem State.chargeCmd_kept (s : State) (c : Nat) (k : Ctr) (n : Nat) (isNs : Bool) : (s.chargeCmd c k n isNs).kept = s.kept := by
  fun_cases State.chargeCmd <;> simp

/-! ### Command rings (chapter 9) -/

@[simp] theorem State.wq_kept (s : State) (f : Fld) (q v : Nat) : (s.wq f q v).kept = s.kept := by rfl

@[simp] theorem State.queueFor_kept (s : State) (a : Agent) (n : Nat) : (s.queueFor a n).1.kept = s.kept := by
  unfold State.queueFor
  (repeat' split) <;> simp

@[simp] theorem State.queueFails_kept (s : State) (q reason : Nat) : (s.queueFails q reason).kept = s.kept := by
  unfold State.queueFails
  simp

@[simp] theorem State.queueError_kept (s : State) (q reason : Nat) : (s.queueError q reason).kept = s.kept := by
  fun_cases State.queueError <;> simp

@[simp] theorem State.placeRing_kept (s : State) (fe size : Nat) : (s.placeRing fe size).1.kept = s.kept := by unfold State.placeRing; simp

@[simp] theorem State.enableRefused_kept (s : State) (q reason : Nat) : (s.enableRefused q reason).kept = s.kept := by
  unfold State.enableRefused
  simp

@[simp] theorem State.enableQueue_kept (s : State) (q : Nat) : (s.enableQueue q).kept = s.kept := by
  unfold State.enableQueue
  split
  · rfl
  extract_lets p offered used sqIn cqIn sqBytes cqBytes need fe a s1 b
  clear_value offered
  have ha : a.1.kept = s.kept := by simp [a]
  have hb : b.1.kept = s.kept := by simp [b, s1, ha]
  split
  · rfl
  split
  · simp
  split
  · simp
  split
  · simp
  split
  · simp
  split
  · extract_lets s2 s3 s4
    have h3 : s3.kept = s.kept := by simp [s3, s2, hb]
    simp [s4, h3]
  · simp [hb]

@[simp] theorem execQueueEnable_kept (a : Agent) (q : Nat) (s : State) : (s.after (execQueueEnable a q s)).kept = s.kept := by
  unfold execQueueEnable
  (repeat' split) <;> simp <;> exact State.kept_of_fst ‹_› (State.queueFor_kept ..)

@[simp] theorem execQueueDisable_kept (q : Nat) (s : State) : (s.after (execQueueDisable q s)).kept = s.kept := by
  fun_cases execQueueDisable <;> simp

@[simp] theorem State.queueOff_kept (s : State) (q : Nat) : (s.queueOff q).kept = s.kept := by rfl

@[simp] theorem execQueueDrained_kept (q : Nat) (s : State) : (s.after (execQueueDrained q s)).kept = s.kept := by
  fun_cases execQueueDrained <;> simp

@[simp] theorem State.setSeq_kept (s : State) (p id : Nat) (f : Seq → Seq) : (s.setSeq p id f).kept = s.kept := by rfl
@[simp] theorem State.markLost_kept (s : State) (x : Seq) : (s.markLost x).kept = s.kept := by rfl

@[simp] theorem State.releaseLease_kept (s : State) (p id : Nat) : (s.releaseLease p id).kept = s.kept := by
  unfold State.releaseLease
  split <;> simp

@[simp] theorem State.dropJobs_kept (s : State) (dead : SealJob → Bool) : (s.dropJobs dead).kept = s.kept := by rfl
@[simp] theorem State.dropImport_kept (s : State) (c : Nat) : (s.dropImport c).kept = s.kept := by rfl
@[simp] theorem State.dropWork_kept (s : State) (c : Nat) : (s.dropWork c).kept = s.kept := by rfl
@[simp] theorem State.discard_kept (s : State) (c : Nat) : (s.discard c).kept = s.kept := by rfl
@[simp] theorem State.settle_kept (s : State) : s.settle.kept = s.kept := by unfold State.settle; simp
@[simp] theorem State.resetQueue_kept (s : State) (q : Nat) : (s.resetQueue q).kept = s.kept := by unfold State.resetQueue; split <;> simp
@[simp] theorem execQueueReset_kept (q : Nat) (s : State) : (s.after (execQueueReset q s)).kept = s.kept := by unfold execQueueReset; simp

@[simp] theorem execQueueResetDone_kept (q : Nat) (s : State) : (s.after (execQueueResetDone q s)).kept = s.kept := by
  fun_cases execQueueResetDone <;> simp

@[simp] theorem State.setMsix_kept (s : State) (v : MsixVec) : (s.setMsix v).kept = s.kept := by rfl
@[simp] theorem State.sendMsix_kept (s : State) (port fn v : Nat) : (s.sendMsix port fn v).kept = s.kept := by unfold State.sendMsix; simp

@[simp] theorem State.maskMsix_kept (s : State) (e : MsixVec) (on : Bool) : (s.maskMsix e on).kept = s.kept := by
  unfold State.maskMsix
  simp

@[simp] theorem State.sendIrq_kept (s : State) (x : Queue) : (s.sendIrq x).kept = s.kept := by unfold State.sendIrq; simp
@[simp] theorem State.sqBell_kept (s : State) (q tail : Nat) : (s.sqBell q tail).kept = s.kept := by fun_cases State.sqBell <;> simp

@[simp] theorem State.cqBell_kept (s : State) (q head : Nat) (arm : Bool) : (s.cqBell q head arm).kept = s.kept := by
  unfold State.cqBell
  split <;> simp

@[simp] theorem execSqDoorbell_kept (q : Doorbell) (tail : Nat) (s : State) : (s.after (execSqDoorbell q tail s)).kept = s.kept := by
  fun_cases execSqDoorbell <;> simp

@[simp] theorem execCqDoorbell_kept (q : Doorbell) (head : Nat) (arm : Bool) (s : State) :
    (s.after (execCqDoorbell q head arm s)).kept = s.kept := by
  fun_cases execCqDoorbell <;> simp

@[simp] theorem State.police_kept (s : State) (c : Nat) : (s.police c).kept = s.kept := by
  unfold State.police
  dsimp only
  (repeat' split) <;> simp

@[simp] theorem State.acceptEntry_kept (s : State) (x : Queue) (raw : Nat) : (s.acceptEntry x raw).kept = s.kept := by
  unfold State.acceptEntry
  extract_lets q p ver e st isFence c w past lv rings s1 s2 s3 s4 stale
  have h4 : s4.kept = s.kept := by simp [s4, s3, s2, s1]
  split <;> simp [h4]

@[simp] theorem State.poisonIn_kept (s : State) (q : Nat) : (s.poisonIn q).kept = s.kept := by fun_cases State.poisonIn <;> simp
@[simp] theorem State.tookTurn_kept (s : State) (q : Nat) : (s.tookTurn q).kept = s.kept := by unfold State.tookTurn; simp

@[simp] theorem execAcceptResume_kept (q : Nat) (s : State) : (s.after (execAcceptResume q s)).kept = s.kept := by
  fun_cases execAcceptResume <;> simp

@[simp] theorem execCommandStart_kept (c : Nat) (s : State) : (s.after (execCommandStart c s)).kept = s.kept := by
  fun_cases execCommandStart <;> simp

@[simp] theorem execFence_kept (c : Nat) (s : State) : (s.after (execFence c s)).kept = s.kept := by fun_cases execFence <;> simp
@[simp] theorem State.retire_kept (s : State) (c : Cmd) : (s.retire c).kept = s.kept := by unfold State.retire; simp

@[simp] theorem State.writeCqe_kept (s : State) (x : Queue) (c : Cmd) : (s.writeCqe x c).kept = s.kept := by
  unfold State.writeCqe
  split <;> simp

@[simp] theorem State.irqAfter_kept (s : State) (q : Nat) (notify : Bool) : (s.irqAfter q notify).kept = s.kept := by
  fun_cases State.irqAfter <;> simp

@[simp] theorem execIrqAggTimeout_kept (q : Nat) (s : State) : (s.after (execIrqAggTimeout q s)).kept = s.kept := by
  fun_cases execIrqAggTimeout <;> simp

/-! ### Leaves, pages, copies and Malroth sending -/

@[simp] theorem State.setLeaf_kept (s : State) (h : Nat) (f : Leaf → Leaf) : (s.setLeaf h f).kept = s.kept := by rfl
@[simp] theorem State.setPage_kept (s : State) (p serial : Nat) (f : Page → Page) : (s.setPage p serial f).kept = s.kept := by rfl
@[simp] theorem State.setCopy_kept (s : State) (p serial t d : Nat) (f : Copy → Copy) : (s.setCopy p serial t d f).kept = s.kept := by rfl
@[simp] theorem State.malPort_kept (s : State) : s.malPort.1.kept = s.kept := by unfold State.malPort; simp

@[simp] theorem State.malOpen_kept (s : State) (dst : Nat) : (s.malOpen dst).kept = s.kept := by
  unfold State.malOpen
  (repeat' split) <;> try simp
  all_goals exact State.kept_of_fst ‹_› (State.malPort_kept ..)

@[simp] theorem State.malPost_kept (s : State) (dst ctx why : Nat) (again : Bool) (mk : Nat → Nat → MalMsg) :
    (s.malPost dst ctx why again mk).kept = s.kept := by
  unfold State.malPost
  split <;> simp

@[simp] theorem State.malSend_kept (s : State) (typ dst : Nat) (body : Bytes) (ctx why : Nat) (last : Bool) :
    (s.malSend typ dst body ctx why last).kept = s.kept := by
  unfold State.malSend
  simp

@[simp] theorem State.malAgain_kept (s : State) (typ dst : Nat) (body : Bytes) (ctx e : Nat) :
    (s.malAgain typ dst body ctx e).kept = s.kept := by
  unfold State.malAgain
  simp

@[simp] theorem State.malForward_kept (s : State) (m : MalMsg) (dst : Nat) (body : Bytes) : (s.malForward m dst body).kept = s.kept := by
  unfold State.malForward
  simp

@[simp] theorem State.addCopy_kept (s : State) (c : Copy) : (s.addCopy c).kept = s.kept := by rfl

@[simp] theorem State.snoopLines_kept (s : State) (e : Lease) (p : SfLine → Bool) : (s.snoopLines e p).kept = s.kept := by
  unfold State.snoopLines
  simp

@[simp] theorem State.snoopPage_kept (s : State) (p serial : Nat) : (s.snoopPage p serial).kept = s.kept := by unfold State.snoopPage; simp

@[simp] theorem State.dropCopy_kept (s : State) (p serial t d : Nat) : (s.dropCopy p serial t d).kept = s.kept := by
  unfold State.dropCopy
  simp

@[simp] theorem State.failNamed_kept (s : State) (c st part : Nat) : (s.failNamed c st part).kept = s.kept := by
  unfold State.failNamed
  simp

@[simp] theorem State.refuseD_kept (s : State) (p : Nat) : (s.refuseD p).kept = s.kept := by unfold State.refuseD; simp
@[simp] theorem State.noteBehind_kept (s old : State) : (s.noteBehind old).kept = s.kept := by unfold State.noteBehind; simp

@[simp] theorem State.unpublish_kept (s : State) (l : Leaf) : (s.unpublish l).kept = s.kept := by
  unfold State.unpublish
  dsimp only
  (repeat' split) <;> simp

@[simp] theorem State.vacateLeaf_kept (s : State) (l : Leaf) : (s.vacateLeaf l).kept = s.kept := by unfold State.vacateLeaf; simp
@[simp] theorem State.freeLeaf_kept (s : State) (l : Leaf) : (s.freeLeaf l).kept = s.kept := by unfold State.freeLeaf; simp
@[simp] theorem State.reclaim_kept (s : State) : s.reclaim.kept = s.kept := by unfold State.reclaim; simp
@[simp] theorem State.sweep_kept (s : State) : s.sweep.kept = s.kept := by unfold State.sweep; simp

@[simp] theorem State.allocRun_kept (s : State) (p layers : Nat) : (s.allocRun p layers).1.kept = s.kept := by
  unfold State.allocRun
  dsimp only
  split <;> simp

/-! ### Sequences -/

@[simp] theorem State.reclaimBuf_kept (s : State) (d : Nat) : (s.reclaimBuf d).kept = s.kept := by
  unfold State.reclaimBuf
  dsimp only
  (repeat' split) <;> simp

@[simp] theorem State.putGrans_kept (s : State) (gs : List Granule) : (s.putGrans gs).kept = s.kept := by unfold State.putGrans; simp

@[simp] theorem State.sendReplicas_kept (s : State) (p q peer ctx : Nat) (gs : List (Nat × Nat × Nat)) :
    (s.sendReplicas p q peer ctx gs).kept = s.kept := by
  unfold State.sendReplicas
  simp

@[simp] theorem State.homeDie_kept (s : State) (p die : Nat) : (s.homeDie p die).1.kept = s.kept := by unfold State.homeDie; simp
@[simp] theorem State.dropGrans_kept (s : State) (p q : Nat) (gone : Granule → Bool) : (s.dropGrans p q gone).kept = s.kept := by rfl
@[simp] theorem State.endSeals_kept (s : State) (p id t : Nat) : (s.endSeals p id t).kept = s.kept := by rfl
@[simp] theorem State.settleSeals_kept (s : State) : s.settleSeals.kept = s.kept := by unfold State.settleSeals; simp
@[simp] theorem State.cutSeq_kept (s : State) (p id t : Nat) : (s.cutSeq p id t).kept = s.kept := by unfold State.cutSeq; split <;> simp
@[simp] theorem State.renewLeases_kept (s : State) (c : Cmd) : (s.renewLeases c).kept = s.kept := by unfold State.renewLeases; simp
@[simp] theorem State.markReady_kept (s : State) (p id g : Nat) : (s.markReady p id g).kept = s.kept := by rfl

@[simp] theorem State.applyAppends_kept (s0 : State) (c : Cmd) : (s0.applyAppends c).kept = s0.kept := by
  unfold State.applyAppends
  dsimp only
  split
  · simp
  · refine (State.kept_foldl _ _ _ fun a u => ?_).trans (by simp)
    split <;> simp

@[simp] theorem State.unposted_kept (s : State) (c : Cmd) : (s.unposted c).kept = s.kept := by unfold State.unposted; simp
@[simp] theorem State.frontEndLost_kept (s : State) (b : Nat) : (s.frontEndLost b).kept = s.kept := by unfold State.frontEndLost; simp

/-! ### Flash units and where they are programmed -/

@[simp] theorem State.setNdie_kept (s : State) (c t : Nat) (f : NDie → NDie) : (s.setNdie c t f).kept = s.kept := by rfl
@[simp] theorem State.setSset_kept (s : State) (b k : Nat) (f : StripeSet → StripeSet) : (s.setSset b k f).kept = s.kept := by rfl
@[simp] theorem State.setNblock_kept (s : State) (c t n : Nat) (f : NBlock → NBlock) : (s.setNblock c t n f).kept = s.kept := by rfl

theorem State.openSb_kept {s : State} {b k : Nat} {pslc : Bool} {s' : State} (h : s.openSb b k pslc = some s') : s'.kept = s.kept := by
  unfold State.openSb at h
  dsimp only at h
  split at h
  · cases h
  · simp only [Option.ite_none_left_eq_some, Option.some.injEq] at h
    obtain ⟨-, -, rfl⟩ := h
    simp

@[simp] theorem State.setSb_kept (s : State) (b k n : Nat) (f : SuperBlk → SuperBlk) : (s.setSb b k n f).kept = s.kept := by rfl

@[simp] theorem State.parityDue_kept (s : State) : s.parityDue.kept = s.kept := by
  refine State.kept_foldl _ _ _ fun a x => ?_
  dsimp only
  split <;> simp

@[simp] theorem State.tookNand_kept (s : State) (b : Nat) (f : ChanShare → ChanShare) : (s.tookNand b f).kept = s.kept := by rfl
@[simp] theorem State.bgTook_kept (s : State) (b rd wr : Nat) (re : Bool) : (s.bgTook b rd wr re).kept = s.kept := by rfl

theorem State.openFor_kept {s : State} {b k : Nat} {pslc : Bool} {s' : State × SuperBlk} (h : s.openFor b k pslc = some s') :
    s'.1.kept = s.kept := by
  unfold State.openFor at h
  dsimp only at h
  split at h
  · cases h; rfl
  · obtain ⟨t, ht, hs⟩ := Option.bind_eq_some_iff.mp h
    obtain ⟨x, -, rfl⟩ := Option.map_eq_some_iff.mp hs
    exact State.openSb_kept ht

@[simp] theorem State.setUnit_kept (s : State) (lua : Nat) (f : NUnit → NUnit) : (s.setUnit lua f).kept = s.kept := by rfl

theorem State.takeSlot_kept {s : State} {b k : Nat} {pslc big : Bool} {s' : State × Nat × Nat × Nat} (h : s.takeSlot b k pslc big = some s') :
    s'.1.kept = s.kept := by
  unfold State.takeSlot at h
  dsimp only at h
  split at h
  · cases h; simp
  · obtain ⟨r, hr, rfl⟩ := Option.map_eq_some_iff.mp h
    simp [State.openFor_kept hr]

theorem State.placeIn_kept {s : State} {b k : Nat} {pslc : Bool} {u : NUnit} {s' : State} (h : s.placeIn b k pslc u = some s') :
    s'.kept = s.kept := by
  obtain ⟨r, hr, rfl⟩ := Option.map_eq_some_iff.mp h
  simp [State.takeSlot_kept hr]

theorem State.placeUnit_kept {s : State} {u : NUnit} {s' : State} (h : s.placeUnit u = some s') : s'.kept = s.kept := by
  simp only [State.placeUnit, Option.ite_none_left_eq_some] at h
  simpa using State.placeIn_kept h.2

@[simp] theorem State.placeWaiting_kept (s : State) : s.placeWaiting.kept = s.kept :=
  State.kept_foldl _ _ _ fun _ _ => State.kept_getD (fun _ h => State.placeUnit_kept h) rfl

@[simp] theorem State.t3Write_kept (s : State) (part serial what bytes : Nat) : (s.t3Write part serial what bytes).kept = s.kept := by
  unfold State.t3Write
  simp

@[simp] theorem State.t3Drop_kept (s : State) (part serial what : Nat) : (s.t3Drop part serial what).kept = s.kept := by rfl
@[simp] theorem State.wbTake_kept (s : State) (b : Nat) : (s.wbTake b).1.kept = s.kept := by unfold State.wbTake; simp

/-! ### Policy hooks -/

@[simp] theorem State.hookCount_kept (s : State) (owner h : Nat) : (s.hookCount owner h).kept = s.kept := by
  fun_cases State.hookCount <;> simp

@[simp] theorem State.hookRaise_kept (s : State) (h owner die : Nat) (args : List Nat) (excl ctx : Nat) :
    (s.hookRaise h owner die args excl ctx).1.kept = s.kept := by
  unfold State.hookRaise
  simp

/-! ### The tier manager's operations -/

@[simp] theorem State.addScore_kept (s : State) (p serial a seq : Nat) : (s.addScore p serial a seq).kept = s.kept := by rfl

@[simp] theorem State.askMove_kept (s : State) (p serial t d : Nat) (replace backing : Bool) (why cmd useT qg : Nat) (src : Option (Nat × Nat)) :
    (s.askMove p serial t d replace backing why cmd useT qg src).1.kept = s.kept := by
  unfold State.askMove
  dsimp only
  (repeat' split) <;> simp

@[simp] theorem State.awaitRoom_kept (s : State) (p serial t d bytes until_ why cmd f : Nat) :
    (s.awaitRoom p serial t d bytes until_ why cmd f).kept = s.kept := by
  unfold State.awaitRoom
  simp

@[simp] theorem State.takePrefetch_kept (s : State) (p serial : Nat) : (s.takePrefetch p serial).1.kept = s.kept := by rfl

@[simp] theorem State.demandFetch_kept (s : State) (p serial f cmd why : Nat) : (s.demandFetch p serial f cmd why).kept = s.kept := by
  unfold State.demandFetch
  dsimp only
  (repeat' split) <;> try simp
  all_goals exact State.kept_of_fst ‹_› (by simp)

@[simp] theorem State.demandAll_kept (s : State) (p serial f cmd why : Nat) : (s.demandAll p serial f cmd why).kept = s.kept := by
  unfold State.demandAll
  simp

@[simp] theorem State.setPool_kept (s : State) (p t d : Nat) (st : PoolSt) : (s.setPool p t d st).kept = s.kept := by rfl
@[simp] theorem State.dropRetained_kept (s : State) (l : Leaf) : (s.dropRetained l).kept = s.kept := by unfold State.dropRetained; simp

theorem State.takeVictim_kept {s : State} {c : Copy} {s' : State} (h : s.takeVictim c = some s') : s'.kept = s.kept := by
  unfold State.takeVictim at h
  extract_lets p count moveTo retained at h
  have hm : ∀ {t d s1}, moveTo t d = some s1 → s1.kept = s.kept := by
    intro t d s1 h1
    simp only [moveTo] at h1
    split at h1
    · cases h1
      simp only [count, State.bumpP_kept]
      exact State.kept_of_fst ‹_› (State.askMove_kept ..)
    · cases h1
  have hr : ∀ {s1}, retained = some s1 → s1.kept = s.kept := by
    intro s1 h1
    simp only [retained] at h1
    split at h1
    · obtain ⟨-, ⟨⟩⟩ := Option.ite_none_right_eq_some.mp h1
      simp [count]
    · cases h1
  have h3 : ∀ {s1}, (match moveTo 3 15 with | some r => some r | none => retained) = some s1 → s1.kept = s.kept := by
    intro s1 h1
    split at h1
    · cases h1
      exact hm ‹_›
    · exact hr h1
  split at h
  · cases h
  extract_lets t2 at h
  have ht : ∀ {s1}, t2 = some s1 → s1.kept = s.kept := by
    intro s1 h1
    simp only [t2] at h1
    exact hm (Option.ite_none_right_eq_some.mp h1).2
  clear_value t2
  split at h
  · cases h
    simp [count]
  split at h
  · split at h
    · cases h
      exact ht rfl
    · exact h3 h
  split at h
  · exact h3 h
  · exact hr h

theorem State.firstVictim_kept {s : State} {cs : List Copy} {s' : State} (h : s.firstVictim cs = some s') : s'.kept = s.kept := by
  obtain ⟨c, -, hc⟩ := List.exists_of_findSome?_eq_some h
  exact State.takeVictim_kept hc

@[simp] theorem State.admitAsked_kept (s : State) (m : Move) : (s.admitAsked m).1.kept = s.kept := by
  unfold State.admitAsked
  dsimp only
  split <;> simp

@[simp] theorem State.takeBehind_kept (s : State) : s.takeBehind.kept = s.kept := by unfold State.takeBehind; simp

@[simp] theorem State.softAsk_kept (s : State) (p serial t d : Nat) (replace : Bool) (why useT qg : Nat) (src : Option (Nat × Nat)) :
    (s.softAsk p serial t d replace why useT qg src).1.kept = s.kept := by
  unfold State.softAsk
  dsimp only
  (repeat' split) <;> simp <;> exact State.kept_of_fst ‹_› (State.hookRaise_kept ..)

@[simp] theorem State.softMove_kept (s : State) (p serial t d : Nat) (replace : Bool) (why useT qg : Nat) (src : Option (Nat × Nat)) :
    (s.softMove p serial t d replace why useT qg src).kept = s.kept := by
  unfold State.softMove
  simp

@[simp] theorem State.promote_kept (s : State) (p serial d : Nat) : (s.promote p serial d).kept = s.kept := by
  unfold State.promote
  (repeat' split) <;> simp

theorem State.placePage_kept {s : State} {j : SealJob} {x : Page} {t f : Nat} {cached : Bool} {r : State × Page × List Copy}
    (h : s.placePage j x t cached f = some r) : r.1.kept = s.kept := by
  unfold State.placePage at h
  extract_lets p layer b at h
  split at h
  · cases h
  split at h
  · cases h
  extract_lets x1 s1 d mk main at h
  clear_value main
  split at h
  · cases h
  extract_lets s2 at h
  split at h <;> cases h <;> simp [s2, s1]

@[simp] theorem State.sealBudget_kept (s : State) (j : SealJob) (t : Nat) : (s.sealBudget j t).1.kept = s.kept := by
  unfold State.sealBudget
  simp

@[simp] theorem State.setJob_kept (s : State) (p q leaf : Nat) (f : SealJob → SealJob) : (s.setJob p q leaf f).kept = s.kept := by rfl
@[simp] theorem State.setRatio_kept (s : State) (r : Ratio) : (s.setRatio r).kept = s.kept := by rfl
@[simp] theorem State.sawRatio_kept (s : State) (p layer : Nat) (v : Nat × Nat) : (s.sawRatio p layer v).kept = s.kept := by rfl
@[simp] theorem State.sawSteps_kept (s : State) (p layer n : Nat) : (s.sawSteps p layer n).kept = s.kept := by rfl

@[simp] theorem State.chargeSeal_kept (s : State) (j : SealJob) (k : Ctr) (n : Nat) (isNs : Bool) :
    (s.chargeSeal j k n isNs).kept = s.kept := by
  unfold State.chargeSeal
  simp

@[simp] theorem State.setCodec_kept (s : State) (k : Codec) : (s.setCodec k).kept = s.kept := by rfl
@[simp] theorem State.queueBlock_kept (s : State) (b : Nat) (j : CodecJob) : (s.queueBlock b j).kept = s.kept := by rfl

@[simp] theorem State.crcSeen_kept (s : State) (p : Nat) (bridge : Option Nat) : (s.crcSeen p bridge).kept = s.kept := by
  unfold State.crcSeen
  split <;> simp

@[simp] theorem State.sealRuns_kept (s : State) (ge : Geom) (x : Seq) (j : SealJob) : (s.sealRuns ge x j).kept = s.kept := by rfl

@[simp] theorem State.codeSeal_kept (s : State) (j : SealJob) (t : Nat) (cs : List Copy) : (s.codeSeal j t cs).kept = s.kept := by
  fun_cases State.codeSeal <;> simp

@[simp] theorem State.placed_kept (s : State) (j : SealJob) (t : Nat) (ps : List Page) (cs : List Copy) :
    (s.placed j t ps cs).kept = s.kept := by
  unfold State.placed
  simp

@[simp] theorem State.tryPlace_kept (s : State) (j : SealJob) : (s.tryPlace j).kept = s.kept := by
  unfold State.tryPlace
  dsimp only
  simp only [State.kept_ite, State.setJob_kept, ite_self]
  refine State.kept_fst_foldl _ _ _ fun a t => ?_
  split
  · rfl
  · split
    · split <;> simp [State.kept_of_fst ‹_› (State.sealBudget_kept ..)]
    · rfl

@[simp] theorem State.tryWait_kept (s : State) (w : AdmitWait) : (s.tryWait w).kept = s.kept := by
  unfold State.tryWait
  dsimp only
  split
  · simp
  · split
    · rfl
    · split
      · rfl
      · rfl
      · exact State.kept_of_fst ‹_› (by simp)

@[simp] theorem State.evacuate_kept (s : State) (e : Extent) : (s.evacuate e).kept = s.kept := by
  refine (State.kept_foldl _ _ _ fun a c => ?_).trans (by simp)
  split
  · rfl
  · split <;> simp [State.kept_of_fst ‹_› (State.askMove_kept ..)]

@[simp] theorem State.pump_kept (s : State) : s.pump.kept = s.kept := by unfold State.pump; simp

/-! ### The directory's operations (R139–R197) -/

@[simp] theorem State.applyPublish_kept (s : State) (ns order : Nat) (chain geom : Bytes) (serial handle ver : Nat) :
    (s.applyPublish ns order chain geom serial handle ver).kept = s.kept := by
  rfl

@[simp] theorem State.removeHolder_kept (s : State) (gone : Bytes → Holder → Bool) : (s.removeHolder gone).kept = s.kept := by rfl

@[simp] theorem State.publishLeaf_kept (s : State) (h : Nat) : (s.publishLeaf h).kept = s.kept := by
  unfold State.publishLeaf
  dsimp only
  (repeat' split) <;> simp

@[simp] theorem State.setSlot_kept (s : State) (p n : Nat) (f : GrpSlot → GrpSlot) : (s.setSlot p n f).kept = s.kept := by rfl
@[simp] theorem State.groupsUpdate_kept (s : State) : s.groupsUpdate.kept = s.kept := by unfold State.groupsUpdate; simp
@[simp] theorem State.sendWithdraw_kept (s : State) (g : GrpSlot) : (s.sendWithdraw g).kept = s.kept := by unfold State.sendWithdraw; simp
@[simp] theorem State.sendDecls_kept (s : State) (to_ : Nat → Bool) : (s.sendDecls to_).kept = s.kept := by unfold State.sendDecls; simp

@[simp] theorem State.declAcked_kept (s : State) (dev : Nat) (which : GrpSlot → Bool) (ok : Bool) :
    (s.declAcked dev which ok).kept = s.kept := by
  rfl

@[simp] theorem State.endDecl_kept (s : State) (p n : Nat) (st : GrpSt) : (s.endDecl p n st).kept = s.kept := by
  unfold State.endDecl
  split <;> simp

@[simp] theorem State.refuseDecl_kept (s : State) (p n reason : Nat) : (s.refuseDecl p n reason).kept = s.kept := by
  unfold State.refuseDecl
  simp

@[simp] theorem execGroupDeclareCommit_kept (part slot : Nat) (list : Option Bytes) (s : State) :
    (s.after (execGroupDeclareCommit part slot list s)).kept = s.kept := by
  unfold execGroupDeclareCommit
  dsimp only
  (repeat' split) <;> simp

@[simp] theorem execGroupWithdraw_kept (part slot : Nat) (s : State) : (s.after (execGroupWithdraw part slot s)).kept = s.kept := by
  unfold execGroupWithdraw
  simp

@[simp] theorem State.breakCapo_kept (s : State) (num : Nat) : (s.breakCapo num).kept = s.kept := by fun_cases State.breakCapo <;> simp
@[simp] theorem State.freeCapo_kept (s : State) : s.freeCapo.2.kept = s.kept := by rfl

@[simp] theorem State.promoteTo_kept (s : State) (p serial t d why cmd f : Nat) : (s.promoteTo p serial t d why cmd f).1.kept = s.kept := by
  fun_cases State.promoteTo <;> simp

@[simp] theorem State.restoreCapos_kept (s : State) : s.restoreCapos.kept = s.kept := by
  refine State.kept_foldl _ _ _ fun a k => State.kept_foldl _ _ _ fun t n => ?_
  (repeat' split) <;> try simp
  all_goals exact State.kept_of_fst ‹_› (State.promoteTo_kept ..)

/-! ### Sequence commands (chapter 3) -/

theorem State.cancelled_kept {s : State} {c : Cmd} {s' : State} (h : s.cancelled c = some s') : s'.kept = s.kept := by
  unfold State.cancelled at h
  obtain ⟨-, ⟨⟩⟩ := Option.ite_none_right_eq_some.mp h
  simp

@[simp] theorem execSeqOpen_kept (c : Nat) (s : State) : (s.after (execSeqOpen c s)).kept = s.kept := by
  unfold execSeqOpen
  dsimp only
  (repeat' split) <;> simp
  · exact State.cancelled_kept ‹_›
  all_goals exact State.kept_of_fst ‹_› (State.homeDie_kept ..)

@[simp] theorem execSeqOpenAttach_kept (c : Nat) (s : State) : (s.after (execSeqOpenAttach c s)).kept = s.kept := by
  unfold execSeqOpenAttach
  (repeat' split) <;> simp
  exact State.cancelled_kept ‹_›

@[simp] theorem execSeqClose_kept (c : Nat) (s : State) : (s.after (execSeqClose c s)).kept = s.kept := by
  unfold execSeqClose
  (repeat' split) <;> simp
  exact State.cancelled_kept ‹_›

@[simp] theorem State.destroySeq_kept (s : State) (p id : Nat) : (s.destroySeq p id).kept = s.kept := by unfold State.destroySeq; simp

@[simp] theorem execSeqCloseDone_kept (part seq : Nat) (s : State) : (s.after (execSeqCloseDone part seq s)).kept = s.kept := by
  fun_cases execSeqCloseDone <;> simp

@[simp] theorem State.askFork_kept (s : State) (c : Nat) (h : ForkHeld) : (s.askFork c h).kept = s.kept := by
  fun_cases State.askFork <;> simp

@[simp] theorem State.installFork_kept (s : State) (c : Nat) (q : Seq) (gs : List Granule) : (s.installFork c q gs).kept = s.kept := by
  unfold State.installFork
  split <;> simp

@[simp] theorem execSeqForkParent_kept (c : Nat) (s : State) : (s.after (execSeqForkParent c s)).kept = s.kept := by
  unfold execSeqForkParent
  dsimp only
  (repeat' split) <;> simp
  · exact State.cancelled_kept ‹_›
  all_goals exact State.kept_of_fst ‹_› (State.homeDie_kept ..)

@[simp] theorem execSeqForkHandles_kept (c : Nat) (s : State) : (s.after (execSeqForkHandles c s)).kept = s.kept := by
  unfold execSeqForkHandles
  dsimp only
  (repeat' split) <;> simp
  · exact State.cancelled_kept ‹_›
  all_goals exact State.kept_of_fst ‹_› (State.homeDie_kept ..)

@[simp] theorem State.keepLease_kept (s : State) (c : Nat) (rs : List AppendReq) : (s.keepLease c rs).kept = s.kept := by
  unfold State.keepLease
  simp

@[simp] theorem State.appendCommit_kept (s : State) (x : Cmd) (ge : Geom) (layers : List Nat) (rs : List AppendReq) :
    (s.appendCommit x ge layers rs).kept = s.kept := by
  unfold State.appendCommit
  dsimp only
  (repeat' split) <;> try simp
  refine (State.kept_foldl _ _ _ fun a r => ?_).trans (by simp)
  split <;> simp

@[simp] theorem execAppend_kept (c : Nat) (s : State) : (s.after (execAppend c s)).kept = s.kept := by
  unfold execAppend
  dsimp only
  (repeat' split) <;> simp
  exact State.cancelled_kept ‹_›

@[simp] theorem execTruncate_kept (c : Nat) (s : State) : (s.after (execTruncate c s)).kept = s.kept := by
  unfold execTruncate
  dsimp only
  (repeat' split) <;> simp
  exact State.cancelled_kept ‹_›

@[simp] theorem execAppendLeaseExpire_kept (part seq : Nat) (s : State) : (s.after (execAppendLeaseExpire part seq s)).kept = s.kept := by
  fun_cases execAppendLeaseExpire <;> simp

/-! ### Sealing -/

@[simp] theorem State.startSeal_kept (s : State) (x : Seq) (i cmd qg : Nat) : (s.startSeal x i cmd qg).kept = s.kept := by rfl

@[simp] theorem execSeal_kept (c : Nat) (s : State) : (s.after (execSeal c s)).kept = s.kept := by
  unfold execSeal
  (repeat' split) <;> simp
  exact State.cancelled_kept ‹_›

@[simp] theorem execAutoSealStart_kept (part seq : Nat) (s : State) : (s.after (execAutoSealStart part seq s)).kept = s.kept := by
  fun_cases execAutoSealStart <;> simp

@[simp] theorem execAutoSealRetry_kept (part seq : Nat) (s : State) : (s.after (execAutoSealRetry part seq s)).kept = s.kept := by
  unfold execAutoSealRetry
  dsimp only
  (repeat' split) <;> simp

@[simp] theorem State.failSeal_kept (s : State) (j : SealJob) (status : Nat) : (s.failSeal j status).kept = s.kept := by
  unfold State.failSeal
  simp

@[simp] theorem State.countBlocks_kept (s : State) (p : Nat) (pages : List Page) (nocode : Nat) :
    (s.countBlocks p pages nocode).kept = s.kept := by
  unfold State.countBlocks
  simp

@[simp] theorem State.hookPlace_kept (s : State) (j : SealJob) (home : Nat) : (s.hookPlace j home).kept = s.kept := by
  unfold State.hookPlace
  dsimp only
  (repeat' split) <;> simp <;> exact State.kept_of_fst ‹_› (State.hookRaise_kept ..)

@[simp] theorem execSealCodeDone_kept (part seq leaf : Nat) (s : State) : (s.after (execSealCodeDone part seq leaf s)).kept = s.kept := by
  unfold execSealCodeDone
  dsimp only
  (repeat' split) <;> simp

@[simp] theorem execSealProgramsDone_kept (part seq leaf : Nat) (s : State) :
    (s.after (execSealProgramsDone part seq leaf s)).kept = s.kept := by
  fun_cases execSealProgramsDone <;> simp

@[simp] theorem State.sendLeafReplica_kept (s : State) (h : Nat) : (s.sendLeafReplica h).kept = s.kept := by
  fun_cases State.sendLeafReplica <;> simp

@[simp] theorem State.lastStep_kept (s : State) (its : SealJob → Bool) : (s.lastStep its).kept = s.kept := by unfold State.lastStep; simp
@[simp] theorem State.afterPublish_kept (s : State) (j : SealJob) : (s.afterPublish j).kept = s.kept := by unfold State.afterPublish; simp

@[simp] theorem State.publishOver_kept (s : State) (p serial : Nat) : (s.publishOver p serial).kept = s.kept := by
  unfold State.publishOver
  simp

@[simp] theorem State.replicaOver_kept (s : State) (h : Nat) : (s.replicaOver h).kept = s.kept := by fun_cases State.replicaOver <;> simp
@[simp] theorem State.enterLeaf_kept (s : State) (j : SealJob) (l : Leaf) : (s.enterLeaf j l).kept = s.kept := by rfl
@[simp] theorem State.chargeCopies_kept (s : State) (j : SealJob) : (s.chargeCopies j).kept = s.kept := by unfold State.chargeCopies; simp
@[simp] theorem State.countSeal_kept (s : State) (p q leaf : Nat) : (s.countSeal p q leaf).kept = s.kept := by rfl

@[simp] theorem State.sealCommit_kept (s : State) (j : SealJob) (x : Seq) : (s.sealCommit j x).kept = s.kept := by
  unfold State.sealCommit
  dsimp only
  (repeat' split) <;> simp

@[simp] theorem execSealCommit_kept (part seq leaf : Nat) (s : State) : (s.after (execSealCommit part seq leaf s)).kept = s.kept := by
  fun_cases execSealCommit <;> simp

@[simp] theorem execSealSpaceTimeout_kept (part seq leaf : Nat) (s : State) :
    (s.after (execSealSpaceTimeout part seq leaf s)).kept = s.kept := by
  fun_cases execSealSpaceTimeout <;> simp

@[simp] theorem execGranuleRelease_kept (part seq leaf : Nat) (s : State) :
    (s.after (execGranuleRelease part seq leaf s)).kept = s.kept := by
  unfold execGranuleRelease
  split <;> simp

/-! ### Loss of leaves -/

@[simp] theorem State.dropLeaves_kept (s : State) (gs : List Leaf) : (s.dropLeaves gs).kept = s.kept := by
  unfold State.dropLeaves
  extract_lets gone s1 s2 vs s3
  have h1 : s1.kept = s.kept := State.kept_foldl _ _ _ fun a x => by split <;> simp
  have h2 : s2.kept = s1.kept := by simp [s2]
  refine (State.sweep_kept _).trans ((State.kept_foldl _ _ _ fun a l => ?_).trans (h2.trans h1))
  cases a.leaf l.handle <;> simp

@[simp] theorem State.reportLost_kept (s : State) (gs : List Leaf) (cause fault : Nat) : (s.reportLost gs cause fault).kept = s.kept := by
  unfold State.reportLost
  simp

@[simp] theorem State.loseLeaves_kept (s : State) (ls : List Leaf) (cause fault : Nat) : (s.loseLeaves ls cause fault).1.kept = s.kept := by
  unfold State.loseLeaves
  simp

@[simp] theorem State.baseUnread_kept (s : State) (p serial : Nat) : (s.baseUnread p serial).kept = s.kept := by
  unfold State.baseUnread
  simp

@[simp] theorem State.badCopy_kept (s : State) (p serial t d : Nat) : (s.badCopy p serial t d).kept = s.kept := by
  unfold State.badCopy
  simp

@[simp] theorem State.losePages_kept (s : State) (ps : List (Nat × Nat)) (cause fault : Nat) :
    (s.losePages ps cause fault).1.kept = s.kept := by
  unfold State.losePages
  simp

@[simp] theorem State.killCopies_kept (s : State) (dead : Copy → Bool) : (s.killCopies dead).kept = s.kept := by rfl

@[simp] theorem State.loseCopies_kept (s : State) (dead : Copy → Bool) (cause fault : Nat) :
    (s.loseCopies dead cause fault).1.kept = s.kept := by
  unfold State.loseCopies
  simp

/-! ### Boot steps and the service level -/

@[simp] theorem State.beginStep_kept (s : State) (n : Nat) : (s.beginStep n).kept = s.kept := by unfold State.beginStep; simp
@[simp] theorem State.endStep_kept (s : State) (n st : Nat) : (s.endStep n st).kept = s.kept := by unfold State.endStep; simp
@[simp] theorem State.settleUnit_kept (s : State) (n unit : Nat) : (s.settleUnit n unit).kept = s.kept := by rfl
@[simp] theorem State.closeStep_kept (s : State) (n : Nat) : (s.closeStep n).kept = s.kept := by unfold State.closeStep; simp
@[simp] theorem State.halt_kept (s : State) (n : Nat) : (s.halt n).kept = s.kept := by unfold State.halt; simp

@[simp] theorem State.setService_kept (s : State) (v : Nat) : (s.setService v).kept = s.kept := by
  unfold State.setService
  dsimp only
  (repeat' split) <;> simp

@[simp] theorem State.journalShards_kept (s : State) : s.journalShards.kept = s.kept := by rfl

/-! ### The domain network's operations -/

@[simp] theorem State.malReply_kept (s : State) (m : MalMsg) (status : Nat) (body : Bytes) : (s.malReply m status body).kept = s.kept := by
  rfl

@[simp] theorem State.setPeer_kept (s : State) (n : Nat) (f : Peer → Peer) : (s.setPeer n f).kept = s.kept := by rfl

@[simp] theorem State.rereplicate_kept (s : State) : s.rereplicate.kept = s.kept := by
  refine (State.kept_foldl _ _ _ fun a x => ?_).trans (by simp)
  (repeat' split) <;> simp

@[simp] theorem State.peerLost_kept (s : State) (n : Nat) : (s.peerLost n).kept = s.kept := by unfold State.peerLost; simp

@[simp] theorem State.relay_kept (s : State) (m : MalMsg) (mine : KeyB → Option Bytes) : (s.relay m mine).kept = s.kept := by
  unfold State.relay
  simp

@[simp] theorem State.relayReply_kept (s : State) (r : Relay) (m : MalMsg) : (s.relayReply r m).kept = s.kept := by
  unfold State.relayReply
  simp

@[simp] theorem State.awaitShard_kept (s : State) (m : MalMsg) : (s.awaitShard m).kept = s.kept := by rfl
@[simp] theorem State.answerQuery_kept (s : State) (m : MalMsg) : (s.answerQuery m).kept = s.kept := by unfold State.answerQuery; simp
@[simp] theorem State.publishElse_kept (s : State) (m : MalMsg) (ks : List KeyB) : (s.publishElse m ks).kept = s.kept := by rfl
@[simp] theorem State.answerPublish_kept (s : State) (m : MalMsg) : (s.answerPublish m).kept = s.kept := by unfold State.answerPublish; simp
@[simp] theorem State.awaitRing_kept (s : State) (m : MalMsg) : (s.awaitRing m).kept = s.kept := by unfold State.awaitRing; simp

@[simp] theorem State.staleHolder_kept (s : State) (gone : Bytes → Holder → Bool) : (s.staleHolder gone).kept = s.kept := by
  unfold State.staleHolder
  simp

@[simp] theorem State.checkHolder_kept (s : State) (k : KeyB) (holder : Nat) (failed : Bool) :
    (s.checkHolder k holder failed).kept = s.kept := by
  unfold State.checkHolder
  simp

@[simp] theorem State.reportStale_kept (s : State) (k : KeyB) (holder : Nat) (failed : Bool) :
    (s.reportStale k holder failed).kept = s.kept := by
  fun_cases State.reportStale <;> simp

@[simp] theorem State.setInc_kept (s : State) (n : Nat) (f : Incident → Incident) : (s.setInc n f).kept = s.kept := by rfl
@[simp] theorem State.sendProbe_kept (s : State) (i : Incident) : (s.sendProbe i).kept = s.kept := by unfold State.sendProbe; simp

@[simp] theorem State.setRing_kept (s : State) (e : Nat) (ring : List Nat) : (s.setRing e ring).kept = s.kept := by
  unfold State.setRing
  simp

@[simp] theorem State.startXfers_kept (s : State) (prev : List Nat) : (s.startXfers prev).kept = s.kept := by unfold State.startXfers; simp
@[simp] theorem State.startWarm_kept (s : State) : s.startWarm.kept = s.kept := by rfl

@[simp] theorem State.takeXfer_kept (a : State) (m : MalMsg) : (a.takeXfer m).kept = a.kept := by
  unfold State.takeXfer
  dsimp only
  split
  · simp
  · (repeat' split) <;> simp

@[simp] theorem State.retryLater_kept (s : State) : s.retryLater.kept = s.kept := by unfold State.retryLater; simp

@[simp] theorem State.sendUnpubs_kept (s : State) : s.sendUnpubs.kept = s.kept := by
  unfold State.sendUnpubs
  split
  · rfl
  · refine (State.kept_foldl _ _ _ fun a b => ?_).trans (by simp)
    dsimp only
    (repeat' split) <;> simp

@[simp] theorem State.applyRing_kept (s : State) (e : Nat) (ring : List Nat) : (s.applyRing e ring).kept = s.kept := by
  unfold State.applyRing
  simp

@[simp] theorem State.passDown_kept (s : State) (typ : Nat) (body : Bytes) (top : Bool) (but : Nat) :
    (s.passDown typ body top but).kept = s.kept := by
  unfold State.passDown
  simp

@[simp] theorem State.issueRing_kept (s : State) (e : Nat) (joins leaves : List Nat) : (s.issueRing e joins leaves).kept = s.kept := by
  unfold State.issueRing
  simp

@[simp] theorem State.showTree_kept (s : State) : s.showTree.kept = s.kept := by rfl
@[simp] theorem State.rejoin_kept (s : State) : s.rejoin.kept = s.kept := by unfold State.rejoin; simp

@[simp] theorem State.declared_kept (s : State) (suspect cls : Nat) : (s.declared suspect cls).kept = s.kept := by
  unfold State.declared
  simp

@[simp] theorem State.confirm_kept (s : State) (n : Nat) : (s.confirm n).kept = s.kept := by unfold State.confirm; split <;> simp
@[simp] theorem State.startStorm_kept (s : State) : s.startStorm.kept = s.kept := by unfold State.startStorm; simp

@[simp] theorem State.takeReport_kept (s : State) (suspect cls unit reporter : Nat) (must : Bool) :
    (s.takeReport suspect cls unit reporter must).1.kept = s.kept := by
  unfold State.takeReport
  dsimp only
  (repeat' split) <;> simp

@[simp] theorem State.fileIncident_kept (s : State) (suspect cls unit : Nat) : (s.fileIncident suspect cls unit).kept = s.kept := by
  unfold State.fileIncident
  split <;> simp

@[simp] theorem State.heardFrom_kept (s : State) (m : MalMsg) : (s.heardFrom m).kept = s.kept := by unfold State.heardFrom; simp

@[simp] theorem State.request_kept (s : State) (m : MalMsg) (since : Nat) (f : State → State) (hf : ∀ t, (f t).kept = t.kept) :
    (s.request m since f).kept = s.kept := by
  unfold State.request
  split
  · rfl
  · split <;> simp [hf]

@[simp] theorem State.served_kept (s : State) (m : MalMsg) (since : Nat) (f : State → State) (hf : ∀ t, (f t).kept = t.kept) :
    (s.served m since f).kept = s.kept :=
  State.request_kept _ _ _ _ fun a => by split <;> simp [hf]

/-! ### The directory's commands and events (R173–R197) -/

@[simp] theorem State.setLookup_kept (s : State) (c : Nat) (f : Lookup → Lookup) : (s.setLookup c f).kept = s.kept := by rfl

@[simp] theorem execLookupPrefix_kept (c : Nat) (s : State) : (s.after (execLookupPrefix c s)).kept = s.kept := by
  unfold execLookupPrefix
  (repeat' split) <;> simp
  exact State.cancelled_kept ‹_›

theorem State.lookupCancelled_kept {s : State} {c : Nat} {s' : State} (h : s.lookupCancelled c = some s') : s'.kept = s.kept := by
  unfold State.lookupCancelled at h
  split at h
  · cases h
  · simpa using State.cancelled_kept h

@[simp] theorem State.lookupDone_kept (s : State) (c : Nat) : (s.lookupDone c).kept = s.kept := by
  unfold State.lookupDone
  split
  · exact State.lookupCancelled_kept ‹_›
  · split <;> simp

@[simp] theorem State.sendFetch_kept (s : State) (c : Nat) (l : Lookup) (a : Ans) : (s.sendFetch c l a).kept = s.kept := by
  unfold State.sendFetch
  simp

@[simp] theorem State.fetchLeaf_kept (s : State) (c leaf : Nat) : (s.fetchLeaf c leaf).kept = s.kept := by
  unfold State.fetchLeaf
  dsimp only
  (repeat' split) <;> simp

@[simp] theorem State.lookupRun_kept (s : State) (c : Nat) : (s.lookupRun c).kept = s.kept := by
  unfold State.lookupRun
  split
  · exact State.lookupCancelled_kept ‹_›
  · split <;> simp

@[simp] theorem State.takeAnswers_kept (s : State) (c : Nat) (as_ : List (Nat × Nat × List Ans × Nat)) :
    (s.takeAnswers c as_).kept = s.kept := by
  unfold State.takeAnswers
  dsimp only
  split <;> simp

@[simp] theorem State.askOwn_kept (s : State) : s.askOwn.kept = s.kept := by unfold State.askOwn; simp
@[simp] theorem State.askShards_kept (s : State) (c : Nat) : (s.askShards c).kept = s.kept := by unfold State.askShards; split <;> simp

@[simp] theorem execLookupHashDone_kept (c : Nat) (s : State) : (s.after (execLookupHashDone c s)).kept = s.kept := by
  unfold execLookupHashDone
  (repeat' split) <;> simp
  exact State.cancelled_kept ‹_›

@[simp] theorem execLookupShardTimeout_kept (c : Nat) (s : State) : (s.after (execLookupShardTimeout c s)).kept = s.kept := by
  unfold execLookupShardTimeout
  dsimp only
  (repeat' split) <;> simp
  exact (State.cancelled_kept ‹_›).trans (by simp)

@[simp] theorem State.failedHolder_kept (s : State) (c leaf holder : Nat) (failed : Bool) :
    (s.failedHolder c leaf holder failed).kept = s.kept := by
  unfold State.failedHolder
  split <;> simp

@[simp] theorem State.beginImport_kept (s : State) (c leaf holder : Nat) (data : Bytes) :
    (s.beginImport c leaf holder data).kept = s.kept := by
  unfold State.beginImport
  dsimp only
  (repeat' split) <;> simp

@[simp] theorem State.installImport_kept (s : State) (c : Nat) (j : SealJob) : (s.installImport c j).kept = s.kept := by
  unfold State.installImport
  dsimp only
  (repeat' split) <;> simp

@[simp] theorem execLookupImportDone_kept (c : Nat) (s : State) : (s.after (execLookupImportDone c s)).kept = s.kept := by
  unfold execLookupImportDone
  dsimp only
  (repeat' split) <;> simp
  exact State.lookupCancelled_kept ‹_›

@[simp] theorem State.settlePin_kept (s : State) (c : Nat) : (s.settlePin c).kept = s.kept := by
  unfold State.settlePin
  split
  · dsimp only
    split
    · simp
    · split
      · simp
      · refine State.kept_foldl _ _ _ fun a n => ?_
        (repeat' split) <;> try simp
        all_goals exact State.kept_of_fst ‹_› (State.promoteTo_kept ..)
  · rfl

@[simp] theorem State.settlePins_kept (s : State) : s.settlePins.kept = s.kept := by unfold State.settlePins; simp

@[simp] theorem execPin_kept (c : Nat) (s : State) : (s.after (execPin c s)).kept = s.kept := by
  unfold execPin
  dsimp only
  (repeat' split) <;> simp
  exact State.cancelled_kept ‹_›

@[simp] theorem execUnpin_kept (c : Nat) (s : State) : (s.after (execUnpin c s)).kept = s.kept := by
  unfold execUnpin
  (repeat' split) <;> simp

@[simp] theorem State.setPub_kept (s : State) (p serial : Nat) (f : PubWait → PubWait) : (s.setPub p serial f).kept = s.kept := by rfl

@[simp] theorem execPublishAckTimeout_kept (part serial : Nat) (s : State) :
    (s.after (execPublishAckTimeout part serial s)).kept = s.kept := by
  unfold execPublishAckTimeout
  split <;> simp

@[simp] theorem execPublishRetry_kept (part serial : Nat) (s : State) : (s.after (execPublishRetry part serial s)).kept = s.kept := by
  unfold execPublishRetry
  split
  · split
    · rfl
    extract_lets s1
    have h1 : s1.kept = s.kept := State.reach_kept ..
    split
    · simp [h1]
    split
    · simp [h1]
    · split <;> simp [h1]
  · rfl

@[simp] theorem execSnapshotCut_kept (s : State) : (s.after (execSnapshotCut s)).kept = s.kept := by rfl

@[simp] theorem execShardRepublishSend_kept (s : State) : (s.after (execShardRepublishSend s)).kept = s.kept := by
  unfold execShardRepublishSend
  split
  · rfl
  extract_lets s1 boot s2
  have h2 : s2.kept = s.kept := by simp [s2, s1]
  split
  · simp [h2]
  split
  · simp [h2]
  · split <;> simp [h2]

/-! ### What Malroth messages and their replies do -/

@[simp] theorem State.hearHello_kept (s : State) (src ver : Nat) (b0 : Bytes) : (s.hearHello src ver b0).kept = s.kept := by
  unfold State.hearHello
  simp

@[simp] theorem State.attach_kept (s : State) (n : Nat) : (s.attach n).kept = s.kept := by unfold State.attach; simp

@[simp] theorem State.attachNamed_kept (s : State) (src : Nat) : (s.attachNamed src).kept = s.kept := by
  fun_cases State.attachNamed <;> simp

@[simp] theorem State.coordBy_kept (s : State) : s.coordBy.kept = s.kept := by fun_cases State.coordBy <;> simp
@[simp] theorem State.handOver_kept (s : State) : s.handOver.kept = s.kept := by fun_cases State.handOver <;> simp

@[simp] theorem State.reportJoin_kept (s : State) (ns : List Nat) : (s.reportJoin ns).kept = s.kept := by
  unfold State.reportJoin
  simp

@[simp] theorem State.sendFetchData_kept (s : State) (m : MalMsg) (data : Bytes) : (s.sendFetchData m data).kept = s.kept := by
  unfold State.sendFetchData
  simp

@[simp] theorem State.dropReplica_kept (s : State) (id : Nat) : (s.dropReplica id).kept = s.kept := by unfold State.dropReplica; simp

@[simp] theorem State.takeReplica_kept (s : State) (m : MalMsg) : (s.takeReplica m).kept = s.kept := by
  unfold State.takeReplica
  dsimp only
  split <;> simp

@[simp] theorem State.ackReplicas_kept (s : State) : s.ackReplicas.kept = s.kept := by
  refine State.kept_foldl _ _ _ fun a r => ?_
  (repeat' split) <;> simp

@[simp] theorem State.dropWait_kept (s : State) (id : Nat) : (s.dropWait id).kept = s.kept := by rfl

@[simp] theorem State.replicaElse_kept (s : State) (w : MalWait) : (s.replicaElse w).kept = s.kept := by
  fun_cases State.replicaElse <;> simp

@[simp] theorem State.replicaDone_kept (s : State) (w : MalWait) (src : Nat) : (s.replicaDone w src).kept = s.kept := by
  unfold State.replicaDone
  simp

@[simp] theorem State.lookupFetched_kept (s : State) (w : MalWait) (status : Nat) (data : Bytes) :
    (s.lookupFetched w status data).kept = s.kept := by
  unfold State.lookupFetched
  dsimp only
  split <;> simp

@[simp] theorem State.published_kept (s : State) (ctx owner : Nat) : (s.published ctx owner).kept = s.kept := by
  unfold State.published
  dsimp only
  split <;> simp

@[simp] theorem State.probeAnswer_kept (s : State) (n : Nat) (good : Bool) : (s.probeAnswer n good).kept = s.kept := by
  unfold State.probeAnswer
  split <;> simp

@[simp] theorem State.checkAnswer_kept (s : State) (w : MalWait) (status : Nat) : (s.checkAnswer w status).kept = s.kept := by
  unfold State.checkAnswer
  simp

@[simp] theorem State.xferDone_kept (s : State) (shard : Nat) : (s.xferDone shard).kept = s.kept := by unfold State.xferDone; simp
@[simp] theorem State.flushTo_kept (s : State) (dst cver : Nat) : (s.flushTo dst cver).kept = s.kept := by unfold State.flushTo; simp
@[simp] theorem State.closePeer_kept (s : State) (n : Nat) : (s.closePeer n).kept = s.kept := by rfl
@[simp] theorem State.askNamed_kept (s : State) (src : Nat) : (s.askNamed src).kept = s.kept := by fun_cases State.askNamed <;> simp

@[simp] theorem State.replied_kept (s : State) (w : MalWait) (m : MalMsg) : (s.replied w m).kept = s.kept := by
  unfold State.replied
  (repeat' split) <;> simp

@[simp] theorem State.unanswered_kept (s : State) (w : MalWait) : (s.unanswered w).kept = s.kept := by
  unfold State.unanswered
  dsimp only
  (repeat' split) <;> simp

/-! ### Malroth messages received -/

@[simp] theorem execHello_kept (m : MalMsg) (s : State) : (s.after (execHello m s)).kept = s.kept := by
  unfold execHello
  (repeat' split) <;> simp

@[simp] theorem execHeartbeat_kept (m : MalMsg) (s : State) : (s.after (execHeartbeat m s)).kept = s.kept := by unfold execHeartbeat; simp
@[simp] theorem execHeartbeatTick_kept (s : State) : (s.after (execHeartbeatTick s)).kept = s.kept := by unfold execHeartbeatTick; simp

@[simp] theorem execHeartbeatMiss_kept (peer : Nat) (s : State) : (s.after (execHeartbeatMiss peer s)).kept = s.kept := by
  unfold execHeartbeatMiss
  split <;> simp

@[simp] theorem execShardQuery_kept (m : MalMsg) (s : State) : (s.after (execShardQuery m s)).kept = s.kept := by
  unfold execShardQuery
  simp

@[simp] theorem execPublish_kept (m : MalMsg) (s : State) : (s.after (execPublish m s)).kept = s.kept := by unfold execPublish; simp
@[simp] theorem execUnpublish_kept (m : MalMsg) (s : State) : (s.after (execUnpublish m s)).kept = s.kept := by unfold execUnpublish; simp

@[simp] theorem execHolderStale_kept (m : MalMsg) (s : State) : (s.after (execHolderStale m s)).kept = s.kept := by
  unfold execHolderStale
  simp

@[simp] theorem execShardXfer_kept (m : MalMsg) (s : State) : (s.after (execShardXfer m s)).kept = s.kept := by unfold execShardXfer; simp
@[simp] theorem execRepublish_kept (m : MalMsg) (s : State) : (s.after (execRepublish m s)).kept = s.kept := by unfold execRepublish; simp
@[simp] theorem execGroupDecl_kept (m : MalMsg) (s : State) : (s.after (execGroupDecl m s)).kept = s.kept := by unfold execGroupDecl; simp

@[simp] theorem execMalrothFetch_kept (m : MalMsg) (s : State) : (s.after (execMalrothFetch m s)).kept = s.kept := by
  unfold execMalrothFetch
  simp

@[simp] theorem execFetchData_kept (m : MalMsg) (s : State) : (s.after (execFetchData m s)).kept = s.kept := by
  unfold execFetchData
  dsimp only
  (repeat' split) <;> simp

@[simp] theorem execReplica_kept (m : MalMsg) (s : State) : (s.after (execReplica m s)).kept = s.kept := by unfold execReplica; simp

@[simp] theorem execIncidentReport_kept (m : MalMsg) (s : State) : (s.after (execIncidentReport m s)).kept = s.kept := by
  unfold execIncidentReport
  simp

@[simp] theorem execProbe_kept (m : MalMsg) (s : State) : (s.after (execProbe m s)).kept = s.kept := by unfold execProbe; simp

@[simp] theorem execProbeSend_kept (inc : Nat) (s : State) : (s.after (execProbeSend inc s)).kept = s.kept := by
  fun_cases execProbeSend <;> simp

@[simp] theorem execProbeTimeout_kept (inc : Nat) (s : State) : (s.after (execProbeTimeout inc s)).kept = s.kept := by
  unfold execProbeTimeout
  split <;> simp

@[simp] theorem execIncidentDecl_kept (m : MalMsg) (s : State) : (s.after (execIncidentDecl m s)).kept = s.kept := by
  unfold execIncidentDecl
  simp

@[simp] theorem State.endStorm_kept (s : State) : s.endStorm.kept = s.kept := by fun_cases State.endStorm <;> simp

@[simp] theorem execIncidentWindowExpire_kept (inc : Nat) (s : State) : (s.after (execIncidentWindowExpire inc s)).kept = s.kept := by
  unfold execIncidentWindowExpire
  split <;> simp

@[simp] theorem execIncidentReprobe_kept (inc : Nat) (s : State) : (s.after (execIncidentReprobe inc s)).kept = s.kept := by
  unfold execIncidentReprobe
  split <;> simp

@[simp] theorem execRingUpdate_kept (m : MalMsg) (s : State) : (s.after (execRingUpdate m s)).kept = s.kept := by
  unfold execRingUpdate
  rw [State.after_next]
  refine State.request_kept _ _ _ _ fun a => ?_
  extract_lets b e js ls a1 ring forms a2
  have h1 : a1.kept = a.kept := State.malReply_kept ..
  have h2 : a2.kept = a.kept := by simp [a2, h1]
  split
  · exact h1
  split
  · (repeat' split) <;> simp [h2]
  · (repeat' split) <;> simp [h1]

@[simp] theorem execRingPull_kept (m : MalMsg) (s : State) : (s.after (execRingPull m s)).kept = s.kept := by unfold execRingPull; simp

@[simp] theorem execMalrothReply_kept (m : MalMsg) (s : State) : (s.after (execMalrothReply m s)).kept = s.kept := by
  unfold execMalrothReply
  split <;> simp

@[simp] theorem execMsgTimeout_kept (msgId : Nat) (s : State) : (s.after (execMsgTimeout msgId s)).kept = s.kept := by
  unfold execMsgTimeout
  dsimp only
  (repeat' split) <;> simp

@[simp] theorem execConnIdleClose_kept (conn : Nat) (s : State) : (s.after (execConnIdleClose conn s)).kept = s.kept := by
  unfold execConnIdleClose
  split <;> simp

@[simp] theorem execConnOpen_kept (part conn : Nat) (ok : Bool) (s : State) : (s.after (execConnOpen part conn ok s)).kept = s.kept := by
  unfold execConnOpen
  simp

@[simp] theorem execConnClose_kept (conn : Nat) (s : State) : (s.after (execConnClose conn s)).kept = s.kept := by
  fun_cases execConnClose <;> simp

@[simp] theorem execMalrothUnknownType_kept (m : MalMsg) (s : State) : (s.after (execMalrothUnknownType m s)).kept = s.kept := by
  unfold execMalrothUnknownType
  simp

@[simp] theorem execReplyRetentionExpire_kept (src msgId : Nat) (s : State) :
    (s.after (execReplyRetentionExpire src msgId s)).kept = s.kept := by
  unfold execReplyRetentionExpire
  dsimp only
  split <;> simp

/-! ### The tier manager's commands and events -/

@[simp] theorem State.poolBlocked_kept (s : State) (p t d : Nat) : (s.poolBlocked p t d).kept = s.kept := by unfold State.poolBlocked; simp
@[simp] theorem State.poolDemotes_kept (s : State) (p t d : Nat) : (s.poolDemotes p t d).kept = s.kept := by unfold State.poolDemotes; simp

@[simp] theorem State.demoteOne_kept (s : State) (p t d : Nat) : (s.demoteOne p t d).kept = s.kept := by
  unfold State.demoteOne
  extract_lets cs go s1 mk
  have hgo : ∀ a v, (go a v).kept = a.kept := by
    intro a v
    simp only [go]
    split
    · next h => simpa using State.firstVictim_kept h
    · simp
  split
  · simp
  split
  · rfl
  split
  · simp [hgo]
  · simp [hgo]
  · split
    · rfl
    split
    · exact State.kept_of_fst ‹_› (by simp [s1])
    · rw [hgo]
      exact State.kept_of_fst ‹_› (by simp [s1])

@[simp] theorem execTierEvaluate_kept (part tier die : Nat) (s : State) : (s.after (execTierEvaluate part tier die s)).kept = s.kept := by
  unfold execTierEvaluate
  simp

/-- The state a page's part in a MIGRATE leaves: the one of a page handled, and the old one otherwise. -/
def State.afterPage (s : State) : MigAns → State
  | .handled t => t
  | _ => s

@[simp] theorem State.afterPage_handled (s t : State) : s.afterPage (.handled t) = t := by rfl

theorem State.migrateOne_kept (s : State) (c p serial t die f qg : Nat) :
    (s.afterPage (s.migrateOne c p serial t die f qg)).kept = s.kept := by
  unfold State.migrateOne
  extract_lets cs back d cls drop cs1 tier src
  have hd : ∀ a, (drop a).kept = a.kept := fun a => by simp [drop]
  clear_value d
  split
  · rfl
  split
  · rfl
  split
  · rfl
  extract_lets there
  split
  · rw [State.afterPage_handled]
    split <;> simp [hd]
  split
  · simp [hd]
  split
  · split
    · exact State.kept_of_fst ‹_› (State.askMove_kept ..)
    · exact State.kept_of_fst ‹_› (State.askMove_kept ..)
    · rfl
    · rfl
  split
  · rfl
  split
  · simp
  split
  · rw [State.afterPage_handled, hd]
    exact State.kept_of_fst ‹_› (State.askMove_kept ..)
  · split
    · rw [State.afterPage_handled, hd]
      exact State.kept_of_fst ‹_› (State.askMove_kept ..)
    · rfl
  · rfl
  · rfl

theorem State.kept_of_handled {s t : State} {c p serial tier die f qg : Nat} (h : s.migrateOne c p serial tier die f qg = .handled t) :
    t.kept = s.kept := by
  simpa [h] using s.migrateOne_kept c p serial tier die f qg

@[simp] theorem State.settleMigrate_kept (s : State) (c : Nat) : (s.settleMigrate c).kept = s.kept := by
  unfold State.settleMigrate
  split
  · split
    · rfl
    split
    · simp
    extract_lets t f s1
    have h1 : s1.kept = s.kept := State.kept_foldl _ _ _ fun a n => by
      dsimp only
      split
      · next h => simpa using State.kept_of_handled h
      · simp
      · simp
      · rfl
    split
    · dsimp only
      split
      · exact h1
      · simp [h1]
    · exact h1
  · rfl

@[simp] theorem execMigrate_kept (c : Nat) (s : State) : (s.after (execMigrate c s)).kept = s.kept := by
  unfold execMigrate
  (repeat' split) <;> simp
  exact State.cancelled_kept ‹_›

@[simp] theorem execEvict_kept (c : Nat) (s : State) : (s.after (execEvict c s)).kept = s.kept := by
  unfold execEvict
  (repeat' split) <;> simp
  exact State.cancelled_kept ‹_›

@[simp] theorem State.chargeFor_kept (s : State) (cmd p qg : Nat) (k : Ctr) (n : Nat) (isNs : Bool) :
    (s.chargeFor cmd p qg k n isNs).kept = s.kept := by
  unfold State.chargeFor
  simp

@[simp] theorem State.publishMove_kept (s : State) (m : Move) : (s.publishMove m).kept = s.kept := by unfold State.publishMove; simp
@[simp] theorem State.moveFailed_kept (s : State) (m : Move) : (s.moveFailed m).kept = s.kept := by unfold State.moveFailed; simp
@[simp] theorem State.settleMoves_kept (s : State) : s.settleMoves.kept = s.kept := by unfold State.settleMoves; simp
@[simp] theorem State.crcError_kept (s : State) (m : Move) : (s.crcError m).kept = s.kept := by unfold State.crcError; simp

@[simp] theorem execMoveComplete_kept (move : Nat) (ok : Bool) (s : State) : (s.after (execMoveComplete move ok s)).kept = s.kept := by
  unfold execMoveComplete
  dsimp only
  (repeat' split) <;> simp

@[simp] theorem execAdmitWaitExpire_kept (wait : Nat) (s : State) : (s.after (execAdmitWaitExpire wait s)).kept = s.kept := by
  unfold execAdmitWaitExpire
  split <;> simp

@[simp] theorem State.setCadence_kept (s : State) (g : Cadence) : (s.setCadence g).kept = s.kept := by rfl
@[simp] theorem State.predict_kept (s : State) (g : Cadence) : (s.predict g).kept = s.kept := by rfl

@[simp] theorem State.stepStart_kept (s : State) (g : Cadence) (q : Nat) : (s.stepStart g q).kept = s.kept := by
  unfold State.stepStart
  simp

@[simp] theorem State.cadenceSee_kept (s : State) (p q layer : Nat) : (s.cadenceSee p q layer).kept = s.kept := by
  fun_cases State.cadenceSee <;> simp

@[simp] theorem State.fetchAhead_kept (s : State) (x : Seq) (layer lo n useT qg : Nat) (t0 : Bool) :
    (s.fetchAhead x layer lo n useT qg t0).kept = s.kept := by
  refine State.kept_foldl _ _ _ fun a k => ?_
  simp only [State.kept_ite]
  (repeat' split) <;> simp

@[simp] theorem State.seqPrefetch_kept (s : State) (p q layer lo n qg : Nat) : (s.seqPrefetch p q layer lo n qg).kept = s.kept := by
  fun_cases State.seqPrefetch <;> simp

@[simp] theorem execPrefetchIssue_kept (part seq layer : Nat) (s : State) :
    (s.after (execPrefetchIssue part seq layer s)).kept = s.kept := by
  unfold execPrefetchIssue
  extract_lets mine first
  split
  · split
    · rfl
    extract_lets s1 go
    have hgo : ∀ b v, (go b v).kept = b.kept := fun b v => by
      simp only [go]
      split <;> simp
    have h1 : s1.kept = s.kept := rfl
    split
    · simp [hgo, h1]
    · simp [hgo, h1]
    · split
      · exact State.kept_of_fst ‹_› (by simp [h1])
      · rw [State.after_next, hgo]
        exact State.kept_of_fst ‹_› (by simp [h1])
  · rfl

@[simp] theorem execProtectExpire_kept (part serial tier die : Nat) (s : State) :
    (s.after (execProtectExpire part serial tier die s)).kept = s.kept := by
  fun_cases execProtectExpire <;> simp

@[simp] theorem execPinExpire_kept (part serial tier die : Nat) (s : State) :
    (s.after (execPinExpire part serial tier die s)).kept = s.kept := by
  fun_cases execPinExpire <;> simp

@[simp] theorem State.pinNear_kept (s : State) (p serial : Nat) : (s.pinNear p serial).kept = s.kept := by fun_cases State.pinNear <;> simp

@[simp] theorem execPinRenew_kept (part lease : Nat) (s : State) : (s.after (execPinRenew part lease s)).kept = s.kept := by
  unfold execPinRenew
  split <;> simp

@[simp] theorem State.needHint_kept (s : State) (p : Nat) (y : Seq) (ls : List Nat) (lo n t qg : Nat) (t0 : Bool) :
    (s.needHint p y ls lo n t qg t0).kept = s.kept := by
  unfold State.needHint
  simp

@[simp] theorem State.coldHint_kept (s : State) (y : Seq) (lo n t : Nat) : (s.coldHint y lo n t).kept = s.kept := by
  unfold State.coldHint
  simp

@[simp] theorem execHintNeed_kept (c : Nat) (s : State) : (s.after (execHintNeed c s)).kept = s.kept := by fun_cases execHintNeed <;> simp
@[simp] theorem execHintCold_kept (c : Nat) (s : State) : (s.after (execHintCold c s)).kept = s.kept := by fun_cases execHintCold <;> simp

@[simp] theorem State.cadenceHint_kept (s : State) (p n period layers next qg : Nat) :
    (s.cadenceHint p n period layers next qg).kept = s.kept := by
  rfl

@[simp] theorem execHintCadence_kept (c : Nat) (s : State) : (s.after (execHintCadence c s)).kept = s.kept := by
  unfold execHintCadence
  split <;> simp

@[simp] theorem execHintBatch_kept (c : Nat) (s : State) : (s.after (execHintBatch c s)).kept = s.kept := by
  unfold execHintBatch
  dsimp only
  (repeat' split) <;> simp

@[simp] theorem State.leaveHint_kept (s : State) (g : Cadence) (y : Seq) : (s.leaveHint g y).kept = s.kept := by rfl

@[simp] theorem execHintLeave_kept (c : Nat) (s : State) : (s.after (execHintLeave c s)).kept = s.kept := by
  fun_cases execHintLeave <;> simp

@[simp] theorem State.destage_kept (s : State) (l : Leaf) : (s.destage l).kept = s.kept := by
  refine State.kept_foldl _ _ _ fun a i => ?_
  dsimp only
  split <;> simp

@[simp] theorem execDestageWrite_kept (part serial : Nat) (s : State) : (s.after (execDestageWrite part serial s)).kept = s.kept := by
  unfold execDestageWrite
  dsimp only
  (repeat' split) <;> try simp
  all_goals exact State.kept_of_fst ‹_› (State.hookRaise_kept ..)

@[simp] theorem execDestageCommit_kept (part serial : Nat) (s : State) : (s.after (execDestageCommit part serial s)).kept = s.kept := by
  fun_cases execDestageCommit <;> simp

@[simp] theorem execGranuleSave_kept (part seq layer first : Nat) (s : State) :
    (s.after (execGranuleSave part seq layer first s)).kept = s.kept := by
  fun_cases execGranuleSave <;> simp

/-! ### What attention commands plan and place -/

@[simp] theorem State.setAttn_kept (s : State) (c : Nat) (f : Attn → Attn) : (s.setAttn c f).kept = s.kept := by rfl
@[simp] theorem State.setView_kept (s : State) (p n : Nat) (f : View → View) : (s.setView p n f).kept = s.kept := by rfl
@[simp] theorem State.fetchFor_kept (s : State) (c : Nat) : (s.fetchFor c).kept = s.kept := by fun_cases State.fetchFor <;> simp
@[simp] theorem State.wakeGroup_kept (s : State) (p g : Nat) : (s.wakeGroup p g).kept = s.kept := by rfl
@[simp] theorem State.makeRuns_kept (s : State) (x : Cmd) (a : Attn) (g : Geom) : (s.makeRuns x a g).kept = s.kept := by rfl

@[simp] theorem State.endAttn_kept (s : State) (c status r0 r1 : Nat) : (s.endAttn c status r0 r1).kept = s.kept := by
  unfold State.endAttn
  split <;> simp

@[simp] theorem State.stopAttn_kept (s : State) (c status : Nat) : (s.stopAttn c status).kept = s.kept := by unfold State.stopAttn; simp

/-! ### Attention commands and the merge -/

@[simp] theorem State.addMasses_kept (s : State) (x : Cmd) (a : Attn) (g : Geom) (finals : List (Nat × RowPart)) :
    (s.addMasses x a g finals).kept = s.kept := by
  unfold State.addMasses
  dsimp only
  (repeat' split) <;> simp

@[simp] theorem State.closeAttn_kept (s : State) (x : Cmd) (a : Attn) (g : Geom) : (s.closeAttn x a g).kept = s.kept := by
  unfold State.closeAttn
  simp

@[simp] theorem State.buildAttn_kept (s : State) (x : Cmd) (a : Attn) (g : Geom) (queries : Bytes) :
    (s.buildAttn x a g queries).kept = s.kept := by
  unfold State.buildAttn
  simp

@[simp] theorem State.goAttn_kept (s : State) (x : Cmd) (a : Attn) (g : Geom) : (s.goAttn x a g).kept = s.kept := by
  fun_cases State.goAttn <;> simp

@[simp] theorem State.beginAttn_kept (s : State) (x : Cmd) (a : Attn) : (s.beginAttn x a).kept = s.kept := by unfold State.beginAttn; simp

@[simp] theorem State.runAttn_kept (s : State) (x : Cmd) (kind : Nat) : (s.runAttn x kind).kept = s.kept := by
  unfold State.runAttn
  (repeat' split) <;> simp

@[simp] theorem execAttendDecode_kept (c : Nat) (s : State) : (s.after (execAttendDecode c s)).kept = s.kept := by
  fun_cases execAttendDecode <;> simp

@[simp] theorem execAttendChunk_kept (c : Nat) (s : State) : (s.after (execAttendChunk c s)).kept = s.kept := by
  fun_cases execAttendChunk <;> simp

@[simp] theorem execAttendSparse_kept (c : Nat) (s : State) : (s.after (execAttendSparse c s)).kept = s.kept := by
  fun_cases execAttendSparse <;> simp

@[simp] theorem execAttendFwdStats_kept (c : Nat) (s : State) : (s.after (execAttendFwdStats c s)).kept = s.kept := by
  unfold execAttendFwdStats
  (repeat' split) <;> simp

@[simp] theorem execViewExpire_kept (part view : Nat) (s : State) : (s.after (execViewExpire part view s)).kept = s.kept := by
  unfold execViewExpire
  split <;> simp

@[simp] theorem State.creditRun_kept (s : State) (r : Run) (steps tiles fma : Nat) : (s.creditRun r steps tiles fma).kept = s.kept := by rfl
@[simp] theorem State.ranUntilNow_kept (s : State) (r : Run) : (s.ranUntilNow r).kept = s.kept := by rfl

@[simp] theorem State.chargeRun_kept (s : State) (r : Run) (fromT0 : Bool) (bytes : Nat) (dec : List Nat) (fma exps : Nat) :
    (s.chargeRun r fromT0 bytes dec fma exps).kept = s.kept := by
  unfold State.chargeRun
  simp

@[simp] theorem State.forwardKey_kept (s : State) (c item : Nat) : (s.forwardKey c item).kept = s.kept := by unfold State.forwardKey; simp

@[simp] theorem State.emitPartials_kept (s : State) (g : Geom) (a : Attn) (it : Item) (r : Run) (queries : Bytes) (n : Nat) :
    (s.emitPartials g a it r queries n).kept = s.kept := by
  refine State.kept_foldl _ _ _ fun b k => ?_
  (repeat' split) <;> simp

@[simp] theorem State.requeueRest_kept (s : State) (a : Attn) (r : Run) (n : Nat) : (s.requeueRest a r n).kept = s.kept := by
  unfold State.requeueRest
  simp

@[simp] theorem State.endRunFwd_kept (s : State) (x : Cmd) (a : Attn) (g : Geom) (it : Item) (r : Run) (n : Nat) :
    (s.endRunFwd x a g it r n).kept = s.kept := by
  unfold State.endRunFwd
  dsimp only
  (repeat' split) <;> simp

@[simp] theorem execPartialArrive_kept (c item first : Nat) (s : State) : (s.after (execPartialArrive c item first s)).kept = s.kept := by
  unfold execPartialArrive
  dsimp only
  (repeat' split) <;> simp

@[simp] theorem execMergeStall_kept (die cluster : Nat) (s : State) : (s.after (execMergeStall die cluster s)).kept = s.kept := by
  unfold execMergeStall
  split <;> simp

/-! ### The coherent link and the pool -/

@[simp] theorem State.setExtent_kept (s : State) (i : Nat) (f : Extent → Extent) : (s.setExtent i f).kept = s.kept := by rfl
@[simp] theorem State.fmReject_kept (s : State) : s.fmReject.kept = s.kept := by rfl
@[simp] theorem State.cutMoves_kept (s : State) (dead : Move → Bool) : (s.cutMoves dead).kept = s.kept := by unfold State.cutMoves; simp

@[simp] theorem State.loseExtent_kept (s : State) (e : Extent) (stays : Copy → Bool) : (s.loseExtent e stays).kept = s.kept := by
  unfold State.loseExtent
  simp

@[simp] theorem State.revokeExtent_kept (s : State) (i : Nat) : (s.revokeExtent i).kept = s.kept := by
  unfold State.revokeExtent
  split <;> simp

@[simp] theorem State.releaseExtent_kept (s : State) (i : Nat) : (s.releaseExtent i).kept = s.kept := by
  unfold State.releaseExtent
  split <;> simp

@[simp] theorem State.endExtent_kept (s : State) (e : Extent) (scrubbed : Nat) : (s.endExtent e scrubbed).kept = s.kept := by
  unfold State.endExtent
  simp

@[simp] theorem State.setLease_kept (s : State) (n : Nat) (f : Lease → Lease) : (s.setLease n f).kept = s.kept := by rfl
@[simp] theorem State.sentLoad_kept (s : State) (port l : Nat) : (s.sentLoad port l).kept = s.kept := by unfold State.sentLoad; simp

@[simp] theorem State.windowReply_kept (s : State) (port tag : Nat) (data : Option Bytes) (loaded : Bool) :
    (s.windowReply port tag data loaded).kept = s.kept := by
  unfold State.windowReply
  split <;> simp

@[simp] theorem State.setBucket_kept (s : State) (p port pbr : Nat) (b : Bucket) : (s.setBucket p port pbr b).kept = s.kept := by rfl

theorem State.serveRead_kept {s : State} {r : WinRead} {s' : State} (h : s.serveRead r = some s') : s'.kept = s.kept := by
  unfold State.serveRead at h
  dsimp only at h
  split at h
  · cases h; simp
  · simp only [Option.ite_none_left_eq_some, Option.some.injEq] at h
    obtain ⟨-, -, rfl⟩ := h
    simp
    (repeat' split) <;> simp

@[simp] theorem State.serveReads_kept (s : State) : s.serveReads.kept = s.kept := by
  refine State.kept_foldl _ _ _ fun a r => ?_
  dsimp only
  split
  · rfl
  split
  · simp
  split
  · next h => simpa using State.serveRead_kept h
  · (repeat' split) <;> simp

@[simp] theorem State.endLease_kept (s : State) (n : Nat) : (s.endLease n).kept = s.kept := by unfold State.endLease; split <;> simp

@[simp] theorem State.stopLease_kept (s : State) (n : Nat) (st : LeaseSt) (drop : Bool) : (s.stopLease n st drop).kept = s.kept := by
  unfold State.stopLease
  split <;> simp

@[simp] theorem State.revokeLease_kept (s : State) (n : Nat) (drop : Bool) : (s.revokeLease n drop).kept = s.kept := by
  fun_cases State.revokeLease <;> simp

@[simp] theorem State.settleBinv_kept (s : State) : s.settleBinv.kept = s.kept := by rfl

@[simp] theorem State.refuseMap_kept (s : State) (e : Lease) (reason : Nat) : (s.refuseMap e reason).kept = s.kept := by
  unfold State.refuseMap
  simp

@[simp] theorem State.setTray_kept (s : State) (x : Tray) : (s.setTray x).kept = s.kept := by rfl

/-! ### The control journal -/

@[simp] theorem State.journalled_kept (s : State) (c : Nat) : (s.journalled c).1.kept = s.kept := by
  unfold State.journalled
  dsimp only
  (repeat' split) <;> simp

@[simp] theorem State.journalEnd_kept (s : State) (c : Nat) : (s.journalEnd c).kept = s.kept := by rfl

/-! ### Partitions -/

@[simp] theorem State.trimT0_kept (s : State) (p cl : Nat) : (s.trimT0 p cl).kept = s.kept := by unfold State.trimT0; simp
@[simp] theorem State.allotT0_kept (s : State) : s.allotT0.kept = s.kept := by unfold State.allotT0; simp
@[simp] theorem State.setKey_kept (s : State) (k : KeySlot) : (s.setKey k).kept = s.kept := by rfl
@[simp] theorem State.tdiError_kept (s : State) (which : Tdi → Bool) : (s.tdiError which).kept = s.kept := by unfold State.tdiError; simp
@[simp] theorem State.partFault_kept (s : State) (p reason : Nat) : (s.partFault p reason).kept = s.kept := by unfold State.partFault; simp

@[simp] theorem State.revokeShared_kept (s : State) (p : Nat) : (s.revokeShared p).kept = s.kept := by
  unfold State.revokeShared
  dsimp only
  refine (State.kept_foldl _ _ _ fun a k => State.breakCapo_kept ..).trans (State.kept_foldl _ _ _ fun a x => ?_)
  (repeat' split) <;> simp

@[simp] theorem State.dropGroups_kept (s : State) (p : Nat) : (s.dropGroups p).kept = s.kept := by unfold State.dropGroups; simp
@[simp] theorem State.wipeContent_kept (s : State) (p : Nat) : (s.wipeContent p).kept = s.kept := by unfold State.wipeContent; simp
@[simp] theorem State.zeroKey_kept (s : State) (n : Nat) : (s.zeroKey n).kept = s.kept := by rfl
@[simp] theorem State.wipeRest_kept (s : State) (p : Nat) : (s.wipeRest p).kept = s.kept := by unfold State.wipeRest; simp
@[simp] theorem State.switchWipe_kept (s : State) (p : Nat) : (s.switchWipe p).kept = s.kept := by unfold State.switchWipe; simp

/-! ### Device time -/

@[simp] theorem State.timeGo_kept (s : State) (st : Nat) : (s.timeGo st).kept = s.kept := by unfold State.timeGo; simp
@[simp] theorem State.setPrimary_kept (s : State) (b : Nat) : (s.setPrimary b).kept = s.kept := by unfold State.setPrimary; simp
@[simp] theorem State.nanosecond_kept (s : State) : s.nanosecond.kept = s.kept := by unfold State.nanosecond; simp
@[simp] theorem State.estimate_kept (s : State) (off : Int) : (s.estimate off).kept = s.kept := by unfold State.estimate; simp
@[simp] theorem State.heard_kept (s : State) : s.heard.kept = s.kept := by unfold State.heard; simp
@[simp] theorem State.choosePtp_kept (s : State) : s.choosePtp.kept = s.kept := by unfold State.choosePtp; split <;> simp

@[simp] theorem execPtpAnnounce_kept (x : PtpSource) (gm : Nat) (prio : List Nat) (interval : Nat) (s : State) :
    (s.after (execPtpAnnounce x gm prio interval s)).kept = s.kept := by
  unfold execPtpAnnounce
  simp

@[simp] theorem execAnnounceTimeout_kept (port : Nat) (s : State) : (s.after (execAnnounceTimeout port s)).kept = s.kept := by
  fun_cases execAnnounceTimeout <;> simp

@[simp] theorem execPtpSync_kept (x : PtpSource) (t : Nat) (delay : PathDelay) (logSync : Nat) (twoStep : Bool) (s : State) :
    (s.after (execPtpSync x t delay logSync twoStep s)).kept = s.kept := by
  unfold execPtpSync
  simp

@[simp] theorem execPtmDialogue_kept (port t : Nat) (s : State) : (s.after (execPtmDialogue port t s)).kept = s.kept := by
  unfold execPtmDialogue
  dsimp only
  (repeat' split) <;> simp

@[simp] theorem execSyncTimeout_kept (s : State) : (s.after (execSyncTimeout s)).kept = s.kept := by
  unfold execSyncTimeout
  dsimp only
  rw [State.after_next]
  refine (State.kept_foldl _ _ _ fun a i => ?_).trans (by simp)
  (repeat' split) <;> simp

@[simp] theorem State.loseTimeBase_kept (s : State) (bridge : Nat) : (s.loseTimeBase bridge).kept = s.kept := by
  unfold State.loseTimeBase
  simp

@[simp] theorem execTimeBaseLoss_kept (bridge : Nat) (s : State) : (s.after (execTimeBaseLoss bridge s)).kept = s.kept := by
  unfold execTimeBaseLoss
  simp

/-! ### Operations of delivery -/

@[simp] theorem State.setDest_kept (s : State) (p n : Nat) (f : Dest → Dest) : (s.setDest p n f).kept = s.kept := by rfl
@[simp] theorem State.setDeliv_kept (s : State) (c : Nat) (f : Deliv → Deliv) : (s.setDeliv c f).kept = s.kept := by rfl
@[simp] theorem State.settleDest_kept (s : State) (p n : Nat) : (s.settleDest p n).kept = s.kept := by unfold State.settleDest; simp

@[simp] theorem State.queuePush_kept (s : State) (d : Deliv) (off : Nat) (data : Bytes) (landing : Bool) :
    (s.queuePush d off data landing).kept = s.kept := by
  rfl

@[simp] theorem State.closeDeliv_kept (s : State) (d : Deliv) (st : Nat) : (s.closeDeliv d st).kept = s.kept := by
  unfold State.closeDeliv
  simp

@[simp] theorem State.settleDeliv_kept (s : State) (c : Nat) : (s.settleDeliv c).kept = s.kept := by fun_cases State.settleDeliv <;> simp
@[simp] theorem State.endDeliv_kept (s : State) (c st : Nat) : (s.endDeliv c st).kept = s.kept := by unfold State.endDeliv; split <;> simp
@[simp] theorem State.resend_kept (s : State) (c : Conn) : (s.resend c).kept = s.kept := by unfold State.resend; simp

@[simp] theorem State.moveConns_kept (s : State) (i : Nat) : (s.moveConns i).kept = s.kept := by
  refine State.kept_foldl _ _ _ fun a c => ?_
  have h : (if c.malroth then a.malPort else (a, none)).1.kept = a.kept := by simp
  dsimp only
  split <;> simp [State.kept_of_fst ‹_› h]

@[simp] theorem State.releaseConns_kept (s : State) (i : Nat) : (s.releaseConns i).kept = s.kept := by unfold State.releaseConns; simp
@[simp] theorem State.portGone_kept (s : State) (i : Nat) : (s.portGone i).kept = s.kept := by unfold State.portGone; simp
@[simp] theorem State.discardHeld_kept (s : State) (i : Nat) : (s.discardHeld i).kept = s.kept := by unfold State.discardHeld; simp

@[simp] theorem State.reissue_kept (s : State) (i : Nat) : (s.reissue i).kept = s.kept := by
  refine State.kept_foldl _ _ _ fun a e => ?_
  split
  · rfl
  · refine State.kept_foldl _ _ _ fun b j => ?_
    split
    · rfl
    · refine State.kept_foldl _ _ _ fun t r => ?_
      split <;> simp

@[simp] theorem State.linkDown_kept (s : State) (i : Nat) : (s.linkDown i).kept = s.kept := by unfold State.linkDown; simp
@[simp] theorem State.endHold_kept (s : State) (i : Nat) (same : Bool) : (s.endHold i same).kept = s.kept := by unfold State.endHold; simp

/-! ### Near-memory operations -/

@[simp] theorem State.setNm_kept (s : State) (j : NmJob) : (s.setNm j).kept = s.kept := by rfl

@[simp] theorem State.nmClose_kept (s : State) (x : Cmd) (status r0 r1 : Nat) : (s.nmClose x status r0 r1).kept = s.kept := by
  unfold State.nmClose
  simp

@[simp] theorem State.nmEnd_kept (s : State) (x : Cmd) (status r0 r1 : Nat) : (s.nmEnd x status r0 r1).kept = s.kept := by
  unfold State.nmEnd
  split <;> simp

theorem State.traySend_kept {s : State} {ext : Nat} {s' : State} (h : s.traySend ext = some s') : s'.kept = s.kept := by
  obtain ⟨e, -, he⟩ := Option.bind_eq_some_iff.mp h
  simp only [Option.ite_none_left_eq_some, Option.some.injEq] at he
  obtain ⟨-, rfl⟩ := he
  simp

@[simp] theorem State.nmRead_kept (s : State) (x : Cmd) (o fuel : Nat) : (s.nmRead x o fuel).kept = s.kept := by
  induction fuel generalizing s with
  | zero => rfl
  | succ fuel ih =>
    unfold State.nmRead
    (repeat' split) <;> simp [ih]
    all_goals exact fun _ => State.traySend_kept ‹_›

@[simp] theorem State.nmWrite_kept (s : State) (x : Cmd) (fuel : Nat) : (s.nmWrite x fuel).kept = s.kept := by
  induction fuel generalizing s with
  | zero => rfl
  | succ fuel ih =>
    unfold State.nmWrite
    (repeat' split) <;> simp [ih]
    exact State.traySend_kept ‹_›

@[simp] theorem State.nmGo_kept (s : State) (x : Cmd) : (s.nmGo x).kept = s.kept := by unfold State.nmGo; split <;> simp
@[simp] theorem State.nmRun_kept (s : State) (c : Nat) (o : Op) : (s.nmRun c o).kept = s.kept := by fun_cases State.nmRun <;> simp
@[simp] theorem execNmFill_kept (c : Nat) (s : State) : (s.after (execNmFill c s)).kept = s.kept := by unfold execNmFill; simp
@[simp] theorem execNmCopy_kept (c : Nat) (s : State) : (s.after (execNmCopy c s)).kept = s.kept := by unfold execNmCopy; simp
@[simp] theorem execNmCompare_kept (c : Nat) (s : State) : (s.after (execNmCompare c s)).kept = s.kept := by unfold execNmCompare; simp
@[simp] theorem execNmReduce_kept (c : Nat) (s : State) : (s.after (execNmReduce c s)).kept = s.kept := by unfold execNmReduce; simp

@[simp] theorem execTrayResponse_kept (tray ext line load : Nat) (data : Option Bytes) (s : State) :
    (s.after (execTrayResponse tray ext line load data s)).kept = s.kept := by
  unfold execTrayResponse
  dsimp only
  (repeat' split) <;> simp

/-! ### DELIVER and FETCH, ports and links -/

@[simp] theorem State.blockDone_kept (s : State) (b : Nat) (j : CodecJob) : (s.blockDone b j).kept = s.kept := by
  unfold State.blockDone
  simp

@[simp] theorem State.blockBad_kept (s : State) (b : Nat) (j : CodecJob) : (s.blockBad b j).kept = s.kept := by
  unfold State.blockBad
  dsimp only
  (repeat' split) <;> simp

@[simp] theorem execCodecLaneTake_kept (lane : LaneOf) (s : State) : (s.after (execCodecLaneTake lane s)).kept = s.kept := by
  unfold execCodecLaneTake
  dsimp only
  (repeat' split) <;> simp

@[simp] theorem execCodecLaneFail_kept (bridge lane : Nat) (s : State) : (s.after (execCodecLaneFail bridge lane s)).kept = s.kept := by
  unfold execCodecLaneFail
  simp

@[simp] theorem State.carryDeliv_kept (s : State) (x : Cmd) (d : Deliv) : (s.carryDeliv x d).kept = s.kept := by
  unfold State.carryDeliv
  simp

@[simp] theorem State.runDeliv_kept (s : State) (c : Nat) (o : Op) : (s.runDeliv c o).kept = s.kept := by
  unfold State.runDeliv
  dsimp only
  (repeat' split) <;> simp

@[simp] theorem execDeliver_kept (c : Nat) (s : State) : (s.after (execDeliver c s)).kept = s.kept := by unfold execDeliver; simp
@[simp] theorem execFetch_kept (c : Nat) (s : State) : (s.after (execFetch c s)).kept = s.kept := by unfold execFetch; simp

@[simp] theorem execDestCommit_kept (part dest : Nat) (s : State) : (s.after (execDestCommit part dest s)).kept = s.kept := by
  unfold execDestCommit
  simp

@[simp] theorem execDestDisable_kept (part dest : Nat) (s : State) : (s.after (execDestDisable part dest s)).kept = s.kept := by
  unfold execDestDisable
  simp

@[simp] theorem execShaperRefill_kept (part dest : Nat) (s : State) : (s.after (execShaperRefill part dest s)).kept = s.kept := by
  unfold execShaperRefill
  split <;> simp

@[simp] theorem State.sendPush_kept (s : State) (x : Push) : (s.sendPush x).kept = s.kept := by unfold State.sendPush; split <;> simp

@[simp] theorem execPushSend_kept (port : Nat) (s : State) : (s.after (execPushSend port s)).kept = s.kept := by
  unfold execPushSend
  dsimp only
  (repeat' split) <;> simp

@[simp] theorem execPushAck_kept (push : Nat) (ok : Bool) (s : State) : (s.after (execPushAck push ok s)).kept = s.kept := by
  unfold execPushAck
  split <;> simp

@[simp] theorem execGateCommit_kept (port : Nat) (s : State) : (s.after (execGateCommit port s)).kept = s.kept := by
  unfold execGateCommit
  simp

@[simp] theorem execGateSwitch_kept (port : Nat) (s : State) : (s.after (execGateSwitch port s)).kept = s.kept := by
  unfold execGateSwitch
  dsimp only
  split <;> simp

@[simp] theorem execGateIntervalEnd_kept (port : Nat) (s : State) : (s.after (execGateIntervalEnd port s)).kept = s.kept := by
  fun_cases execGateIntervalEnd <;> simp

@[simp] theorem execLinkDown_kept (port : Nat) (s : State) : (s.after (execLinkDown port s)).kept = s.kept := by unfold execLinkDown; simp

@[simp] theorem execLinkUp_kept (port rate width : Nat) (cxl ide : Bool) (partner : Option Nat) (partnerPort : Nat) (loss : List Nat) (s : State) :
    (s.after (execLinkUp port rate width cxl ide partner partnerPort loss s)).kept = s.kept := by
  unfold execLinkUp
  extract_lets p s1 s2 a s3
  have h2 : s2.kept = s.kept := by simp [s2, s1]
  have h3 : s3.kept = s.kept := by
    simp only [s3]
    split <;> simp [a, h2]
  split
  · rfl
  rw [State.after_next]
  split
  · refine (State.kept_foldl _ _ _ fun a j => ?_).trans h3
    split <;> simp
  · exact h3

@[simp] theorem execHoldExpire_kept (port : Nat) (s : State) : (s.after (execHoldExpire port s)).kept = s.kept := by
  unfold execHoldExpire
  simp

@[simp] theorem execLldpReceive_kept (port : Nat) (tlv : Bytes) (s : State) : (s.after (execLldpReceive port tlv s)).kept = s.kept := by
  unfold execLldpReceive
  simp

@[simp] theorem execLldpTimeout_kept (port : Nat) (s : State) : (s.after (execLldpTimeout port s)).kept = s.kept := by
  unfold execLldpTimeout
  simp

@[simp] theorem State.sampleDq_kept (s : State) (part dq : Nat) : (s.sampleDq part dq).kept = s.kept := by rfl

@[simp] theorem execDlvSample_kept (part : Nat) (_which : Sampled) (s : State) : (s.after (execDlvSample part _which s)).kept = s.kept := by
  unfold execDlvSample
  simp

@[simp] theorem execViralReceived_kept (port : Nat) (s : State) : (s.after (execViralReceived port s)).kept = s.kept := by
  unfold execViralReceived
  simp

@[simp] theorem execIdeFailure_kept (port : Nat) (s : State) : (s.after (execIdeFailure port s)).kept = s.kept := by
  unfold execIdeFailure
  simp

/-! ### Relocation and loss in flash -/

@[simp] theorem State.background_kept (s : State) (bytes : Nat) : (s.background bytes).kept = s.kept := by rfl

theorem State.relocate_kept {s : State} {u : NUnit} {s' : State} (h : s.relocate u = some s') : s'.kept = s.kept := by
  unfold State.relocate at h
  extract_lets good go s1 at h
  have hgo : ∀ {a k t}, go a k = some t → t.kept = a.kept := by
    intro a k t ht
    obtain ⟨r, hr, rfl⟩ := Option.map_eq_some_iff.mp ht
    simp [State.takeSlot_kept hr]
  have h1 : s1.kept = s.kept := by
    simp only [s1]
    split <;> simp
  split at h
  · exact (hgo h).trans h1
  · exact (hgo (Option.ite_none_left_eq_some.mp h).2).trans ((State.choose_kept s1).trans h1)

@[simp] theorem State.relocateAll_kept (s : State) (us : List NUnit) (counted re : Bool) : (s.relocateAll us counted re).kept = s.kept := by
  refine State.kept_foldl _ _ _ fun a u => ?_
  split
  · simp [State.relocate_kept ‹_›]
  · rfl

@[simp] theorem State.eraseDue_kept (s : State) : s.eraseDue.kept = s.kept := by unfold State.eraseDue; simp

@[simp] theorem State.reprogram_kept (s : State) (dead : Option (Nat × Nat × Nat) → Bool) : (s.reprogram dead).kept = s.kept := by
  refine (State.placeWaiting_kept _).trans ((State.kept_foldl _ _ _ fun a u => ?_).trans (by simp))
  exact State.kept_getD (fun t h => by simpa using State.relocate_kept h) (by simp)

@[simp] theorem State.addLost_kept (s : State) (num n : Nat) : (s.addLost num n).kept = s.kept := by rfl
@[simp] theorem State.fetchReplica_kept (s : State) (l : Leaf) : (s.fetchReplica l).kept = s.kept := by unfold State.fetchReplica; simp

@[simp] theorem State.t3Loss_kept (s : State) (p serial : Nat) : (s.t3Loss p serial).1.kept = s.kept := by
  unfold State.t3Loss
  dsimp only
  (repeat' split) <;> simp

@[simp] theorem State.t3Lost_kept (s : State) (ks : List (Nat × Nat)) (cause fault : Nat) : (s.t3Lost ks cause fault).kept = s.kept := by
  unfold State.t3Lost
  extract_lets r lost
  have hr : r.1.kept = s.kept := State.kept_fst_foldl _ _ _ fun a k => by
    split <;> exact State.kept_of_fst ‹_› (State.t3Loss_kept ..)
  simp [lost, hr]

@[simp] theorem State.loseUnits_kept (s : State) (us : List NUnit) (fault : Nat) : (s.loseUnits us fault).kept = s.kept := by
  unfold State.loseUnits
  simp

@[simp] theorem State.capCheck_kept (s : State) : s.capCheck.kept = s.kept := by unfold State.capCheck; simp
@[simp] theorem State.settleSet_kept (s : State) (b k : Nat) : (s.settleSet b k).kept = s.kept := by unfold State.settleSet; split <;> simp

@[simp] theorem State.failNand_kept (s : State) (c t num : Nat) : (s.failNand c t num).kept = s.kept := by
  unfold State.failNand
  split <;> simp

@[simp] theorem State.retireNand_kept (s : State) (d : NDie) : (s.retireNand d).kept = s.kept := by unfold State.retireNand; simp

/-! ### What a policy event decides -/

@[simp] theorem State.placeBy_kept (s : State) (e : PolEvent) (v : Nat) : (s.placeBy e v).kept = s.kept := by
  fun_cases State.placeBy <;> simp

@[simp] theorem State.admitBy_kept (s : State) (e : PolEvent) (ok : Move → Bool) : (s.admitBy e ok).kept = s.kept := by
  unfold State.admitBy
  split <;> simp

@[simp] theorem State.demoteBy_kept (s : State) (e : PolEvent) (pick : List Copy → Option State)
    (hp : ∀ cs t, pick cs = some t → t.kept = s.kept) : (s.demoteBy e pick).kept = s.kept := by
  unfold State.demoteBy
  dsimp only
  split
  · rfl
  · split
    · simpa using hp _ _ ‹_›
    · simp

@[simp] theorem State.prefetchBy_kept (s : State) (e : PolEvent) (t0 : Bool) : (s.prefetchBy e t0).kept = s.kept := by
  fun_cases State.prefetchBy <;> simp

@[simp] theorem State.recordBy_kept (s : State) (e : PolEvent) (post : PolRec → Bool) : (s.recordBy e post).kept = s.kept := by
  unfold State.recordBy
  split <;> simp

@[simp] theorem State.fallbackAct_kept (s : State) (e : PolEvent) : (s.fallbackAct e).kept = s.kept := by
  unfold State.fallbackAct
  split <;> try simp
  · exact State.demoteBy_kept _ _ _ fun _ _ h => State.firstVictim_kept h
  · split <;> simp

@[simp] theorem State.shippedAct_kept (s : State) (e : PolEvent) (v : Nat) : (s.shippedAct e v).kept = s.kept := by
  unfold State.shippedAct
  split <;> try simp
  · exact State.demoteBy_kept _ _ _ fun _ _ h => State.firstVictim_kept h
  · split <;> simp

@[simp] theorem State.fallback_kept (s : State) (e : PolEvent) : (s.fallback e).kept = s.kept := by unfold State.fallback; simp

theorem State.endResult_kept {s : State} {e : PolEvent} {placed : Bool} {ra rb : Nat} {s' : State} (h : s.endResult e placed ra rb = some s') :
    s'.kept = s.kept := by
  unfold State.endResult at h
  split at h
  · obtain ⟨-, ⟨⟩⟩ := Option.ite_none_right_eq_some.mp h
    rfl
  · split at h
    · cases h; simp
    · obtain ⟨-, ⟨⟩⟩ := Option.ite_none_right_eq_some.mp h
      simp
  · dsimp only at h
    split at h
    · cases h
      rfl
    · obtain ⟨t, ht, rfl⟩ := Option.map_eq_some_iff.mp h
      obtain ⟨c, -, hc⟩ := Option.bind_eq_some_iff.mp ht
      simpa using State.takeVictim_kept hc
  · obtain ⟨l, -, rfl⟩ := Option.map_eq_some_iff.mp h
    simp
  · split at h
    · cases h; simp
    · obtain ⟨-, ⟨⟩⟩ := Option.ite_none_right_eq_some.mp h
      simp
  · cases h
    rfl

@[simp] theorem State.setSeqr_kept (s : State) (die n : Nat) (f : Sequencer → Sequencer) : (s.setSeqr die n f).kept = s.kept := by rfl
@[simp] theorem State.trimSegs_kept (s : State) : s.trimSegs.kept = s.kept := by rfl
@[simp] theorem State.freeSeqr_kept (s : State) (die n : Nat) : (s.freeSeqr die n).kept = s.kept := by rfl

@[simp] theorem State.endByFallback_kept (s : State) (die n : Nat) : (s.endByFallback die n).kept = s.kept := by
  unfold State.endByFallback
  split <;> simp

@[simp] theorem State.moveHooks_kept (s : State) (die : Nat) : (s.moveHooks die).kept = s.kept := by
  unfold State.moveHooks
  simp

@[simp] theorem State.retireSeqrs_kept (s : State) (die : Nat) : (s.retireSeqrs die).kept = s.kept := by unfold State.retireSeqrs; simp

/-! ### ATTEND_BWD -/

@[simp] theorem State.endRunBwd_kept (s : State) (x : Cmd) (a : Attn) (g : Geom) (it : Item) (r : Run) (n : Nat) :
    (s.endRunBwd x a g it r n).kept = s.kept := by
  unfold State.endRunBwd
  extract_lets f steps s1 fromT0 t sp nb rowB rb rows load ends store fma back parts s2 s3 s4
  have h4 : s4.kept = s.kept := by simp [s4, s3, s2, s1]
  split
  · simp [h4]
  split
  · simp [h4]
  split <;> simp [h4]

@[simp] theorem State.endRunSeal_kept (s : State) (r : Run) : (s.endRunSeal r).kept = s.kept := by unfold State.endRunSeal; split <;> simp

@[simp] theorem State.chargeKilled_kept (s : State) (x : Cmd) (a : Attn) (g : Geom) (r : Run) : (s.chargeKilled x a g r).kept = s.kept := by
  fun_cases State.chargeKilled <;> simp

@[simp] theorem State.runCrc_kept (s : State) (x : Cmd) (a : Attn) (g : Geom) (r : Run) (ofBase : Bool) :
    (s.runCrc x a g r ofBase).kept = s.kept := by
  unfold State.runCrc
  dsimp only
  (repeat' split) <;> simp

@[simp] theorem execRunEnd_kept (run : Nat) (stop : RunStop) (s : State) : (s.after (execRunEnd run stop s)).kept = s.kept := by
  fun_cases execRunEnd <;> simp

@[simp] theorem State.putSet_kept (s : State) (t : GSet) : (s.putSet t).kept = s.kept := by rfl
@[simp] theorem State.releaseView_kept (s : State) (p n : Nat) : (s.releaseView p n).kept = s.kept := by rfl

@[simp] theorem State.commitBwd_kept (s : State) (x : Cmd) (a : Attn) (g : Geom) (d : List Nat) : (s.commitBwd x a g d).kept = s.kept := by
  unfold State.commitBwd
  simp

@[simp] theorem State.goBwd_kept (s : State) (x : Cmd) (a : Attn) (g : Geom) (d : List Nat) : (s.goBwd x a g d).kept = s.kept := by
  fun_cases State.goBwd <;> simp

@[simp] theorem execAttendBwdCompute_kept (c : Nat) (s : State) : (s.after (execAttendBwdCompute c s)).kept = s.kept := by
  unfold execAttendBwdCompute
  (repeat' split) <;> simp

@[simp] theorem State.freeSet_kept (s : State) (p n : Nat) : (s.freeSet p n).kept = s.kept := by rfl

@[simp] theorem execAttendBwdExport_kept (c : Nat) (s : State) : (s.after (execAttendBwdExport c s)).kept = s.kept := by
  unfold execAttendBwdExport
  (repeat' split) <;> simp

@[simp] theorem execAttendBwdDiscard_kept (c : Nat) (s : State) : (s.after (execAttendBwdDiscard c s)).kept = s.kept := by
  fun_cases execAttendBwdDiscard <;> simp

/-! ### Faults of cores, memories, links and bridge dies -/

@[simp] theorem State.degrade_kept (s : State) (b page : Nat) : (s.degrade b page).kept = s.kept := by rfl
@[simp] theorem State.faulty_kept (s : State) (b page : Nat) : (s.faulty b page).kept = s.kept := by rfl
@[simp] theorem State.poisonCmds_kept (s : State) (cs : List Nat) : (s.poisonCmds cs).1.kept = s.kept := by unfold State.poisonCmds; simp

@[simp] theorem State.flowsLost_kept (s : State) (onLink : Flow → Bool) : (s.flowsLost onLink).1.kept = s.kept := by
  unfold State.flowsLost
  simp

@[simp] theorem State.setCluster_kept (s : State) (cl : Nat) (f : Cluster → Cluster) : (s.setCluster cl f).kept = s.kept := by rfl
@[simp] theorem State.coresGone_kept (s old : State) (p : Nat) : (s.coresGone old p).kept = s.kept := by unfold State.coresGone; simp
@[simp] theorem State.retireCore_kept (s old : State) (c : Nat) : (s.retireCore old c).kept = s.kept := by unfold State.retireCore; simp
@[simp] theorem State.sealsOff_kept (s : State) (c : Nat) : (s.sealsOff c).kept = s.kept := by unfold State.sealsOff; simp

@[simp] theorem State.failCore_kept (s : State) (cl phys : Nat) : (s.failCore cl phys).kept = s.kept := by
  unfold State.failCore
  dsimp only
  (repeat' split) <;> simp

@[simp] theorem State.failMerge_kept (s : State) (cl : Nat) : (s.failMerge cl).kept = s.kept := by unfold State.failMerge; simp
@[simp] theorem State.failT0Unit_kept (s : State) (cl : Nat) : (s.failT0Unit cl).kept = s.kept := by unfold State.failT0Unit; simp

@[simp] theorem State.rollLayer_kept (s : State) (p id l : Nat) : (s.rollLayer p id l).kept = s.kept := by
  unfold State.rollLayer
  split <;> simp

@[simp] theorem State.loseGrans_kept (s : State) (dead : Granule → Bool) (kept : Granule → Nat) :
    (s.loseGrans dead kept).kept = s.kept := by
  unfold State.loseGrans
  simp

@[simp] theorem State.loseStack_kept (s : State) (n fault : Nat) : (s.loseStack n fault).1.kept = s.kept := by unfold State.loseStack; simp

@[simp] theorem State.cutQuotas_kept (n fuel : Nat) (s : State) : (State.cutQuotas n fuel s).kept = s.kept := by
  induction fuel generalizing s with
  | zero => rfl
  | succ fuel ih =>
    unfold State.cutQuotas
    dsimp only
    (repeat' split) <;> simp [ih]

@[simp] theorem State.stackCap_kept (s : State) (n : Nat) : (s.stackCap n).kept = s.kept := by unfold State.stackCap; simp

@[simp] theorem State.spareRow_kept (s : State) (n bank row addr : Nat) : (s.spareRow n bank row addr).kept = s.kept := by
  unfold State.spareRow
  simp

@[simp] theorem State.failPc_kept (s : State) (n pc fault : Nat) : (s.failPc n pc fault).kept = s.kept := by unfold State.failPc; simp

@[simp] theorem State.retireStack_kept (s : State) (n reason fault : Nat) : (s.retireStack n reason fault).kept = s.kept := by
  unfold State.retireStack
  simp

@[simp] theorem State.codecsMove_kept (s : State) (b : Nat) : (s.codecsMove b).kept = s.kept := by rfl

@[simp] theorem State.loseBridge_kept (s : State) (b : Nat) : (s.loseBridge b).kept = s.kept := by
  unfold State.loseBridge
  split
  · rfl
  extract_lets num s1 us ks rs s2 s3 s3' cxl s4 sec s5 s6 moved cxl' s6' s7 pages s8
  have h1 : s1.kept = s.kept := by simp [s1]
  have h5 : s5.kept = s.kept := by simp [s5, s4, s3', s3, s2, h1]
  have h6 : s6.kept = s.kept := (State.kept_foldl _ _ _ fun a c => by split <;> simp).trans h5
  have h8 : s8.kept = s.kept := by simp [s8, s7, s6', h6]
  simp [h8]

@[simp] theorem State.restartBridge_kept (s : State) (b : Nat) : (s.restartBridge b).kept = s.kept := by unfold State.restartBridge; simp
@[simp] theorem State.checkHeadless_kept (s : State) : s.checkHeadless.kept = s.kept := by unfold State.checkHeadless; simp
@[simp] theorem State.halfDown_kept (s : State) (h : Nat) : (s.halfDown h).kept = s.kept := by unfold State.halfDown; simp

@[simp] theorem State.repair_kept (s : State) (r : Repair) (now : State → State) (h : (now s).kept = s.kept) :
    (s.repair r now).kept = s.kept := by
  unfold State.repair
  split
  · exact h
  · rfl

@[simp] theorem State.fenceBridge_kept (s : State) (b : Nat) : (s.fenceBridge b).kept = s.kept := by unfold State.fenceBridge; simp

/-! ### The course -/

@[simp] theorem State.setArb_kept (s : State) (d : Nat) (f : Arbiter → Arbiter) : (s.setArb d f).kept = s.kept := by rfl
@[simp] theorem State.startClaim_kept (s : State) (h : Nat) : (s.startClaim h).kept = s.kept := by unfold State.startClaim; simp
@[simp] theorem State.releaseArbs_kept (s : State) (h : Nat) : (s.releaseArbs h).kept = s.kept := by rfl

@[simp] theorem execShuarnStart_kept (half : Nat) (s : State) : (s.after (execShuarnStart half s)).kept = s.kept := by
  unfold execShuarnStart
  simp

@[simp] theorem execJournalCaughtUp_kept (half : Nat) (s : State) : (s.after (execJournalCaughtUp half s)).kept = s.kept := by
  unfold execJournalCaughtUp
  simp

@[simp] theorem execStandbyPoll_kept (half : Nat) (s : State) : (s.after (execStandbyPoll half s)).kept = s.kept := by
  unfold execStandbyPoll
  simp

@[simp] theorem execClaimRound_kept (half : Nat) (s : State) : (s.after (execClaimRound half s)).kept = s.kept := by
  unfold execClaimRound
  simp

@[simp] theorem execClaimStartTimeout_kept (s : State) : (s.after (execClaimStartTimeout s)).kept = s.kept := by
  unfold execClaimStartTimeout
  dsimp only
  (repeat' split) <;> simp

@[simp] theorem execArbiterClaim_kept (die half epoch : Nat) (s : State) : (s.after (execArbiterClaim die half epoch s)).kept = s.kept := by
  unfold execArbiterClaim
  simp

@[simp] theorem State.reissueBegun_kept (s : State) (h : Nat) : (s.reissueBegun h).kept = s.kept := by unfold State.reissueBegun; simp

@[simp] theorem execClaimTimeout_kept (half : Nat) (s : State) : (s.after (execClaimTimeout half s)).kept = s.kept := by
  unfold execClaimTimeout
  simp

@[simp] theorem execClaimBackoff_kept (half : Nat) (s : State) : (s.after (execClaimBackoff half s)).kept = s.kept := by
  unfold execClaimBackoff
  simp

@[simp] theorem execLeaseRenew_kept (half : Nat) (s : State) : (s.after (execLeaseRenew half s)).kept = s.kept := by
  unfold execLeaseRenew
  simp

@[simp] theorem execArbiterExpire_kept (die : Nat) (s : State) : (s.after (execArbiterExpire die s)).kept = s.kept := by
  unfold execArbiterExpire
  simp

@[simp] theorem execLeadFence_kept (half : Nat) (s : State) : (s.after (execLeadFence half s)).kept = s.kept := by
  unfold execLeadFence
  simp

@[simp] theorem execHalfWatchdog_kept (half : Nat) (s : State) : (s.after (execHalfWatchdog half s)).kept = s.kept := by
  unfold execHalfWatchdog
  simp

@[simp] theorem execMirrorRecord_kept (num : Nat) (s : State) : (s.after (execMirrorRecord num s)).kept = s.kept := by
  unfold execMirrorRecord
  split <;> simp

@[simp] theorem execMirrorTimeout_kept (s : State) : (s.after (execMirrorTimeout s)).kept = s.kept := by
  unfold execMirrorTimeout
  split <;> simp

@[simp] theorem execHeadlessTimeout_kept (s : State) : (s.after (execHeadlessTimeout s)).kept = s.kept := by
  unfold execHeadlessTimeout
  split <;> simp

/-! ### The flash media's events -/

@[simp] theorem State.badBlock_kept (s : State) (c t n : Nat) : (s.badBlock c t n).kept = s.kept := by rfl

@[simp] theorem execNandProgramDone_kept (chan target block : Nat) (ok : Bool) (s : State) :
    (s.after (execNandProgramDone chan target block ok s)).kept = s.kept := by
  unfold execNandProgramDone
  split <;> simp

@[simp] theorem State.readOthers_kept (s : State) (chan target block : Nat) : (s.readOthers chan target block).kept = s.kept := by
  unfold State.readOthers
  split
  · rfl
  · refine State.kept_foldl _ _ _ fun a m => ?_
    (repeat' split) <;> simp

@[simp] theorem State.unreadable_kept (s : State) (chan lua : Nat) : (s.unreadable chan lua).kept = s.kept := by
  unfold State.unreadable
  simp

@[simp] theorem State.readBlock_kept (s : State) (chan target block step bits lua : Nat) :
    (s.readBlock chan target block step bits lua).kept = s.kept := by
  unfold State.readBlock
  split <;> simp

@[simp] theorem State.readFailed_kept (s : State) (chan target block step lua : Nat) :
    (s.readFailed chan target block step lua).kept = s.kept := by
  unfold State.readFailed
  simp

@[simp] theorem State.nandCrc_kept (s : State) (bridge lua : Nat) : (s.nandCrc bridge lua).kept = s.kept := by unfold State.nandCrc; simp

@[simp] theorem execNandReadDone_kept (chan target block step bits lua : Nat) (s : State) :
    (s.after (execNandReadDone chan target block step bits lua s)).kept = s.kept := by
  unfold execNandReadDone
  split <;> simp

theorem State.foldTarget_kept {s : State} {x : SuperBlk} {s' : State × SuperBlk} (h : s.foldTarget x = some s') : s'.1.kept = s.kept := by
  unfold State.foldTarget at h
  dsimp only at h
  split at h
  · cases h; rfl
  · obtain ⟨t, ht, hs⟩ := Option.bind_eq_some_iff.mp h
    obtain ⟨y, -, rfl⟩ := Option.map_eq_some_iff.mp hs
    simpa using State.openSb_kept ht

@[simp] theorem execPatrolRead_kept (chan target block step bits lua : Nat) (s : State) :
    (s.after (execPatrolRead chan target block step bits lua s)).kept = s.kept := by
  fun_cases execPatrolRead <;> simp

@[simp] theorem execNandEraseDone_kept (chan target block : Nat) (ok : Bool) (s : State) :
    (s.after (execNandEraseDone chan target block ok s)).kept = s.kept := by
  unfold execNandEraseDone
  (repeat' split) <;> simp

@[simp] theorem execNandStatusTimeout_kept (chan target : Nat) (s : State) :
    (s.after (execNandStatusTimeout chan target s)).kept = s.kept := by
  fun_cases execNandStatusTimeout <;> simp

@[simp] theorem execFold_kept (bridge set : Nat) (s : State) : (s.after (execFold bridge set s)).kept = s.kept := by
  unfold execFold
  dsimp only
  (repeat' split) <;> simp
  next h => simpa using State.foldTarget_kept h

@[simp] theorem execGcRun_kept (bridge set : Nat) (s : State) : (s.after (execGcRun bridge set s)).kept = s.kept := by
  unfold execGcRun
  dsimp only
  (repeat' split) <;> simp

@[simp] theorem State.emptySb_kept (s : State) (x : SuperBlk) : (s.emptySb x).kept = s.kept := by unfold State.emptySb; simp

@[simp] theorem execStaticLevel_kept (bridge set : Nat) (s : State) : (s.after (execStaticLevel bridge set s)).kept = s.kept := by
  fun_cases execStaticLevel <;> simp

@[simp] theorem execRefresh_kept (chan target block : Nat) (s : State) : (s.after (execRefresh chan target block s)).kept = s.kept := by
  unfold execRefresh
  dsimp only
  (repeat' split) <;> simp

@[simp] theorem execPslcTargetRecompute_kept (bridge : Nat) (s : State) : (s.after (execPslcTargetRecompute bridge s)).kept = s.kept := by
  unfold execPslcTargetRecompute
  simp

@[simp] theorem State.failChannel_kept (s : State) (chan : Nat) : (s.failChannel chan).kept = s.kept := by unfold State.failChannel; simp
@[simp] theorem State.failEngine_kept (s : State) (chan : Nat) : (s.failEngine chan).kept = s.kept := by unfold State.failEngine; simp

@[simp] theorem execChannelEngineFail_kept (chan : Nat) (s : State) : (s.after (execChannelEngineFail chan s)).kept = s.kept := by
  unfold execChannelEngineFail
  simp

@[simp] theorem execChannelFail_kept (chan : Nat) (s : State) : (s.after (execChannelFail chan s)).kept = s.kept := by
  unfold execChannelFail
  simp

@[simp] theorem execDieFail_kept (chan target reason : Nat) (s : State) : (s.after (execDieFail chan target reason s)).kept = s.kept := by
  fun_cases execDieFail <;> simp

@[simp] theorem execDieRetireStart_kept (chan target : Nat) (s : State) : (s.after (execDieRetireStart chan target s)).kept = s.kept := by
  fun_cases execDieRetireStart <;> simp

@[simp] theorem execRebuildRow_kept (bridge set : Nat) (ok : Bool) (s : State) :
    (s.after (execRebuildRow bridge set ok s)).kept = s.kept := by
  unfold execRebuildRow
  (repeat' split) <;> simp

@[simp] theorem execDrainDone_kept (chan target : Nat) (s : State) : (s.after (execDrainDone chan target s)).kept = s.kept := by
  fun_cases execDrainDone <;> simp

@[simp] theorem execClassPRestore_kept (part serial : Nat) (ok : Bool) (s : State) :
    (s.after (execClassPRestore part serial ok s)).kept = s.kept := by
  unfold execClassPRestore
  split <;> simp

/-! ### Core rails and temperatures -/

@[simp] theorem State.setRail_kept (s : State) (i : Nat) (f : Rail → Rail) : (s.setRail i f).kept = s.kept := by rfl
@[simp] theorem State.vset_kept (s : State) (die mv : Nat) : (s.vset die mv).kept = s.kept := by unfold State.vset; simp
@[simp] theorem State.railAlarm_kept (s : State) (i : Nat) : (s.railAlarm i).kept = s.kept := by unfold State.railAlarm; simp
@[simp] theorem execVcoreStep_kept (die : Nat) (s : State) : (s.after (execVcoreStep die s)).kept = s.kept := by unfold execVcoreStep; simp

@[simp] theorem execPmbusPoll_kept (rail mv ma : Nat) (answered : Bool) (s : State) :
    (s.after (execPmbusPoll rail mv ma answered s)).kept = s.kept := by
  unfold execPmbusPoll
  simp

@[simp] theorem execRailMismatch_kept (die : Nat) (s : State) : (s.after (execRailMismatch die s)).kept = s.kept := by
  fun_cases execRailMismatch <;> simp

@[simp] theorem execRailSample_kept (samples : List Nat) (s : State) : (s.after (execRailSample samples s)).kept = s.kept := by
  unfold execRailSample
  simp

@[simp] theorem execAlertN_kept (words : List Nat) (s : State) : (s.after (execAlertN words s)).kept = s.kept := by unfold execAlertN; simp

@[simp] theorem execThermalStep_kept (die : Nat) (temp : Int) (s : State) : (s.after (execThermalStep die temp s)).kept = s.kept := by
  unfold execThermalStep
  dsimp only
  (repeat' split) <;> simp

@[simp] theorem execHbmTemp_kept (stack : Nat) (temp : Int) (s : State) : (s.after (execHbmTemp stack temp s)).kept = s.kept := by
  unfold execHbmTemp
  simp

/-! ### What stops the device and what a restart leaves -/

@[simp] theorem State.stopAll_kept (s : State) : s.stopAll.kept = s.kept := by rfl
@[simp] theorem State.coverGran_kept (s : State) (g : Granule) : (s.coverGran g).kept = s.kept := by rfl
@[simp] theorem State.coverPage_kept (s : State) (x : Page) : (s.coverPage x).kept = s.kept := by unfold State.coverPage; simp
@[simp] theorem State.coverItems_kept (s : State) (limit : Nat) : (s.coverItems limit).kept = s.kept := by unfold State.coverItems; simp
@[simp] theorem State.cutFlush_kept (s : State) : s.cutFlush.kept = s.kept := by unfold State.cutFlush; simp
@[simp] theorem State.restart_kept (s : State) (cold : Bool) : (s.restart cold).kept = s.kept := by unfold State.restart; simp
@[simp] theorem State.startBoot_kept (s : State) : s.startBoot.kept = s.kept := by unfold State.startBoot; simp
@[simp] theorem State.reset1_kept (s : State) (cold : Bool) : (s.reset1 cold).kept = s.kept := by unfold State.reset1; simp

/-! ### Commands that report faults -/

@[simp] theorem State.pkgPace_kept (s : State) : s.pkgPace.kept = s.kept := by fun_cases State.pkgPace <;> simp
@[simp] theorem State.pcFault_kept (s : State) (n pc : Nat) : (s.pcFault n pc).kept = s.kept := by unfold State.pcFault; simp
@[simp] theorem State.linkFault_kept (s : State) (die b : Nat) : (s.linkFault die b).kept = s.kept := by unfold State.linkFault; simp
@[simp] theorem State.bufFault_kept (s : State) (die : Nat) : (s.bufFault die).kept = s.kept := by unfold State.bufFault; simp

@[simp] theorem execCoreFail_kept (die cluster phys : Nat) (s : State) : (s.after (execCoreFail die cluster phys s)).kept = s.kept := by
  unfold execCoreFail
  simp

@[simp] theorem execHbmCe_kept (stack bank row : Nat) (s : State) : (s.after (execHbmCe stack bank row s)).kept = s.kept := by
  unfold execHbmCe
  simp

@[simp] theorem execHbmUe_kept (stack addr bank row : Nat) (s : State) : (s.after (execHbmUe stack addr bank row s)).kept = s.kept := by
  unfold execHbmUe
  dsimp only
  (repeat' split) <;> simp

@[simp] theorem execPcFail_kept (stack pc : Nat) (s : State) : (s.after (execPcFail stack pc s)).kept = s.kept := by unfold execPcFail; simp

@[simp] theorem execD2dLinkFail_kept (die bridge : Nat) (s : State) : (s.after (execD2dLinkFail die bridge s)).kept = s.kept := by
  unfold execD2dLinkFail
  simp

@[simp] theorem execBridgeFence_kept (bridge : Nat) (s : State) : (s.after (execBridgeFence bridge s)).kept = s.kept := by
  unfold execBridgeFence
  simp

@[simp] theorem State.retireDevice_kept (s : State) : s.retireDevice.kept = s.kept := by unfold State.retireDevice; simp
@[simp] theorem State.retireGo_kept (s : State) : s.retireGo.kept = s.kept := by unfold State.retireGo; simp

@[simp] theorem execBridgeRestartDone_kept (bridge : Nat) (ok : Bool) (s : State) :
    (s.after (execBridgeRestartDone bridge ok s)).kept = s.kept := by
  unfold execBridgeRestartDone
  simp

@[simp] theorem execBridgeLost_kept (bridge : Nat) (s : State) : (s.after (execBridgeLost bridge s)).kept = s.kept := by
  fun_cases execBridgeLost <;> simp

@[simp] theorem execDeviceRetire_kept (s : State) : (s.after (execDeviceRetire s)).kept = s.kept := by unfold execDeviceRetire; simp
@[simp] theorem execDeviceRetired_kept (s : State) : (s.after (execDeviceRetired s)).kept = s.kept := by unfold execDeviceRetired; simp

@[simp] theorem execSramUncorrectableError_kept (kind die unit part : Nat) (s : State) :
    (s.after (execSramUncorrectableError kind die unit part s)).kept = s.kept := by
  fun_cases execSramUncorrectableError <;> simp

@[simp] theorem execHbmPatrol_kept (stack : Nat) (s : State) : (s.after (execHbmPatrol stack s)).kept = s.kept := by
  unfold execHbmPatrol
  simp

/-! ### Power loss and durability -/

@[simp] theorem State.rebudget_kept (s : State) : s.rebudget.kept = s.kept := by unfold State.rebudget; simp
@[simp] theorem State.setMeas_kept (s : State) (f : HoldMeas → HoldMeas) : (s.setMeas f).kept = s.kept := by rfl
@[simp] theorem State.endMeas_kept (s : State) : s.endMeas.kept = s.kept := by rfl
@[simp] theorem State.measFault_kept (s : State) : s.measFault.kept = s.kept := by unfold State.measFault; simp
@[simp] theorem execHoldupMeasure_kept (s : State) : (s.after (execHoldupMeasure s)).kept = s.kept := by unfold execHoldupMeasure; simp

@[simp] theorem execHoldupMeasStep_kept (uv : Nat) (s : State) : (s.after (execHoldupMeasStep uv s)).kept = s.kept := by
  unfold execHoldupMeasStep
  simp

@[simp] theorem execHoldupAbort_kept (s : State) : (s.after (execHoldupAbort s)).kept = s.kept := by unfold execHoldupAbort; simp

@[simp] theorem execFlushRehearsal_kept (rate eb : Nat) (ok : Bool) (s : State) :
    (s.after (execFlushRehearsal rate eb ok s)).kept = s.kept := by
  unfold execFlushRehearsal
  simp

@[simp] theorem execBudgetRecompute_kept (uv : Nat) (s : State) : (s.after (execBudgetRecompute uv s)).kept = s.kept := by
  unfold execBudgetRecompute
  simp

@[simp] theorem execPowerFail_kept (s : State) : (s.after (execPowerFail s)).kept = s.kept := by unfold execPowerFail; simp

@[simp] theorem execPowerReturnFlush_kept (s : State) : (s.after (execPowerReturnFlush s)).kept = s.kept := by
  unfold execPowerReturnFlush
  simp

@[simp] theorem execFlushDone_kept (s : State) : (s.after (execFlushDone s)).kept = s.kept := by unfold execFlushDone; simp
@[simp] theorem execThermtrip_kept (s : State) : (s.after (execThermtrip s)).kept = s.kept := by unfold execThermtrip; simp
@[simp] theorem execPwrgdFall_kept (s : State) : (s.after (execPwrgdFall s)).kept = s.kept := by unfold execPwrgdFall; simp
@[simp] theorem execPowerGood_kept (s : State) : (s.after (execPowerGood s)).kept = s.kept := by unfold execPowerGood; simp
@[simp] theorem execWarmReset_kept (s : State) : (s.after (execWarmReset s)).kept = s.kept := by unfold execWarmReset; simp
@[simp] theorem execSysRstNRelease_kept (s : State) : (s.after (execSysRstNRelease s)).kept = s.kept := by unfold execSysRstNRelease; simp
@[simp] theorem execReplicaAudit_kept (s : State) : (s.after (execReplicaAudit s)).kept = s.kept := by unfold execReplicaAudit; simp

@[simp] theorem execReplicaKeepExpire_kept (owner handle : Nat) (s : State) :
    (s.after (execReplicaKeepExpire owner handle s)).kept = s.kept := by
  unfold execReplicaKeepExpire
  split <;> simp

/-! ### Start-up steps 0–5 -/

@[simp] theorem State.setBoot_kept (s : State) (f : Boot → Boot) : (s.setBoot f).kept = s.kept := by rfl
@[simp] theorem State.hbmClose_kept (s : State) : s.hbmClose.kept = s.kept := by unfold State.hbmClose; simp
@[simp] theorem State.startJoin_kept (s : State) : s.startJoin.kept = s.kept := by rfl
@[simp] theorem State.joinDegraded_kept (s : State) : s.joinDegraded.kept = s.kept := by unfold State.joinDegraded; simp

@[simp] theorem State.degradeUnit_kept (s : State) (n unit result : Nat) : (s.degradeUnit n unit result).kept = s.kept := by
  unfold State.degradeUnit
  split <;> simp

@[simp] theorem State.stepFail_kept (s : State) (n unit result : Nat) : (s.stepFail n unit result).kept = s.kept := by
  unfold State.stepFail
  simp

@[simp] theorem execBootStepFail_kept (step unit result : Nat) (s : State) :
    (s.after (execBootStepFail step unit result s)).kept = s.kept := by
  unfold execBootStepFail
  simp

@[simp] theorem State.countTries_kept (s : State) (h stage : Nat) (tried : List Nat) : (s.countTries h stage tried).kept = s.kept := by
  unfold State.countTries
  simp

@[simp] theorem State.loadHalf_kept (s : State) (h : Nat) : (s.loadHalf h).kept = s.kept := by unfold State.loadHalf; simp
@[simp] theorem State.compareHalves_kept (s : State) : s.compareHalves.kept = s.kept := by unfold State.compareHalves; split <;> simp
@[simp] theorem State.runStages_kept (s : State) : s.runStages.kept = s.kept := by unfold State.runStages; simp

@[simp] theorem execBootFirmware_kept (half : Nat) (s : State) : (s.after (execBootFirmware half s)).kept = s.kept := by
  unfold execBootFirmware
  simp

@[simp] theorem execBootMeasure_kept (samples : List Nat) (temps : List Int) (s : State) :
    (s.after (execBootMeasure samples temps s)).kept = s.kept := by
  unfold execBootMeasure
  dsimp only
  (repeat' split) <;> simp

@[simp] theorem execBootHbm_kept (stack : Nat) (ok : Bool) (vendor height : Nat) (s : State) :
    (s.after (execBootHbm stack ok vendor height s)).kept = s.kept := by
  unfold execBootHbm
  simp

@[simp] theorem State.findDie_kept (s : State) (found : List NandFound) (d : NandFound) : (s.findDie found d).kept = s.kept := by
  unfold State.findDie
  simp

@[simp] theorem State.discover_kept (s : State) (found : List NandFound) : (s.discover found).kept = s.kept := by
  unfold State.discover
  simp

@[simp] theorem State.recoverLeaves_kept (s : State) : s.recoverLeaves.kept = s.kept := by unfold State.recoverLeaves; simp
@[simp] theorem State.recoverSeqs_kept (s : State) : s.recoverSeqs.kept = s.kept := by unfold State.recoverSeqs; simp
@[simp] theorem State.reportFlush_kept (s : State) : s.reportFlush.kept = s.kept := by unfold State.reportFlush; simp

@[simp] theorem execBootNand_kept (found : List NandFound) (s : State) : (s.after (execBootNand found s)).kept = s.kept := by
  unfold execBootNand
  simp

@[simp] theorem State.shiftTime_kept (s : State) (d : Nat) : (s.shiftTime d).kept = s.kept := by rfl

@[simp] theorem execBootLinks_kept (source t : Nat) (s : State) : (s.after (execBootLinks source t s)).kept = s.kept := by
  unfold execBootLinks
  simp

@[simp] theorem execFmBind_kept (s : State) : (s.after (execFmBind s)).kept = s.kept := by unfold execFmBind; simp
@[simp] theorem execFmWaitTimeout_kept (s : State) : (s.after (execFmWaitTimeout s)).kept = s.kept := by unfold execFmWaitTimeout; simp
@[simp] theorem execFmWaive_kept (s : State) : (s.after (execFmWaive s)).kept = s.kept := by unfold execFmWaive; simp

@[simp] theorem execPcieConfigRequest_kept (port : Nat) (s : State) : (s.after (execPcieConfigRequest port s)).kept = s.kept := by
  unfold execPcieConfigRequest
  simp

@[simp] theorem execQuinbelImageWrite_kept (die slot stage : Nat) (image : Image) (s : State) :
    (s.after (execQuinbelImageWrite die slot stage image s)).kept = s.kept := by
  unfold execQuinbelImageWrite
  simp

/-! ### Posting a completion -/

@[simp] theorem execCompletionPost_kept (c : Nat) (ok : Bool) (s : State) : (s.after (execCompletionPost c ok s)).kept = s.kept := by
  unfold execCompletionPost
  (repeat' split) <;> simp

/-! ### Commands of the coherent link and the pool -/

@[simp] theorem execExtGrant_kept (msg : Nat) (s : State) : (s.after (execExtGrant msg s)).kept = s.kept := by unfold execExtGrant; simp
@[simp] theorem State.refuseExt_kept (s : State) (msg : Nat) : (s.refuseExt msg).kept = s.kept := by rfl

@[simp] theorem execExtReleaseReq_kept (msg : Nat) (s : State) : (s.after (execExtReleaseReq msg s)).kept = s.kept := by
  fun_cases execExtReleaseReq <;> simp

@[simp] theorem execExtForceRelease_kept (msg : Nat) (s : State) : (s.after (execExtForceRelease msg s)).kept = s.kept := by
  fun_cases execExtForceRelease <;> simp

@[simp] theorem execEvacTimeout_kept (ext : Nat) (s : State) : (s.after (execEvacTimeout ext s)).kept = s.kept := by
  unfold execEvacTimeout
  split <;> simp

@[simp] theorem execExtentReleased_kept (ext : Nat) (s : State) : (s.after (execExtentReleased ext s)).kept = s.kept := by
  fun_cases execExtentReleased <;> simp

@[simp] theorem execWindowExtentAdd_kept (msg : Nat) (s : State) : (s.after (execWindowExtentAdd msg s)).kept = s.kept := by
  unfold execWindowExtentAdd
  simp

@[simp] theorem execWindowReleaseReq_kept (msg : Nat) (s : State) : (s.after (execWindowReleaseReq msg s)).kept = s.kept := by
  fun_cases execWindowReleaseReq <;> simp

@[simp] theorem execHostExtentRelease_kept (msg : Nat) (s : State) : (s.after (execHostExtentRelease msg s)).kept = s.kept := by
  fun_cases execHostExtentRelease <;> simp

@[simp] theorem execWindowForceRelease_kept (msg : Nat) (s : State) : (s.after (execWindowForceRelease msg s)).kept = s.kept := by
  fun_cases execWindowForceRelease <;> simp

@[simp] theorem execBirsp_kept (port lease line : Nat) (s : State) : (s.after (execBirsp port lease line s)).kept = s.kept := by
  unfold execBirsp
  simp

@[simp] theorem execWindowMapCommit_kept (part lease : Nat) (map : Option Bytes) (s : State) :
    (s.after (execWindowMapCommit part lease map s)).kept = s.kept := by
  unfold execWindowMapCommit
  (repeat' split) <;> simp

@[simp] theorem execMapCommitPoint_kept (part lease : Nat) (s : State) : (s.after (execMapCommitPoint part lease s)).kept = s.kept := by
  unfold execMapCommitPoint
  (repeat' split) <;> simp

@[simp] theorem execWindowRead_kept (port pbr addr tag : Nat) (s : State) :
    (s.after (execWindowRead port pbr addr tag s)).kept = s.kept := by
  fun_cases execWindowRead <;> simp

@[simp] theorem execWindowWrite_kept (port pbr addr : Nat) (s0 : State) : (s0.after (execWindowWrite port pbr addr s0)).kept = s0.kept := by
  unfold execWindowWrite
  dsimp only
  split <;> simp

@[simp] theorem execH2dSnoop_kept (port addr : Nat) (s : State) : (s.after (execH2dSnoop port addr s)).kept = s.kept := by rfl

/-! ### Start-up steps 6–9 -/

@[simp] theorem State.readMap_kept (s : State) (map : Option DomainMap) : (s.readMap map).kept = s.kept := by
  unfold State.readMap
  split <;> simp

@[simp] theorem execLocalService_kept (map : Bytes) (s : State) : (s.after (execLocalService map s)).kept = s.kept := by
  unfold execLocalService
  simp

@[simp] theorem State.sendHello_kept (s : State) (n : Nat) : (s.sendHello n).kept = s.kept := by unfold State.sendHello; simp

@[simp] theorem execJoinBackoffExpire_kept (s : State) : (s.after (execJoinBackoffExpire s)).kept = s.kept := by
  unfold execJoinBackoffExpire
  simp

@[simp] theorem execJoinGatherExpire_kept (s : State) : (s.after (execJoinGatherExpire s)).kept = s.kept := by
  unfold execJoinGatherExpire
  dsimp only
  (repeat' split) <;> simp

@[simp] theorem execJoinSettled_kept (s : State) : (s.after (execJoinSettled s)).kept = s.kept := by unfold execJoinSettled; simp

@[simp] theorem execJoinRetry_kept (s : State) : (s.after (execJoinRetry s)).kept = s.kept := by
  unfold execJoinRetry
  dsimp only
  (repeat' split) <;> simp

@[simp] theorem execRingGatherExpire_kept (s : State) : (s.after (execRingGatherExpire s)).kept = s.kept := by
  unfold execRingGatherExpire
  simp

@[simp] theorem execJoinBatchExpire_kept (s : State) : (s.after (execJoinBatchExpire s)).kept = s.kept := by
  unfold execJoinBatchExpire
  simp

@[simp] theorem execWarmUp_kept (s : State) : (s.after (execWarmUp s)).kept = s.kept := by unfold execWarmUp; simp

@[simp] theorem execShardCheckpoint_kept (s : State) : (s.after (execShardCheckpoint s)).kept = s.kept := by
  unfold execShardCheckpoint
  simp

/-! ### Partition commands -/

@[simp] theorem State.draw_kept (s : State) (n : Nat) : (s.draw n).2.kept = s.kept := by rfl
@[simp] theorem State.recore_kept (s : State) (p : Nat) (lane : Bool) : (s.recore p lane).kept = s.kept := by rfl

@[simp] theorem State.applyDesc_kept (s : State) (c p : Nat) (d : PartDesc) (raw : Bytes) (lead : Nat) :
    (s.applyDesc c p d raw lead).kept = s.kept := by
  unfold State.applyDesc
  simp

@[simp] theorem execPartSet_kept (c : Nat) (s : State) : (s.after (execPartSet c s)).kept = s.kept := by
  unfold execPartSet
  dsimp only
  (repeat' split) <;> simp <;> exact State.kept_of_fst ‹_› (State.journalled_kept ..)

@[simp] theorem execPartClear_kept (c : Nat) (s : State) : (s.after (execPartClear c s)).kept = s.kept := by
  unfold execPartClear
  dsimp only
  (repeat' split) <;> simp <;> exact State.kept_of_fst ‹_› (State.journalled_kept ..)

@[simp] theorem execPartitionDrained_kept (part : Nat) (s : State) : (s.after (execPartitionDrained part s)).kept = s.kept := by
  unfold execPartitionDrained
  simp

@[simp] theorem State.scrubNs_kept (s : State) (p start : Nat) : (s.scrubNs p start).kept = s.kept := by unfold State.scrubNs; simp

@[simp] theorem execScrubDone_kept (part : Nat) (s : State) : (s.after (execScrubDone part s)).kept = s.kept := by
  unfold execScrubDone
  simp

@[simp] theorem execGeomLoad_kept (c : Nat) (s : State) : (s.after (execGeomLoad c s)).kept = s.kept := by
  unfold execGeomLoad
  dsimp only
  (repeat' split) <;> simp <;> exact State.kept_of_fst ‹_› (State.journalled_kept ..)

@[simp] theorem execGeomSwitchApply_kept (part : Nat) (s : State) : (s.after (execGeomSwitchApply part s)).kept = s.kept := by
  unfold execGeomSwitchApply
  dsimp only
  (repeat' split) <;> simp

@[simp] theorem execShareWindowTick_kept (part : Nat) (asked : List Nat) (s : State) :
    (s.after (execShareWindowTick part asked s)).kept = s.kept := by
  unfold execShareWindowTick
  simp

@[simp] theorem State.sumEnergy_kept (s : State) (k : AcctKey) : (s.sumEnergy k).kept = s.kept := by
  unfold State.sumEnergy
  (repeat' split) <;> simp

@[simp] theorem State.sumEnergies_kept (s : State) : s.sumEnergies.kept = s.kept := by unfold State.sumEnergies; simp
@[simp] theorem State.chargeIdle_kept (s : State) : s.chargeIdle.kept = s.kept := by unfold State.chargeIdle; simp
@[simp] theorem execAcctLatch_kept (a : Agent) (s : State) : (s.after (execAcctLatch a s)).kept = s.kept := by unfold execAcctLatch; simp

@[simp] theorem execEnergyCalibrate_kept (coeffs : List Nat) (err : Nat) (s : State) :
    (s.after (execEnergyCalibrate coeffs err s)).kept = s.kept := by
  unfold execEnergyCalibrate
  simp

@[simp] theorem execPartFaultForce_kept (part : Nat) (s : State) : (s.after (execPartFaultForce part s)).kept = s.kept := by
  unfold execPartFaultForce
  simp

/-! ### The scheduler front and the dispatchers -/

@[simp] theorem State.setRun_kept (s : State) (id : Nat) (f : Run → Run) : (s.setRun id f).kept = s.kept := by rfl

@[simp] theorem State.reclaimLane_kept (s : State) (p d : Nat) : (s.reclaimLane p d).kept = s.kept := by
  unfold State.reclaimLane
  dsimp only
  (repeat' split) <;> simp

@[simp] theorem execRunRelease_kept (part : Nat) (s : State) : (s.after (execRunRelease part s)).kept = s.kept := by
  unfold execRunRelease
  split <;> simp

@[simp] theorem State.startRun_kept (s : State) (r : Run) (d c : Nat) (stolen : Bool) : (s.startRun r d c stolen).kept = s.kept := by
  unfold State.startRun
  dsimp only
  split <;> simp

@[simp] theorem execRunDispatch_kept (die part : Nat) (s : State) : (s.after (execRunDispatch die part s)).kept = s.kept := by
  unfold execRunDispatch
  dsimp only
  (repeat' split) <;> simp

@[simp] theorem State.killCmd_kept (s : State) (c : Nat) : (s.killCmd c).kept = s.kept := by unfold State.killCmd; split <;> simp

@[simp] theorem execPreemptWaitExpire_kept (run : Nat) (s : State) : (s.after (execPreemptWaitExpire run s)).kept = s.kept := by
  unfold execPreemptWaitExpire
  split <;> simp

@[simp] theorem State.predictCmd_kept (s : State) (x : Cmd) (sparse lane : Bool) : (s.predictCmd x sparse lane).2.kept = s.kept := by
  unfold State.predictCmd
  split <;> simp

@[simp] theorem State.toLane_kept (s : State) (x : Cmd) : (s.toLane x).kept = s.kept := by unfold State.toLane; simp
@[simp] theorem State.toSparse_kept (s : State) (x : Cmd) : (s.toSparse x).kept = s.kept := by rfl
@[simp] theorem State.monitor_kept (s0 : State) (c : Nat) : (s0.monitor c).kept = s0.kept := by unfold State.monitor; split <;> simp

@[simp] theorem execMonitorEval_kept (c : Nat) (s : State) : (s.after (execMonitorEval c s)).kept = s.kept := by
  fun_cases execMonitorEval <;> simp

@[simp] theorem execDeadlinePass_kept (c : Nat) (s : State) : (s.after (execDeadlinePass c s)).kept = s.kept := by
  unfold execDeadlinePass
  dsimp only
  (repeat' split) <;> simp

/-! ### Security commands -/

@[simp] theorem State.pruneKeys_kept (s : State) : s.pruneKeys.kept = s.kept := by rfl

@[simp] theorem State.installKey_kept (s : State) (slot typ gen : Nat) (key : Bytes) : (s.installKey slot typ gen key).kept = s.kept := by
  unfold State.installKey
  simp

@[simp] theorem execKeySet_kept (c : Nat) (s : State) : (s.after (execKeySet c s)).kept = s.kept := by
  unfold execKeySet
  dsimp only
  (repeat' split) <;> simp <;> exact State.kept_of_fst ‹_› (State.journalled_kept ..)

@[simp] theorem State.eraseKey_kept (s : State) (c slot : Nat) : (s.eraseKey c slot).1.kept = s.kept := by unfold State.eraseKey; simp

@[simp] theorem execKeyErase_kept (c : Nat) (s : State) : (s.after (execKeyErase c s)).kept = s.kept := by
  unfold execKeyErase
  dsimp only
  (repeat' split) <;> simp <;> exact State.kept_of_fst ‹_› (State.journalled_kept ..)

@[simp] theorem execSpdmRequest_kept (port fn : Nat) (msg : Bytes) (s : State) :
    (s.after (execSpdmRequest port fn msg s)).kept = s.kept := by
  unfold execSpdmRequest
  simp

@[simp] theorem execSpdmGetMeasurements_kept (session block : Nat) (nonce : Bytes) (s : State) :
    (s.after (execSpdmGetMeasurements session block nonce s)).kept = s.kept := by
  unfold execSpdmGetMeasurements
  split <;> simp

@[simp] theorem execSpdmSessionEnd_kept (session : Nat) (s : State) : (s.after (execSpdmSessionEnd session s)).kept = s.kept := by
  unfold execSpdmSessionEnd
  simp

@[simp] theorem State.setTdi_kept (s : State) (t : Tdi) : (s.setTdi t).kept = s.kept := by rfl

@[simp] theorem execTdispLockInterface_kept (port fn session : Nat) (s : State) :
    (s.after (execTdispLockInterface port fn session s)).kept = s.kept := by
  unfold execTdispLockInterface
  simp

@[simp] theorem execTdispStartInterface_kept (port fn : Nat) (nonce : Bytes) (s : State) :
    (s.after (execTdispStartInterface port fn nonce s)).kept = s.kept := by
  unfold execTdispStartInterface
  simp

@[simp] theorem execIdeKeyRefresh_kept (port stream keySet : Nat) (s : State) :
    (s.after (execIdeKeyRefresh port stream keySet s)).kept = s.kept := by
  unfold execIdeKeyRefresh
  simp

@[simp] theorem execFmSession_kept (port : Nat) (digest : Bytes) (open_ : Bool) (s : State) :
    (s.after (execFmSession port digest open_ s)).kept = s.kept := by
  unfold execFmSession
  simp

@[simp] theorem execFmMessageReject_kept (_port : Nat) (s : State) : (s.after (execFmMessageReject _port s)).kept = s.kept := by rfl

@[simp] theorem execSvnCommit_kept (stage : Nat) (s : State) : (s.after (execSvnCommit stage s)).kept = s.kept := by
  unfold execSvnCommit
  simp

@[simp] theorem execKeyRevoke_kept (slot : Nat) (s : State) : (s.after (execKeyRevoke slot s)).kept = s.kept := by
  unfold execKeyRevoke
  simp

@[simp] theorem execDebugToken_kept (_token : Bytes) (state : Nat) (nonce : Bytes) (valid : Bool) (s : State) :
    (s.after (execDebugToken _token state nonce valid s)).kept = s.kept := by
  unfold execDebugToken
  simp

@[simp] theorem execFunctionLevelReset_kept (port fn : Nat) (s : State) : (s.after (execFunctionLevelReset port fn s)).kept = s.kept := by
  unfold execFunctionLevelReset
  simp

/-! ### Where a register access lands -/

@[simp] theorem State.access_kept (s : State) (a : Agent) (addr : Nat) (write : Bool) : (s.access a addr write).1.kept = s.kept := by
  fun_cases State.access <;> simp

/-! ### Primitives of policy programs and the run of an event -/

@[simp] theorem State.setInst_kept (s : State) (die n : Nat) (x : PolInst) : (s.setInst die n x).kept = s.kept := by rfl
@[simp] theorem State.setSeg_kept (s : State) (g : Program) (die : Nat) (words : List Nat) : (s.setSeg g die words).kept = s.kept := by rfl
@[simp] theorem State.unitsMax_kept (s : State) (e : PolEvent) (u : Nat) : (s.unitsMax e u).kept = s.kept := by unfold State.unitsMax; simp

@[simp] theorem State.polFault_kept (s : State) (die n : Nat) (e : PolEvent) : (s.polFault die n e).kept = s.kept := by
  unfold State.polFault
  simp

/-- The state a primitive of a policy program leaves: the one it answers, and the old one while it waits. -/
def State.afterCall (s : State) : PrimAns → State
  | .ret t _ _ => t
  | .wait => s

@[simp] theorem State.afterCall_ret (s t : State) (st : Nat) (rs : List (Nat × Nat)) : s.afterCall (.ret t st rs) = t := by rfl

@[simp] theorem State.afterCall_primFail (s : State) (st : Nat) : s.afterCall (s.primFail st) = s := by rfl

@[simp] theorem State.afterCall_ite (s : State) (c : Prop) [Decidable c] (a b : PrimAns) :
    s.afterCall (if c then a else b) = if c then s.afterCall a else s.afterCall b := apply_ite ..

@[simp] theorem State.onPage_kept (s : State) (owner h : Nat) (f : Page → PrimAns) (hf : ∀ x, (s.afterCall (f x)).kept = s.kept) :
    (s.afterCall (s.onPage owner h f)).kept = s.kept := by
  unfold State.onPage
  split
  · rfl
  · rfl
  · exact hf _

@[simp] theorem State.primLookup_kept (s : State) (owner h idx : Nat) : (s.afterCall (s.primLookup owner h idx)).kept = s.kept := by
  refine State.onPage_kept _ _ _ _ fun x => ?_
  split <;> simp

@[simp] theorem State.primPin_kept (s : State) (owner h loc until_ : Nat) : (s.afterCall (s.primPin owner h loc until_)).kept = s.kept := by
  refine State.onPage_kept _ _ _ _ fun x => ?_
  split <;> simp

@[simp] theorem State.primMove_kept (s : State) (owner h dst opts src : Nat) :
    (s.afterCall (s.primMove owner h dst opts src)).kept = s.kept := by
  refine State.onPage_kept _ _ _ _ fun x => ?_
  dsimp only
  (repeat' split) <;> try simp
  all_goals exact State.kept_of_fst ‹_› (State.softAsk_kept ..)

@[simp] theorem State.primScore_kept (s : State) (owner h how mass : Nat) :
    (s.afterCall (s.primScore owner h how mass)).kept = s.kept := by
  refine State.onPage_kept _ _ _ _ fun x => ?_
  simp

@[simp] theorem State.primEvict_kept (s : State) (owner h loc opts : Nat) :
    (s.afterCall (s.primEvict owner h loc opts)).kept = s.kept := by
  refine State.onPage_kept _ _ _ _ fun x => ?_
  (repeat' split) <;> simp

@[simp] theorem State.primSeal_kept (s : State) (e : PolEvent) (h t die opts : Nat) :
    (s.afterCall (s.primSeal e h t die opts)).kept = s.kept := by
  unfold State.primSeal
  dsimp only
  (repeat' split) <;> try simp
  all_goals exact State.kept_of_fst ‹_› (State.sealBudget_kept ..)

@[simp] theorem State.primHint_kept (s : State) (owner kind group seq t lo n : Nat) :
    (s.afterCall (s.primHint owner kind group seq t lo n)).kept = s.kept := by
  unfold State.primHint
  (repeat' split) <;> simp

@[simp] theorem State.primCand_kept (s : State) (owner pool cursor : Nat) :
    (s.afterCall (s.primCand owner pool cursor)).kept = s.kept := by
  unfold State.primCand
  dsimp only
  (repeat' split) <;> simp

@[simp] theorem State.primLevel_kept (s : State) (owner pool : Nat) : (s.afterCall (s.primLevel owner pool)).kept = s.kept := by
  unfold State.primLevel
  simp

@[simp] theorem State.primStat_kept (s : State) (owner arg : Nat) : (s.afterCall (s.primStat owner arg)).kept = s.kept := by
  unfold State.primStat
  simp

@[simp] theorem State.primEmit_kept (s : State) (owner a b c : Nat) : (s.afterCall (s.primEmit owner a b c)).kept = s.kept := by
  unfold State.primEmit
  simp

@[simp] theorem State.primVset_kept (s : State) (owner rail mv : Nat) : (s.afterCall (s.primVset owner rail mv)).kept = s.kept := by
  unfold State.primVset
  simp

@[simp] theorem State.prim_kept (s : State) (e : PolEvent) (k : Nat) (x : PolInst) : (s.afterCall (s.prim e k x)).kept = s.kept := by
  unfold State.prim
  split <;> simp

theorem State.kept_of_ret {s t : State} {e : PolEvent} {k st : Nat} {x : PolInst} {rs : List (Nat × Nat)}
    (h : s.prim e k x = .ret t st rs) : t.kept = s.kept := by
  simpa [h] using s.prim_kept e k x

@[simp] theorem State.runEvent_kept (die n : Nat) (e : PolEvent) (startT fuel : Nat) (s : State) (x : PolInst) :
    (State.runEvent die n e startT fuel s x).kept = s.kept := by
  induction fuel generalizing s x with
  | zero => simp [State.runEvent]
  | succ fuel ih =>
    unfold State.runEvent
    dsimp only
    (repeat' split) <;> try simp [ih]
    · next h => simpa using State.endResult_kept h
    · next h => simpa using State.kept_of_ret h

/-! ### Commands and events of policy programs -/

@[simp] theorem State.loadRefused_kept (s : State) (c p status : Nat) : (s.loadRefused c p status).kept = s.kept := by
  unfold State.loadRefused
  simp

@[simp] theorem State.bind_kept (s : State) (g : Program) : (s.bind g).kept = s.kept := by rfl

@[simp] theorem execPolicyLoad_kept (c : Nat) (s : State) : (s.after (execPolicyLoad c s)).kept = s.kept := by
  unfold execPolicyLoad
  dsimp only
  (repeat' split) <;> simp <;> exact State.kept_of_fst ‹_› (State.journalled_kept ..)

@[simp] theorem execPolicyLoadDefault_kept (c : Nat) (s : State) : (s.after (execPolicyLoadDefault c s)).kept = s.kept := by
  unfold execPolicyLoadDefault
  dsimp only
  (repeat' split) <;> simp <;> exact State.kept_of_fst ‹_› (State.journalled_kept ..)

@[simp] theorem State.takeEvent_kept (s : State) (die n : Nat) (e : PolEvent) : (s.takeEvent die n e).kept = s.kept := by
  unfold State.takeEvent
  dsimp only
  (repeat' split) <;> simp

@[simp] theorem execPolicyEventRun_kept (die sqr : Nat) (s : State) : (s.after (execPolicyEventRun die sqr s)).kept = s.kept := by
  fun_cases execPolicyEventRun <;> simp

@[simp] theorem execEventMaxTimeout_kept (die sqr : Nat) (s : State) : (s.after (execEventMaxTimeout die sqr s)).kept = s.kept := by
  fun_cases execEventMaxTimeout <;> simp

@[simp] theorem execPolicyQueueFull_kept (die hook part : Nat) (s : State) :
    (s.after (execPolicyQueueFull die hook part s)).kept = s.kept := by
  unfold execPolicyQueueFull
  split
  · rfl
  extract_lets s1 mine
  have h1 : s1.kept = s.kept := by simp [s1]
  split
  · rw [State.after_next]
    split
    · next h => simpa [h1] using State.firstVictim_kept h
    · simp [h1]
  · exact h1

@[simp] theorem execPolicyTimer_kept (part : Nat) (s : State) : (s.after (execPolicyTimer part s)).kept = s.kept := by
  unfold execPolicyTimer
  dsimp only
  (repeat' split) <;> simp

@[simp] theorem execSequencerFail_kept (die sqr : Nat) (s : State) : (s.after (execSequencerFail die sqr s)).kept = s.kept := by
  unfold execSequencerFail
  split <;> simp

/-! ### BAR2 and BAR4 of a function -/

@[simp] theorem State.bellWrite_kept (s : State) (a : Agent) (off size v : Nat) : (s.bellWrite a off size v).kept = s.kept := by
  unfold State.bellWrite
  split <;> simp

@[simp] theorem State.msixWrite_kept (s : State) (port fn off size v : Nat) : (s.msixWrite port fn off size v).kept = s.kept := by
  unfold State.msixWrite
  dsimp only
  (repeat' split) <;> simp

@[simp] theorem State.barWrite_kept (s : State) (a : Agent) (addr size v : Nat) : (s.barWrite a addr size v).kept = s.kept := by
  unfold State.barWrite
  simp

/-! ### Register accesses -/

@[simp] theorem State.clearRc_kept (s : State) (a : Agent) (b page off size : Nat) : (s.clearRc a b page off size).kept = s.kept := by
  unfold State.clearRc
  simp

theorem State.takeLatch_kept {s : State} {n addr : Nat} {s' : Nat × State} (h : s.takeLatch n addr = some s') : s'.2.kept = s.kept := by
  obtain ⟨l, -, rfl⟩ := Option.map_eq_some_iff.mp h
  rfl

@[simp] theorem State.readReg_kept (s : State) (a : Agent) (addr size : Nat) : (s.readReg a addr size).kept = s.kept := by
  unfold State.readReg
  split
  · rfl
  split
  · simp
  split
  · rw [State.emit_kept]
    exact State.kept_of_fst ‹_› (State.access_kept ..)
  next h =>
  have h1 := State.kept_of_fst h (State.access_kept ..)
  split
  · simp [h1]
  split
  · next h2 =>
    simpa [h1] using State.takeLatch_kept (Option.ite_none_right_eq_some.mp h2).2
  · simp [h1]

@[simp] theorem State.readLatch_kept (s : State) (a : Agent) (addr size : Nat) : (s.readLatch a addr size).kept = s.kept := by
  unfold State.readLatch
  dsimp only
  (repeat' split) <;> simp

@[simp] theorem execRcRead_kept (a : Agent) (addr size : Nat) (s : State) : (s.after (execRcRead a addr size s)).kept = s.kept := by
  unfold execRcRead
  simp

@[simp] theorem execLowWordRead_kept (a : Agent) (addr : Nat) (s : State) : (s.after (execLowWordRead a addr s)).kept = s.kept := by
  unfold execLowWordRead
  simp

@[simp] theorem State.beforeWrite_kept (s : State) (f : Fld) (part sel old : Nat) : (s.beforeWrite f part sel old).kept = s.kept := by
  unfold State.beforeWrite
  simp

@[simp] theorem State.writeFld_kept (s : State) (a : Agent) (f : Fld) (page part idx h l v : Nat) :
    (s.writeFld a f page part idx h l v).kept = s.kept := by
  fun_cases State.writeFld <;> simp

theorem State.writtenQueue_kept {s : State} {a : Agent} {b off : Nat} {s' : State} (h : s.writtenQueue a b off = some s') :
    s'.kept = s.kept := by
  unfold State.writtenQueue at h
  split at h
  · split at h
    · cases h; exact State.kept_of_fst ‹_› (State.queueFor_kept ..)
    · cases h
  · cases h; rfl

@[simp] theorem State.afterWrite_kept (s : State) (b off : Nat) : (s.afterWrite b off).kept = s.kept := by unfold State.afterWrite; simp

@[simp] theorem State.writeWin_kept (s : State) (a : Agent) (b page off size value : Nat) :
    (s.writeWin a b page off size value).kept = s.kept := by
  unfold State.writeWin
  split
  · rfl
  · simp [State.writtenQueue_kept ‹_›]

@[simp] theorem execRegisterWrite_kept (a : Agent) (addr size value epoch : Nat) (s : State) :
    (s.after (execRegisterWrite a addr size value epoch s)).kept = s.kept := by
  unfold execRegisterWrite
  (repeat' split) <;> simp <;> exact State.kept_of_fst ‹_› (State.access_kept ..)

@[simp] theorem execSysSeal_kept (s : State) : (s.after (execSysSeal s)).kept = s.kept := by unfold execSysSeal; simp

@[simp] theorem execEvtForceWrite_kept (blk page bits : Nat) (s : State) : (s.after (execEvtForceWrite blk page bits s)).kept = s.kept := by
  unfold execEvtForceWrite
  simp

@[simp] theorem execEvtLatchClear_kept (blk page part bits : Nat) (s : State) :
    (s.after (execEvtLatchClear blk page part bits s)).kept = s.kept := by
  unfold execEvtLatchClear
  simp

@[simp] theorem execBlkQuiesce_kept (blk page : Nat) (on : Bool) (s : State) : (s.after (execBlkQuiesce blk page on s)).kept = s.kept := by
  unfold execBlkQuiesce
  simp

@[simp] theorem execBlkSoftReset_kept (blk page : Nat) (s : State) : (s.after (execBlkSoftReset blk page s)).kept = s.kept := by
  unfold execBlkSoftReset
  simp

@[simp] theorem execBlkPortEnable_kept (blk page : Nat) (on : Bool) (s : State) :
    (s.after (execBlkPortEnable blk page on s)).kept = s.kept := by
  unfold execBlkPortEnable
  simp

@[simp] theorem execWmSample_kept (blk page part u level : Nat) (s : State) :
    (s.after (execWmSample blk page part u level s)).kept = s.kept := by
  unfold execWmSample
  simp

@[simp] theorem execVsetWrite_kept (die mv : Nat) (s : State) : (s.after (execVsetWrite die mv s)).kept = s.kept := by
  unfold execVsetWrite
  simp

@[simp] theorem execVcoreRangeWrite_kept (lo hi : Nat) (s : State) : (s.after (execVcoreRangeWrite lo hi s)).kept = s.kept := by
  unfold execVcoreRangeWrite
  simp

@[simp] theorem execTelemetryPost_kept (path : Nat) (s : State) : (s.after (execTelemetryPost path s)).kept = s.kept := by
  unfold execTelemetryPost
  simp

@[simp] theorem execLogEnable_kept (part : Nat) (s : State) : (s.after (execLogEnable part s)).kept = s.kept := by
  unfold execLogEnable
  simp

@[simp] theorem execLogDisable_kept (part : Nat) (s : State) : (s.after (execLogDisable part s)).kept = s.kept := by
  unfold execLogDisable
  simp

@[simp] theorem execLogHeadWrite_kept (part head : Nat) (s : State) : (s.after (execLogHeadWrite part head s)).kept = s.kept := by
  unfold execLogHeadWrite
  simp

@[simp] theorem execTraceAdjust_kept (path : Nat) (s : State) : (s.after (execTraceAdjust path s)).kept = s.kept := by
  unfold execTraceAdjust
  simp

/-! ### Acceptance of ring entries and CANCEL -/

@[simp] theorem State.turnAway_kept (s : State) (x : Cmd) (st : Nat) : (s.turnAway x st).kept = s.kept := by unfold State.turnAway; simp
@[simp] theorem State.letIn_kept (s : State) (c : Nat) : (s.letIn c).kept = s.kept := by fun_cases State.letIn <;> simp

@[simp] theorem execEntryAccept_kept (q : Nat) (entry : SqRead (Option Nat)) (s : State) :
    (s.after (execEntryAccept q entry s)).kept = s.kept := by
  fun_cases execEntryAccept <;> simp

@[simp] theorem execUnknownOpcode_kept (q : Nat) (entry : SqRead Nat) (s : State) :
    (s.after (execUnknownOpcode q entry s)).kept = s.kept := by
  fun_cases execUnknownOpcode <;> simp

@[simp] theorem execHostBufferReadDone_kept (c addr : Nat) (data : Option Bytes) (s : State) :
    (s.after (execHostBufferReadDone c addr data s)).kept = s.kept := by
  unfold execHostBufferReadDone
  (repeat' split) <;> simp

@[simp] theorem execCancel_kept (c : Nat) (s : State) : (s.after (execCancel c s)).kept = s.kept := by unfold execCancel; split <;> simp

/-! ### A step with no command waiting -/

@[simp] theorem State.rebuildSummary_kept (s : State) : s.rebuildSummary.kept = s.kept := by
  unfold State.rebuildSummary
  dsimp only
  (repeat' split) <;> simp

@[simp] theorem State.tick_kept (s : State) : s.tick.kept = s.kept := by unfold State.tick; simp

end Sys2Proof.Machine
end

section
/-! PROOFS. The device stays the device it is, and a step runs the command at the front of the queue. -/

namespace Sys2Proof.Machine

/-! ### The one change of the identity: a die is retired (R682) -/

theorem bit_setBit_true {v i d : Nat} (h : bit v d = true) : bit (setBit v i true) d = true := by
  unfold bit at h
  simp [bit, setBit, h]

/-- t is the device that s is, with the same commands waiting and at most more of its attention dies retired. -/
structure State.SameDevice (s t : State) : Prop where
  pending : t.pending = s.pending
  dev : t.dev = { s.dev with retired := t.dev.retired }
  retired : ∀ d, bit s.dev.retired d = true → bit t.dev.retired d = true

theorem State.SameDevice.of_kept {s t : State} (h : t.kept = s.kept) : s.SameDevice t := by
  obtain ⟨hp, hd⟩ := Prod.mk.inj h
  exact ⟨hp, by rw [hd], fun d => by rw [hd]; exact id⟩

theorem State.SameDevice.refl (s : State) : s.SameDevice s := .of_kept rfl

theorem State.SameDevice.trans {s t u : State} (h : s.SameDevice t) (k : t.SameDevice u) : s.SameDevice u where
  pending := k.pending.trans h.pending
  dev := by rw [k.dev, h.dev]
  retired d hd := k.retired d (h.retired d hd)

theorem State.SameDevice.ite {s t u : State} {c : Prop} [Decidable c] (h : s.SameDevice t) (k : s.SameDevice u) :
    s.SameDevice (if c then t else u) := ite_both h k

theorem State.SameDevice.foldl {α : Type} {f : State → α → State} (h : ∀ (s : State) a, s.SameDevice (f s a)) (l : List α) (s : State) :
    s.SameDevice (l.foldl f s) := by
  induction l generalizing s with
  | nil => exact .refl s
  | cons a l ih => exact (h s a).trans (ih _)

theorem State.SameDevice.setRetired {s t : State} (d : Nat)
    (h : t.kept = (s.pending, { s.dev with retired := setBit s.dev.retired d true })) : s.SameDevice t := by
  obtain ⟨hp, hd⟩ := Prod.mk.inj h
  exact ⟨hp, by rw [hd], fun _ hb => by rw [hd]; exact bit_setBit_true hb⟩

theorem State.repair_sameDevice {s : State} (r : Repair) {now : State → State} (h : s.SameDevice (now s)) :
    s.SameDevice (s.repair r now) := by
  unfold State.repair
  exact .ite h (.of_kept rfl)

theorem State.retireDie_sameDevice (s : State) (d fault : Nat) : s.SameDevice (s.retireDie d fault) := by
  unfold State.retireDie
  refine .ite (.refl s) ?_
  extract_lets lost held r cores s1 s2 arbs dev course s3
  have h2 : s2.kept = s.kept := by simp [s2, s1, r]
  refine (State.SameDevice.of_kept h2).trans (.setRetired d ?_)
  rw [State.raise_kept, State.retireSeqrs_kept]
  rfl

theorem State.stackFault_sameDevice (s : State) (n : Nat) (whole : Bool) : s.SameDevice (s.stackFault n whole) := by
  unfold State.stackFault
  refine .ite (.refl s) ((State.SameDevice.of_kept (State.fault_kept ..)).trans (State.repair_sameDevice _ ?_))
  exact .ite (State.retireDie_sameDevice ..) (.of_kept (State.retireStack_kept ..))

theorem State.applyRepair_sameDevice (s : State) (r : Repair) : s.SameDevice (s.applyRepair r) := by
  unfold State.applyRepair
  split
  · exact .of_kept (by simp)
  · exact .of_kept (by simp)
  · exact .ite (State.retireDie_sameDevice ..) (.of_kept (by simp))
  · exact .of_kept (by simp)

theorem execStackFail_sameDevice (stack : Nat) (whole : Bool) (s : State) : s.SameDevice (s.after (execStackFail stack whole s)) :=
  State.stackFault_sameDevice ..

theorem execPaceWindow_sameDevice (die : Nat) (readings : List Nat) (s : State) :
    s.SameDevice (s.after (execPaceWindow die readings s)) := by
  unfold execPaceWindow
  extract_lets first s1 old rs med new inc few cur hw s2 min1 s3 s4 was s5 s6 s7 num
  have h3 : s3.kept = s.kept := by simp [s3, s2, s1]
  have h4 : s4.kept = s3.kept := State.kept_foldl _ _ _ fun a i => by simp
  have h7 : s7.kept = s.kept := by simp [s7, s6, s5, h4, h3]
  have hs : (s7.fault 7 2 255 (faultUnit die die) 0 0).SameDevice
      ((s7.fault 7 2 255 (faultUnit die die) 0 0).repair (.stack die 5 true) fun a => a.retireDie die num) :=
    State.repair_sameDevice _ (State.retireDie_sameDevice ..)
  clear_value s7
  simp only [State.after_ite, State.after_next]
  refine .ite (.refl s) (.ite (.ite ?_ (.of_kept ?_)) (.of_kept h7))
  · exact (State.SameDevice.of_kept (by simp [h7])).trans hs
  · simp [h7]

theorem execClaimGranted_sameDevice (half : Nat) (s : State) : s.SameDevice (s.after (execClaimGranted half s)) := by
  unfold execClaimGranted
  extract_lets x last s1 course s2 s3 s4 rails owed hw s5
  have h5 : s5.kept = s.kept := by simp [s5, s4, s3, s2, s1]
  simp only [State.after_ite, State.after_next]
  exact .ite (.refl s) ((State.SameDevice.of_kept h5).trans (.foldl State.applyRepair_sameDevice ..))

theorem execHandshakeTimeout_sameDevice (kind unit die : Nat) (s : State) :
    s.SameDevice (s.after (execHandshakeTimeout kind unit die s)) := by
  unfold execHandshakeTimeout
  rw [State.after_ite]
  refine .ite (.refl s) ?_
  split
  case h_6 => exact State.stackFault_sameDevice ..
  all_goals exact .of_kept (by simp)

/-! ### What every command and every step keeps -/

theorem exec_sameDevice (i : Instr) (s : State) : s.SameDevice (s.after (exec i s)) := by
  cases i
  case paceWindow => exact execPaceWindow_sameDevice ..
  case stackFail => exact execStackFail_sameDevice ..
  case claimGranted => exact execClaimGranted_sameDevice ..
  case handshakeTimeout => exact execHandshakeTimeout_sameDevice ..
  all_goals exact .of_kept (by simp [exec])

theorem step_sameDevice {s t : State} (h : step s = .next t) : State.SameDevice { s with pending := s.pending.tail } t := by
  cases hp : s.pending with
  | nil =>
    simp only [step, hp, Host.Outcome.next.injEq] at h
    exact .of_kept (by rw [← h, State.tick_kept]; simp [State.kept, hp])
  | cons i q =>
    simp only [step, hp] at h
    simpa [h] using exec_sameDevice i { s with pending := q }

/-- Settles O54: every command keeps the identity, but for the bit of an attention die that it retires, and a tick keeps it whole. -/
theorem deviceIdentityKept : Obligations.DeviceIdentityKept := by
  intro s t h
  obtain ⟨-, hdev, hretired⟩ := step_sameDevice h
  exact ⟨hdev, hretired⟩

/-- Settles O45: by the definition of a step for a queue that is not empty. -/
theorem stepRunsTheCommand : Obligations.StepRunsTheCommand := by
  intro s i q
  rfl

end Sys2Proof.Machine
end
